-- ==== Sys2Proof/Word.lean ====
section
/-! DEFINITION. The word types of the T256 and the shape of a sparse table. -/

namespace Sys2Proof

/-- A 32-bit word: a register, an `f` register, a word of X or Y, an FP32 value (R46, R94). -/
abbrev Word := BitVec 32

/-- One byte; every host-visible structure is little-endian (R20). -/
abbrev Byte := BitVec 8

/-- A sparse table: keys strictly rising, no entry equal to what an unlisted key reads as. -/
abbrev Tab (α : Type) := List (Nat × α)

end Sys2Proof
end

