-- ==== Sys2Proof/Syntax.lean ====
section
/-! DEFINITION. The commands of the T256: one constructor of `Instr` per row of the opcode table, with the row's operands.
A cell instruction carries the cell that issues it and the fields of its word; an event carries what arrives from outside
with it; a host command carries its packet.
Log: DEDUCED 84, 203, 208. DESIGN CHOICE 1, 52, 156, 181, 206. -/

namespace Sys2Proof

/-- The two ring sides; east comes first in every table. -/
inductive Side where
  | east
  | west
deriving DecidableEq, Repr

/-- A side of a ring port. -/
structure RingSide where
  ring : Nat
  side : Side
deriving DecidableEq, Repr

/-- An access field (R96). -/
structure Access where
  kind : BitVec 2
  pm : Bool
  m : BitVec 4
  p : BitVec 4
  f : BitVec 6
deriving DecidableEq, Repr

/-- Format A (R95), issued by a cell. -/
structure FmtA where
  cell : Nat
  stg : BitVec 3
  d : BitVec 6
  a : BitVec 6
  b : BitVec 6
  tm : Bool
  xa : Access
  ya : Access
deriving DecidableEq, Repr

/-- Format F (R97). -/
structure FmtF where
  cell : Nat
  stg : BitVec 3
  d : BitVec 6
  a : BitVec 6
  b : BitVec 6
  c : BitVec 6
  sel : Bool
  acc : Access
deriving DecidableEq, Repr

/-- Format I (R98). -/
structure FmtI where
  cell : Nat
  stg : BitVec 3
  d : BitVec 6
  a : BitVec 6
  imm : Word
deriving DecidableEq, Repr

/-- Format B (R99). -/
structure FmtB where
  cell : Nat
  stg : BitVec 3
  target : BitVec 14
deriving DecidableEq, Repr

/-- Format L (R100). -/
structure FmtL where
  cell : Nat
  stg : BitVec 3
  k : BitVec 3
  rot : Bool
  sc : BitVec 3
  n : BitVec 16
  last : BitVec 14
deriving DecidableEq, Repr

/-- Format M (R101). -/
structure FmtM where
  cell : Nat
  stg : BitVec 3
  f : BitVec 6
  addr : BitVec 14
deriving DecidableEq, Repr

/-- A 32-bit register or window write by a PCIe function at a BAR0 offset (R360, R361). -/
structure RegWrite where
  fn : Nat
  off : Nat
  data : Word
deriving DecidableEq, Repr

/-- A 32-bit register or window read by a PCIe function. -/
structure RegRead where
  fn : Nat
  off : Nat
deriving DecidableEq, Repr

/-- The ports a command arrives on (R357); a management frame with its source address (R387). -/
inductive Port where
  | qp (q : Nat)
  | keeper (fn : Nat)
  | spi
  | backbone (port : Nat) (mac : BitVec 48)
  | woadLine
  | workItem (channel : Nat)
deriving DecidableEq, Repr

/-- A command packet (R363): its 64 bytes. -/
structure Packet where
  bytes : List Byte
deriving DecidableEq, Repr

/-- One host command as a row of the table: its port, its header fields and its 40 parameter bytes (R363). `checkOk` is
the outcome of the check value test of R364 when one is made. -/
structure CmdReq where
  port : Port
  irq : Bool
  chk : Bool
  at_ : Bool
  tag : BitVec 16
  apply : Word
  checkOk : Bool
  param : List Byte
deriving DecidableEq, Repr

/-- A token (R132). -/
structure Token where
  cycle : Word
  poison : Bool
  hold : Bool
  words : List Word
deriving DecidableEq, Repr

/-- A token with its queue: the record of R159, a mirrored SOURCE token of R424. -/
structure TokenRec where
  queue : Nat
  tok : Token
deriving DecidableEq, Repr

/-- A journal entry (R389), its check value apart. -/
structure JEntry where
  seq : Nat
  tNs : Word
  tS : Word
  cycle : Word
  opcode : BitVec 16
  origin : BitVec 3
  at_ : Bool
  index : BitVec 6
  param : List Byte
deriving DecidableEq, Repr

/-- What a replay cycle takes from host memory: the input buffer's records for the cycle, whether they keep R159, the
entries of the journal extract, the digest listed for it, if any, and, at the start, the bytes of the snapshot. -/
structure ReplayIn where
  records : List TokenRec
  inOrder : Bool
  journal : List JEntry
  digest : Option (BitVec 64)
  snapshot : List Byte
deriving DecidableEq, Repr

/-- What every received ring frame says of itself (R242, R243, R245): its check value holds, neither its type nor its length is a
reserved value, and the ring number of its header. -/
structure RxHead where
  crcOk : Bool
  typeOk : Bool
  ringNo : Nat
deriving DecidableEq, Repr

/-- A received CYCLE_START (R246); `crcOk` is the outcome of its check, `ringNo` its ring field. -/
structure CsFrame extends RxHead where
  looped : Bool
  node : Nat
  cycle : Word
  edgeNs : Word
  edgeS : BitVec 64
  edgeSub : BitVec 16
  healed : Bool
  safeAll : Bool
  scStart : Bool
  activeId : Bool
  twinLaunch : Bool
  launchE : Nat
  launchW : Nat
  grant : Option (BitVec 16 × Nat)
  hop : BitVec 8
deriving DecidableEq, Repr

/-- One axis entry of a SAMPLE subframe (R248): the record of R169 and the auxiliary words. -/
structure AxisSample where
  w0 : Word
  w1 : Word
  w2 : Word
  w3 : Word
  auxPos : Word
  auxCode : BitVec 16
deriving DecidableEq, Repr

/-- The node block of a SAMPLE subframe (R248). -/
structure NodeBlock where
  loop : Bool
  farLock : Bool
  held : BitVec 8
  temp : BitVec 16
  tErr : Word
  cmdCycle : Word
  crcErr : BitVec 16
  lockLoss : BitVec 16
deriving DecidableEq, Repr

/-- A received SAMPLE subframe (R247, R248). -/
structure SampleSub extends RxHead where
  node : Nat
  cycle : BitVec 16
  filled : Bool
  block : NodeBlock
  axes : List AxisSample
deriving DecidableEq, Repr

/-- A subframe of a COMMAND train (R250): the node and its records. -/
structure CmdSub extends RxHead where
  node : Nat
  words : List Word
deriving DecidableEq, Repr

/-- A COMMAND train passing a PASS port (R250, R433). -/
structure CmdTrain where
  cycle : Word
  subs : List CmdSub
deriving DecidableEq, Repr

/-- A received ASYNC frame (R251); `inWindow` tells whether it lies in a window its node owns. -/
structure AsyncFrame extends RxHead where
  inWindow : Bool
  node : Nat
  cyc : BitVec 16
  sub : Nat
  body : List Byte
deriving DecidableEq, Repr

/-- A received SAFETY frame (R252): whether it lies in a window its node owns, and the telegram bytes it carries. -/
structure SafetyFrame extends RxHead where
  inWindow : Bool
  node : Nat
  body : List Byte
deriving DecidableEq, Repr

/-- A received TOPO LOOP frame (R253): the node's address, home side and hop. -/
structure LoopFrame extends RxHead where
  addr : Nat
  west : Bool
  hop : Nat
deriving DecidableEq, Repr

/-- One DISCOVER entry (R253). -/
structure DiscoverEntry where
  vendor : BitVec 16
  model : BitVec 16
  serial : Word
  portB : Bool
  axesM1 : Nat
  hop : Nat
  echoNs : Nat
deriving DecidableEq, Repr

/-- A DISCOVER frame that has returned: the entries in ring order as seen from the side it left on (R269). -/
structure DiscoverFrame extends RxHead where
  entries : List DiscoverEntry
deriving DecidableEq, Repr

/-- An ECHO (R253): its target by node address, and as its body gives it by hop and side; returned to this port after `rttSixteenths`
(1/16 ns), or addressed to it while it is in PASS. -/
structure EchoFrame extends RxHead where
  node : Nat
  hop : Nat
  west : Bool
  returned : Bool
  rttSixteenths : Nat
deriving DecidableEq, Repr

/-- A CLAIM (R254). -/
structure ClaimFrame extends RxHead where
  inWindow : Bool
  vendor : BitVec 16
  model : BitVec 16
  serial : Word
  nonce : BitVec 16
  side : Side
  hop : Nat
  any : Bool
  addr : Nat
  axesM1 : Nat
deriving DecidableEq, Repr

/-- A frame that a port receives, of any kind. -/
inductive RingFrame where
  | cs (f : CsFrame)
  | sample (f : SampleSub)
  | command (f : CmdTrain)
  | async (f : AsyncFrame)
  | safety (f : SafetyFrame)
  | loop (f : LoopFrame)
  | discover (f : DiscoverFrame)
  | echo (f : EchoFrame)
  | claim (f : ClaimFrame)
deriving DecidableEq, Repr

/-- What the detector of a receiver pair shows (R325): a loss for 1 µs, open or shorted by the common-mode voltage, or the pair above
the threshold again. -/
inductive PairShow where
  | open_ | shorted | good
deriving DecidableEq, Repr

/-- A serial receiver of the part: a side of a ring port, or a backbone port (R271, R339). -/
inductive Receiver where
  | ring (rs : RingSide)
  | backbone (port : Nat)
deriving DecidableEq, Repr

/-- An edge at a group's mask input (R302): a comparator edge of a phase that has held for `filt + 1` counts, or a Hall
state. -/
inductive MaskEdge where
  | zc (phase : Nat) (rising : Bool)
  | hall (state : BitVec 3)
deriving DecidableEq, Repr

/-- What the converter delivers at the end of a conversion: the raw code and, when the input lay outside the range, the
side (R313, R316). -/
structure AdcRaw where
  code : BitVec 14
  above : Bool
  below : Bool
deriving DecidableEq, Repr

/-- A filtered transition of the quadrature inputs (R319). -/
inductive QuadEdge where
  | up
  | down
  | both
deriving DecidableEq, Repr

/-- A serial position frame as the unit reads it (R323): its data bits as a number, its status bits, its six check bits,
and whether a start bit came within 32 periods and the guard bit was 0. -/
structure SerialFrame where
  data : Nat
  err : Bool
  warn : Bool
  check : BitVec 6
  startOk : Bool
  guardOk : Bool
deriving DecidableEq, Repr

/-- A frame received by a backbone port (R339, R340, R343): whether its FCS passes, its length with the FCS, its fields, the bytes after
its ethertype (or tag), the buffer address of the receive descriptor the port would take; the stamp's instant is now. -/
structure BbFrame where
  fcsOk : Bool
  length : Nat
  ethertype : BitVec 16
  dst : BitVec 48
  src : BitVec 48
  payload : List Byte
  buf : Nat
deriving DecidableEq, Repr

/-- A transmit descriptor at the head of a port's ring (R347). -/
structure BbTxDesc where
  length : Nat
  timed : Bool
  tsReq : Bool
  tsId : BitVec 16
  launchNs : Word
  launchS : BitVec 64
  frame : List Byte
deriving DecidableEq, Repr

/-- The level of the 32 safe input pins in one 50 µs sample (R400): which read high, which see a reversed voltage. -/
structure SafePins where
  a : BitVec 16
  b : BitVec 16
  revA : BitVec 16
  revB : BitVec 16
deriving DecidableEq, Repr

/-- What an output test finds (R409): the channel switched off and the level read back. -/
structure OutTest where
  offReadsOn : Bool
  onReadsOff : Bool
deriving DecidableEq, Repr

/-- What Woad's own hardware reports at a safety cycle besides its stored inputs (R397): a difference of decisions found,
an uncorrectable memory error, a supply out of range, a missed exchange. -/
structure WoadInputs where
  differ : Bool
  memError : Bool
  supplyBad : Bool
  missed : Bool
deriving DecidableEq, Repr

/-- A telegram copy (R410) as its bytes. -/
structure Telegram where
  bytes : List Byte
deriving DecidableEq, Repr

/-- A Woad line frame (R412, R426). -/
inductive WlFrame where
  | telegram (t : Telegram)
  | command (p : Packet)
  | reply (bytes : List Byte)
  | heartbeat (body : List Byte)
  | other (kind : BitVec 8) (body : List Byte)
deriving DecidableEq, Repr

/-- A twin-link HEARTBEAT (R425). -/
structure TwinHeartbeat where
  crcOk : Bool
  cycle : Word
  pos : Bool
  tNs : Word
  tSub : BitVec 16
  mode : BitVec 8
  inhibit : Bool
  tookOver : Bool
  resign : Bool
  ready : Bool
  head : Nat
  checkValue : BitVec 64
deriving DecidableEq, Repr

/-- A COPY frame (R424): its place in the copy and its data. -/
structure TwinCopy where
  crcOk : Bool
  cycle : Word
  offset : Nat
  size : Nat
  data : List Byte
deriving DecidableEq, Repr

/-- The source of a raising (R446): its kind and index. -/
structure FoxSrc where
  kind : Nat
  index : Nat
deriving DecidableEq, Repr

/-- A raising of a class at a level by a source (R446, R449). -/
structure Raising where
  cls : Nat
  level : Nat
  src : FoxSrc
deriving DecidableEq, Repr

/-- A DMA descriptor (R488) as its 32 bytes. -/
structure DmaDesc where
  bytes : List Byte
deriving DecidableEq, Repr

/-- How a descriptor's transfer comes out on the host side: the bytes read when the source is host memory, and whether a
host access failed (R490). -/
structure DmaEnd where
  hostData : List Byte
  hostFailed : Bool
deriving DecidableEq, Repr

/-- The level of the pins sampled at the end of reset (R501, R392): straps, VHOLD in range, supplies and PFAIL_N. -/
structure ResetPins where
  bootMode1 : Bool
  bootMode0 : Bool
  lspPos : Bool
  vholdOk : Bool
deriving DecidableEq, Repr

/-- A JTAG instruction (R529), and debug access to an island (R45, UB_16). -/
inductive JtagInstr where
  | bypass
  | idcode
  | sample
  | extest
  | debug (island : Nat)
deriving DecidableEq, Repr

/-- A queue descriptor of the image (R130 to R134, R152, R164). -/
structure QDesc where
  id : Nat
  kind : Nat
  lag : Nat
  depth : Nat
  words : Nat
  base : Nat
  eventMb : Bool
  hostPost : Bool
deriving DecidableEq, Repr

/-- A port entry (R128). -/
structure PortDesc where
  raw : Bool
  qop : Bool
  dir : Nat
  queue : Nat
deriving DecidableEq, Repr

/-- Which kernel an operation runs: one of the cell's own code, or a standard kernel of the kernel ROM (R127, R538). -/
inductive Kernel where
  | custom
  | inner (axes : List Nat)
  | outer (axis : Nat)
deriving DecidableEq, Repr

/-- An operation descriptor (R127): what its 80 bytes say; with the loop group the operation belongs to when `loop` is set, the
kernel it runs, the length in words of the state block of a kernel of its own, and where its descriptor lies in the memory of its block. -/
structure OpDesc where
  cell : Nat
  entry : Nat
  inFrame : Nat
  outFrame : Nat
  params : Nat
  state : Nat
  prio : Nat
  group : Option Nat
  ports : List PortDesc
  kernel : Kernel
  loop : Bool := group.isSome
  stateWords : Nat := 0
  at_ : Nat := 0
deriving DecidableEq, Repr

/-- A work-item channel of the image (R143), with its WORK and COMPLETION queues (R130). -/
structure WicDesc where
  id : Nat
  owner : Nat
  home : Nat
  depth : Nat
  prio : Nat
  pool : Nat
  ports : List Nat
  workQ : Option Nat := none
  complQ : Option Nat := none
deriving DecidableEq, Repr

/-- A ring schedule entry (R256). -/
structure SchedEntry where
  kind : Nat
  topo : Nat
  rate : Nat
  side : Nat
  node : Nat
  per : Nat
  phase : Nat
  dur : Nat
  offset : Int
deriving DecidableEq, Repr

/-- A slot descriptor (R259) with the node address it stands for. -/
structure SlotDesc where
  node : Nat
  spare : Bool
  granted : Bool
  present : Bool
  side : Side
  hop : Nat
  axes : Nat
  holdLimit : Nat
  firstAxis : Nat
  vendor : BitVec 16
  model : BitVec 16
  serial : Word
  csE : Nat
  csW : Nat
deriving DecidableEq, Repr

/-- What the image gives one ring for one position (R256, R259, R420, R540); `mid` marks the midpoint's schedule, and `tApply` its own
apply instant where it has one. -/
structure RingCfg where
  ring : Nat
  mid : Bool
  sched : List SchedEntry
  slots : List SlotDesc
  tS : Nat
  tApplyH : Nat
  tApply : Option Nat := none
deriving DecidableEq, Repr

/-- What the image gives one axis (R167, R168, R209, R220): its parameter words and its queues. A stepper axis has no
current-reference mailbox and an axis without targets no target mailbox: the queue is then `none`. -/
structure AxisCfg where
  axis : Nat
  params : List Word
  srcQ : Nat
  sinkQ : Nat
  modeMb : Nat
  curMb : Option Nat
  tgtMb : Option Nat
  fbQ : Nat
  refQ : Nat
deriving DecidableEq, Repr

/-- Where a safety function takes its request from (R405). -/
inductive SfReq where
  | never
  | input (k : Nat)
  | bit (k : Nat)
deriving DecidableEq, Repr

/-- The safety parameters of one axis (R403 to R406): requests of the nine functions in the order of WOAD_AXIS_STAT, and
their limits. `react` is the violation reaction: true for SS1. -/
structure SfAxis where
  axis : Nat
  req : List SfReq
  react : Bool
  restart : Bool
  cpr : Nat
  posTol : Nat
  dec : Nat
  vTol : Nat
  vStop : Nat
  tSs1 : Nat
  sosWin : Nat
  slsLim : Nat
  tSls : Nat
  slpMin : Int
  slpMax : Int
  sdiTol : Nat
  sdiPositive : Bool
  ssmLim : Nat
deriving DecidableEq, Repr

/-- The settings of one safe input (R401). -/
structure SfInput where
  antivalent : Bool
  disc : Nat
  test : Bool
  filt : Nat
deriving DecidableEq, Repr

/-- The use of one safe output (R408). -/
inductive SfOutput where
  | unused
  | sto
  | brake (axis : Nat)
  | ssm (axis : Nat)
deriving DecidableEq, Repr

/-- A telegram connection (R410, R411): its addresses and type, the axes of its slot, its watchdog. -/
structure SfConn where
  src : Nat
  dst : Nat
  kind : Nat
  axes : List Nat
  wd : Nat
deriving DecidableEq, Repr

/-- What a slot of the Woad line schedule is for (R412, R426). -/
inductive WlSlot where
  | telegram (conn : Nat)
  | reply
  | heartbeat
deriving DecidableEq, Repr

/-- A slot of the Woad line schedule (R412, R414, R426): what it is for, whether a heartbeat's is the active's, the network cycles of a safety
cycle in which it stands (those that leave `phase` when divided by `per`), its beginning in ns from edge E. -/
structure LineSlot where
  slot : WlSlot
  active : Bool
  per : Nat
  phase : Nat
  offset : Int
deriving DecidableEq, Repr

/-- The safety parameter set (R414): its bytes in image order as each channel reads them, and what they say. -/
structure SafetySet where
  bytesA : List Byte
  bytesB : List Byte
  scDiv : Nat
  axes : List SfAxis
  inputs : List SfInput
  outputs : List SfOutput
  conns : List SfConn
  line : List LineSlot
deriving DecidableEq, Repr

/-- The timing section (R540), in nanoseconds. -/
structure Timing where
  tCut : Nat
  tCs : Nat
  tApply : Nat
  tEnd : Nat
  tWatch : Nat
  tCmd : Nat
deriving DecidableEq, Repr

/-- What an image gives the arbiters (R32 to R35): the 16 slots of a block's wheel, each reserved to a cell of the block or open; the 64
slots of a region's wheel, each reserved to the LOOP traffic of a port or open, and the weights of its five ports; the 256 slots of the
chip's TDMA frame, each a port's or none's. -/
structure Wheels where
  blocks : List (Nat × List (Option Nat)) := []
  regions : List (Nat × List (Option Nat)) := []
  weights : List (Nat × List Nat) := []
  chip : List (Option Nat) := []
deriving DecidableEq, Repr

/-- A configuration image (R503, R504) by its sections, with the extended queues of the feedback interfaces (R322). -/
structure Image where
  check : BitVec 64
  f : Nat
  timing : Timing
  mem : List (Nat × List Byte)
  queues : List QDesc
  ops : List OpDesc
  wics : List WicDesc
  rings : List RingCfg
  regs : List (Nat × Word)
  safety : Option SafetySet
  hwr : List (Nat × Nat × Nat × Nat)
  axes : List AxisCfg
  fbExt : List (Nat × Nat)
  /-- The target frequency of an island in MHz (R26). -/
  freqs : List (Nat × Nat) := []
  wheels : Wheels := {}
deriving DecidableEq, Repr

/-- The places of the token pool that an image takes in a block, or in all (R134): the depths of the queues that hold tokens, and the
submission slots of the channels homed there. -/
def Image.pool (i : Image) (qs : QDesc → Bool) (ws : WicDesc → Bool) : Nat :=
  ((i.queues.filter (fun d => decide (d.kind ≤ 3) && qs d)).map QDesc.depth).foldl (· + ·) 0
    + ((i.wics.filter ws).map WicDesc.depth).foldl (· + ·) 0
def Image.tokens (i : Image) : Nat := i.pool (fun _ => true) (fun _ => true)

/-- An image file as it is presented for loading (R503): whether it could be read, its bytes, and what those of its sections say
whose layout R504 leaves open; header, table, timing, memory and register sections are read from the bytes (log entry 203). -/
structure ImageFile where
  readOk : Bool
  bytes : List Byte
  image : Image
deriving DecidableEq, Repr

/-- The commands of the block: one constructor per row of the opcode table. -/
inductive Instr where
  /-- R111. Cell instruction with no compute operation; both accesses take place. -/
  | nop (i : FmtA)
  /-- R111. Waits for trig work to drain, performs its accesses and ends the operation, handing outputs to Madder. -/
  | endOp (i : FmtA)
  /-- R111. Unconditional branch to target, costing one squashed shadow instruction. -/
  | br (i : FmtB)
  /-- R111. Branch when cc.z = 1. -/
  | breq (i : FmtB)
  /-- R111. Branch when cc.z = 0. -/
  | brne (i : FmtB)
  /-- R111. Branch when cc.n = 1. -/
  | brlt (i : FmtB)
  /-- R111. Branch when cc.n = 0 and cc.u = 0. -/
  | brge (i : FmtB)
  /-- R111. Branch when cc.u = 1. -/
  | brun (i : FmtB)
  /-- R111. Branch when cc.u = 0. -/
  | bror (i : FmtB)
  /-- R111. Branch when z, n and u are all 0. -/
  | brgt (i : FmtB)
  /-- R111. Branch when z = 1 or n = 1. -/
  | brle (i : FmtB)
  /-- R111. Branch when cc.t = 1. -/
  | brts (i : FmtB)
  /-- R111. Branch when cc.t = 0. -/
  | brtc (i : FmtB)
  /-- R62. Loads a counter with an immediate count and pushes a hardware loop, optionally rotating. -/
  | loop (i : FmtL)
  /-- R111. As LOOP with the count taken from a pointer register. -/
  | loopp (i : FmtL)
  /-- R111. Sets the rotating register base from the immediate. -/
  | setrrb (i : FmtI)
  /-- R111. Stalls until no trig work is in flight or waiting, then clears cc.t. -/
  | tsync (i : FmtA)
  /-- R112. Moves an immediate into an f register as raw bits. -/
  | movfi (i : FmtI)
  /-- R112. Moves a 16-bit immediate into a pointer register. -/
  | movpi (i : FmtI)
  /-- R112. Moves an immediate into a modifier register. -/
  | movmi (i : FmtI)
  /-- R112. Moves the low 16 bits of an f register into a pointer. -/
  | movpf (i : FmtA)
  /-- R112. Moves a pointer, zero-extended, into an f register. -/
  | movfp (i : FmtA)
  /-- R112. Moves an f register into a modifier. -/
  | movmf (i : FmtA)
  /-- R112. Moves a modifier into an f register. -/
  | movfm (i : FmtA)
  /-- R112. Moves a loop counter, zero-extended, into an f register. -/
  | movfc (i : FmtA)
  /-- R112. Moves the cc flags into the low bits of an f register. -/
  | movfcc (i : FmtA)
  /-- R112. Moves rrb into an f register. -/
  | movrrb (i : FmtA)
  /-- R113. FP32 addition. -/
  | add (i : FmtA)
  /-- R113. FP32 subtraction. -/
  | sub (i : FmtA)
  /-- R113. FP32 multiplication. -/
  | mul (i : FmtA)
  /-- R113. Fused multiply-accumulate into the destination. -/
  | fmac (i : FmtA)
  /-- R113. Fused negated multiply-accumulate into the destination. -/
  | fmsc (i : FmtA)
  /-- R113. FP32 minimum. -/
  | minOp (i : FmtA)
  /-- R113. FP32 maximum. -/
  | maxOp (i : FmtA)
  /-- R113. Clears the sign bit. -/
  | absOp (i : FmtA)
  /-- R113. Inverts the sign bit. -/
  | neg (i : FmtA)
  /-- R113. Raw register copy. -/
  | mov (i : FmtA)
  /-- R113. Saturates a to plus or minus b. -/
  | sat (i : FmtA)
  /-- R113. Negated product, rounded once. -/
  | muln (i : FmtA)
  /-- R113. FP32 to saturated signed integer. -/
  | cvtfi (i : FmtA)
  /-- R113. Signed integer to FP32. -/
  | cvtif (i : FmtA)
  /-- R114. Fused multiply-add of three sources. -/
  | fma (i : FmtF)
  /-- R114. Fused multiply-subtract. -/
  | fms (i : FmtF)
  /-- R114. Fused negated multiply-add. -/
  | fnma (i : FmtF)
  /-- R114. Fused negated multiply-subtract. -/
  | fnms (i : FmtF)
  /-- R114. Selects a or b by cc.z, raw. -/
  | selz (i : FmtA)
  /-- R114. Selects a or b by cc.n, raw. -/
  | seln (i : FmtA)
  /-- R114. FP32 compare setting z, n and u. -/
  | cmp (i : FmtA)
  /-- R114. FP32 compare against +0. -/
  | cmpz (i : FmtA)
  /-- R114. Signed integer compare. -/
  | icmp (i : FmtA)
  /-- R114. Unsigned compare of two pointers. -/
  | pcmp (i : FmtA)
  /-- R115. Integer addition modulo 2^32. -/
  | iadd (i : FmtA)
  /-- R115. Integer subtraction modulo 2^32. -/
  | isub (i : FmtA)
  /-- R115. Low 32 bits of the signed product. -/
  | imul (i : FmtA)
  /-- R115. Bitwise AND. -/
  | andOp (i : FmtA)
  /-- R115. Bitwise OR. -/
  | orOp (i : FmtA)
  /-- R115. Bitwise XOR. -/
  | xorOp (i : FmtA)
  /-- R115. Shift left by b[4:0]. -/
  | shl (i : FmtA)
  /-- R115. Logical shift right. -/
  | shr (i : FmtA)
  /-- R115. Arithmetic shift right. -/
  | sar (i : FmtA)
  /-- R115. Signed minimum. -/
  | imin (i : FmtA)
  /-- R115. Signed maximum. -/
  | imax (i : FmtA)
  /-- R115. Signed clamp to 0 to b. -/
  | isatu (i : FmtA)
  /-- R115. Bitwise inversion. -/
  | notOp (i : FmtA)
  /-- R116. Two-phase Clarke transform. -/
  | clarke (i : FmtA)
  /-- R116. Three-phase Clarke transform. -/
  | clarke3 (i : FmtA)
  /-- R116. Park transform to d and q. -/
  | park (i : FmtA)
  /-- R116. Inverse Park transform. -/
  | ipark (i : FmtA)
  /-- R116. Space-vector modulation to three on-times with min-max injection. -/
  | svm3 (i : FmtF)
  /-- R117. Multiply-accumulate and shift of the delay-line register. -/
  | tap (i : FmtA)
  /-- R117. Multiply-accumulate without shift. -/
  | tapn (i : FmtA)
  /-- R117. Product starting an accumulation. -/
  | tap0 (i : FmtA)
  /-- R116. Limits a voltage vector, keeping d and shortening q. -/
  | limv (i : FmtA)
  /-- R116. Wraps an angle into (-pi, pi]. -/
  | angw (i : FmtA)
  /-- R116. Adds two angles and wraps the sum. -/
  | angadd (i : FmtA)
  /-- R118. Starts a correctly rounded sine in the trig unit to a register. -/
  | sin (i : FmtA)
  /-- R118. Starts a cosine to a register. -/
  | cos (i : FmtA)
  /-- R118. Starts sine and cosine to a register pair. -/
  | sincos (i : FmtA)
  /-- R118. Starts atan2 to a register. -/
  | atan2 (i : FmtA)
  /-- R118. Starts a square root to a register. -/
  | sqrt (i : FmtA)
  /-- R118. Starts a reciprocal square root to a register. -/
  | rsqrt (i : FmtA)
  /-- R118. Starts a reciprocal to a register. -/
  | recip (i : FmtA)
  /-- R118. Starts a base-2 exponential to a register. -/
  | exp2 (i : FmtA)
  /-- R118. Starts a base-2 logarithm to a register. -/
  | log2 (i : FmtA)
  /-- R118. Sine with the result written to X or Y memory. -/
  | sinm (i : FmtA)
  /-- R118. Cosine to memory. -/
  | cosm (i : FmtA)
  /-- R118. Sine and cosine to a memory word pair. -/
  | sincosm (i : FmtA)
  /-- R118. atan2 to memory. -/
  | atan2m (i : FmtA)
  /-- R118. Square root to memory. -/
  | sqrtm (i : FmtA)
  /-- R118. Reciprocal square root to memory. -/
  | rsqrtm (i : FmtA)
  /-- R118. Reciprocal to memory. -/
  | recipm (i : FmtA)
  /-- R118. Base-2 exponential to memory. -/
  | exp2m (i : FmtA)
  /-- R118. Base-2 logarithm to memory. -/
  | log2m (i : FmtA)
  /-- R72. A trig operation completes and writes its result to its register or through the write-back buffer to memory, clearing pending. -/
  | trigWriteback (cell : Nat)
  /-- R119. Reads the next word of an input port. -/
  | qget (i : FmtA)
  /-- R119. Writes an FP32 word to an output port through the guard. -/
  | qput (i : FmtA)
  /-- R119. Writes a raw word to an output port. -/
  | qputr (i : FmtA)
  /-- R119. Marks the present output token as a hold. -/
  | qhold (i : FmtA)
  /-- R119. Sets cc.z when the present input token is a hold. -/
  | qish (i : FmtA)
  /-- R119. Reads the cycle number of the operation's tokens. -/
  | qcyc (i : FmtA)
  /-- R84. Feeds 8 bits to check-value channel CH_0. -/
  | crc8_0 (i : FmtA)
  /-- R84. Feeds 8 bits to channel CH_1. -/
  | crc8_1 (i : FmtA)
  /-- R84. Feeds 32 bits, LSB first, to CH_0. -/
  | crc32_0 (i : FmtA)
  /-- R84. Feeds 32 bits to CH_1. -/
  | crc32_1 (i : FmtA)
  /-- R119. Reads CH_0's running value into a register pair. -/
  | crcrd_0 (i : FmtA)
  /-- R119. Reads CH_1's running value into a register pair. -/
  | crcrd_1 (i : FmtA)
  /-- R120. Rounds to an integral value. -/
  | rnd (i : FmtA)
  /-- R120. Fractional part relative to RND. -/
  | frac (i : FmtA)
  /-- R120. Sign as +1, -1 or +0. -/
  | sign (i : FmtA)
  /-- R120. Magnitude of a with the sign of b. -/
  | cpsgn (i : FmtA)
  /-- R120. Multiplies by a clamped power of two. -/
  | scale (i : FmtA)
  /-- R120. Dead-zone function. -/
  | deadz (i : FmtA)
  /-- R120. First-order low-pass update. -/
  | lpf (i : FmtA)
  /-- R120. Two-element dot product. -/
  | dot2 (i : FmtA)
  /-- R120. Two-dimensional cross product. -/
  | cross2 (i : FmtA)
  /-- R120. Squared magnitude of a pair. -/
  | mag2 (i : FmtA)
  /-- R121. Loads an f register from an absolute X address. -/
  | ldx (i : FmtM)
  /-- R121. Loads from an absolute Y address. -/
  | ldy (i : FmtM)
  /-- R121. Stores to an absolute X address. -/
  | stx (i : FmtM)
  /-- R121. Stores to an absolute Y address. -/
  | sty (i : FmtM)
  /-- R121. Paired load from X. -/
  | ldxp (i : FmtM)
  /-- R121. Paired load from Y. -/
  | ldyp (i : FmtM)
  /-- R121. Paired store to X. -/
  | stxp (i : FmtM)
  /-- R121. Paired store to Y. -/
  | styp (i : FmtM)
  /-- R121. Pointer to pointer move. -/
  | movpp (i : FmtA)
  /-- R121. Modifier to modifier move. -/
  | movmm (i : FmtA)
  /-- R121. Post-modifies a pointer by a modifier without access. -/
  | addpm (i : FmtA)
  /-- R121. Adds a 16-bit immediate to a pointer. -/
  | addpi (i : FmtI)
  /-- R121. Moves a loop counter into a pointer. -/
  | movpc (i : FmtA)
  /-- R122. Population count. -/
  | popc (i : FmtA)
  /-- R122. Count of leading zeros. -/
  | clz (i : FmtA)
  /-- R122. Bit-field extract. -/
  | bext (i : FmtI)
  /-- R122. Bit-field insert. -/
  | bins (i : FmtI)
  /-- R122. AND with immediate. -/
  | andi (i : FmtI)
  /-- R122. OR with immediate. -/
  | ori (i : FmtI)
  /-- R122. XOR with immediate. -/
  | xori (i : FmtI)
  /-- R122. Integer add of immediate. -/
  | iaddi (i : FmtI)
  /-- R122. Signed compare with immediate. -/
  | icmpi (i : FmtI)
  /-- R122. Shift left by immediate. -/
  | shli (i : FmtI)
  /-- R122. Logical shift right by immediate. -/
  | shri (i : FmtI)
  /-- R122. Arithmetic shift right by immediate. -/
  | sari (i : FmtI)
  /-- R123. FP32 add of immediate. -/
  | addfi (i : FmtI)
  /-- R123. FP32 multiply by immediate. -/
  | mulfi (i : FmtI)
  /-- R123. Fused multiply-accumulate with immediate. -/
  | fmacfi (i : FmtI)
  /-- R123. Minimum with immediate. -/
  | minfi (i : FmtI)
  /-- R123. Maximum with immediate. -/
  | maxfi (i : FmtI)
  /-- R123. Saturation to plus or minus immediate. -/
  | satfi (i : FmtI)
  /-- R123. FP32 compare with immediate. -/
  | cmpfi (i : FmtI)
  /-- R124. Wrap-aware signed count difference converted to FP32. -/
  | diffw (i : FmtA)
  /-- R124. Unsigned integer to FP32. -/
  | ucvtf (i : FmtA)
  /-- R124. FP32 to saturated unsigned integer. -/
  | cvtfu (i : FmtA)
  /-- R124. Packs two 16-bit halves. -/
  | pack16 (i : FmtA)
  /-- R124. Sign-extends the low half. -/
  | unpkl (i : FmtA)
  /-- R124. Sign-extends the high half. -/
  | unpkh (i : FmtA)
  /-- R125. Clamped integrator update setting cc.n on clamp. -/
  | ints (i : FmtF)
  /-- R125. Rate-limited move toward a, setting cc.n on limit. -/
  | rlim (i : FmtA)
  /-- R125. Larger of two magnitudes. -/
  | maxabs (i : FmtA)
  /-- R125. Mean of two values. -/
  | avg (i : FmtA)
  /-- R125. Squared difference. -/
  | sqdif (i : FmtA)
  /-- R14. An undefined opcode issues, raising ILLEGAL and abandoning the operation with hold outputs. -/
  | illegalOpcode (cell : Nat) (stg : BitVec 3) (opcode : BitVec 8)
  /-- R50. A host write into region, block or cell memory through a region window, arbitrated as a DMA request. -/
  | regionWindowWrite (w : RegWrite)
  /-- R10. A write to a register without a row of its own; reserved values reset the field and set CFG_WARN. -/
  | registerWrite (w : RegWrite)
  /-- R336. The time unit reaches t_E(n), the cycle number advances and units sample at edge E. -/
  | cycleEdge
  /-- R37. At E + t_end every graph operation of the cycle has completed or is late. -/
  | cycleEndFence
  /-- R139. An operation's fence instant passes: unstarted cycles are retired with holds. -/
  | operationFence (op : Nat)
  /-- R146. Madder starts a ready operation or work item on a free cell or fills its prefetch slot. -/
  | operationDispatch (cell : Nat)
  /-- R151. A delay-list entry expires at a tick boundary and its work item is enqueued. -/
  | delayListExpiry (region : Nat)
  /-- R160. A write of MAD_REPLAY_CTRL.start runs replay from MAD_REPLAY_FROM to MAD_REPLAY_TO. -/
  | replayStart (w : RegWrite)
  /-- R160. A write of MAD_REPLAY_CTRL.step runs one replay cycle. -/
  | replayStep (w : RegWrite)
  /-- R160. A write of MAD_REPLAY_CTRL.abort stops replay at the next fence. -/
  | replayAbort (w : RegWrite)
  /-- R160. A replay cycle starts on a paced edge or when the previous one has passed its fence. -/
  | replayCycle (inp : ReplayIn)
  /-- R149. A write of a channel's priority moves its waiting items to the new level. -/
  | madWicPrioWrite (w : RegWrite)
  /-- R149. A write of MAD_WIC_CANCEL cancels every item of the channel with the tag. -/
  | madWicCancelWrite (w : RegWrite)
  /-- R158. A read of MAD_DIGEST_CYCLE latches the digest words of the same cycle. -/
  | madDigestCycleRead (r : RegRead)
  /-- R165. The DMA unit finishes writing a snapshot to host memory and SNAPSHOT replies. -/
  | snapshotComplete (ok : Bool)
  /-- R163. Command that enqueues a work item or enters it into a delay list. -/
  | workSubmit (r : CmdReq)
  /-- R163. Command that cancels a work item by channel and tag. -/
  | workCancel (r : CmdReq)
  /-- R163. Command that removes and returns completion records. -/
  | workComplRead (r : CmdReq)
  /-- R164. Command that posts value words to a host-postable mailbox for an apply cycle. -/
  | mailboxPost (r : CmdReq)
  /-- R40. Command that requests a consistent snapshot of a named cycle into host memory. -/
  | snapshot (r : CmdReq)
  /-- R205. Command that posts an axis mode request to the mode mailbox. -/
  | axisModeSet (r : CmdReq)
  /-- R205. Command that writes a K_INNER parameter word at an apply cycle. -/
  | axisParamSet (r : CmdReq)
  /-- R205. Command that returns a parameter word in effect. -/
  | axisParamGet (r : CmdReq)
  /-- R206. Command that returns the axis status record. -/
  | axisStatusGet (r : CmdReq)
  /-- R205. Command that clears fault bits and counters and puts the axis in OFF. -/
  | axisReset (r : CmdReq)
  /-- R205. Command that posts current references to the axis's mailbox. -/
  | axisCurRef (r : CmdReq)
  /-- R220. Command that posts a position or velocity target with override. -/
  | motionTarget (r : CmdReq)
  /-- R236. Command that writes a K_OUTER parameter word. -/
  | motionParamSet (r : CmdReq)
  /-- R236. Command that returns a K_OUTER parameter word. -/
  | motionParamGet (r : CmdReq)
  /-- R237. Command that returns the motion status record. -/
  | motionStatusGet (r : CmdReq)
  /-- R236. Command that returns the multi-turn position and stored target. -/
  | motionPosGet (r : CmdReq)
  /-- R236. Command that freezes, starts learning or clears the repetitive controller. -/
  | rcCtrl (r : CmdReq)
  /-- R236. Command that writes eight microstep table entries. -/
  | microstepTableSet (r : CmdReq)
  /-- R268. A write of XW_CTRL enables or disables a ring port or closes its bypass. -/
  | xwCtrlWrite (w : RegWrite)
  /-- R268. A ring receiver gains or loses block lock, driving port state changes and heal evidence. -/
  | ringLockChange (rs : RingSide) (lock : Bool)
  /-- R241. The 50 ms line-rate trial ends without lock and the other rate is tried. -/
  | ringRateTryExpiry (ring : Nat)
  /-- R271. After 64 complemented control blocks the receiver inverts its input. -/
  | rxPolarityCorrect (x : Receiver)
  /-- R257. The CS schedule entry fires and the CYCLE_START and heartbeat leave. -/
  | ringCsInstant (ring : Nat)
  /-- R272. After 16 cycles with no CYCLE_START returned the port enters LONE. -/
  | ringLoneEntry (ring : Nat)
  /-- R261. At SAMPLE_DUE axes still without a token receive holds. -/
  | ringSampleDue (rs : RingSide)
  /-- R262. The command launch instant: the COMMAND train leaves with stale entries for late tokens. -/
  | ringCmdLaunch (rs : RingSide)
  /-- R257. The T256 sends waiting ASYNC frames, including DESC_WRITE, in its outbound window. -/
  | ringAsyncOutWindow (rs : RingSide)
  /-- R411. The T256 sends its SAFETY telegrams in its window. -/
  | ringSafetyOutWindow (rs : RingSide)
  /-- R257. The T256 may send one DISCOVER or ECHO frame in the TOPO window. -/
  | ringTopoWindow (ring : Nat)
  /-- R274. A CYCLE_START arrives at a port: return detection, heal evidence, twin launch or dual-active check. -/
  | ringCycleStartReceive (rs : RingSide) (f : CsFrame)
  /-- R247. A SAMPLE subframe arrives, is checked and yields its axes' SOURCE tokens. -/
  | ringSampleSubframeReceive (rs : RingSide) (f : SampleSub)
  /-- R433. A COMMAND train passes a PASS port and is compared by the standby. -/
  | ringCommandTrainReceive (rs : RingSide) (f : CmdTrain)
  /-- R251. An inbound ASYNC frame arrives and goes to the response buffer or completes DESC_ACK. -/
  | ringAsyncReceive (rs : RingSide) (f : AsyncFrame)
  /-- R252. An inbound SAFETY frame is handed to Woad unchanged. -/
  | ringSafetyReceive (rs : RingSide) (f : SafetyFrame)
  /-- R274. A TOPO LOOP frame arrives as heal evidence. -/
  | ringTopoLoopReceive (rs : RingSide) (f : LoopFrame)
  /-- R269. A DISCOVER frame returns and its entries are matched against slot descriptors. -/
  | ringDiscoverReturn (rs : RingSide) (f : DiscoverFrame)
  /-- R269. An ECHO returns to measure cs_delay, or is answered by a PASS port. -/
  | ringEchoReceive (rs : RingSide) (f : EchoFrame)
  /-- R278. A CLAIM arrives in a CLAIM window and is judged for a grant. -/
  | ringClaimReceive (rs : RingSide) (f : ClaimFrame)
  /-- R269. DISCOVER steps are repeated after 1,024 cycles of failed matching. -/
  | ringDiscoverRetry (ring : Nat)
  /-- R276. After 256 cycles of far_lock the next CYCLE_START carries healed = 0. -/
  | ringRecloseStart (ring : Nat)
  /-- R287. A write of XW_ARSP_POP frees the oldest ASYNC reply. -/
  | xwArspPopWrite (w : RegWrite)
  /-- R287. Command that returns XW_STAT and a slot's node block. -/
  | ringStatusGet (r : CmdReq)
  /-- R287. Command that queues an ASYNC operation to a node. -/
  | ringAsyncPost (r : CmdReq)
  /-- R282. Command that broadcasts a TOPO RESET on both sides. -/
  | ringResetBcast (r : CmdReq)
  /-- R287. Command that sets claim_en at the apply cycle. -/
  | ringClaimSet (r : CmdReq)
  /-- R281. Command that returns a granted slot to spare. -/
  | ringSlotRelease (r : CmdReq)
  /-- R276. Command that permits reclose of a HEALED ring. -/
  | ringReclose (r : CmdReq)
  /-- R295. At E + t_cmd each group takes its command token or keeps the previous record. -/
  | localCmdLaunch
  /-- R293. A carrier period starts at the apply instant and the new record takes effect. -/
  | localApplyInstant
  /-- R294. Every 10 µs the delay-line trim is measured and moved by one step. -/
  | delayLineCalibration (errPs : Int)
  /-- R302. A ZC or Hall event is qualified and accepted or counted missed. -/
  | maskEvent (group : Nat) (e : MaskEdge)
  /-- R301. The commutation delay expires and the output mask advances one step. -/
  | maskStep (group : Nat)
  /-- R308. A gate output disagrees with its drive for 160 ns and the group enters output fault. -/
  | gateShortDetect (group : Nat) (out : Nat)
  /-- R311. A timed sequence entry starts its conversion 30 ns before its sample instant. -/
  | adcTimedStart (conv : Nat)
  /-- R309. A conversion ends, its result is stored and the next entry proceeds. -/
  | adcConversionComplete (conv : Nat) (r : AdcRaw)
  /-- R312. A write of ADC_URG requests an urgent conversion, possibly aborting a running one. -/
  | adcUrgWrite (w : RegWrite)
  /-- R317. At E + ADC_DUE.due the local SOURCE tokens are formed, holds where incomplete. -/
  | adcRecordDue
  /-- R314. The 64 calibration conversions finish and G and O are computed. -/
  | adcCalComplete (sum : Nat) (ovr : Bool)
  /-- R315. Calibration conversions not complete within 10 ms return TIMEOUT. -/
  | adcCalTimeout
  /-- R319. A filtered A or B transition counts the quadrature counter. -/
  | fbQuadEdge (fb : Nat) (e : QuadEdge)
  /-- R320. A rising Z edge latches or zeroes the counter. -/
  | fbZEdge (fb : Nat)
  /-- R324. A Hall state change is checked for validity and swap detection. -/
  | fbHallChange (fb : Nat) (hall : BitVec 3)
  /-- R323. At E minus lead the serial position request starts. -/
  | fbSerialRequest (fb : Nat)
  /-- R323. A serial frame completes and is checked and decoded. -/
  | fbSerialFrame (fb : Nat) (f : SerialFrame)
  /-- R323. A frame incomplete at E + 170 ns is not used. -/
  | fbSerialDeadline (fb : Nat)
  /-- R325. A receiver pair below threshold for 1 µs is marked lost and may latch fault. -/
  | fbPairLoss (fb : Nat) (pair : Nat) (x : PairShow)
  /-- R328. Command that returns a group's status and counters. -/
  | lgStatusGet (r : CmdReq)
  /-- R328. Command that clears output and feedback faults. -/
  | lgFaultClear (r : CmdReq)
  /-- R315. Command that measures a calibration point. -/
  | adcCalPoint (r : CmdReq)
  /-- R328. Command that sets a feedback counter at edge E. -/
  | fbPosSet (r : CmdReq)
  /-- R333. A write of TIME_INC_TGT_HI commits the target increment and restarts holdover. -/
  | timeIncTgtCommit (w : RegWrite)
  /-- R333. At a ramp boundary the present increment steps toward the target. -/
  | rampBoundary
  /-- R333. A write of TIME_SLEW takes effect at the next boundary. -/
  | timeSlewWrite (w : RegWrite)
  /-- R335. A write of TIME_HOLD restarts the holdover timer. -/
  | timeHoldWrite (w : RegWrite)
  /-- R335. No commit for stale_ms sets stale and raises TIME_STALE. -/
  | holdoverExpiry
  /-- R332. A read of TIME_NOW_SUB latches the time value. -/
  | timeNowSubRead (r : RegRead)
  /-- R350. PPS_OUT rises at a whole second of the counter. -/
  | ppsRise
  /-- R350. PPS_OUT falls after width_us. -/
  | ppsFall
  /-- R349. A write of TIME_CLK_k_CTRL commits a clock output setting. -/
  | clkOutCommit (w : RegWrite)
  /-- R349. The synthesiser locks and the output switches at its next rising edge. -/
  | clkOutLock (k : Nat)
  /-- R355. Command that returns time status, time value and increment. -/
  | timeStatusGet (r : CmdReq)
  /-- R338. Command that sets the time value and restarts the edge grid. -/
  | timeSet (r : CmdReq)
  /-- R340. A backbone frame is received, stamped and delivered, forwarded or discarded. -/
  | bbFrameReceive (port : Nat) (f : BbFrame)
  /-- R341. A backbone port transmits the next frame in priority order and stamps it. -/
  | bbFrameTransmit (port : Nat) (d : BbTxDesc)
  /-- R346. A timed frame leaves at its launch time or retires LATE. -/
  | bbTimedLaunch (port : Nat)
  /-- R347. A transmit ring tail write hands descriptors to the port. -/
  | bbTxTailWrite (w : RegWrite)
  /-- R347. A receive ring tail write makes descriptors available. -/
  | bbRxTailWrite (w : RegWrite)
  /-- R345. A write of BB_TSQ_POP frees the oldest transmit stamp. -/
  | bbTsqPopWrite (w : RegWrite)
  /-- R354. A backbone port loses block lock and raises BB_LINK. -/
  | bbLockLoss (port : Nat)
  /-- R352. A write of BB_PAIR_CTRL.bypass closes or releases the backbone bypass. -/
  | bbBypassWrite (w : RegWrite)
  /-- R353. A bypass switch finishes closing or opening. -/
  | bypassSwitchComplete (sw : Nat)
  /-- R367. Host firmware submits commands by advancing the submission tail. -/
  | qpSqTailWrite (w : RegWrite)
  /-- R367. Host firmware frees completion entries. -/
  | qpCqHeadWrite (w : RegWrite)
  /-- R373. A write of QP_CTRL enables a pair or disables it, cancelling unjournaled commands. -/
  | qpCtrlWrite (w : RegWrite)
  /-- R367. The T256 fetches a command when a completion entry is free. -/
  | qpCommandFetch (qp : Nat) (p : Packet)
  /-- R370. The command processor takes one command per turn, checks it, journals and replies. -/
  | commandProcess
  /-- R373. A command not taken within timeout_ms is answered TIMEOUT by the keeper. -/
  | commandTimeout (src : Nat)
  /-- R368. A queue-pair host access fails, the pair is disabled and CMD_QP raised. -/
  | qpHostError (qp : Nat)
  /-- R362. An FLR disables that function's queue pairs and keeper window. -/
  | functionLevelReset (fn : Nat)
  /-- R362. Link-down or hot reset disables every queue pair. -/
  | pcieLinkDown
  /-- R470. The PCIe link retrains and Indigo re-evaluates its guaranteed rate. -/
  | pcieLinkRetrain (lanes : Nat) (rate : Nat)
  /-- R381. A write of KPR_GO submits the keeper window's command. -/
  | kprGoWrite (w : RegWrite)
  /-- R386. An SPI CMD transaction delivers a 64-byte command. -/
  | spiCmd (p : Packet)
  /-- R385. An SPI RPL transaction reads the held reply and releases MGMT_IRQ_N. -/
  | spiRpl
  /-- R385. An SPI RDREG transaction reads a permitted BAR0 register. -/
  | spiRdreg (off : Nat)
  /-- R394. The boot controller completes copying a journal entry to the mirror device. -/
  | journalMirrorWrite (ok : Bool) (us : Nat)
  /-- R392. VHOLD falls below range and the journal freezes. -/
  | vholdLow
  /-- R379. Keeper command returning time and mode. -/
  | ping (r : CmdReq)
  /-- R379. Keeper command returning mode, Foxglove level and journal head. -/
  | statusGet (r : CmdReq)
  /-- R507. Keeper command resetting a cell, block, region or the chip. -/
  | levelReset (r : CmdReq)
  /-- R507. A reset unit finishes reloading and resumes at the next edge E. -/
  | levelResetUnitEnd (level : Nat) (index : Nat)
  /-- R379. Keeper command closing or releasing a bypass switch. -/
  | bypassSet (r : CmdReq)
  /-- R379. Keeper command returning the mode. -/
  | modeGet (r : CmdReq)
  /-- R379. Keeper command raising SAFE_STOP at L3. -/
  | safeStop (r : CmdReq)
  /-- R379. Command returning journal entries from the ring or mirror. -/
  | journalRead (r : CmdReq)
  /-- R459. Command returning Foxglove records. -/
  | faultRead (r : CmdReq)
  /-- R453. Command acknowledging records up to a number. -/
  | faultAck (r : CmdReq)
  /-- R500. Command changing the mode under the transition table. -/
  | modeSet (r : CmdReq)
  /-- R500. Cycle-fenced command starting or stopping RUN. -/
  | runCtrl (r : CmdReq)
  /-- R500. Command clearing the safe latch and entering ARMED. -/
  | rearm (r : CmdReq)
  /-- R500. Command returning boot status and image check value. -/
  | cfgStatusGet (r : CmdReq)
  /-- R500. Command reading, authenticating and loading an image from the host. -/
  | cfgLoad (r : CmdReq)
  /-- R503. Image loading and authentication finish and CFG_LOAD replies. -/
  | cfgLoadComplete (img : ImageFile)
  /-- R500. Command writing the loaded image into a flash slot. -/
  | cfgStore (r : CmdReq)
  /-- R502. The slot and directory writes finish and CFG_STORE replies. -/
  | cfgStoreComplete (ok : Bool)
  /-- R500. Command saving parameter blocks to flash. -/
  | paramSave (r : CmdReq)
  /-- R505. The parameter buffer write finishes and PARAM_SAVE replies. -/
  | paramSaveComplete (ok : Bool)
  /-- R399. Woad begins a safety cycle: inputs, functions, exchange, outputs and telegrams. -/
  | safetyCycleStart (x : WoadInputs)
  /-- R400. Woad samples every safe input pin every 50 µs. -/
  | safeInputSample (pins : SafePins)
  /-- R401. Channels disagree beyond disc and the input faults. -/
  | safeInputDiscrepancy (k : Nat)
  /-- R402. TP_A or TP_B switches low for 300 µs. -/
  | testPulse (ch : Bool)
  /-- R402. An input not following its pulse within 200 µs faults. -/
  | testPulseCheck (k : Nat) (ch : Bool) (followed : Bool)
  /-- R409. Each channel switches an energised output off briefly and reads it back. -/
  | safeOutputTest (k : Nat) (t : OutTest)
  /-- R411. A telegram copy arrives and is accepted, rejected or single-path counted. -/
  | woadTelegramReceive (line : Bool) (t : Telegram)
  /-- R411. No telegram accepted for wd safety cycles: the connection's safe value applies. -/
  | woadWatchdogExpiry (conn : Nat)
  /-- R412. A Woad line frame arrives and is forwarded and dispatched by kind. -/
  | woadLineFrameReceive (port : Nat) (f : WlFrame)
  /-- R412. A participant's Woad line slot opens and it transmits. -/
  | woadLineSlot (slot : WlSlot)
  /-- R416. Command returning Woad status for an axis. -/
  | safetyStatusGet (r : CmdReq)
  /-- R416. Command returning both channels' check values. -/
  | safetyCrcGet (r : CmdReq)
  /-- R415. Command locking the safety parameter set. -/
  | safetyConfirm (r : CmdReq)
  /-- R406. Command clearing latched violations at the next safety cycle. -/
  | safetyReset (r : CmdReq)
  /-- R416. Command erasing the confirmation record. -/
  | safetyUnlock (r : CmdReq)
  /-- R425. A twin-link heartbeat arrives, steering the standby's time. -/
  | twinHeartbeatReceive (h : TwinHeartbeat)
  /-- R433. A mirrored SOURCE token arrives at the standby. -/
  | twinMirrorReceive (t : TokenRec)
  /-- R431. A forwarded journal entry is written, acknowledged and scheduled. -/
  | twinJournalReceive (e : JEntry)
  /-- R433. A COPY frame of the state copy arrives. -/
  | twinCopyReceive (c : TwinCopy)
  /-- R433. The active's cycle digest arrives for comparison. -/
  | twinDigestReceive (cycle : Word) (d : BitVec 64)
  /-- R427. The standby's ACK arrives, releasing the command's acknowledgement. -/
  | twinAckReceive (seq : Nat)
  /-- R435. The standby's SYNC request arrives. -/
  | twinSyncReceive (cycle : Word)
  /-- R422. A twin lane loses lock and the channel goes down. -/
  | twinLinkDown
  /-- R437. At W(j) the standby judges the witnesses and decides on takeover. -/
  | takeoverWatch
  /-- R435. During synchronisation the standby recomputes one buffered cycle. -/
  | syncCatchUpCycle
  /-- R435. The live cycle not reached within 128 cycles raises LSP_SYNC. -/
  | syncGiveUp
  /-- R443. Command returning Larkspur status. -/
  | twinStatusGet (r : CmdReq)
  /-- R442. Cycle-fenced command for a planned switch-over. -/
  | twinSwitch (r : CmdReq)
  /-- R443. Command starting synchronisation. -/
  | twinSync (r : CmdReq)
  /-- R443. Command inhibiting or allowing takeover. -/
  | twinInhibit (r : CmdReq)
  /-- R449. A raising reaches Foxglove, is recorded or coalesced, escalated and reacted to. -/
  | faultRaising (r : Raising)
  /-- R454. A unit's quiet period ends its fault state and counts a recovery. -/
  | faultQuietExpiry (level : Nat) (src : FoxSrc)
  /-- R458. A source's millisecond ends and deferred alarms are sent. -/
  | alarmWindowExpiry (src : FoxSrc)
  /-- R532. On-die sensors are read and thermal classes raised. -/
  | thermalSensorRead (temps : List Int)
  /-- R520. VDD_CORE or VDD_SRAM out of range for 1 µs raises SUPPLY. -/
  | supplyOutOfRange (powerLost : Bool)
  /-- R446. An island loses lock and ISLAND_LOCK is raised. -/
  | islandLockLoss (island : Nat)
  /-- R464. At the close instant the cycle's group is formed and the sequencer evaluated. -/
  | indigoGroupClose
  /-- R473. A sequencer timer reaches its limit and stops. -/
  | sequencerTimerExpiry (k : Nat)
  /-- R473. TRIG_FIRE is released 40 ns after a fire. -/
  | trigFireRelease
  /-- R462. A group is completely written to host memory and IND_WR advances. -/
  | indigoGroupWritten
  /-- R477. A falling TRIG_FIRE edge is stamped. -/
  | trigFireEdge
  /-- R477. TRIG_ARM changes level and sequencers arm or hold in S0. -/
  | trigArmChange (high : Bool)
  /-- R478. Command returning Indigo status. -/
  | indStatusGet (r : CmdReq)
  /-- R469. Command starting capture after admission control. -/
  | indStart (r : CmdReq)
  /-- R475. Command stopping capture at a group. -/
  | indStop (r : CmdReq)
  /-- R477. Command arming or disarming the trigger net. -/
  | indArm (r : CmdReq)
  /-- R478. Command writing a user TRIGGER record. -/
  | indMark (r : CmdReq)
  /-- R487. A tail write hands descriptors to a DMA engine. -/
  | dmaETailWrite (w : RegWrite)
  /-- R490. A write of DMA_E_CTRL enables an engine or cancels its descriptor. -/
  | dmaECtrlWrite (w : RegWrite)
  /-- R489. An engine takes its next descriptor and checks it. -/
  | dmaDescriptorStart (e : Nat) (d : DmaDesc)
  /-- R490. A descriptor ends and its status and done are written back. -/
  | dmaDescriptorEnd (e : Nat) (x : DmaEnd)
  /-- R481. The scrubber reads memory words and corrects or reports errors. -/
  | scrubPeriod (single : List Nat) (double : List Nat)
  /-- R491. A write of CRC_SCAN_CTRL.go starts a memory scan. -/
  | crcScanGo (w : RegWrite)
  /-- R491. A scan ends with its check value and comparison. -/
  | scanComplete (second : Bool)
  /-- R486. A write of CRC_CH_VAL_HI commits a channel's running value. -/
  | crcChValHiWrite (w : RegWrite)
  /-- R486. A read of CRC_CH_VAL_LO latches the high word. -/
  | crcChValLoRead (r : RegRead)
  /-- R486. A write of CRC_CH_CFG changes polynomial, binding or restarts. -/
  | crcChCfgWrite (w : RegWrite)
  /-- R494. Command returning ECC and engine status. -/
  | dmaStatusGet (r : CmdReq)
  /-- R494. Command running a check-value scan. -/
  | memCheck (r : CmdReq)
  /-- R506. Supplies reach their operating range and the part is held in reset. -/
  | powerOn (vholdHeld : Bool)
  /-- R498. Supplies are lost and the part goes OFF. -/
  | supplyLoss
  /-- R506. RESET_N low for at least 1 µs resets the chip. -/
  | resetNLow
  /-- R509. Reset ends and the boot controller starts in BOOT. -/
  | resetEnd (x : ResetPins)
  /-- R501. The boot sequence ends in IDLE, CONFIGURE or SAFE_HOLD. -/
  | bootSequenceEnd
  /-- R510. PFAIL_N falls or the detector fires: journal freeze, gates low, outputs off, bypasses closed. -/
  | pfailDetect (detector : Bool)
  /-- R512. PFAIL_N returns high or supplies return before falling. -/
  | pfailRelease
  /-- R512. After 10 ms stable the part boots with retention kept. -/
  | pfailRestoreHoldExpiry
  /-- R529. A JTAG instruction executes under IEEE 1149.1. -/
  | jtagInstruction (j : JtagInstr)
  /-- R12. A host read of a register whose read clears RC fields or latches a paired high word (JNL_HEAD_LO, IND_WR_LO, CRC_SCAN_RES_LO, CHIP_IMG_CHK_LO and the like). -/
  | registerRead (r : RegRead)
  /-- R56. A host read through a region window enters a cell or memory through the DMA port, may correct a single-bit error, or may return a poisoned word and raise ECC. -/
  | regionWindowRead (r : RegRead)
  /-- R352. A backbone port gains block lock, and forwarding resumes once both ports have locked. -/
  | bbBlockLock (port : Nat)
  /-- R422. All four twin-link lanes lock and deskew, and the bonded channel comes up again. -/
  | twinLinkUp
  /-- R26. An island's DCO comes back within 0.5 % of its target and CHIP_ISL_STAT.locked returns to 1. -/
  | islandLockRegained (island : Nat)
  /-- R247. A twin or PASS port sends the empty SAMPLE train of a path at E + t_s less its measured delay to the path's farthest node. -/
  | sampleTrainLaunch (rs : RingSide)
  /-- R293. A local group's carrier counter reaches t_per − 1 and a new carrier period begins, placing that period's phase, brake-chopper and dead-time edges and counting any filtered pulses. -/
  | carrierPeriodStart (group : Nat)
  /-- R307. In mixed decay the t_mix timer runs out, and the stepper coil passes from fast decay to slow decay. -/
  | mixedDecayEnd (group : Nat) (coilB : Bool)
deriving DecidableEq, Repr

end Sys2Proof
end

