-- ==== Sys2Proof/Decode.lean ====
section
/-! DEFINITION. The command a word spells by the table's bits, and the words of the cell instructions (R94 to R106). No row of
the table gives bits: commands reach the T256 by its ports, pins and links, in forms of their own. A cell instruction has a
word of its own in instruction memory, which `cellDecode` reads and `cellEncode` writes.
Log: DESIGN CHOICE 14. -/

namespace Sys2Proof

/-- No row of the opcode table gives bits, so no word spells a command. -/
def decodeTableWord (_nbits _w : Nat) : Option Instr := none

/-! ### The fields of an instruction word -/

/-- The opcode and the stage (R94). -/
def wordOp (w : BitVec 64) : BitVec 8 := w.extractLsb' 56 8
def wordStg (w : BitVec 64) : BitVec 3 := w.extractLsb' 53 3

/-- An access field (R96). -/
def readAccess (w : BitVec 17) : Access where
  kind := w.extractLsb' 15 2
  pm := w.getLsbD 14
  m := w.extractLsb' 10 4
  p := w.extractLsb' 6 4
  f := w.extractLsb' 0 6
def accessWord (a : Access) : BitVec 17 := a.kind ++ BitVec.ofBool a.pm ++ a.m ++ a.p ++ a.f

/-- Format A (R95). -/
def readA (cell : Nat) (w : BitVec 64) : FmtA where
  cell := cell
  stg := wordStg w
  d := w.extractLsb' 47 6
  a := w.extractLsb' 41 6
  b := w.extractLsb' 35 6
  tm := w.getLsbD 34
  xa := readAccess (w.extractLsb' 17 17)
  ya := readAccess (w.extractLsb' 0 17)
def wordA (op : BitVec 8) (i : FmtA) : BitVec 64 :=
  op ++ i.stg ++ i.d ++ i.a ++ i.b ++ BitVec.ofBool i.tm ++ accessWord i.xa ++ accessWord i.ya

/-- Format F (R97). -/
def readF (cell : Nat) (w : BitVec 64) : FmtF where
  cell := cell
  stg := wordStg w
  d := w.extractLsb' 47 6
  a := w.extractLsb' 41 6
  b := w.extractLsb' 35 6
  c := w.extractLsb' 29 6
  sel := w.getLsbD 28
  acc := readAccess (w.extractLsb' 0 17)
def wordF (op : BitVec 8) (i : FmtF) : BitVec 64 :=
  op ++ i.stg ++ i.d ++ i.a ++ i.b ++ i.c ++ BitVec.ofBool i.sel ++ (0#11 : BitVec 11) ++ accessWord i.acc

/-- Format I (R98). -/
def readI (cell : Nat) (w : BitVec 64) : FmtI where
  cell := cell
  stg := wordStg w
  d := w.extractLsb' 47 6
  a := w.extractLsb' 41 6
  imm := w.extractLsb' 0 32
def wordI (op : BitVec 8) (i : FmtI) : BitVec 64 := op ++ i.stg ++ i.d ++ i.a ++ (0#9 : BitVec 9) ++ i.imm

/-- Format B (R99). -/
def readB (cell : Nat) (w : BitVec 64) : FmtB where
  cell := cell
  stg := wordStg w
  target := w.extractLsb' 0 14
def wordB (op : BitVec 8) (i : FmtB) : BitVec 64 := op ++ i.stg ++ (0#39 : BitVec 39) ++ i.target

/-- Format L (R100). -/
def readL (cell : Nat) (w : BitVec 64) : FmtL where
  cell := cell
  stg := wordStg w
  k := w.extractLsb' 50 3
  rot := w.getLsbD 49
  sc := w.extractLsb' 46 3
  n := w.extractLsb' 30 16
  last := w.extractLsb' 0 14
def wordL (op : BitVec 8) (i : FmtL) : BitVec 64 :=
  op ++ i.stg ++ i.k ++ BitVec.ofBool i.rot ++ i.sc ++ i.n ++ (0#16 : BitVec 16) ++ i.last

/-- Format M (R101). -/
def readM (cell : Nat) (w : BitVec 64) : FmtM where
  cell := cell
  stg := wordStg w
  f := w.extractLsb' 47 6
  addr := w.extractLsb' 0 14
def wordM (op : BitVec 8) (i : FmtM) : BitVec 64 := op ++ i.stg ++ i.f ++ (0#33 : BitVec 33) ++ i.addr

/-! ### The opcode map (R106), row by row; an undefined opcode is ILLEGAL_OPCODE -/

/-- Row 0x0_ of the map. -/
def cellRow0 (cell : Nat) (w : BitVec 64) (col : Nat) : Option Instr :=
  match col with
  | 1 => some (.nop (readA cell w))
  | 2 => some (.endOp (readA cell w))
  | 3 => some (.br (readB cell w))
  | 4 => some (.breq (readB cell w))
  | 5 => some (.brne (readB cell w))
  | 6 => some (.brlt (readB cell w))
  | 7 => some (.brge (readB cell w))
  | 8 => some (.brun (readB cell w))
  | 9 => some (.bror (readB cell w))
  | 10 => some (.brgt (readB cell w))
  | 11 => some (.brle (readB cell w))
  | 12 => some (.brts (readB cell w))
  | 13 => some (.brtc (readB cell w))
  | _ => none

/-- Row 0x1_ of the map. -/
def cellRow1 (cell : Nat) (w : BitVec 64) (col : Nat) : Option Instr :=
  match col with
  | 0 => some (.loop (readL cell w))
  | 1 => some (.loopp (readL cell w))
  | 2 => some (.setrrb (readI cell w))
  | 3 => some (.tsync (readA cell w))
  | 4 => some (.movfi (readI cell w))
  | 5 => some (.movpi (readI cell w))
  | 6 => some (.movmi (readI cell w))
  | 7 => some (.movpf (readA cell w))
  | 8 => some (.movfp (readA cell w))
  | 9 => some (.movmf (readA cell w))
  | 10 => some (.movfm (readA cell w))
  | 11 => some (.movfc (readA cell w))
  | 12 => some (.movfcc (readA cell w))
  | 13 => some (.movrrb (readA cell w))
  | _ => none

/-- Row 0x2_ of the map. -/
def cellRow2 (cell : Nat) (w : BitVec 64) (col : Nat) : Option Instr :=
  match col with
  | 0 => some (.add (readA cell w))
  | 1 => some (.sub (readA cell w))
  | 2 => some (.mul (readA cell w))
  | 3 => some (.fmac (readA cell w))
  | 4 => some (.fmsc (readA cell w))
  | 5 => some (.minOp (readA cell w))
  | 6 => some (.maxOp (readA cell w))
  | 7 => some (.absOp (readA cell w))
  | 8 => some (.neg (readA cell w))
  | 9 => some (.mov (readA cell w))
  | 10 => some (.sat (readA cell w))
  | 11 => some (.muln (readA cell w))
  | 12 => some (.cvtfi (readA cell w))
  | 13 => some (.cvtif (readA cell w))
  | _ => none

/-- Row 0x3_ of the map. -/
def cellRow3 (cell : Nat) (w : BitVec 64) (col : Nat) : Option Instr :=
  match col with
  | 0 => some (.fma (readF cell w))
  | 1 => some (.fms (readF cell w))
  | 2 => some (.fnma (readF cell w))
  | 3 => some (.fnms (readF cell w))
  | 4 => some (.selz (readA cell w))
  | 5 => some (.seln (readA cell w))
  | 8 => some (.cmp (readA cell w))
  | 9 => some (.cmpz (readA cell w))
  | 10 => some (.icmp (readA cell w))
  | 11 => some (.pcmp (readA cell w))
  | _ => none

/-- Row 0x4_ of the map. -/
def cellRow4 (cell : Nat) (w : BitVec 64) (col : Nat) : Option Instr :=
  match col with
  | 0 => some (.iadd (readA cell w))
  | 1 => some (.isub (readA cell w))
  | 2 => some (.imul (readA cell w))
  | 3 => some (.andOp (readA cell w))
  | 4 => some (.orOp (readA cell w))
  | 5 => some (.xorOp (readA cell w))
  | 6 => some (.shl (readA cell w))
  | 7 => some (.shr (readA cell w))
  | 8 => some (.sar (readA cell w))
  | 9 => some (.imin (readA cell w))
  | 10 => some (.imax (readA cell w))
  | 11 => some (.isatu (readA cell w))
  | 12 => some (.notOp (readA cell w))
  | _ => none

/-- Row 0x5_ of the map. -/
def cellRow5 (cell : Nat) (w : BitVec 64) (col : Nat) : Option Instr :=
  match col with
  | 0 => some (.clarke (readA cell w))
  | 1 => some (.clarke3 (readA cell w))
  | 2 => some (.park (readA cell w))
  | 3 => some (.ipark (readA cell w))
  | 4 => some (.svm3 (readF cell w))
  | 5 => some (.tap (readA cell w))
  | 6 => some (.tapn (readA cell w))
  | 7 => some (.tap0 (readA cell w))
  | 8 => some (.limv (readA cell w))
  | 9 => some (.angw (readA cell w))
  | 10 => some (.angadd (readA cell w))
  | _ => none

/-- Row 0x6_ of the map. -/
def cellRow6 (cell : Nat) (w : BitVec 64) (col : Nat) : Option Instr :=
  match col with
  | 0 => some (.sin (readA cell w))
  | 1 => some (.cos (readA cell w))
  | 2 => some (.sincos (readA cell w))
  | 3 => some (.atan2 (readA cell w))
  | 4 => some (.sqrt (readA cell w))
  | 5 => some (.rsqrt (readA cell w))
  | 6 => some (.recip (readA cell w))
  | 7 => some (.exp2 (readA cell w))
  | 8 => some (.log2 (readA cell w))
  | _ => none

/-- Row 0x7_ of the map. -/
def cellRow7 (cell : Nat) (w : BitVec 64) (col : Nat) : Option Instr :=
  match col with
  | 0 => some (.sinm (readA cell w))
  | 1 => some (.cosm (readA cell w))
  | 2 => some (.sincosm (readA cell w))
  | 3 => some (.atan2m (readA cell w))
  | 4 => some (.sqrtm (readA cell w))
  | 5 => some (.rsqrtm (readA cell w))
  | 6 => some (.recipm (readA cell w))
  | 7 => some (.exp2m (readA cell w))
  | 8 => some (.log2m (readA cell w))
  | _ => none

/-- Row 0x8_ of the map. -/
def cellRow8 (cell : Nat) (w : BitVec 64) (col : Nat) : Option Instr :=
  match col with
  | 0 => some (.qget (readA cell w))
  | 1 => some (.qput (readA cell w))
  | 2 => some (.qputr (readA cell w))
  | 3 => some (.qhold (readA cell w))
  | 4 => some (.qish (readA cell w))
  | 5 => some (.qcyc (readA cell w))
  | 8 => some (.crc8_0 (readA cell w))
  | 9 => some (.crc8_1 (readA cell w))
  | 10 => some (.crc32_0 (readA cell w))
  | 11 => some (.crc32_1 (readA cell w))
  | 12 => some (.crcrd_0 (readA cell w))
  | 13 => some (.crcrd_1 (readA cell w))
  | _ => none

/-- Row 0x9_ of the map. -/
def cellRow9 (cell : Nat) (w : BitVec 64) (col : Nat) : Option Instr :=
  match col with
  | 0 => some (.rnd (readA cell w))
  | 1 => some (.frac (readA cell w))
  | 2 => some (.sign (readA cell w))
  | 3 => some (.cpsgn (readA cell w))
  | 4 => some (.scale (readA cell w))
  | 5 => some (.deadz (readA cell w))
  | 6 => some (.lpf (readA cell w))
  | 8 => some (.dot2 (readA cell w))
  | 9 => some (.cross2 (readA cell w))
  | 10 => some (.mag2 (readA cell w))
  | _ => none

/-- Row 0xA_ of the map. -/
def cellRowA (cell : Nat) (w : BitVec 64) (col : Nat) : Option Instr :=
  match col with
  | 0 => some (.ldx (readM cell w))
  | 1 => some (.ldy (readM cell w))
  | 2 => some (.stx (readM cell w))
  | 3 => some (.sty (readM cell w))
  | 4 => some (.ldxp (readM cell w))
  | 5 => some (.ldyp (readM cell w))
  | 6 => some (.stxp (readM cell w))
  | 7 => some (.styp (readM cell w))
  | 8 => some (.movpp (readA cell w))
  | 9 => some (.movmm (readA cell w))
  | 10 => some (.addpm (readA cell w))
  | 11 => some (.addpi (readI cell w))
  | 12 => some (.movpc (readA cell w))
  | _ => none

/-- Row 0xB_ of the map. -/
def cellRowB (cell : Nat) (w : BitVec 64) (col : Nat) : Option Instr :=
  match col with
  | 0 => some (.popc (readA cell w))
  | 1 => some (.clz (readA cell w))
  | 2 => some (.bext (readI cell w))
  | 3 => some (.bins (readI cell w))
  | 4 => some (.andi (readI cell w))
  | 5 => some (.ori (readI cell w))
  | 6 => some (.xori (readI cell w))
  | 7 => some (.iaddi (readI cell w))
  | 8 => some (.icmpi (readI cell w))
  | 9 => some (.shli (readI cell w))
  | 10 => some (.shri (readI cell w))
  | 11 => some (.sari (readI cell w))
  | _ => none

/-- Row 0xC_ of the map. -/
def cellRowC (cell : Nat) (w : BitVec 64) (col : Nat) : Option Instr :=
  match col with
  | 0 => some (.addfi (readI cell w))
  | 1 => some (.mulfi (readI cell w))
  | 2 => some (.fmacfi (readI cell w))
  | 3 => some (.minfi (readI cell w))
  | 4 => some (.maxfi (readI cell w))
  | 5 => some (.satfi (readI cell w))
  | 6 => some (.cmpfi (readI cell w))
  | _ => none

/-- Row 0xD_ of the map. -/
def cellRowD (cell : Nat) (w : BitVec 64) (col : Nat) : Option Instr :=
  match col with
  | 0 => some (.diffw (readA cell w))
  | 1 => some (.ucvtf (readA cell w))
  | 2 => some (.cvtfu (readA cell w))
  | 3 => some (.pack16 (readA cell w))
  | 4 => some (.unpkl (readA cell w))
  | 5 => some (.unpkh (readA cell w))
  | _ => none

/-- Row 0xE_ of the map. -/
def cellRowE (cell : Nat) (w : BitVec 64) (col : Nat) : Option Instr :=
  match col with
  | 0 => some (.ints (readF cell w))
  | 1 => some (.rlim (readA cell w))
  | 2 => some (.maxabs (readA cell w))
  | 3 => some (.avg (readA cell w))
  | 4 => some (.sqdif (readA cell w))
  | _ => none

/-- The row of an opcode. -/
def cellRow (cell : Nat) (w : BitVec 64) (row col : Nat) : Option Instr :=
  match row with
  | 0 => cellRow0 cell w col
  | 1 => cellRow1 cell w col
  | 2 => cellRow2 cell w col
  | 3 => cellRow3 cell w col
  | 4 => cellRow4 cell w col
  | 5 => cellRow5 cell w col
  | 6 => cellRow6 cell w col
  | 7 => cellRow7 cell w col
  | 8 => cellRow8 cell w col
  | 9 => cellRow9 cell w col
  | 10 => cellRowA cell w col
  | 11 => cellRowB cell w col
  | 12 => cellRowC cell w col
  | 13 => cellRowD cell w col
  | 14 => cellRowE cell w col
  | _ => none

/-- The command that CELL_`cell` issues when it meets a word: total, an undefined opcode being the row ILLEGAL_OPCODE (R14,
R106). -/
def cellDecode (cell : Nat) (w : BitVec 64) : Instr :=
  (cellRow cell w ((wordOp w).toNat / 16) ((wordOp w).toNat % 16)).getD (.illegalOpcode cell (wordStg w) (wordOp w))

/-- The word of a cell instruction, its reserved bits 0; other commands have none. -/
def cellEncode (i : Instr) : Option (BitVec 64) :=
  match i with
  | .nop i => some (wordA 0x01#8 i)
  | .endOp i => some (wordA 0x02#8 i)
  | .br i => some (wordB 0x03#8 i)
  | .breq i => some (wordB 0x04#8 i)
  | .brne i => some (wordB 0x05#8 i)
  | .brlt i => some (wordB 0x06#8 i)
  | .brge i => some (wordB 0x07#8 i)
  | .brun i => some (wordB 0x08#8 i)
  | .bror i => some (wordB 0x09#8 i)
  | .brgt i => some (wordB 0x0A#8 i)
  | .brle i => some (wordB 0x0B#8 i)
  | .brts i => some (wordB 0x0C#8 i)
  | .brtc i => some (wordB 0x0D#8 i)
  | .loop i => some (wordL 0x10#8 i)
  | .loopp i => some (wordL 0x11#8 i)
  | .setrrb i => some (wordI 0x12#8 i)
  | .tsync i => some (wordA 0x13#8 i)
  | .movfi i => some (wordI 0x14#8 i)
  | .movpi i => some (wordI 0x15#8 i)
  | .movmi i => some (wordI 0x16#8 i)
  | .movpf i => some (wordA 0x17#8 i)
  | .movfp i => some (wordA 0x18#8 i)
  | .movmf i => some (wordA 0x19#8 i)
  | .movfm i => some (wordA 0x1A#8 i)
  | .movfc i => some (wordA 0x1B#8 i)
  | .movfcc i => some (wordA 0x1C#8 i)
  | .movrrb i => some (wordA 0x1D#8 i)
  | .add i => some (wordA 0x20#8 i)
  | .sub i => some (wordA 0x21#8 i)
  | .mul i => some (wordA 0x22#8 i)
  | .fmac i => some (wordA 0x23#8 i)
  | .fmsc i => some (wordA 0x24#8 i)
  | .minOp i => some (wordA 0x25#8 i)
  | .maxOp i => some (wordA 0x26#8 i)
  | .absOp i => some (wordA 0x27#8 i)
  | .neg i => some (wordA 0x28#8 i)
  | .mov i => some (wordA 0x29#8 i)
  | .sat i => some (wordA 0x2A#8 i)
  | .muln i => some (wordA 0x2B#8 i)
  | .cvtfi i => some (wordA 0x2C#8 i)
  | .cvtif i => some (wordA 0x2D#8 i)
  | .fma i => some (wordF 0x30#8 i)
  | .fms i => some (wordF 0x31#8 i)
  | .fnma i => some (wordF 0x32#8 i)
  | .fnms i => some (wordF 0x33#8 i)
  | .selz i => some (wordA 0x34#8 i)
  | .seln i => some (wordA 0x35#8 i)
  | .cmp i => some (wordA 0x38#8 i)
  | .cmpz i => some (wordA 0x39#8 i)
  | .icmp i => some (wordA 0x3A#8 i)
  | .pcmp i => some (wordA 0x3B#8 i)
  | .iadd i => some (wordA 0x40#8 i)
  | .isub i => some (wordA 0x41#8 i)
  | .imul i => some (wordA 0x42#8 i)
  | .andOp i => some (wordA 0x43#8 i)
  | .orOp i => some (wordA 0x44#8 i)
  | .xorOp i => some (wordA 0x45#8 i)
  | .shl i => some (wordA 0x46#8 i)
  | .shr i => some (wordA 0x47#8 i)
  | .sar i => some (wordA 0x48#8 i)
  | .imin i => some (wordA 0x49#8 i)
  | .imax i => some (wordA 0x4A#8 i)
  | .isatu i => some (wordA 0x4B#8 i)
  | .notOp i => some (wordA 0x4C#8 i)
  | .clarke i => some (wordA 0x50#8 i)
  | .clarke3 i => some (wordA 0x51#8 i)
  | .park i => some (wordA 0x52#8 i)
  | .ipark i => some (wordA 0x53#8 i)
  | .svm3 i => some (wordF 0x54#8 i)
  | .tap i => some (wordA 0x55#8 i)
  | .tapn i => some (wordA 0x56#8 i)
  | .tap0 i => some (wordA 0x57#8 i)
  | .limv i => some (wordA 0x58#8 i)
  | .angw i => some (wordA 0x59#8 i)
  | .angadd i => some (wordA 0x5A#8 i)
  | .sin i => some (wordA 0x60#8 i)
  | .cos i => some (wordA 0x61#8 i)
  | .sincos i => some (wordA 0x62#8 i)
  | .atan2 i => some (wordA 0x63#8 i)
  | .sqrt i => some (wordA 0x64#8 i)
  | .rsqrt i => some (wordA 0x65#8 i)
  | .recip i => some (wordA 0x66#8 i)
  | .exp2 i => some (wordA 0x67#8 i)
  | .log2 i => some (wordA 0x68#8 i)
  | .sinm i => some (wordA 0x70#8 i)
  | .cosm i => some (wordA 0x71#8 i)
  | .sincosm i => some (wordA 0x72#8 i)
  | .atan2m i => some (wordA 0x73#8 i)
  | .sqrtm i => some (wordA 0x74#8 i)
  | .rsqrtm i => some (wordA 0x75#8 i)
  | .recipm i => some (wordA 0x76#8 i)
  | .exp2m i => some (wordA 0x77#8 i)
  | .log2m i => some (wordA 0x78#8 i)
  | .qget i => some (wordA 0x80#8 i)
  | .qput i => some (wordA 0x81#8 i)
  | .qputr i => some (wordA 0x82#8 i)
  | .qhold i => some (wordA 0x83#8 i)
  | .qish i => some (wordA 0x84#8 i)
  | .qcyc i => some (wordA 0x85#8 i)
  | .crc8_0 i => some (wordA 0x88#8 i)
  | .crc8_1 i => some (wordA 0x89#8 i)
  | .crc32_0 i => some (wordA 0x8A#8 i)
  | .crc32_1 i => some (wordA 0x8B#8 i)
  | .crcrd_0 i => some (wordA 0x8C#8 i)
  | .crcrd_1 i => some (wordA 0x8D#8 i)
  | .rnd i => some (wordA 0x90#8 i)
  | .frac i => some (wordA 0x91#8 i)
  | .sign i => some (wordA 0x92#8 i)
  | .cpsgn i => some (wordA 0x93#8 i)
  | .scale i => some (wordA 0x94#8 i)
  | .deadz i => some (wordA 0x95#8 i)
  | .lpf i => some (wordA 0x96#8 i)
  | .dot2 i => some (wordA 0x98#8 i)
  | .cross2 i => some (wordA 0x99#8 i)
  | .mag2 i => some (wordA 0x9A#8 i)
  | .ldx i => some (wordM 0xA0#8 i)
  | .ldy i => some (wordM 0xA1#8 i)
  | .stx i => some (wordM 0xA2#8 i)
  | .sty i => some (wordM 0xA3#8 i)
  | .ldxp i => some (wordM 0xA4#8 i)
  | .ldyp i => some (wordM 0xA5#8 i)
  | .stxp i => some (wordM 0xA6#8 i)
  | .styp i => some (wordM 0xA7#8 i)
  | .movpp i => some (wordA 0xA8#8 i)
  | .movmm i => some (wordA 0xA9#8 i)
  | .addpm i => some (wordA 0xAA#8 i)
  | .addpi i => some (wordI 0xAB#8 i)
  | .movpc i => some (wordA 0xAC#8 i)
  | .popc i => some (wordA 0xB0#8 i)
  | .clz i => some (wordA 0xB1#8 i)
  | .bext i => some (wordI 0xB2#8 i)
  | .bins i => some (wordI 0xB3#8 i)
  | .andi i => some (wordI 0xB4#8 i)
  | .ori i => some (wordI 0xB5#8 i)
  | .xori i => some (wordI 0xB6#8 i)
  | .iaddi i => some (wordI 0xB7#8 i)
  | .icmpi i => some (wordI 0xB8#8 i)
  | .shli i => some (wordI 0xB9#8 i)
  | .shri i => some (wordI 0xBA#8 i)
  | .sari i => some (wordI 0xBB#8 i)
  | .addfi i => some (wordI 0xC0#8 i)
  | .mulfi i => some (wordI 0xC1#8 i)
  | .fmacfi i => some (wordI 0xC2#8 i)
  | .minfi i => some (wordI 0xC3#8 i)
  | .maxfi i => some (wordI 0xC4#8 i)
  | .satfi i => some (wordI 0xC5#8 i)
  | .cmpfi i => some (wordI 0xC6#8 i)
  | .diffw i => some (wordA 0xD0#8 i)
  | .ucvtf i => some (wordA 0xD1#8 i)
  | .cvtfu i => some (wordA 0xD2#8 i)
  | .pack16 i => some (wordA 0xD3#8 i)
  | .unpkl i => some (wordA 0xD4#8 i)
  | .unpkh i => some (wordA 0xD5#8 i)
  | .ints i => some (wordF 0xE0#8 i)
  | .rlim i => some (wordA 0xE1#8 i)
  | .maxabs i => some (wordA 0xE2#8 i)
  | .avg i => some (wordA 0xE3#8 i)
  | .sqdif i => some (wordA 0xE4#8 i)
  | _ => none

end Sys2Proof
end

