-- ==== Sys2Proof/Config.lean ====
section
/-! DEFINITION. What the manual leaves open: free values, constants without a body, so that nothing can be proved of them.
Log: DESIGN CHOICE 3, 37, 81. -/

namespace Sys2Proof

/-- The free value of a word the manual calls undefined (UB_02 of R45), drawn with the model's counter
`State.freeCtr`. Log entry 3. -/
opaque Config.freeWord : Nat → BitVec 32

/-- The free value of a byte the manual calls undefined (UB_05 of R45, and a byte written by two engines, R487).
Log entry 3. -/
opaque Config.freeByte : Nat → BitVec 8

/-- A free truth value: whether the firmware controller of the command processor has taken a command, and the like. -/
opaque Config.freeBool : Nat → Bool

/-- The two gains of the PI that regulates the current of ALIGN (R190), proportional and integral per cycle: FP32 words that no parameter
and no rule gives. Log entry 37. -/
opaque Config.alignKp : BitVec 32
opaque Config.alignKi : BitVec 32

/-- The count at which a phase with the reserved rise code 3 begins (R170), by word 2 of its record: the spec gives it none. -/
opaque Config.riseOpen : BitVec 32 → BitVec 32

end Sys2Proof
end

