-- ==== Sys2Proof/Machine/Crc.lean ====
section
/-! DEFINITION. The check-value functions of R483 and R484, over lists of bytes. -/

namespace Sys2Proof.Machine

/-- One function of R483. -/
structure CrcPoly where
  width : Nat
  poly : Nat
  init : Nat
  refl : Bool
  xorout : Nat
deriving DecidableEq, Repr

/-- The table of R483; codes 6 and 7 are reserved. -/
def crcPoly (code : Nat) : CrcPoly :=
  match code with
  | 0 => ⟨64, 0x42F0E1EBA9EA3693, 0, false, 0⟩
  | 1 => ⟨32, 0x1EDC6F41, 0xFFFFFFFF, true, 0xFFFFFFFF⟩
  | 2 => ⟨32, 0x04C11DB7, 0xFFFFFFFF, true, 0xFFFFFFFF⟩
  | 3 => ⟨16, 0x1021, 0xFFFF, false, 0⟩
  | 4 => ⟨8, 0x2F, 0xFF, false, 0xFF⟩
  | _ => ⟨6, 0x03, 0, false, 0x3F⟩

/-- The bits of a number reversed within a width. -/
def revBits (w : Nat) (n : Nat) : Nat :=
  match w with
  | 0 => 0
  | k + 1 => (n % 2) * 2 ^ k + revBits k (n / 2)

/-- One bit into a register held most significant first. -/
def crcBitMsb (p : CrcPoly) (r : Nat) (bit : Nat) : Nat :=
  let top := r / 2 ^ (p.width - 1) % 2
  let sh := r * 2 % 2 ^ p.width
  if (top + bit) % 2 = 1 then Nat.xor sh p.poly else sh

/-- One bit into a reflected register; `rp` is the reversed polynomial. -/
def crcBitLsb (rp : Nat) (r : Nat) (bit : Nat) : Nat :=
  if (r + bit) % 2 = 1 then Nat.xor (r / 2) rp else r / 2

/-- One byte into the running value, which is held in output bit order (R484). -/
def crcByte (p : CrcPoly) (r : Nat) (b : Byte) : Nat :=
  let n := b.toNat
  if p.refl then
    let rp := revBits p.width p.poly
    [0, 1, 2, 3, 4, 5, 6, 7].foldl (fun r i => crcBitLsb rp r (n / 2 ^ i % 2)) r
  else
    [7, 6, 5, 4, 3, 2, 1, 0].foldl (fun r i => crcBitMsb p r (n / 2 ^ i % 2)) r

/-- The running value after some bytes. -/
def crcFeed (p : CrcPoly) (r : Nat) (bs : List Byte) : Nat := bs.foldl (crcByte p) r
/-- The check value of some bytes, from init (R484). -/
def crcOf (code : Nat) (bs : List Byte) : Nat :=
  let p := crcPoly code
  Nat.xor (crcFeed p p.init bs) p.xorout

/-- CRC-32C (R242, R363, R389). -/
def crc32c (bs : List Byte) : Nat := crcOf 1 bs
/-- CRC-64/ECMA-182 (R158, R503). -/
def crc64 (bs : List Byte) : Nat := crcOf 0 bs

/-- The bits of a number, most significant first, through the CRC-6 of framed serial frames (R323). -/
def crc6Bits (bits : List Nat) : Nat :=
  Nat.xor (bits.foldl (crcBitMsb (crcPoly 5)) (crcPoly 5).init) 0x3F

/-- A number as `n` little-endian bytes (R20). -/
def bytesLE (n v : Nat) : List Byte :=
  match n with
  | 0 => []
  | k + 1 => BitVec.ofNat 8 (v % 256) :: bytesLE k (v / 256)

/-- Little-endian bytes as a number. -/
def natLE : List Byte → Nat
  | [] => 0
  | b :: r => b.toNat + 256 * natLE r

/-- Bytes `i` to `i + n − 1` of a list, missing bytes reading 0. -/
def takeBytes (bs : List Byte) (i n : Nat) : List Byte :=
  match n with
  | 0 => []
  | k + 1 => (bs[i]?).getD 0#8 :: takeBytes bs (i + 1) k

/-- The little-endian field of `n` bytes at byte `i`. -/
def fieldLE (bs : List Byte) (i n : Nat) : Nat := natLE (takeBytes bs i n)

/-- Bits `[hi:lo]` of a number (R19). -/
def bitsOf (v hi lo : Nat) : Nat := v / 2 ^ lo % 2 ^ (hi + 1 - lo)

/-- A number with bits `[hi:lo]` replaced. -/
def withBits (v hi lo x : Nat) : Nat :=
  v - bitsOf v hi lo * 2 ^ lo + (x % 2 ^ (hi + 1 - lo)) * 2 ^ lo

/-- A list of words as bytes. -/
def wordsLE (ws : List Word) : List Byte := ws.flatMap (fun w => bytesLE 4 w.toNat)

/-- Addition saturating at a bound. -/
def satAdd (a b bound : Nat) : Nat := if a + b > bound then bound else a + b

end Sys2Proof.Machine
end

