-- ==== Sys2Proof/Machine/State.lean ====
section
/-! DEFINITION. The state of the T256: one record per unit, sparse tables for what the manual numbers, the queue of waiting
commands, and the state after reset.
Log: DEDUCED 5, 114, 152, 202. DESIGN CHOICE 4, 8, 9, 17, 43, 173, 213, 222. -/

namespace Sys2Proof.Machine

/-- Reasons a step can stop with a fault. -/
inductive Fault where
  /-- A case of undefined behaviour of R45, by its number. Raised by no command: R9 and R45 say that the machine goes on, and what such a
  case reaches takes free values (`State.undef`, log entry 15). -/
  | undefinedCase (n : Nat)
deriving DecidableEq, Repr

/-- Reasons a command has no meaning. -/
inductive Refusal where
  /-- The command is not modelled yet. Raised by `exec` alone. Safe: no next state is given. -/
  | notModelled (mnemonic : String)
deriving DecidableEq, Repr

/-- The twelve modes (R496), in the order of their codes (R380). -/
inductive Mode where
  | off | reset | boot | configure | commission | idle | standby | armed | run | degraded | safeHold | fault
deriving DecidableEq, Repr

/-- The code of a mode (R380). -/
def Mode.code : Mode → Nat
  | .off => 0 | .reset => 1 | .boot => 2 | .configure => 3 | .commission => 4 | .idle => 5
  | .standby => 6 | .armed => 7 | .run => 8 | .degraded => 9 | .safeHold => 10 | .fault => 11

/-- The variants (Scope and Family). -/
inductive Variant where
  | a | b | c
deriving DecidableEq, Repr

/-- The clock states of one island (R25, CHIP_ISL_STAT). -/
structure IslandSt where
  locked : Bool := false
  inReset : Bool := true
  lockLosses : BitVec 8 := 0#8
  /-- The target frequency in MHz that the image sets (R26), 0 for none. -/
  target : Nat := 0
deriving DecidableEq, Repr

/-- One entry of a cell's loop stack (R46): counter, body, rotate flag and stage count, the count N and the pass it is
in (R65). -/
structure LoopEnt where
  ctr : Nat
  start : Nat
  last : Nat
  rot : Bool
  stages : Nat
  n : Nat
  pass : Nat
deriving DecidableEq, Repr

/-- Where a trig result goes (R72): a physical register, or a word of X or Y by its BAR0 offset. -/
inductive TrigDest where
  | reg (k : Nat)
  | mem (addr : Nat)
deriving DecidableEq, Repr

/-- A trig operation in flight (R72 to R74): what it will write, and whether it was squashed. -/
structure TrigOp where
  writes : List (TrigDest × Word)
  squashed : Bool
deriving DecidableEq, Repr

/-- A work item (R144) with the channel it was submitted on and its expiry in a delay list. -/
structure WorkItem where
  ch : Nat
  tag : Nat
  entry : Nat
  p0 : BitVec 16
  p1 : BitVec 16
  p2 : BitVec 16
  p3 : BitVec 16
  period : Nat
  expiry : Nat
deriving DecidableEq, Repr

/-- What a cell runs: a graph operation, by its place in the image, or a work item. -/
inductive Job where
  | op (k : Nat)
  | item (w : WorkItem)
deriving DecidableEq, Repr

/-- A job that waits for a cell, with its priority and the order in which it became ready (R146). -/
structure Ready where
  job : Job
  prio : Nat
  stamp : Nat
deriving DecidableEq, Repr

/-- The run of a job on a cell: its cycle, whether it is late (R140), what it has issued (R91), the words it has taken
from and written to its queue-operation ports (R119), the ports marked as holds, whether NONFINITE is due (R82, R83),
and the first failure of its mailbox posts (R145), and the input tokens it began with, by queue (R129). -/
structure RunCtx where
  job : Job
  cycle : Word
  ins : List (Nat × Token) := []
  late : Bool := false
  issued : Nat := 0
  rd : List (Nat × Nat) := []
  outs : List (Nat × List Word) := []
  holds : List Nat := []
  nonfinite : Bool := false
  post : List (Nat × List Word) := []
  status : Nat := 0
deriving DecidableEq, Repr

/-- The condition flags of a cell (R46). -/
structure CC where
  z : Bool := false
  n : Bool := false
  u : Bool := false
  t : Bool := false
deriving DecidableEq, Repr

/-- A cell (R46): registers as tables that read 0 where nothing is listed, loops, the trig unit, the job it runs and its
prefetch slot (R148), the branch whose shadow instruction comes next (R69), its two running check values (R84). -/
structure CellSt where
  f : List (Nat × Word) := []
  p : List (Nat × BitVec 16) := []
  m : List (Nat × Word) := []
  c : List (Nat × BitVec 16) := []
  rrb : BitVec 5 := 0#5
  cc : CC := {}
  pc : BitVec 14 := 0#14
  loops : List LoopEnt := []
  shadow : Option (BitVec 14) := none
  trig : List TrigOp := []
  run : Option RunCtx := none
  slot : Option Ready := none
  inReset : Bool := false
  halted : Bool := false
  ch0 : BitVec 64 := 0#64
  ch1 : BitVec 64 := 0#64
deriving DecidableEq, Repr

/-- A post waiting in a mailbox (R153): its apply cycle and value. -/
structure Post where
  apply : Word
  words : List Word
deriving DecidableEq, Repr

/-- A queue of Madder (R130 to R133, R152): its tokens, head first, the slot of its storage that the next token takes, the last
payload that was no hold, its counters, and, for a mailbox, the pending posts and the last value delivered; for a SINK queue, the
cycle of the last launch (R39). -/
structure QueueSt where
  toks : List Token := []
  wr : Nat := 0
  lastGood : List Word := []
  late : Nat := 0
  refused : Nat := 0
  posts : List Post := []
  lastVal : Option Post := none
  mbLate : Nat := 0
  mbSup : Nat := 0
  done : Option Word := none
deriving DecidableEq, Repr

/-- A graph operation's own state: its next-cycle number (R135), the order in which it became ready for it, the cycle
for which QFULL was raised last (R142). -/
structure OpSt where
  next : Word := 0#32
  stamp : Option Nat := none
  qfullAt : Option Word := none
deriving DecidableEq, Repr

/-- A completion record (R145). -/
structure ComplRec where
  tag : Nat
  fault : Nat
  status : Nat
  issued : Word
  tEnd : Word
  cell : Nat
deriving DecidableEq, Repr

/-- A work-item channel: its priority now (R149), its completion records, oldest first, the result of the last
cancel, and the slots that the next descriptor and the next record take (R130). -/
structure ChanSt where
  prio : Nat := 0
  compl : List ComplRec := []
  lastCancel : Nat := 0
  workWr : Nat := 0
  complWr : Nat := 0
deriving DecidableEq, Repr

/-- A delay list (R151): its entries in order of expiry, and the most entries in use since the last read. -/
structure DelaySt where
  ents : List WorkItem := []
  high : Nat := 0
deriving DecidableEq, Repr

/-- The replay engine (R159, R160): whether it runs, whether by single cycles and whether one has been asked for, whether it stops
at the next fence, whether it has begun, whether a cycle is under way, the digest listed for that cycle, and whether an edge E has
passed since the last replayed cycle began. -/
structure ReplaySt where
  running : Bool := false
  stepping : Bool := false
  go : Bool := false
  abort : Bool := false
  begun : Bool := false
  busy : Bool := false
  ref : Option (BitVec 64) := none
  edge : Bool := false
  formed : List Nat := []
deriving DecidableEq, Repr

/-- A snapshot under way (R40, R165): the number of its journal entry, its cycle, where it goes, and its bytes from the fence on. -/
structure SnapSt where
  seq : Nat
  cycle : Word
  addr : Nat
  bytes : Option (List Byte) := none
deriving DecidableEq, Repr

/-- A loop group (R203): the threshold written and the one in effect, its counts, the cycle of its last overrun, whether it
overran in the present cycle, and whether OVERRUN stands raised. -/
structure LoopSt where
  thresh : Nat := 2
  inEffect : Nat := 2
  overruns : Nat := 0
  consec : Nat := 0
  last : Word := 0#32
  now : Bool := false
  raised : Bool := false
deriving DecidableEq, Repr

/-- Madder: queues, operations, jobs that wait, channels, delay lists, the digest and its latch, replay, the SOURCE and SINK
tokens of the present cycle, and a snapshot under way. -/
structure MadSt where
  queues : List (Nat × QueueSt) := []
  ops : List (Nat × OpSt) := []
  waiting : List Ready := []
  chans : List (Nat × ChanSt) := []
  delay : List (Nat × DelaySt) := []
  stamp : Nat := 0
  digestCycle : Word := 0#32
  digest : BitVec 64 := 0#64
  digLatch : Option (BitVec 64) := none
  digReadLo : Bool := false
  digReadHi : Bool := false
  replay : ReplaySt := {}
  samples : List TokenRec := []
  sinks : List TokenRec := []
  snap : Option SnapSt := none
deriving DecidableEq, Repr

/-- A command as it stands inside the T256 (R363): its port, header and parameter bytes, and its submission slot when it
came through a queue pair, with the enabling of the pair that fetched it; once accepted, its cycle of effect. -/
structure CmdIn where
  port : Port
  opcode : Nat
  irq : Bool
  chk : Bool
  at_ : Bool
  tag : BitVec 16
  apply : Word
  checkOk : Bool
  param : List Byte
  slot : Option Nat := none
  era : Nat := 0
  cyc : Word := 0#32
deriving DecidableEq, Repr

/-- A work item's completed post (R154): its channel and tag, the mailbox, the apply cycle and the value. -/
structure ItemPost where
  ch : Nat
  tag : Nat
  queue : Nat
  post : Post
deriving DecidableEq, Repr

/-- A command that has arrived and that the command processor has not taken (R369), with its instant of arrival; for the
source of work-item posts, the post. -/
structure Waiting where
  src : Nat
  cmd : CmdIn
  item : Option ItemPost := none
  atS : Nat
  atNs : Nat
deriving DecidableEq, Repr

/-- A reply (R365) as its 32 bytes, without the phase, and its long data. -/
structure Reply where
  bytes : List Byte
  long : List Byte
  irq : Bool
deriving DecidableEq, Repr

/-- A command fetched by a queue pair whose reply is not yet written (R369): its slot, the enabling of the pair that fetched it, and the reply once there is one. -/
structure Owed where
  slot : Nat
  tag : BitVec 16
  reply : Option Reply
  era : Nat := 0
deriving DecidableEq, Repr

/-- A queue pair (R367): the present phase, the completion entries in use, the replies it owes, in submission order, and the number of
times it has been enabled. -/
structure QpSt where
  phase : Bool := true
  used : Nat := 0
  owed : List Owed := []
  era : Nat := 0
deriving DecidableEq, Repr

/-- A cycle-fenced command in the pending list (R375). -/
structure Fenced where
  cmd : CmdIn
  cycle : Word
  seq : Nat
deriving DecidableEq, Repr

/-- The command processor and the ports. `awaitAck` holds replies that wait for the standby's ACK of an entry (R427), `results`
the commands whose execution is under way, with their entry's number (R372). While `stalled` stands a timeout raises no class: until a command
has been taken, and after a first timeout (R373). -/
structure HostSt where
  waiting : List Waiting := []
  turn : Nat := 70
  qps : List (Nat × QpSt) := []
  spiBusy : Bool := false
  spiReply : Option (List Byte) := none
  mgmt : List Nat := []
  fenced : List Fenced := []
  latched : List (Nat × Word) := []
  awaitAck : List (Nat × CmdIn × Reply) := []
  results : List (Nat × CmdIn) := []
  stalled : Bool := true
deriving DecidableEq, Repr

/-- Ochre (R388 to R394): the entries still held, newest first, the counters, and the mirror. -/
structure JnlSt where
  head : Nat := 0
  entries : List JEntry := []
  overwritten : Nat := 0
  mirrored : Nat := 0
  frozen : Bool := false
  vholdLow : Bool := false
  retained : Bool := false
  mirrorErr : Bool := false
  copying : Bool := false
  lagHolds : Bool := false
  mirror : List (Nat × Option JEntry) := []
deriving DecidableEq, Repr

/-- A Foxglove record (R451). -/
structure FoxRec where
  no : Nat
  cls : Nat
  level : Nat
  esc : Bool
  ack : Bool
  src : FoxSrc
  count : Nat
  cycle : Word
  firstNs : Word
  firstS : Word
  lastNs : Word
  lastS : Word
deriving DecidableEq, Repr

/-- A unit in its fault state at a level, and the ticks since reset at its last raising (R454). -/
structure FaultState where
  level : Nat
  src : FoxSrc
  since : Nat
deriving DecidableEq, Repr

/-- A source's alarm window: the records changed in its millisecond, and the ticks since reset at which that began (R458). -/
structure AlarmWin where
  src : FoxSrc
  changed : List Nat
  since : Nat
deriving DecidableEq, Repr

/-- Foxglove (R446 to R458): raisings on their way to it, the record queue, oldest first, the retained records, fault
states, the safe latch and the fatal flag, and the alarm windows. -/
structure FoxSt where
  inflight : List Raising := []
  queue : List FoxRec := []
  retained : List FoxRec := []
  head : Nat := 0
  states : List FaultState := []
  latch : Bool := false
  fatal : Bool := false
  windows : List AlarmWin := []
deriving DecidableEq, Repr

/-- A parameter buffer of the flash device (R505). -/
structure ParamBuf where
  gen : Nat
  crcOk : Bool
  check : BitVec 64
  axes : List (Nat × List Word)
deriving DecidableEq, Repr

/-- A copy of the boot directory (R502): whether its CRC-32C holds, the generation of each slot and whether it is valid. -/
structure BootDir where
  crcOk : Bool := true
  gen0 : Word := 0#32
  gen1 : Word := 0#32
  valid0 : Bool := false
  valid1 : Bool := false
deriving DecidableEq, Repr

/-- The octal SPI device (R502), the journal mirror apart: the directory and its copy, the two image slots, the parameter buffers A and
B, and the safety confirmation record, the check value with the sequence number of the confirming entry (R415). -/
structure FlashSt where
  dir0 : BootDir := {}
  dir1 : BootDir := {}
  slot0 : Option ImageFile := none
  slot1 : Option ImageFile := none
  bufA : Option ParamBuf := none
  bufB : Option ParamBuf := none
  confirm : Option (Word × Nat) := none
deriving DecidableEq, Repr

/-- Where the loaded image came from (R507, CHIP_BOOT_STAT.result). -/
inductive ImgSource where
  | slot (k : Nat)
  | host
deriving DecidableEq, Repr

/-- Power, reset and boot (R497 to R513, R532): the BOOT entry kind of the reset in progress, the key hash in the
fuses where they are programmed, VHOLD in range, PFAIL_N, PFAIL handling and whether its cause has gone, the hold of R512, RESET_N low during handling, the
two retained fields of CHIP_PWR, the straps, where the loaded image came from, its file, the blocks that PARAM_SAVE is writing, the
parameter buffer loaded last, units under
LEVEL_RESET (level, index) and those that resume at the next edge E; whether ARMED was reached by REARM, whether COMMISSION is entered
at the next edge E; sensor readings since THERMAL_WARN and THERMAL were last raised, while they stand. -/
structure PowerSt where
  kind : Nat := 0
  fuses : Option (List Byte) := none
  vholdOk : Bool := true
  pfailN : Bool := true
  handling : Bool := false
  released : Bool := false
  holdReset : Bool := false
  resetLow : Bool := false
  lastDet : Bool := false
  flushUs : BitVec 16 := 0#16
  strap : BitVec 2 := 0#2
  source : Option ImgSource := none
  file : Option ImageFile := none
  saving : Option (List (Nat × List Word)) := none
  bufLast : Nat := 1
  unitResets : List (Nat × Nat) := []
  resuming : List (Nat × Nat) := []
  rearmed : Bool := false
  entering : Bool := false
  warm : Option Nat := none
  hot : Option Nat := none
deriving DecidableEq, Repr

/-- A setting of a clock output (R348): period in ns and its fraction. -/
structure ClkSet where
  per : Word
  frac : Word
deriving DecidableEq, Repr

/-- A stretch of a clock output's wave (R348, R349): its setting, the rising edge with which it begins and the edge at which another
stretch takes over or the output stops, in 2^−16 ns. -/
structure ClkSeg where
  set : ClkSet
  rise : Int
  till : Option Int
deriving DecidableEq, Repr

/-- The time unit (R330 to R351): the time value, the present and the committed increment, whether the next tick takes the
target (R333), the spacing of the ramp boundaries and the step in force, the ticks since reset, those to the next boundary and the
count of ticks at which the holdover timer began (R335), the registers latched by TIME_NOW_SUB, the edge grid of
R336 (t_0 in seconds and n_0), PPS_OUT (the second of its next rise, the end of its pulse in 2^−16 ns), and the clock outputs:
the stretches of each one's wave, in order, and the setting that awaits lock. -/
structure TimeSt where
  s : BitVec 64 := 0#64
  ns : Word := 0#32
  frac : BitVec 40 := 0#40
  inc : BitVec 48 := 0x020000000000#48
  tgt : BitVec 48 := 0x020000000000#48
  takeTgt : Bool := false
  interval : BitVec 16 := 1#16
  step : BitVec 16 := 0#16
  ran : Nat := 0
  left : Nat := 500
  hold : Nat := 0
  latNs : Word := 0#32
  latS : BitVec 64 := 0#64
  t0 : Option Nat := none
  n0 : Word := 0#32
  ppsHigh : Bool := false
  ppsFrom : Nat := 1
  ppsEnd : Int := 0
  clkNow : List (Nat × List ClkSeg) := []
  clkNext : List (Nat × ClkSet) := []
deriving DecidableEq, Repr

/-- A transmit stamp (R345). -/
structure Stamp where
  id : BitVec 16
  sub : BitVec 16
  ns : Word
  s : BitVec 64
deriving DecidableEq, Repr

/-- A frame in the forwarding buffer (R340, R344): whether it is a recognised event message, its ingress stamp in 2^−16 ns, its
bytes without the FCS. -/
structure BbFwd where
  ptp : Bool
  stamp : Int
  bytes : List Byte
deriving DecidableEq, Repr

/-- A backbone port: the frames it has yet to forward, the transmit stamp queue, oldest first, the timed frame that waits at the head of
the ring, the instant at which the descriptor there reached the head, the part's own frames that wait for the guard to end (R346). -/
structure BbSt where
  fwd : List BbFwd := []
  tsq : List Stamp := []
  timed : Option BbTxDesc := none
  headAt : Int := 0
  held : List (List Byte) := []
deriving DecidableEq, Repr

/-- The axis modes (R171), in the order of their codes. -/
inductive AxMode where
  | off | sixStep | current | velocity | position | decel | step | safe
deriving DecidableEq, Repr

/-- The code of an axis mode. -/
def AxMode.code : AxMode → Nat
  | .off => 0 | .sixStep => 1 | .current => 2 | .velocity => 3 | .position => 4 | .decel => 5 | .step => 6 | .safe => 7

/-- The axis mode of a code. -/
def AxMode.ofCode : Nat → AxMode
  | 0 => .off | 1 => .sixStep | 2 => .current | 3 => .velocity | 4 => .position | 5 => .decel | 6 => .step | _ => .safe

/-- The state block of K_INNER (R168, R177 to R199): holds in a row, cycles since the last sample that was no hold, the
position of that sample, the current integrators, the held voltages, bus voltage, angle and speeds, the measured currents,
the speed filter of the encoder, the voltage and current vectors of the cycle before, the budget and limit of R194, the iq
reference in use, the counts of R196, R197 and R199, the sectors of R196, the phase order of R187, the node flags and event
count last read. -/
structure AxIn where
  holds : Nat := 0
  gap : Nat := 0
  posPrev : Option Word := none
  xd : Word := 0#32
  xq : Word := 0#32
  vd : Word := 0#32
  vq : Word := 0#32
  vbus : Word := 0#32
  theta : Word := 0#32
  th : Word := 0#32
  we : Word := 0#32
  wm : Word := 0#32
  id : Word := 0#32
  iq : Word := 0#32
  encW : Word := 0#32
  va : Word := 0#32
  vb : Word := 0#32
  ia : Word := 0#32
  ib : Word := 0#32
  a : Word := 0#32
  limited : Bool := false
  iLim : Word := 0#32
  iqr : Word := 0#32
  uv : Nat := 0
  chopOn : Bool := false
  lr : Nat := 0
  sec : Option Nat := none
  left : Option Nat := none
  armed : Bool := false
  slow : Nat := 0
  x3 : Nat := 0
  x1 : Nat := 2
  ssClamp : Bool := false
  flags : Nat := 0
  ev : Nat := 0
  angle : Nat := 0
deriving DecidableEq, Repr

/-- The tracking loops of R183 and R184 and the polarity detection of R186: observer angle and speed, injection angle and
speed, the currents of the previous sample in the frame of the injection, whether the last command carried injection, the
cycle of the detection (0 when none runs) and its two peaks. -/
structure AxTrk where
  th : Word := 0#32
  w : Word := 0#32
  hth : Word := 0#32
  hw : Word := 0#32
  idP : Word := 0#32
  iqP : Word := 0#32
  iqH : Word := 0#32
  inj : Bool := false
  pol : Nat := 0
  pk1 : Word := 0#32
  pk2 : Word := 0#32
deriving DecidableEq, Repr

/-- The states of SIX_STEP (R190). -/
inductive SixPhase where
  | align | ramp | run
deriving DecidableEq, Repr

/-- The six-step sequence (R189 to R193); `neg` is negative rotation, in which the steps run backwards, and `xi` the integrator of the PI
that regulates the current of ALIGN. -/
structure AxSix where
  ph : SixPhase := .align
  cnt : Nat := 0
  step : Nat := 0
  phi : Word := 0#32
  f : Word := 0#32
  good : Nat := 0
  evStep : Nat := 0
  since : Nat := 0
  ival : Nat := 0
  ivalN : Nat := 1
  pend : Nat := 0
  inStep : Nat := 0
  we : Word := 0#32
  scale : Option Word := none
  cool : Nat := 0
  refusals : Nat := 0
  blend : Nat := 0
  delta : Word := 0#32
  neg : Bool := false
  xi : Word := 0#32
deriving DecidableEq, Repr

/-- The states of the repetitive controller (R229). -/
inductive RcState where
  | frozen | learn | diverged
deriving DecidableEq, Repr

/-- The profile generator (R217 to R219) and the stored target: `kindPos` is the last delivered target kind, `sub` the sub-mode
of the last step. -/
structure AxProf where
  pInt : BitVec 64 := 0#64
  pFrac : Word := 0#32
  v : Word := 0#32
  a : Word := 0#32
  tgt : BitVec 64 := 0#64
  vTgt : Word := 0#32
  ovr : Word := 0x3F800000#32
  kindPos : Bool := true
  sub : Nat := 0
  inPos : Bool := false
deriving DecidableEq, Repr

/-- The repetitive controller (R228 to R230): its state, table, base cycle, the sums of this period and the last, the
periods of growth in a row, the index of the last cycle. -/
structure AxRc where
  st : RcState := .frozen
  tab : List (Nat × Word) := []
  n0 : Word := 0#32
  sum : Word := 0#32
  last : Option Word := none
  grow : Nat := 0
  kLast : Nat := 0
deriving DecidableEq, Repr

/-- The supervisor (R232 to R234). -/
structure AxSup where
  wmP : Word := 0#32
  iqP : Word := 0#32
  rf : Word := 0#32
  rs : Word := 0#32
  dev : Word := 0#32
  cnt : Nat := 0
  warn : Bool := false
  plausNow : Bool := false
  followNow : Bool := false
  plaus : Bool := false
  follow : Bool := false
deriving DecidableEq, Repr

/-- The state block of K_OUTER (R213 to R233): multi-turn position, last position read, speed and current, velocity
integrator, ramp speed of DECEL, axis mode of the last feedback token, position error, discarded targets, idle count, and k_c as it was
formed at entry into RUN (R212). -/
structure AxOut where
  p : BitVec 64 := 0#64
  pos : Option Word := none
  wm : Word := 0#32
  iq : Word := 0#32
  xv : Word := 0#32
  wr : Word := 0#32
  mode : AxMode := .off
  eP : Word := 0#32
  tgtRefused : Nat := 0
  idle : Nat := 0
  prof : AxProf := {}
  rc : AxRc := {}
  sup : AxSup := {}
  kc : Word := 0#32
deriving DecidableEq, Repr

/-- An axis (R168, R171, R200, R206): its parameter block, mode, follow mode, fault bits, requests refused, the cycle of the
last mode change, the states of the two kernels, and the microstep table of a stepper group, where it differs from the
default (R225). -/
structure AxisSt where
  params : List (Nat × Word) := []
  mode : AxMode := .off
  follow : AxMode := .off
  faults : BitVec 7 := 0#7
  reqRefused : Bool := false
  refusals : Nat := 0
  since : Word := 0#32
  i : AxIn := {}
  trk : AxTrk := {}
  six : AxSix := {}
  o : AxOut := {}
  ms : List (Nat × BitVec 16) := []
deriving DecidableEq, Repr

/-- What one channel of Woad holds of one axis (R403 to R407): last position, speed, the functions running (v_0 and cycles
for SS1 and SS2, the entry position of SOS, cycles of SLS, counts moved since the SDI request), whether SS1 and SS2 have come to their
ends, the latched reactions, its decisions, and whether STO was requested in this safety cycle and in the one before. -/
structure SfCh where
  pos : Option Int := none
  v : Int := 0
  ss1 : Option (Nat × Nat) := none
  ss1End : Bool := false
  ss2 : Option (Nat × Nat) := none
  ss2End : Bool := false
  sos : Option Int := none
  sls : Option Nat := none
  slp : Bool := false
  sdi : Option Int := none
  stoLatch : Bool := false
  ss1Latch : Bool := false
  hold : Bool := false
  active : BitVec 9 := 0#9
  energise : Bool := false
  brake : Bool := false
  ssm : Bool := false
  stop : Bool := false
  sto : Bool := false
  stoWas : Bool := false
deriving DecidableEq, Repr

/-- An axis of Woad: its two channels, the position that the tap of the SOURCE path took in the cycle that opened the safety cycle, and whether
that cycle's token has passed it (R403), safety cycles in a row with each position missing, the latched feedback fault, and the stop request
as it stood at the last edge E (R407). -/
structure WoadAx where
  a : SfCh := {}
  b : SfCh := {}
  tap : Option Word := none
  tapped : Bool := false
  miss1 : Nat := 0
  miss2 : Nat := 0
  fbFault : Bool := false
  stopAsked : Bool := false
deriving DecidableEq, Repr

/-- One channel of a safe input (R400): its level, the level that is coming in and for how many samples. -/
structure InCh where
  level : Bool := false
  cand : Bool := false
  run : Nat := 0
deriving DecidableEq, Repr

/-- The state of a faulted safe input (R401). -/
inductive InFault where
  | none | awaitDemand | awaitActive
deriving DecidableEq, Repr

/-- A safe input (R400 to R402); `apart`: the instant since which the filtered channels disagree. -/
structure SiSt where
  a : InCh := {}
  b : InCh := {}
  apart : Option Int := none
  rev : Bool := false
  fault : InFault := .none
deriving DecidableEq, Repr

/-- A telegram connection (R410, R411): the count last sent or accepted, the copies of this safety cycle, the payload
accepted last and whether one was accepted in this cycle, cycles without one, what has been raised; the telegram to send. -/
structure ConnSt where
  count : Nat := 0
  ring : Option (List Byte) := none
  line : Option (List Byte) := none
  payload : List Byte := []
  fresh : Bool := false
  miss : Nat := 0
  expired : Bool := true
  pathRaised : Bool := false
  sentRing : Bool := false
  sentLine : Bool := false
  wdRaised : Bool := false
  out : List Byte := []
deriving DecidableEq, Repr

/-- Woad (R396 to R416): its parameter set, whether it is accepted and locked, edges since the origin and whether a safety cycle is due (R399), axes,
inputs, outputs on and faulted, connections, the test pulse in progress (channel, samples left), resets requested, the
shadow counters of the feedback interfaces, the cycle that the active's CYCLE_START has announced as opening a safety cycle, the lasting fault of R397, resets refused, the reply owed on the Woad line,
whether PFAIL holds the outputs off, and the status words as the last safety cycle left them (R416); the cycle whose edge E
has opened the safety cycle and the shadow counters at that edge (R403); the slots of the Woad line taken in this cycle (R412). -/
structure WoadSt where
  set : Option SafetySet := none
  accepted : Bool := false
  locked : Bool := false
  edges : Nat := 0
  due : Bool := false
  axes : List (Nat × WoadAx) := []
  si : List (Nat × SiSt) := []
  so : BitVec 8 := 0#8
  soFault : BitVec 8 := 0#8
  conns : List (Nat × ConnSt) := []
  pulse : Option (Bool × Nat) := none
  resets : List Nat := []
  shadow : List (Nat × Word) := []
  mark : Option Word := none
  internal : Bool := false
  refused : Nat := 0
  reply : Option (List Byte) := none
  pfail : Bool := false
  shown : List (Nat × Word) := []
  openAt : Option Word := none
  shadowAt : List (Nat × Word) := []
  lineUsed : List Nat := []
deriving DecidableEq, Repr

/-- Capture states of Indigo (R475). -/
inductive CapState where
  | off | run | stopping | stopped
deriving DecidableEq, Repr

/-- The code of a capture state (IND_STAT). -/
def CapState.code : CapState → Nat
  | .off => 0 | .run => 1 | .stopping => 2 | .stopped => 3

/-- What belongs to one cycle by its time (R464, R465, R472): the first four Foxglove records with the count of the other
raisings, whether a raising was at L1 or above, whether TRIG_FIRE fell, and the results of the selected inputs. -/
structure IndBucket where
  fox : List FoxRec := []
  gap : Nat := 0
  high : Bool := false
  fire : Bool := false
  adc : List (Nat × Word) := []
deriving DecidableEq, Repr

/-- A group in staging memory (R462, R470): its offset and bytes. -/
structure IndGroup where
  off : Nat
  bytes : List Byte
deriving DecidableEq, Repr

/-- Indigo (R461 to R477): capture state, the first and last cycles set for it and whether the first has come, cycles left in STOPPING,
offsets, groups staged, cycles lost and their cause, buckets of this cycle and the last, whether the last has been closed, tokens not yet
closed, user marks by cycle, the sequencer and the first cycle it evaluates after an arming, until that has come, the timers that run and
that have expired, the words of each queue's last token that was no hold, the cycle of the last mark, the pins TRIG_ARM and TRIG_FIRE. -/
structure IndSt where
  st : CapState := .off
  first : Word := 0#32
  begun : Bool := false
  last : Option Word := none
  post : Nat := 0
  next : BitVec 54 := 0#54
  wr : BitVec 54 := 0#54
  staged : List IndGroup := []
  lost : Nat := 0
  lostCause : Nat := 0
  hostErr : Bool := false
  below : Bool := false
  suspended : Bool := false
  cur : IndBucket := {}
  prev : IndBucket := {}
  shut : Bool := false
  toks : List TokenRec := []
  marks : List (Word × Word) := []
  seq : Nat := 0
  armFrom : Option Word := none
  running : List Nat := []
  expired : List Nat := []
  prevX : List (Nat × List Word) := []
  nT : Option Word := none
  trigs : Nat := 0
  armHigh : Bool := false
  firing : Bool := false
deriving DecidableEq, Repr

/-- The roles of a part (LSP_STAT). -/
inductive LspRole where
  | unpaired | active | standby
deriving DecidableEq, Repr

/-- The states of synchronisation (LSP_STAT, R435). -/
inductive LspSync where
  | none | syncing | inStep
deriving DecidableEq, Repr

/-- Witnesses of one cycle at the standby (R436), and whether one carried resign = 1. -/
structure Witness where
  twin : Bool := false
  line : Bool := false
  cs : Bool := false
  resign : Bool := false
deriving DecidableEq, Repr

/-- Larkspur (R419 to R443): role, synchronisation, readiness, position; the twin link, the partner's last heartbeat, whether one came
in this cycle, cycles without one by the twin link and by the Woad line (none before the first), image and readiness of the partner;
witnesses of the last two cycles, and whether the coming cycle's W has passed; the comparisons of this cycle and of the last, with the
digest and the copy's check value of each part; the copy being received, whether one has been loaded, the frames held for the catch-up,
the cycles caught up and whether one is under way; takeover, resignation, planned switch, CS instants, cycles without a running ring; acknowledged entries; what has
been raised: LOST, and bits for the paths and isolation; the delay of the twin link measured at pairing, in 2^−16 ns (R432); the rings whose
COMMAND subframes have been compared in this cycle and whether any differed, and whether the cycle before held in that comparison. -/
structure LspSt where
  role : LspRole := .unpaired
  sync : LspSync := .none
  ready : Bool := false
  pos : Bool := false
  linkUp : Bool := false
  hb : Option TwinHeartbeat := none
  hbNow : Bool := false
  hbMiss : Option Nat := none
  lineMiss : Option Nat := none
  imageOk : Bool := false
  partnerReady : Bool := false
  wPrev : Witness := {}
  wNow : Witness := {}
  watched : Bool := false
  csSeen : Bool := false
  mmKind : Nat := 0
  matchRun : Nat := 0
  lateOp : Option Word := none
  bad : Bool := false
  digOk : Bool := false
  copyOk : Bool := false
  digestIn : Option (Word × BitVec 64) := none
  own : Option (Word × BitVec 64) := none
  copyIn : Option (Word × BitVec 64) := none
  copyCycle : Word := 0#32
  copySize : Nat := 0
  copy : List (Nat × List Byte) := []
  loaded : Bool := false
  heldToks : List TokenRec := []
  heldJnl : List JEntry := []
  caught : Nat := 0
  catching : Bool := false
  tookOver : Bool := false
  resign : Bool := false
  switchAt : Option Word := none
  csSent : Bool := false
  csMissed : Bool := false
  silentCs : Nat := 0
  downRun : Nat := 0
  acked : Nat := 0
  lostRaised : Bool := false
  pathRaised : Nat := 0
  linkDelay : Nat := 0
  cmdSeen : List Nat := []
  cmdBad : Bool := false
  cmdOk : Bool := false
deriving DecidableEq, Repr

/-- How far a port in DISCOVER has come (R269): awaiting its DISCOVER frames, ECHOs, DESC_ACKs, or the next cycle boundary. -/
inductive DiscStep where
  | discover | echo | desc | done
deriving DecidableEq, Repr

/-- Evidence of a break (R274): whether it came after the heal decision instant, the side of the path and the loop-back node at
its end, if one was named. -/
structure HealEv where
  late : Bool
  side : Side
  node : Option Nat
deriving DecidableEq, Repr

/-- An ASYNC frame that waits to be sent (R251): its destination, operation, header flags and body. -/
structure AsyncMsg where
  node : Nat
  op : Nat
  flags : Nat
  body : List Byte
deriving DecidableEq, Repr

/-- A ring port (R239 to R287) besides its registers: slots with what has been measured and granted; the node block and
auxiliary words of each node that came in this cycle (`shown`, `shownAux`: in the last one, R287); nodes whose subframe came in this
cycle; whether SAMPLE_DUE and the launch of each side have passed in it; the last command record sent for each axis; cycles with a
CYCLE_START sent and none returned, the instant of the last, and whether one has returned; evidence of a break; what the CYCLE_STARTs
passing in PASS say; DISCOVER; verification due after a reclose; cycles with every far lock; permission to reclose and a reclose decided;
ASYNC frames that wait, and the DESC_WRITEs, each with the CYCLE_START delays of the pair's other position where it is for that one
(R440); the response buffer; a grant to be announced; whether a claim has won in this cycle; whether the port has been started at entry
to IDLE (R513); whether the rate is settled, and the ticks since reset at which the present one came to be tried (R241); windows of the
cycle that have been taken, by entry and side (R258); sides whose SAMPLE train the port has launched in the cycle (R247); the nodes' echo times, the cycles since DISCOVER began and whether it has failed
(R269); the sides exchanged (R270); whether a CYCLE_START has left in the cycle (R272); the delays to the pair's other part, where its ECHO has come back (R440). -/
structure RingSt where
  slots : List SlotDesc := []
  blocks : List (Nat × NodeBlock) := []
  aux : List (Nat × List Word) := []
  fresh : List Nat := []
  dueE : Bool := false
  dueW : Bool := false
  sentE : Bool := false
  sentW : Bool := false
  prev : List (Nat × List Word) := []
  sentRun : Nat := 0
  csAt : Option Int := none
  returned : Bool := false
  evid : List HealEv := []
  csHealed : Bool := false
  csLaunch : Option Word := none
  step : DiscStep := .discover
  echoes : List (Side × Nat) := []
  acks : List Nat := []
  waited : Nat := 0
  verify : Bool := false
  farRun : Nat := 0
  permit : Bool := false
  reclosing : Bool := false
  asyncQ : List AsyncMsg := []
  descQ : List (Nat × Option (Nat × Nat)) := []
  arsp : List (List Byte) := []
  grant : Option (Nat × BitVec 16) := none
  claimed : Bool := false
  started : Bool := false
  rateHeld : Bool := false
  rateAt : Nat := 0
  used : List (Nat × Side) := []
  launched : List Side := []
  shown : List (Nat × NodeBlock) := []
  shownAux : List (Nat × List Word) := []
  echoNs : List (Nat × Nat) := []
  discFor : Nat := 0
  discFailed : Bool := false
  exchanged : Bool := false
  csSent : Bool := false
  twinE : Option Nat := none
  twinW : Option Nat := none
deriving DecidableEq, Repr


/-- What a coil of a stepper group does (R305 to R307): drive, fast decay with what follows it, slow decay. -/
inductive CoilPhase where
  | slow | drive | fast
deriving DecidableEq, Repr

/-- The chopper of one coil (R305 to R307): its phase, the direction of the bridge, the instant the phase began, the end of the fast
part of mixed decay, whether the direction of the reference has changed, the extremes of the chop period, whether DECAY followed a
DRIVE in it, the offset in 1/8 code, the instants at which the legs last changed. -/
structure CoilSt where
  ph : CoilPhase := .slow
  pos : Bool := true
  since : Int := 0
  mixEnd : Option Int := none
  turning : Bool := false
  hi : Option Int := none
  lo : Option Int := none
  paired : Bool := false
  o : Int := 0
  leg1At : Option Int := none
  leg2At : Option Int := none
deriving DecidableEq, Repr

/-- A gate edge placed on the 125 ps grid: taps from the start of the period, the output, its level (R294). -/
structure GateEdge where
  at_ : Nat
  out : Nat
  high : Bool
deriving DecidableEq, Repr

/-- The carry of one channel of a three-phase group into the next period (R296, R298): whether it was driven, its level, whether it
stays high through a removed low interval, the taps that the next rise must not precede, for a stretched lower pulse, those that the fall of
an interval begun in the last period must not precede, for a stretched upper pulse, and whether such an interval has been removed. -/
structure ChanCarry where
  driven : Bool := false
  high : Bool := false
  hold : Bool := false
  rise : Nat := 0
  fall : Nat := 0
  cut : Bool := false
deriving DecidableEq, Repr

/-- A local group (R291 to R308) besides its registers: the record in effect and the one taken for the next apply instant, whether the
command token of the cycle has been taken; the hold limit exceeded, the safe pattern of order 5, output fault; whether the carrier
runs, the start of its period, the periods still to begin before the next apply instant and that instant; the length of the present
period, the levels of the outputs at its start, its edges (those past its end belong to the next); the carry of the four channels,
the carry with which the present pattern began and the place in the period where it did; the instant at which the safe pattern came
and the outputs before it; the end of a pending commutation delay, the instant of the last change of step, the event count; the
coils. -/
structure LgSt where
  rec_ : List Word := [0#32, 0#32, 0#32]
  next : Option (List Word) := none
  taken : Bool := false
  heldOut : Bool := false
  safe5 : Bool := false
  fault : Bool := false
  started : Bool := false
  start : Int := 0
  left : Nat := 0
  until_ : Int := 0
  len : Nat := 0
  base : Nat := 0
  edges : List GateEdge := []
  carry : List (Nat × ChanCarry) := []
  was : List (Nat × ChanCarry) := []
  from_ : Nat := 0
  safeAt : Option (Int × Nat) := none
  delay : Option Int := none
  stepAt : Option Int := none
  ev : Nat := 0
  masked : Bool := false
  coilA : CoilSt := {}
  coilB : CoilSt := {}
deriving DecidableEq, Repr

/-- A conversion under way (R309, R312): the sequence entry (64 for ADC_URG), the channel, urgent or not, whether it restarts an
aborted one, and its start. -/
structure Conv where
  entry : Nat
  chan : Nat
  urgent : Bool
  rst : Bool := false
  early : Bool := false
  start : Int
deriving DecidableEq, Repr

/-- An ADC converter (R310 to R313): the conversion under way, the entry that begins next (64 when idle until the next edge E), whether
that timed entry has come due, urgent requests that wait (entry and channel), an aborted entry to restart, the input whose last
conversion was out of range, and urgent timed entries of the cycle that were served before the table came to them. -/
structure AdcSt where
  run : Option Conv := none
  idx : Nat := 64
  due : Bool := false
  urgent : List (Nat × Nat) := []
  aborted : Option Nat := none
  lastOvr : Option Nat := none
  took : List Nat := []
deriving DecidableEq, Repr

/-- A result taken for a record field (R317): its code, and whether it carried nb and ovr. -/
structure DstRes where
  code : Nat
  nb : Bool
  ovr : Bool
deriving DecidableEq, Repr

/-- What the converters share: results of the cycle by 64 × converter + entry, oldest first, whether the records of the cycle have been
formed, calibration points measured by channel (the sum of 64 raw codes and the target), the calibration under way (its entry's
number, channel, point, target) and the ticks since reset at which it began. -/
structure AdcUnit where
  sent : Bool := false
  dst : List (Nat × DstRes) := []
  points : List (Nat × Nat × Nat) := []
  cal : Option (Nat × Nat × Nat × Nat) := none
  calAt : Nat := 0
deriving DecidableEq, Repr

/-- A feedback interface (R318 to R325) besides its registers: the stamps of the last counted edge and its direction, the first Z
latch, the Hall state and the one before it that was valid, counts since, disagreements in a row, whether A and B are to be
exchanged from the next edge E, the latched Hall state; a serial request under way, whether its edge E has passed, whether the frame
of the cycle is good, the position of the frame before; the warning condition as last raised; what stands at the Hall inputs as far as is known,
and whether they have been read since they were enabled. -/
structure FbSt where
  stamp : Option Int := none
  down : Option Bool := none
  firstZ : Option Word := none
  zeroed : Bool := false
  hall : Nat := 0
  valid : Option Nat := none
  moved : Int := 0
  bad : Nat := 0
  swapNext : Bool := false
  hallLat : Nat := 0
  waits : Bool := false
  passed : Bool := false
  good : Bool := false
  prev : Option Word := none
  warned : Bool := false
  qerr : Bool := false
  qerrOld : Bool := false
  hallPin : Option Nat := none
  hallRead : Bool := false
deriving DecidableEq, Repr

/-- A descriptor an engine runs (R487 to R490), with its host address. -/
structure DmaRun where
  addr : Nat
  bytes : List Byte
deriving DecidableEq, Repr

/-- The DMA unit (R481 to R491) besides its registers: the descriptors under way by engine, the scan of the first engine (start,
length, function) and of the second, the words last written to CRC_CH_VAL_LO, the count of ticks since reset at which the scrubber's
last period ended. -/
structure DmaSt where
  runs : List (Nat × DmaRun) := []
  scan : Option (Nat × Nat × Nat) := none
  scan2 : List (Nat × Nat × Nat × Nat) := []
  lo : List (Nat × Word) := []
  scrubAt : Nat := 0
deriving DecidableEq, Repr

/-- What the T256 has sent to its surroundings, newest first in `State.sent`: the model's own record of outputs. -/
inductive Output where
  /-- The word a register or window read returned. -/
  | readData (fn off : Nat) (data : Word)
  /-- The same, marked poisoned (R29, R56). -/
  | readPoisoned (fn off : Nat) (data : Word)
  /-- A write to host memory: a reply, its long data, a token record, DMA data, a group of Indigo's stream. -/
  | hostWrite (addr : Nat) (bytes : List Byte)
  /-- A read of host memory that a command asks for: an image (R500). -/
  | hostRead (addr len : Nat)
  /-- An MSI-X message (R359). -/
  | msix (fn vector : Nat)
  /-- A reply on the SPI management port as RPL returns it, or the data of RDREG (R385). -/
  | spi (bytes : List Byte)
  /-- A reply sent by the Woad line (R412). -/
  | woadReply (bytes : List Byte)
  /-- A frame sent by a backbone port (R341). -/
  | backbone (port : Nat) (bytes : List Byte)
  /-- A ring frame: ring, side, and its bytes from the start block to the terminate block (R242). -/
  | ring (ring : Nat) (side : Side) (bytes : List Byte)
  /-- A frame that a port in PASS forwards: ring and the side it leaves by (R268, R430). -/
  | ringForward (ring : Nat) (side : Side) (frame : RingFrame)
  /-- A Woad line frame other than a reply, sent or repeated (R412, R426): the ports it leaves by, bit 0 WL_A and bit 1 WL_B. -/
  | woadLine (ports kind : Nat) (bytes : List Byte)
  /-- A twin-link frame: its bytes from the start block to the terminate block (R423). -/
  | twin (bytes : List Byte)
  /-- A write to the octal SPI device, by its offset (R502). -/
  | flash (off : Nat) (bytes : List Byte)
  /-- A request clock sequence on a serial feedback interface (R323). -/
  | serialRequest (fb : Nat)
  /-- A PPS, trigger or JTAG pin event, by the pin's name. -/
  | pin (name : String) (level : Bool)
deriving DecidableEq, Repr

/-- How far the effect of a case of undefined behaviour reaches (R45, last column): the outputs of a cell, the outputs of the cells of
a region, a ring, the gate outputs of a local group, the unit whose registers begin at a BAR0 offset, the whole part. -/
inductive Extent where
  | cell (n : Nat)
  | region (n : Nat)
  | ring (n : Nat)
  | group (k : Nat)
  | unit (base : Nat)
  | chip
deriving DecidableEq, Repr

/-- An arbiter (R30, R32 to R34): its present slot, the requester its round robin served last, the turns that one has had.
It starts at slot 0 with requester 0 as the one served last (log entry 213). -/
structure WheelSt where
  slot : Nat := 0
  last : Nat := 0
  spent : Nat := 0
deriving DecidableEq, Repr

/-- The arbiters of the blocks, of the regions, of the chip. -/
structure ArbSt where
  blocks : List (Nat × WheelSt) := []
  regions : List (Nat × WheelSt) := []
  chip : WheelSt := {}
deriving DecidableEq, Repr

/-- The state of the T256. -/
structure State where
  /-- Commands waiting, first in, first out. -/
  pending : List Instr := []
  variant : Variant := .a
  stepping : Byte := 1#8
  mode : Mode := .boot
  /-- Cause of the last mode change (R390). -/
  modeCause : BitVec 2 := 3#2
  modeCycle : Word := 0#32
  cycle : Word := 0#32
  /-- BAR0 registers by their absolute offset; an unlisted one holds its reset value. -/
  regs : List (Nat × Word) := []
  /-- CFG_WARN of the two units whose registers give it no place: chip control (R501) and the feedback unit. -/
  chipWarn : Bool := false
  fbWarn : Bool := false
  /-- Cell, block and region memories by BAR0 offset (R52, R53), the rising form of `Tab.wf`. -/
  ram : List Host.Cell := []
  /-- Words with a single-bit error, and words that read poisoned, by BAR0 offset (R55, R56). -/
  flip1 : List Nat := []
  flip2 : List Nat := []
  islands : List (Nat × IslandSt) := []
  image : Option Image := none
  cells : List (Nat × CellSt) := []
  mad : MadSt := {}
  loops : List (Nat × LoopSt) := []
  host : HostSt := {}
  jnl : JnlSt := {}
  fox : FoxSt := {}
  flash : FlashSt := {}
  power : PowerSt := {}
  time : TimeSt := {}
  bb : List (Nat × BbSt) := []
  rings : List (Nat × RingSt) := []
  axes : List (Nat × AxisSt) := []
  /-- The axes as the last cycle-end fence left them, and its cycle (R205, R206, R237). -/
  axShown : List (Nat × AxisSt) := []
  axCycle : Word := 0#32
  lgs : List (Nat × LgSt) := []
  adcs : List (Nat × AdcSt) := []
  adc : AdcUnit := {}
  fbs : List (Nat × FbSt) := []
  dma : DmaSt := {}
  woad : WoadSt := {}
  ind : IndSt := {}
  lsp : LspSt := {}
  /-- Bypass switches that BYPASS_SET has closed (R379): 0 to 7 for the rings, 8 for the backbone pair. -/
  bypassSet : List Nat := []
  arb : ArbSt := {}
  /-- Cases of undefined behaviour that have arisen and not ended, by how far they reach (R45): what they reach takes free values. -/
  undef : List Extent := []
  /-- The model's own: everything sent, newest first. -/
  sent : List Output := []
  /-- The model's own: how many free values have been drawn (`Config.freeWord`). -/
  freeCtr : Nat := 0
deriving DecidableEq, Repr

/-- The T256 right after reset: BOOT (R498), every register at its reset value, every memory unlisted. -/
def State.reset : State := {}

end Sys2Proof.Machine
end

