-- ==== Sys2Proof/Machine/Tab.lean ====
section
/-! DEFINITION. Reading and writing a sparse table, the one form in which the model keeps memories, register files and
numbered units. Both operations are total on any list; the canonical form is `Tab.wf`. -/

namespace Sys2Proof

/-- The entry listed for a key, if any. -/
def Tab.find {α : Type} : List (Nat × α) → Nat → Option α
  | [], _ => none
  | (k', v) :: r, k => if k' = k then some v else Tab.find r k

/-- What a key reads as: its listed entry, or the default of the table. -/
def Tab.get {α : Type} (d : α) (t : List (Nat × α)) (k : Nat) : α := (Tab.find t k).getD d

/-- The table without any entry for a key. -/
def Tab.drop {α : Type} (t : List (Nat × α)) (k : Nat) : List (Nat × α) :=
  match t with
  | [] => []
  | (k', v) :: r => if k' = k then Tab.drop r k else (k', v) :: Tab.drop r k

/-- Insertion in rising order of keys. -/
def Tab.ins {α : Type} (t : List (Nat × α)) (k : Nat) (v : α) : List (Nat × α) :=
  match t with
  | [] => [(k, v)]
  | (k', v') :: r => if k < k' then (k, v) :: (k', v') :: r else (k', v') :: Tab.ins r k v

/-- Writing a key: the default value is never listed, so equal tables are equal lists. -/
def Tab.put {α : Type} [DecidableEq α] (d : α) (t : List (Nat × α)) (k : Nat) (v : α) : List (Nat × α) :=
  if v = d then Tab.drop t k else Tab.ins (Tab.drop t k) k v

/-- Every key of the table is above `k`. -/
def Tab.above {α : Type} (k : Nat) : List (Nat × α) → Bool
  | [] => true
  | (k', _) :: r => decide (k < k') && Tab.above k r

/-- The canonical form: keys strictly rising, no default value listed. -/
def Tab.wf {α : Type} [DecidableEq α] (d : α) : List (Nat × α) → Bool
  | [] => true
  | (k, v) :: r => Tab.above k r && decide (v ≠ d) && Tab.wf d r

/-- The table with every listed entry changed by `f`, the default left alone. -/
def Tab.mapVals {α : Type} [DecidableEq α] (d : α) (f : α → α) (t : List (Nat × α)) : List (Nat × α) :=
  t.foldl (fun acc e => Tab.put d acc e.1 (f e.2)) []

/-- The table changed at every key of a list. -/
def Tab.upds {α : Type} [DecidableEq α] (d : α) (t : List (Nat × α)) (ks : List Nat) (f : Nat → α → α) :
    List (Nat × α) :=
  ks.foldl (fun acc k => Tab.put d acc k (f k (Tab.get d acc k))) t

end Sys2Proof
end

