-- ==== Sys2Proof/Machine/Regs.lean ====
section
/-! DEFINITION. The register map of BAR0 (R360): every register table of the manual as data, and the names of the fields the
model reads and writes. Fields follow the tables most significant first; reserved bits have no field and so read 0 and
ignore writes (R12).
Log: DEDUCED 180. DESIGN CHOICE 181. -/

namespace Sys2Proof.Machine

/-- The access codes of the register tables. -/
inductive Acc where
  | rw | ro | wo | w1c | rc
deriving DecidableEq, Repr

/-- The values a field takes (R10): all, those in some ranges, a queue, channel or mailbox that exists (R131 and the select
registers of Madder), a last queue not below the first (IND_TAP), an axis number that reads back as 0 when too large. -/
inductive Valid where
  | any
  | ranges (l : List (Nat × Nat))
  | queue
  | channel
  | mailbox
  | geFirst
  | axis
  | seqOffset
deriving DecidableEq, Repr

/-- When a field accepts a write: always, in CONFIGURE, in CONFIGURE and COMMISSION, while its queue pair or its DMA engine
is disabled. -/
inductive Gate where
  | always | configure | configComm | qpOff | dmaOff
deriving DecidableEq, Repr

/-- A field of a register table. -/
structure FieldDesc where
  hi : Nat
  lo : Nat
  acc : Acc
  reset : Nat
  valid : Valid
  gate : Gate
deriving DecidableEq, Repr

/-- A register, or a row of `count` registers `stride` bytes apart, at an offset within its group. A `view` shows state
that the unit holds elsewhere. `byIndex` marks PWM_GRP_CFG, whose field fb resets to the group's number. -/
structure RegDesc where
  off : Nat
  count : Nat
  stride : Nat
  view : Bool
  byIndex : Bool
  fields : List FieldDesc
deriving DecidableEq, Repr

/-- A group of registers repeated within a unit. -/
structure GroupDesc where
  base : Nat
  count : Nat
  stride : Nat
  regs : List RegDesc
deriving DecidableEq, Repr

/-- Where a unit's CFG_WARN is: bit 31 of a register, or, for chip control and the feedback unit, nowhere in the tables. -/
inductive WarnAt where
  | at (off : Nat)
  | unitOff (off : Nat)
  | groupOff (off : Nat)
  | chip
  | fb
  | none
deriving DecidableEq, Repr

/-- A unit's window in BAR0. -/
structure UnitDesc where
  base : Nat
  count : Nat
  stride : Nat
  size : Nat
  warn : WarnAt
  groups : List GroupDesc
deriving DecidableEq, Repr

/-- Registers of unit chip. -/
def chipRegs : List RegDesc :=
  [⟨0, 1, 0, true, false,
    [⟨31, 0, .ro, 0, .any, .always⟩]⟩,
   ⟨8, 1, 0, true, false,
    [⟨31, 0, .ro, 0, .any, .always⟩]⟩,
   ⟨0x100, 1, 0, false, false,
    [⟨6, 0, .rw, 0, .ranges [(0, 0x6B)], .always⟩]⟩,
   ⟨0x104, 1, 0, true, false,
    [⟨31, 0, .ro, 0, .any, .always⟩]⟩,
   ⟨0x110, 1, 0, true, false,
    [⟨31, 0, .ro, 0, .any, .always⟩]⟩,
   ⟨0x200, 1, 0, false, false,
    [⟨4, 0, .rw, 0, .ranges [(0, 0x17)], .always⟩]⟩,
   ⟨0x204, 1, 0, true, false,
    [⟨7, 0, .rw, 2, .ranges [(1, 0xFF)], .always⟩]⟩,
   ⟨0x208, 1, 0, true, false,
    [⟨31, 0, .ro, 0, .any, .always⟩]⟩,
   ⟨0x20C, 1, 0, true, false,
    [⟨31, 0, .ro, 0, .any, .always⟩]⟩,
   ⟨0x300, 1, 0, false, false,
    [⟨31, 29, .ro, 4, .any, .always⟩, ⟨28, 28, .ro, 0, .any, .always⟩, ⟨27, 27, .ro, 0, .any, .always⟩, ⟨26, 24, .ro, 0, .any, .always⟩, ⟨23, 21, .ro, 0, .any, .always⟩, ⟨20, 19, .ro, 0, .any, .always⟩, ⟨18, 18, .ro, 0, .any, .always⟩, ⟨17, 17, .ro, 0, .any, .always⟩]⟩,
   ⟨0x304, 1, 0, true, false,
    [⟨31, 0, .ro, 0, .any, .always⟩]⟩,
   ⟨0x308, 1, 0, true, false,
    [⟨31, 0, .ro, 0, .any, .always⟩]⟩,
   ⟨0x310, 2, 4, true, false,
    [⟨31, 0, .ro, 0, .any, .always⟩]⟩]

/-- Registers of unit madder. -/
def madderRegs : List RegDesc :=
  [⟨0, 1, 0, false, false,
    [⟨31, 31, .w1c, 0, .any, .always⟩, ⟨0, 0, .rw, 0, .any, .always⟩]⟩,
   ⟨4, 1, 0, false, false,
    [⟨30, 16, .ro, 0, .any, .always⟩, ⟨12, 0, .ro, 0, .any, .always⟩]⟩,
   ⟨8, 1, 0, false, false,
    [⟨31, 0, .ro, 0, .any, .always⟩]⟩,
   ⟨0x10, 1, 0, false, false,
    [⟨12, 0, .rw, 0, .queue, .always⟩]⟩,
   ⟨0x14, 1, 0, true, false,
    [⟨31, 0, .ro, 0, .any, .always⟩]⟩,
   ⟨0x18, 1, 0, true, false,
    [⟨31, 0, .ro, 0, .any, .always⟩]⟩,
   ⟨0x1C, 1, 0, true, false,
    [⟨31, 0, .rc, 0, .any, .always⟩]⟩,
   ⟨0x20, 1, 0, true, false,
    [⟨31, 0, .ro, 0, .any, .always⟩]⟩,
   ⟨0x30, 1, 0, false, false,
    [⟨5, 0, .rw, 0, .channel, .always⟩]⟩,
   ⟨0x34, 1, 0, true, false,
    [⟨10, 8, .rw, 0, .any, .always⟩]⟩,
   ⟨0x38, 2, 4, true, false,
    [⟨31, 0, .ro, 0, .any, .always⟩]⟩,
   ⟨0x40, 1, 0, true, false,
    [⟨31, 0, .ro, 0, .any, .always⟩]⟩,
   ⟨0x44, 1, 0, false, false,
    [⟨21, 16, .wo, 0, .any, .always⟩, ⟨15, 0, .wo, 0, .any, .always⟩]⟩,
   ⟨0x50, 4, 4, false, false,
    [⟨16, 0, .rw, 0x3E8, .ranges [(0x64, 0x186A0)], .configure⟩]⟩,
   ⟨0x60, 4, 4, true, false,
    [⟨31, 0, .rc, 0, .any, .always⟩]⟩,
   ⟨0x70, 1, 0, false, false,
    [⟨12, 0, .rw, 0, .mailbox, .always⟩]⟩,
   ⟨0x74, 1, 0, true, false,
    [⟨31, 0, .rc, 0, .any, .always⟩]⟩,
   ⟨0x80, 1, 0, false, false,
    [⟨31, 16, .rc, 0, .any, .always⟩, ⟨15, 0, .rc, 0, .any, .always⟩]⟩,
   ⟨0x90, 3, 4, true, false,
    [⟨31, 0, .ro, 0, .any, .always⟩]⟩,
   ⟨0xA0, 1, 0, false, false,
    [⟨4, 4, .wo, 0, .any, .always⟩, ⟨3, 3, .rw, 1, .any, .always⟩, ⟨2, 2, .rw, 0, .any, .always⟩, ⟨1, 1, .wo, 0, .any, .always⟩, ⟨0, 0, .wo, 0, .any, .always⟩]⟩,
   ⟨0xA4, 1, 0, false, false,
    [⟨31, 30, .ro, 0, .any, .always⟩, ⟨29, 29, .ro, 0, .any, .always⟩]⟩,
   ⟨0xA8, 1, 0, false, false,
    [⟨31, 0, .ro, 0, .any, .always⟩]⟩,
   ⟨0xAC, 1, 0, false, false,
    [⟨31, 0, .rw, 0, .any, .always⟩]⟩,
   ⟨0xB0, 1, 0, false, false,
    [⟨31, 0, .rw, 0, .any, .always⟩]⟩,
   ⟨0xB8, 2, 4, false, false,
    [⟨31, 0, .rw, 0, .any, .always⟩]⟩,
   ⟨0xC0, 1, 0, false, false,
    [⟨31, 0, .rw, 0, .any, .always⟩]⟩,
   ⟨0xC8, 2, 4, false, false,
    [⟨31, 0, .rw, 0, .any, .always⟩]⟩,
   ⟨0xD0, 1, 0, false, false,
    [⟨31, 0, .rw, 0, .any, .always⟩]⟩,
   ⟨0xD8, 2, 4, false, false,
    [⟨31, 0, .rw, 0, .any, .always⟩]⟩,
   ⟨0xE0, 2, 4, false, false,
    [⟨31, 0, .rw, 0, .any, .always⟩]⟩,
   ⟨0xE8, 1, 0, false, false,
    [⟨31, 0, .rw, 0, .any, .always⟩]⟩]

/-- Registers of unit ring. The entries of the schedule window take any word (log entry 181). -/
def ringRegs : List RegDesc :=
  [⟨0, 1, 0, false, false,
    [⟨31, 31, .w1c, 0, .any, .always⟩, ⟨8, 8, .rw, 0, .any, .always⟩, ⟨7, 7, .rw, 0, .any, .always⟩, ⟨6, 6, .rw, 0, .any, .configure⟩, ⟨5, 4, .rw, 0, .ranges [(0, 2)], .configure⟩, ⟨3, 3, .rw, 0, .any, .always⟩, ⟨0, 0, .rw, 0, .any, .configure⟩]⟩,
   ⟨4, 1, 0, false, false,
    [⟨31, 29, .ro, 0, .any, .always⟩, ⟨28, 28, .ro, 0, .any, .always⟩, ⟨27, 27, .ro, 0, .any, .always⟩, ⟨26, 26, .ro, 0, .any, .always⟩, ⟨25, 25, .ro, 0, .any, .always⟩, ⟨24, 24, .ro, 0, .any, .always⟩, ⟨23, 23, .ro, 0, .any, .always⟩, ⟨22, 22, .ro, 0, .any, .always⟩, ⟨21, 21, .ro, 1, .any, .always⟩, ⟨20, 20, .ro, 0, .any, .always⟩, ⟨19, 16, .ro, 0, .any, .always⟩, ⟨15, 15, .ro, 0, .any, .always⟩, ⟨14, 11, .ro, 0, .any, .always⟩]⟩,
   ⟨8, 1, 0, false, false,
    [⟨31, 16, .rc, 0, .any, .always⟩, ⟨15, 0, .rc, 0, .any, .always⟩]⟩,
   ⟨0xC, 1, 0, false, false,
    [⟨31, 16, .rc, 0, .any, .always⟩, ⟨15, 0, .rc, 0, .any, .always⟩]⟩,
   ⟨0x10, 1, 0, false, false,
    [⟨31, 24, .rc, 0, .any, .always⟩, ⟨23, 16, .rc, 0, .any, .always⟩, ⟨15, 8, .rc, 0, .any, .always⟩, ⟨7, 0, .rc, 0, .any, .always⟩]⟩,
   ⟨0x14, 1, 0, false, false,
    [⟨31, 16, .ro, 0, .any, .always⟩, ⟨15, 0, .ro, 0, .any, .always⟩]⟩,
   ⟨0x18, 1, 0, false, false,
    [⟨31, 16, .ro, 0, .any, .always⟩, ⟨15, 0, .ro, 0, .any, .always⟩]⟩,
   ⟨0x1C, 1, 0, false, false,
    [⟨31, 16, .ro, 0, .any, .always⟩]⟩,
   ⟨0x20, 1, 0, false, false,
    [⟨31, 16, .ro, 0, .any, .always⟩, ⟨15, 12, .ro, 0, .any, .always⟩, ⟨11, 10, .ro, 0, .any, .always⟩]⟩,
   ⟨0x24, 1, 0, false, false,
    [⟨31, 24, .rc, 0, .any, .always⟩, ⟨23, 20, .ro, 0, .any, .always⟩, ⟨4, 0, .ro, 0, .any, .always⟩]⟩,
   ⟨0x28, 1, 0, false, false,
    [⟨0, 0, .wo, 0, .any, .always⟩]⟩,
   ⟨0x40, 1, 0, false, false,
    [⟨3, 0, .rw, 0, .any, .always⟩]⟩,
   ⟨0x44, 4, 4, true, false,
    [⟨31, 0, .ro, 0, .any, .always⟩]⟩,
   ⟨0x8000, 4096, 4, false, false,
    [⟨31, 0, .rw, 0, .any, .configure⟩]⟩]

/-- Registers of unit lg. -/
def lgRegs : List RegDesc :=
  [⟨0, 1, 0, false, false,
    [⟨31, 31, .w1c, 0, .any, .always⟩]⟩,
   ⟨4, 1, 0, false, false,
    [⟨31, 16, .ro, 0, .any, .always⟩, ⟨15, 0, .ro, 0, .any, .always⟩]⟩,
   ⟨8, 1, 0, false, false,
    [⟨31, 31, .ro, 0, .any, .always⟩, ⟨23, 16, .ro, 0, .any, .always⟩, ⟨5, 0, .ro, 0x20, .any, .always⟩]⟩]

/-- Registers of unit lg, group at 0x100. -/
def lgRegs1 : List RegDesc :=
  [⟨0, 1, 0, false, true,
    [⟨31, 31, .rw, 0, .any, .configComm⟩, ⟨30, 23, .rw, 4, .ranges [(1, 0xFF)], .configComm⟩, ⟨22, 20, .rw, 0, .any, .configComm⟩, ⟨19, 18, .rw, 0, .ranges [(0, 2)], .configComm⟩, ⟨17, 17, .rw, 0, .any, .configComm⟩, ⟨16, 16, .rw, 0, .any, .configComm⟩, ⟨15, 0, .rw, 0x10, .ranges [(0x10, 0xFFFF)], .configComm⟩]⟩,
   ⟨4, 1, 0, false, false,
    [⟨31, 21, .rw, 0, .any, .configComm⟩, ⟨20, 10, .rw, 0, .any, .always⟩]⟩,
   ⟨8, 1, 0, false, false,
    [⟨29, 16, .ro, 0, .any, .always⟩, ⟨7, 0, .rw, 0, .any, .configure⟩]⟩,
   ⟨0xC, 1, 0, false, false,
    [⟨31, 31, .rw, 0, .any, .configComm⟩, ⟨30, 28, .rw, 0, .ranges [(0, 5)], .configComm⟩, ⟨27, 25, .rw, 0, .any, .configComm⟩, ⟨24, 12, .rw, 0, .any, .configComm⟩]⟩,
   ⟨0x10, 1, 0, false, false,
    [⟨31, 30, .rw, 0, .ranges [(0, 2)], .configComm⟩, ⟨29, 22, .rw, 0x10, .any, .configComm⟩, ⟨21, 14, .rw, 0, .any, .configComm⟩, ⟨13, 6, .rw, 0, .any, .configComm⟩, ⟨5, 0, .rw, 0, .any, .configComm⟩]⟩,
   ⟨0x14, 1, 0, false, false,
    [⟨29, 16, .ro, 0x2000, .any, .always⟩, ⟨13, 0, .ro, 0x2000, .any, .always⟩]⟩,
   ⟨0x18, 1, 0, false, false,
    [⟨31, 29, .ro, 0, .any, .always⟩, ⟨28, 28, .ro, 0, .any, .always⟩, ⟨27, 27, .ro, 0, .any, .always⟩, ⟨26, 24, .ro, 0, .any, .always⟩, ⟨23, 16, .ro, 0, .any, .always⟩, ⟨7, 0, .ro, 0, .any, .always⟩]⟩,
   ⟨0x1C, 1, 0, false, false,
    [⟨31, 16, .rc, 0, .any, .always⟩, ⟨15, 8, .rc, 0, .any, .always⟩, ⟨7, 0, .rc, 0, .any, .always⟩]⟩,
   ⟨0x20, 1, 0, false, false,
    [⟨31, 16, .ro, 0, .any, .always⟩, ⟨15, 0, .ro, 0, .any, .always⟩]⟩]

/-- Registers of unit adc. -/
def adcRegs : List RegDesc :=
  [⟨0, 1, 0, false, false,
    [⟨31, 31, .w1c, 0, .any, .always⟩, ⟨0, 0, .ro, 0, .any, .always⟩]⟩,
   ⟨4, 1, 0, false, false,
    [⟨15, 0, .rw, 0x190, .any, .configure⟩]⟩,
   ⟨8, 1, 0, false, false,
    [⟨5, 0, .wo, 0, .ranges [(0, 0x2F)], .always⟩]⟩,
   ⟨0xC, 1, 0, false, false,
    [⟨31, 24, .rc, 0, .any, .always⟩, ⟨23, 16, .rc, 0, .any, .always⟩, ⟨15, 8, .rc, 0, .any, .always⟩, ⟨7, 0, .rc, 0, .any, .always⟩]⟩,
   ⟨0x10, 1, 0, false, false,
    [⟨31, 0, .w1c, 0, .any, .always⟩]⟩,
   ⟨0x14, 1, 0, false, false,
    [⟨15, 0, .w1c, 0, .any, .always⟩]⟩,
   ⟨0x100, 48, 4, false, false,
    [⟨31, 0, .ro, 0, .any, .always⟩]⟩,
   ⟨0x200, 48, 4, false, false,
    [⟨17, 0, .rw, 0x10000, .ranges [(0x8000, 0x1FFFF)], .configComm⟩]⟩,
   ⟨0x300, 48, 4, false, false,
    [⟨19, 0, .rw, 0, .any, .configComm⟩]⟩,
   ⟨0x1000, 1024, 4, false, false,
    [⟨31, 30, .rw, 0, .any, .configure⟩, ⟨29, 29, .rw, 0, .any, .configure⟩, ⟨28, 27, .rw, 0, .ranges [(0, 2)], .configure⟩, ⟨26, 24, .rw, 0, .any, .configure⟩, ⟨23, 21, .rw, 0, .ranges [(0, 4)], .configure⟩, ⟨20, 20, .rw, 0, .any, .configure⟩, ⟨19, 19, .rw, 0, .any, .configure⟩, ⟨15, 0, .rw, 0, .seqOffset, .configure⟩]⟩]

/-- Registers of unit fb. -/
def fbRegs : List RegDesc :=
  []

/-- Registers of unit fb, group at 0x100. -/
def fbRegs1 : List RegDesc :=
  [⟨0, 1, 0, false, false,
    [⟨31, 30, .rw, 0, .any, .configComm⟩, ⟨29, 29, .rw, 0, .any, .configComm⟩, ⟨28, 27, .rw, 0, .any, .configComm⟩, ⟨26, 26, .rw, 0, .any, .configComm⟩, ⟨25, 25, .rw, 0, .any, .configComm⟩, ⟨24, 24, .rw, 0, .any, .configComm⟩, ⟨23, 21, .rw, 0, .any, .configComm⟩, ⟨15, 0, .rw, 0, .any, .configComm⟩]⟩,
   ⟨4, 1, 0, false, false,
    [⟨31, 0, .rw, 0, .ranges [(0, 0), (4, 0xFFFFFFFF)], .configure⟩]⟩,
   ⟨8, 1, 0, false, false,
    [⟨31, 24, .rw, 0x14, .ranges [(0x14, 0xC8)], .configure⟩, ⟨23, 18, .rw, 0x20, .ranges [(8, 0x30)], .configure⟩, ⟨17, 12, .rw, 0, .any, .configure⟩, ⟨11, 6, .rw, 0x20, .ranges [(1, 0x20)], .configure⟩, ⟨5, 5, .rw, 0, .any, .configure⟩]⟩,
   ⟨0xC, 1, 0, false, false,
    [⟨15, 0, .rw, 0, .any, .configure⟩]⟩,
   ⟨0x10, 1, 0, false, false,
    [⟨17, 0, .rw, 0, .any, .configure⟩]⟩,
   ⟨0x14, 1, 0, false, false,
    [⟨31, 0, .ro, 0, .any, .always⟩]⟩,
   ⟨0x18, 1, 0, false, false,
    [⟨31, 0, .ro, 0, .any, .always⟩]⟩,
   ⟨0x1C, 1, 0, false, false,
    [⟨31, 0, .ro, 0, .any, .always⟩]⟩,
   ⟨0x20, 1, 0, false, false,
    [⟨31, 0, .ro, 0, .any, .always⟩]⟩,
   ⟨0x24, 1, 0, false, false,
    [⟨31, 0, .ro, 0, .any, .always⟩]⟩,
   ⟨0x28, 1, 0, false, false,
    [⟨31, 31, .ro, 0, .any, .always⟩, ⟨30, 28, .ro, 0, .any, .always⟩, ⟨27, 27, .ro, 0, .any, .always⟩, ⟨26, 26, .ro, 0, .any, .always⟩, ⟨25, 25, .ro, 0, .any, .always⟩, ⟨24, 24, .ro, 0, .any, .always⟩, ⟨23, 23, .ro, 0, .any, .always⟩, ⟨22, 22, .ro, 0, .any, .always⟩, ⟨21, 21, .ro, 0, .any, .always⟩, ⟨20, 20, .ro, 0, .any, .always⟩, ⟨15, 8, .rc, 0, .any, .always⟩, ⟨7, 0, .ro, 0, .any, .always⟩]⟩]

/-- Registers of unit time. -/
def timeRegs : List RegDesc :=
  [⟨0, 1, 0, false, false,
    [⟨31, 31, .w1c, 0, .any, .always⟩]⟩,
   ⟨4, 1, 0, false, false,
    [⟨31, 31, .ro, 0, .any, .always⟩, ⟨30, 30, .ro, 0, .any, .always⟩]⟩,
   ⟨0x10, 4, 4, true, false,
    [⟨31, 0, .ro, 0, .any, .always⟩]⟩,
   ⟨0x20, 2, 4, true, false,
    [⟨31, 0, .ro, 0, .any, .always⟩]⟩,
   ⟨0x28, 1, 0, false, false,
    [⟨31, 0, .rw, 0, .any, .always⟩]⟩,
   ⟨0x2C, 1, 0, false, false,
    [⟨15, 0, .rw, 0x200, .any, .always⟩]⟩,
   ⟨0x30, 1, 0, false, false,
    [⟨31, 16, .rw, 1, .ranges [(1, 0xFFFF)], .always⟩, ⟨15, 0, .rw, 0, .any, .always⟩]⟩,
   ⟨0x34, 1, 0, false, false,
    [⟨15, 0, .rw, 0, .any, .always⟩]⟩,
   ⟨0x38, 1, 0, false, false,
    [⟨18, 0, .rw, 0x3E8, .ranges [(1, 0x7A120)], .always⟩]⟩,
   ⟨0x40, 1, 0, false, false,
    [⟨31, 0, .ro, 0, .any, .always⟩]⟩,
   ⟨0x50, 2, 0x10, false, false,
    [⟨31, 0, .rw, 0, .any, .always⟩]⟩,
   ⟨0x54, 2, 0x10, false, false,
    [⟨31, 0, .rw, 0, .any, .always⟩]⟩,
   ⟨0x58, 2, 0x10, false, false,
    [⟨31, 31, .rw, 0, .any, .always⟩, ⟨30, 30, .ro, 0, .any, .always⟩]⟩,
   ⟨0x100, 1, 0, false, false,
    [⟨31, 31, .ro, 1, .any, .always⟩, ⟨0, 0, .rw, 0, .any, .always⟩]⟩]

/-- Registers of unit time, group at 0x1000. -/
def timeRegs1 : List RegDesc :=
  [⟨0, 1, 0, false, false,
    [⟨4, 4, .rw, 0, .any, .always⟩, ⟨3, 3, .rw, 0, .any, .always⟩, ⟨2, 2, .rw, 0, .any, .configure⟩, ⟨1, 0, .rw, 0, .ranges [(0, 1)], .configure⟩]⟩,
   ⟨4, 1, 0, false, false,
    [⟨31, 31, .ro, 0, .any, .always⟩, ⟨30, 30, .ro, 0, .any, .always⟩, ⟨29, 29, .w1c, 0, .any, .always⟩, ⟨4, 0, .ro, 0, .any, .always⟩]⟩,
   ⟨8, 1, 0, false, false,
    [⟨31, 0, .rw, 0, .any, .always⟩]⟩,
   ⟨0xC, 1, 0, false, false,
    [⟨15, 0, .rw, 0, .any, .always⟩]⟩,
   ⟨0x10, 1, 0, false, false,
    [⟨31, 16, .rw, 0, .any, .always⟩, ⟨15, 0, .rw, 0, .any, .always⟩]⟩,
   ⟨0x14, 1, 0, false, false,
    [⟨0, 0, .wo, 0, .any, .always⟩]⟩,
   ⟨0x18, 1, 0, false, false,
    [⟨16, 16, .ro, 0, .any, .always⟩, ⟨15, 0, .ro, 0, .any, .always⟩]⟩,
   ⟨0x1C, 1, 0, false, false,
    [⟨15, 0, .ro, 0, .any, .always⟩]⟩,
   ⟨0x20, 1, 0, false, false,
    [⟨31, 0, .ro, 0, .any, .always⟩]⟩,
   ⟨0x24, 2, 4, false, false,
    [⟨31, 0, .ro, 0, .any, .always⟩]⟩,
   ⟨0x2C, 1, 0, false, false,
    [⟨15, 0, .rc, 0, .any, .always⟩]⟩,
   ⟨0x30, 2, 4, false, false,
    [⟨31, 0, .rw, 0, .any, .always⟩]⟩,
   ⟨0x38, 1, 0, false, false,
    [⟨31, 0, .rw, 0, .ranges [(0x10, 0x1000)], .always⟩]⟩,
   ⟨0x3C, 1, 0, false, false,
    [⟨31, 0, .rw, 0, .any, .always⟩]⟩,
   ⟨0x40, 1, 0, false, false,
    [⟨31, 0, .ro, 0, .any, .always⟩]⟩,
   ⟨0x44, 2, 4, false, false,
    [⟨31, 0, .rw, 0, .any, .always⟩]⟩,
   ⟨0x4C, 1, 0, false, false,
    [⟨31, 0, .rw, 0, .ranges [(0x10, 0x1000)], .always⟩]⟩,
   ⟨0x50, 1, 0, false, false,
    [⟨31, 16, .rc, 0, .any, .always⟩, ⟨15, 0, .rc, 0, .any, .always⟩]⟩,
   ⟨0x54, 1, 0, false, false,
    [⟨15, 0, .rc, 0, .any, .always⟩]⟩,
   ⟨0x58, 1, 0, false, false,
    [⟨31, 0, .rw, 0, .any, .always⟩]⟩,
   ⟨0x5C, 1, 0, false, false,
    [⟨31, 0, .ro, 0, .any, .always⟩]⟩]

/-- Registers of unit cmd. -/
def cmdRegs : List RegDesc :=
  [⟨0, 1, 0, false, false,
    [⟨31, 31, .w1c, 0, .any, .always⟩, ⟨9, 0, .rw, 0xA, .ranges [(1, 0x3E8)], .always⟩]⟩,
   ⟨4, 1, 0, false, false,
    [⟨31, 31, .ro, 0, .any, .always⟩, ⟨23, 16, .rc, 0, .any, .always⟩, ⟨15, 0, .rc, 0, .any, .always⟩]⟩,
   ⟨8, 1, 0, false, false,
    [⟨31, 16, .rc, 0, .any, .always⟩, ⟨15, 0, .rc, 0, .any, .always⟩]⟩,
   ⟨0x3000, 2, 4, true, false,
    [⟨31, 0, .ro, 0, .any, .always⟩]⟩,
   ⟨0x3008, 2, 4, true, false,
    [⟨31, 0, .ro, 0, .any, .always⟩]⟩,
   ⟨0x3010, 2, 4, true, false,
    [⟨31, 0, .ro, 0, .any, .always⟩]⟩,
   ⟨0x3018, 1, 0, true, false,
    [⟨31, 0, .ro, 0, .any, .always⟩]⟩,
   ⟨0x301C, 1, 0, false, false,
    [⟨31, 31, .rw, 0, .any, .configure⟩, ⟨30, 26, .rw, 0xC, .ranges [(0xC, 0x1A)], .configure⟩, ⟨25, 17, .rw, 0x40, .ranges [(8, 0x100)], .configure⟩]⟩,
   ⟨0x3020, 1, 0, false, false,
    [⟨31, 18, .rw, 0, .any, .configure⟩]⟩]

/-- Registers of unit cmd, group at 0x100. -/
def cmdRegs1 : List RegDesc :=
  [⟨0, 1, 0, false, false,
    [⟨31, 31, .rw, 0, .any, .always⟩, ⟨30, 30, .rw, 0, .any, .always⟩, ⟨3, 0, .rw, 1, .ranges [(1, 0xA)], .qpOff⟩]⟩,
   ⟨4, 1, 0, false, false,
    [⟨31, 31, .w1c, 0, .any, .always⟩, ⟨30, 30, .ro, 0, .any, .always⟩, ⟨25, 16, .ro, 0, .any, .always⟩, ⟨9, 0, .ro, 0, .any, .always⟩]⟩,
   ⟨8, 1, 0, false, false,
    [⟨31, 6, .rw, 0, .any, .qpOff⟩]⟩,
   ⟨0xC, 1, 0, false, false,
    [⟨31, 0, .rw, 0, .any, .qpOff⟩]⟩,
   ⟨0x10, 1, 0, false, false,
    [⟨31, 5, .rw, 0, .any, .qpOff⟩]⟩,
   ⟨0x14, 1, 0, false, false,
    [⟨31, 0, .rw, 0, .any, .qpOff⟩]⟩,
   ⟨0x18, 1, 0, false, false,
    [⟨31, 8, .rw, 0, .any, .qpOff⟩]⟩,
   ⟨0x1C, 1, 0, false, false,
    [⟨31, 0, .rw, 0, .any, .qpOff⟩]⟩,
   ⟨0x20, 1, 0, false, false,
    [⟨9, 0, .rw, 0, .any, .always⟩]⟩,
   ⟨0x24, 1, 0, false, false,
    [⟨9, 0, .rw, 0, .any, .always⟩]⟩]

/-- Registers of unit cmd, group at 0x2000. -/
def cmdRegs2 : List RegDesc :=
  [⟨0, 16, 4, false, false,
    [⟨31, 0, .wo, 0, .any, .always⟩]⟩,
   ⟨0x40, 1, 0, false, false,
    [⟨0, 0, .wo, 0, .any, .always⟩]⟩,
   ⟨0x44, 1, 0, false, false,
    [⟨31, 31, .ro, 0, .any, .always⟩, ⟨30, 30, .w1c, 0, .any, .always⟩, ⟨29, 29, .w1c, 0, .any, .always⟩]⟩,
   ⟨0x80, 8, 4, false, false,
    [⟨31, 0, .ro, 0, .any, .always⟩]⟩,
   ⟨0x100, 64, 4, false, false,
    [⟨31, 0, .ro, 0, .any, .always⟩]⟩]

/-- Registers of unit fox. -/
def foxRegs : List RegDesc :=
  [⟨0, 1, 0, false, false,
    [⟨31, 31, .w1c, 0, .any, .always⟩, ⟨0, 0, .rw, 0, .any, .always⟩]⟩,
   ⟨4, 1, 0, true, false,
    [⟨31, 0, .ro, 0, .any, .always⟩]⟩,
   ⟨8, 1, 0, true, false,
    [⟨31, 0, .ro, 0, .any, .always⟩]⟩,
   ⟨0x10, 1, 0, false, false,
    [⟨15, 0, .rw, 0xA, .ranges [(1, 0xFFFF)], .configure⟩]⟩,
   ⟨0x14, 1, 0, false, false,
    [⟨15, 0, .rw, 0x64, .ranges [(1, 0xFFFF)], .configure⟩]⟩,
   ⟨0x18, 1, 0, false, false,
    [⟨15, 0, .rw, 0x3E8, .ranges [(1, 0xFFFF)], .configure⟩]⟩,
   ⟨0x1C, 1, 0, false, false,
    [⟨15, 0, .rw, 0x2710, .ranges [(1, 0xFFFF)], .configure⟩]⟩,
   ⟨0x20, 1, 0, false, false,
    [⟨31, 16, .rc, 0, .any, .always⟩, ⟨15, 0, .rc, 0, .any, .always⟩]⟩,
   ⟨0x24, 1, 0, false, false,
    [⟨31, 16, .rc, 0, .any, .always⟩, ⟨15, 0, .rc, 0, .any, .always⟩]⟩,
   ⟨0x28, 1, 0, true, false,
    [⟨31, 0, .ro, 0, .any, .always⟩]⟩,
   ⟨0x2C, 1, 0, false, false,
    [⟨31, 0, .rc, 0, .any, .always⟩]⟩,
   ⟨0x30, 1, 0, false, false,
    [⟨31, 0, .ro, 0, .any, .always⟩]⟩,
   ⟨0x38, 1, 0, false, false,
    [⟨31, 0, .rw, 0, .any, .always⟩]⟩,
   ⟨0x3C, 1, 0, false, false,
    [⟨15, 0, .rw, 0, .any, .always⟩]⟩,
   ⟨0x40, 1, 0, false, false,
    [⟨31, 0, .rc, 0, .any, .always⟩]⟩]

/-- Registers of unit ind. -/
def indRegs : List RegDesc :=
  [⟨0, 1, 0, false, false,
    [⟨31, 31, .w1c, 0, .any, .always⟩, ⟨3, 3, .rw, 0, .any, .always⟩, ⟨2, 2, .rw, 0, .any, .always⟩]⟩,
   ⟨4, 1, 0, true, false,
    [⟨31, 0, .ro, 0, .any, .always⟩]⟩,
   ⟨8, 1, 0, false, false,
    [⟨31, 26, .rw, 0x14, .ranges [(0x14, 0x36)], .always⟩, ⟨15, 0, .rw, 0, .any, .always⟩]⟩,
   ⟨0x10, 1, 0, false, false,
    [⟨31, 12, .rw, 0, .any, .always⟩]⟩,
   ⟨0x14, 1, 0, false, false,
    [⟨31, 0, .rw, 0, .any, .always⟩]⟩,
   ⟨0x18, 2, 4, true, false,
    [⟨31, 0, .ro, 0, .any, .always⟩]⟩,
   ⟨0x20, 1, 0, true, false,
    [⟨31, 0, .ro, 0, .any, .always⟩]⟩,
   ⟨0x24, 1, 0, false, false,
    [⟨31, 0, .ro, 0, .any, .always⟩]⟩,
   ⟨0x28, 1, 0, true, false,
    [⟨31, 0, .ro, 0, .any, .always⟩]⟩,
   ⟨0x2C, 1, 0, false, false,
    [⟨31, 0, .rc, 0, .any, .always⟩]⟩,
   ⟨0x30, 1, 0, false, false,
    [⟨31, 0, .rw, 0, .any, .always⟩]⟩,
   ⟨0x34, 1, 0, false, false,
    [⟨15, 0, .rw, 0, .any, .always⟩]⟩,
   ⟨0x100, 64, 4, false, false,
    [⟨31, 31, .rw, 0, .any, .always⟩, ⟨25, 13, .rw, 0, .geFirst, .always⟩, ⟨12, 0, .rw, 0, .any, .always⟩]⟩,
   ⟨0x200, 8, 8, false, false,
    [⟨31, 31, .rw, 0, .any, .always⟩, ⟨30, 28, .rw, 0, .ranges [(0, 6)], .always⟩, ⟨27, 27, .rw, 0, .any, .always⟩, ⟨26, 21, .rw, 0, .any, .always⟩, ⟨12, 0, .rw, 0, .any, .always⟩]⟩,
   ⟨0x204, 8, 8, false, false,
    [⟨31, 0, .rw, 0, .any, .always⟩]⟩,
   ⟨0x300, 16, 4, false, false,
    [⟨31, 31, .rw, 0, .any, .always⟩, ⟨30, 26, .rw, 0, .ranges [(0, 0x12)], .always⟩, ⟨25, 23, .rw, 0, .any, .always⟩, ⟨22, 17, .rw, 0, .any, .always⟩, ⟨16, 15, .rw, 0, .any, .always⟩, ⟨14, 13, .rw, 0, .any, .always⟩]⟩,
   ⟨0x340, 4, 4, false, false,
    [⟨31, 16, .ro, 0, .any, .always⟩, ⟨15, 0, .rw, 0, .any, .always⟩]⟩,
   ⟨0x350, 4, 4, false, false,
    [⟨31, 16, .ro, 0, .any, .always⟩, ⟨15, 0, .rw, 0, .any, .always⟩]⟩,
   ⟨0x360, 8, 4, false, false,
    [⟨31, 31, .rw, 0, .any, .always⟩, ⟨30, 30, .rw, 0, .any, .always⟩, ⟨29, 29, .rw, 0, .any, .always⟩, ⟨28, 20, .rw, 0, .any, .always⟩, ⟨18, 13, .rw, 0, .any, .always⟩, ⟨12, 0, .rw, 0, .any, .always⟩]⟩,
   ⟨0x8000, 8192, 4, false, false,
    [⟨31, 0, .rw, 0, .any, .always⟩]⟩]

/-- Registers of unit lsp. -/
def lspRegs : List RegDesc :=
  [⟨0, 1, 0, false, false,
    [⟨31, 31, .w1c, 0, .any, .always⟩, ⟨2, 2, .rw, 1, .any, .always⟩, ⟨1, 1, .ro, 0, .any, .always⟩]⟩,
   ⟨4, 1, 0, true, false,
    [⟨31, 0, .ro, 0, .any, .always⟩]⟩,
   ⟨8, 1, 0, false, false,
    [⟨31, 16, .ro, 0, .any, .always⟩, ⟨15, 0, .ro, 0, .any, .always⟩]⟩,
   ⟨0xC, 1, 0, false, false,
    [⟨31, 24, .rc, 0, .any, .always⟩, ⟨23, 16, .rc, 0, .any, .always⟩, ⟨15, 8, .rc, 0, .any, .always⟩, ⟨7, 0, .rc, 0, .any, .always⟩]⟩,
   ⟨0x10, 1, 0, false, false,
    [⟨31, 0, .ro, 0, .any, .always⟩]⟩,
   ⟨0x14, 1, 0, false, false,
    [⟨31, 0, .ro, 0, .any, .always⟩]⟩]

/-- Registers of unit woad. -/
def woadRegs : List RegDesc :=
  [⟨0, 1, 0, true, false,
    [⟨31, 0, .ro, 0, .any, .always⟩]⟩,
   ⟨4, 2, 4, true, false,
    [⟨31, 0, .ro, 0, .any, .always⟩]⟩,
   ⟨0xC, 1, 0, true, false,
    [⟨31, 0, .ro, 0, .any, .always⟩]⟩,
   ⟨0x10, 1, 0, true, false,
    [⟨31, 0, .ro, 0, .any, .always⟩]⟩,
   ⟨0x14, 1, 0, false, false,
    [⟨8, 0, .rw, 0, .axis, .always⟩]⟩,
   ⟨0x18, 1, 0, true, false,
    [⟨31, 0, .ro, 0, .any, .always⟩]⟩,
   ⟨0x1C, 1, 0, false, false,
    [⟨31, 16, .rc, 0, .any, .always⟩, ⟨15, 0, .rc, 0, .any, .always⟩]⟩]

/-- Registers of unit dma. -/
def dmaRegs : List RegDesc :=
  [⟨0, 1, 0, false, false,
    [⟨31, 31, .w1c, 0, .any, .always⟩]⟩,
   ⟨4, 1, 0, false, false,
    [⟨15, 0, .rw, 0x3E8, .ranges [(0x64, 0xFFFF)], .always⟩]⟩,
   ⟨8, 1, 0, false, false,
    [⟨31, 0, .rc, 0, .any, .always⟩]⟩,
   ⟨0x100, 1, 0, false, false,
    [⟨31, 31, .ro, 0, .any, .always⟩, ⟨30, 30, .ro, 0, .any, .always⟩, ⟨29, 22, .ro, 0, .any, .always⟩, ⟨5, 5, .rw, 0, .any, .always⟩, ⟨3, 1, .rw, 1, .ranges [(0, 5)], .always⟩, ⟨0, 0, .wo, 0, .any, .always⟩]⟩,
   ⟨0x104, 1, 0, false, false,
    [⟨31, 0, .rw, 0, .any, .always⟩]⟩,
   ⟨0x108, 1, 0, false, false,
    [⟨24, 0, .rw, 0, .any, .always⟩]⟩,
   ⟨0x10C, 2, 4, false, false,
    [⟨31, 0, .rw, 0, .any, .always⟩]⟩,
   ⟨0x114, 2, 4, true, false,
    [⟨31, 0, .ro, 0, .any, .always⟩]⟩,
   ⟨0x400, 128, 4, false, false,
    [⟨31, 0, .ro, 0, .any, .always⟩]⟩]

/-- Registers of unit dma, group at 0x1000. -/
def dmaRegs1 : List RegDesc :=
  [⟨0, 1, 0, false, false,
    [⟨31, 31, .rw, 0, .any, .always⟩, ⟨12, 0, .rw, 0x10, .ranges [(0x10, 0x1000)], .dmaOff⟩]⟩,
   ⟨4, 1, 0, false, false,
    [⟨31, 31, .ro, 0, .any, .always⟩, ⟨23, 16, .ro, 0, .any, .always⟩, ⟨15, 0, .rc, 0, .any, .always⟩]⟩,
   ⟨8, 1, 0, false, false,
    [⟨31, 5, .rw, 0, .any, .always⟩]⟩,
   ⟨0xC, 1, 0, false, false,
    [⟨31, 0, .rw, 0, .any, .always⟩]⟩,
   ⟨0x10, 1, 0, false, false,
    [⟨11, 0, .rw, 0, .any, .always⟩]⟩,
   ⟨0x14, 1, 0, false, false,
    [⟨11, 0, .ro, 0, .any, .always⟩]⟩]

/-- Registers of unit dma, group at 0x8000. -/
def dmaRegs2 : List RegDesc :=
  [⟨0, 1, 0, false, false,
    [⟨31, 31, .w1c, 0, .any, .always⟩, ⟨4, 4, .wo, 0, .any, .always⟩, ⟨3, 3, .rw, 0, .any, .always⟩, ⟨2, 0, .rw, 1, .ranges [(0, 5)], .always⟩]⟩,
   ⟨4, 1, 0, true, false,
    [⟨31, 0, .rw, 0, .any, .always⟩]⟩,
   ⟨8, 1, 0, true, false,
    [⟨31, 0, .rw, 0, .any, .always⟩]⟩]

/-- Registers of unit cellctl. -/
def cellctlRegs : List RegDesc :=
  []

/-- Registers of unit cellctl, group at 0xA01000. -/
def cellctlRegs1 : List RegDesc :=
  [⟨0, 1, 0, false, false,
    [⟨23, 0, .rw, 0, .any, .configure⟩]⟩,
   ⟨4, 1, 0, true, false,
    [⟨31, 0, .ro, 0, .any, .always⟩]⟩,
   ⟨8, 1, 0, false, false,
    [⟨31, 31, .w1c, 0, .any, .always⟩, ⟨23, 16, .ro, 0, .any, .always⟩, ⟨5, 5, .w1c, 0, .any, .always⟩, ⟨4, 4, .w1c, 0, .any, .always⟩, ⟨3, 3, .w1c, 0, .any, .always⟩, ⟨2, 2, .w1c, 0, .any, .always⟩, ⟨1, 1, .w1c, 0, .any, .always⟩, ⟨0, 0, .w1c, 0, .any, .always⟩]⟩,
   ⟨0xC, 1, 0, false, false,
    [⟨13, 0, .ro, 0, .any, .always⟩]⟩,
   ⟨0x10, 1, 0, false, false,
    [⟨15, 0, .rc, 0, .any, .always⟩]⟩,
   ⟨0x14, 1, 0, false, false,
    [⟨31, 0, .rc, 0, .any, .always⟩]⟩,
   ⟨0x18, 1, 0, false, false,
    [⟨31, 0, .rc, 0, .any, .always⟩]⟩]

/-- The units of R360, in the order of the map. -/
def units : List UnitDesc :=
  [⟨0, 1, 0, 0x100000, .chip, [⟨0, 1, 0, chipRegs⟩]⟩,
   ⟨0x100000, 1, 0, 0x100000, .at 0x00100000, [⟨0, 1, 0, madderRegs⟩]⟩,
   ⟨0x200000, 8, 0x10000, 0x10000, .unitOff 0, [⟨0, 1, 0, ringRegs⟩]⟩,
   ⟨0x300000, 1, 0, 0x40000, .at 0x00300000, [⟨0, 1, 0, lgRegs⟩, ⟨0x100, 8, 0x40, lgRegs1⟩]⟩,
   ⟨0x340000, 1, 0, 0x20000, .at 0x00340000, [⟨0, 1, 0, adcRegs⟩]⟩,
   ⟨0x360000, 1, 0, 0xA0000, .fb, [⟨0, 1, 0, fbRegs⟩, ⟨0x100, 8, 0x40, fbRegs1⟩]⟩,
   ⟨0x400000, 1, 0, 0x100000, .at 0x00400000, [⟨0, 1, 0, timeRegs⟩, ⟨0x1000, 2, 0x1000, timeRegs1⟩]⟩,
   ⟨0x500000, 1, 0, 0x80000, .at 0x00500000, [⟨0, 1, 0, cmdRegs⟩, ⟨0x100, 64, 0x40, cmdRegs1⟩, ⟨0x2000, 2, 0x200, cmdRegs2⟩]⟩,
   ⟨0x580000, 1, 0, 0x80000, .at 0x00580000, [⟨0, 1, 0, foxRegs⟩]⟩,
   ⟨0x600000, 1, 0, 0x80000, .at 0x00600000, [⟨0, 1, 0, indRegs⟩]⟩,
   ⟨0x680000, 1, 0, 0x80000, .at 0x00680000, [⟨0, 1, 0, lspRegs⟩]⟩,
   ⟨0x700000, 1, 0, 0x100000, .none, [⟨0, 1, 0, woadRegs⟩]⟩,
   ⟨0x800000, 1, 0, 0x100000, .at 0x00800000, [⟨0, 1, 0, dmaRegs⟩, ⟨0x1000, 8, 0x40, dmaRegs1⟩, ⟨0x8000, 128, 0x10, dmaRegs2⟩]⟩,
   ⟨0x4000000, 4, 0x1000000, 0x1000000, .groupOff 8, [⟨0, 1, 0, cellctlRegs⟩, ⟨0xA01000, 16, 0x40, cellctlRegs1⟩]⟩]

/-- A field by its register's offset and its bits. For a unit or group that is repeated, the offset is relative to it. -/
structure Fld where
  off : Nat
  hi : Nat
  lo : Nat
deriving DecidableEq, Repr

/-- CHIP_ISL_SEL.island. -/
def Reg.chipIslSelIsland : Fld := ⟨0x100, 6, 0⟩
/-- CHIP_LOOP_SEL.group. -/
def Reg.chipLoopSelGroup : Fld := ⟨0x200, 4, 0⟩
/-- CHIP_BOOT_STAT.result. -/
def Reg.chipBootStatResult : Fld := ⟨0x300, 31, 29⟩
/-- CHIP_BOOT_STAT.fallback. -/
def Reg.chipBootStatFallback : Fld := ⟨0x300, 28, 28⟩
/-- CHIP_BOOT_STAT.unsecured. -/
def Reg.chipBootStatUnsecured : Fld := ⟨0x300, 27, 27⟩
/-- CHIP_BOOT_STAT.fail_first. -/
def Reg.chipBootStatFailFirst : Fld := ⟨0x300, 26, 24⟩
/-- CHIP_BOOT_STAT.fail_second. -/
def Reg.chipBootStatFailSecond : Fld := ⟨0x300, 23, 21⟩
/-- CHIP_BOOT_STAT.strap. -/
def Reg.chipBootStatStrap : Fld := ⟨0x300, 20, 19⟩
/-- CHIP_BOOT_STAT.param_buf. -/
def Reg.chipBootStatParamBuf : Fld := ⟨0x300, 18, 18⟩
/-- CHIP_BOOT_STAT.param_none. -/
def Reg.chipBootStatParamNone : Fld := ⟨0x300, 17, 17⟩
/-- MAD_CTRL.cfg_warn. -/
def Reg.madCtrlCfgWarn : Fld := ⟨0x100000, 31, 31⟩
/-- MAD_CTRL.digest_en. -/
def Reg.madCtrlDigestEn : Fld := ⟨0x100000, 0, 0⟩
/-- MAD_STAT.tokens_carved. -/
def Reg.madStatTokensCarved : Fld := ⟨0x100004, 30, 16⟩
/-- MAD_STAT.ops_placed. -/
def Reg.madStatOpsPlaced : Fld := ⟨0x100004, 12, 0⟩
/-- MAD_RUN_CYCLE.cycle. -/
def Reg.madRunCycle : Fld := ⟨0x100008, 31, 0⟩
/-- MAD_QSEL.queue. -/
def Reg.madQselQueue : Fld := ⟨0x100010, 12, 0⟩
/-- MAD_WIC_SEL.channel. -/
def Reg.madWicSelChannel : Fld := ⟨0x100030, 5, 0⟩
/-- MAD_WIC_CANCEL.channel. -/
def Reg.madWicCancelChannel : Fld := ⟨0x100044, 21, 16⟩
/-- MAD_WIC_CANCEL.tag. -/
def Reg.madWicCancelTag : Fld := ⟨0x100044, 15, 0⟩
/-- MAD_DL_CFG.tick_ns. -/
def Reg.madDlCfgTickNs : Fld := ⟨0x100050, 16, 0⟩
/-- MAD_MBX_SEL.queue. -/
def Reg.madMbxSelQueue : Fld := ⟨0x100070, 12, 0⟩
/-- MAD_EVT.qfull. -/
def Reg.madEvtQfull : Fld := ⟨0x100080, 31, 16⟩
/-- MAD_EVT.late_ops. -/
def Reg.madEvtLateOps : Fld := ⟨0x100080, 15, 0⟩
/-- MAD_REPLAY_CTRL.abort. -/
def Reg.madReplayCtrlAbort : Fld := ⟨0x1000A0, 4, 4⟩
/-- MAD_REPLAY_CTRL.paced. -/
def Reg.madReplayCtrlPaced : Fld := ⟨0x1000A0, 3, 3⟩
/-- MAD_REPLAY_CTRL.stop_on_mismatch. -/
def Reg.madReplayCtrlStopOnMismatch : Fld := ⟨0x1000A0, 2, 2⟩
/-- MAD_REPLAY_CTRL.step. -/
def Reg.madReplayCtrlStep : Fld := ⟨0x1000A0, 1, 1⟩
/-- MAD_REPLAY_CTRL.start. -/
def Reg.madReplayCtrlStart : Fld := ⟨0x1000A0, 0, 0⟩
/-- MAD_REPLAY_STAT.state. -/
def Reg.madReplayStatState : Fld := ⟨0x1000A4, 31, 30⟩
/-- MAD_REPLAY_STAT.buf_error. -/
def Reg.madReplayStatBufError : Fld := ⟨0x1000A4, 29, 29⟩
/-- MAD_REPLAY_AT.cycle. -/
def Reg.madReplayAt : Fld := ⟨0x1000A8, 31, 0⟩
/-- MAD_REPLAY_FROM.c1. -/
def Reg.madReplayFrom : Fld := ⟨0x1000AC, 31, 0⟩
/-- MAD_REPLAY_TO.c2. -/
def Reg.madReplayTo : Fld := ⟨0x1000B0, 31, 0⟩
/-- MAD_REPLAY_IN.addr. -/
def Reg.madReplayIn : Fld := ⟨0x1000B8, 31, 0⟩
/-- MAD_REPLAY_IN_LEN.len. -/
def Reg.madReplayInLen : Fld := ⟨0x1000C0, 31, 0⟩
/-- MAD_REPLAY_JNL.addr. -/
def Reg.madReplayJnl : Fld := ⟨0x1000C8, 31, 0⟩
/-- MAD_REPLAY_JNL_LEN.len. -/
def Reg.madReplayJnlLen : Fld := ⟨0x1000D0, 31, 0⟩
/-- MAD_REPLAY_SNAP.addr. -/
def Reg.madReplaySnap : Fld := ⟨0x1000D8, 31, 0⟩
/-- MAD_REPLAY_REF.addr. -/
def Reg.madReplayRef : Fld := ⟨0x1000E0, 31, 0⟩
/-- MAD_REPLAY_REF_LEN.len. -/
def Reg.madReplayRefLen : Fld := ⟨0x1000E8, 31, 0⟩
/-- XW_CTRL.cfg_warn. -/
def Reg.xwCtrlCfgWarn : Fld := ⟨0, 31, 31⟩
/-- XW_CTRL.auto_reclose. -/
def Reg.xwCtrlAutoReclose : Fld := ⟨0, 8, 8⟩
/-- XW_CTRL.claim_en. -/
def Reg.xwCtrlClaimEn : Fld := ⟨0, 7, 7⟩
/-- XW_CTRL.swap_ok. -/
def Reg.xwCtrlSwapOk : Fld := ⟨0, 6, 6⟩
/-- XW_CTRL.phy. -/
def Reg.xwCtrlPhy : Fld := ⟨0, 5, 4⟩
/-- XW_CTRL.bypass. -/
def Reg.xwCtrlBypass : Fld := ⟨0, 3, 3⟩
/-- XW_CTRL.enable. -/
def Reg.xwCtrlEnable : Fld := ⟨0, 0, 0⟩
/-- XW_STAT.state. -/
def Reg.xwStatState : Fld := ⟨4, 31, 29⟩
/-- XW_STAT.ew_swapped. -/
def Reg.xwStatEwSwapped : Fld := ⟨4, 28, 28⟩
/-- XW_STAT.swapped_fixed. -/
def Reg.xwStatSwappedFixed : Fld := ⟨4, 27, 27⟩
/-- XW_STAT.inv_e. -/
def Reg.xwStatInvE : Fld := ⟨4, 26, 26⟩
/-- XW_STAT.inv_w. -/
def Reg.xwStatInvW : Fld := ⟨4, 25, 25⟩
/-- XW_STAT.lock_e. -/
def Reg.xwStatLockE : Fld := ⟨4, 24, 24⟩
/-- XW_STAT.lock_w. -/
def Reg.xwStatLockW : Fld := ⟨4, 23, 23⟩
/-- XW_STAT.rate10. -/
def Reg.xwStatRate10 : Fld := ⟨4, 22, 22⟩
/-- XW_STAT.bypass_closed. -/
def Reg.xwStatBypassClosed : Fld := ⟨4, 21, 21⟩
/-- XW_STAT.lb_e_valid. -/
def Reg.xwStatLbEValid : Fld := ⟨4, 20, 20⟩
/-- XW_STAT.lb_e. -/
def Reg.xwStatLbE : Fld := ⟨4, 19, 16⟩
/-- XW_STAT.lb_w_valid. -/
def Reg.xwStatLbWValid : Fld := ⟨4, 15, 15⟩
/-- XW_STAT.lb_w. -/
def Reg.xwStatLbW : Fld := ⟨4, 14, 11⟩
/-- XW_CRC_ERR.crc_e. -/
def Reg.xwCrcErrCrcE : Fld := ⟨8, 31, 16⟩
/-- XW_CRC_ERR.crc_w. -/
def Reg.xwCrcErrCrcW : Fld := ⟨8, 15, 0⟩
/-- XW_MISS.sub_missing. -/
def Reg.xwMissSubMissing : Fld := ⟨0xC, 31, 16⟩
/-- XW_MISS.sub_late. -/
def Reg.xwMissSubLate : Fld := ⟨0xC, 15, 0⟩
/-- XW_EVT.heals. -/
def Reg.xwEvtHeals : Fld := ⟨0x10, 31, 24⟩
/-- XW_EVT.recloses. -/
def Reg.xwEvtRecloses : Fld := ⟨0x10, 23, 16⟩
/-- XW_EVT.out_of_window. -/
def Reg.xwEvtOutOfWindow : Fld := ⟨0x10, 15, 8⟩
/-- XW_EVT.grants. -/
def Reg.xwEvtGrants : Fld := ⟨0x10, 7, 0⟩
/-- XW_TIMING.t_apply. -/
def Reg.xwTimingTApply : Fld := ⟨0x14, 31, 16⟩
/-- XW_TIMING.t_s. -/
def Reg.xwTimingTS : Fld := ⟨0x14, 15, 0⟩
/-- XW_TIMING_H.t_apply_h. -/
def Reg.xwTimingHTApplyH : Fld := ⟨0x18, 31, 16⟩
/-- XW_TIMING_H.t_cs. -/
def Reg.xwTimingHTCs : Fld := ⟨0x18, 15, 0⟩
/-- XW_RTT.rtt. -/
def Reg.xwRttRtt : Fld := ⟨0x1C, 31, 16⟩
/-- XW_CLAIM.nonce. -/
def Reg.xwClaimNonce : Fld := ⟨0x20, 31, 16⟩
/-- XW_CLAIM.node. -/
def Reg.xwClaimNode : Fld := ⟨0x20, 15, 12⟩
/-- XW_CLAIM.result. -/
def Reg.xwClaimResult : Fld := ⟨0x20, 11, 10⟩
/-- XW_ARSP_STAT.dropped. -/
def Reg.xwArspStatDropped : Fld := ⟨0x24, 31, 24⟩
/-- XW_ARSP_STAT.head. -/
def Reg.xwArspStatHead : Fld := ⟨0x24, 23, 20⟩
/-- XW_ARSP_STAT.count. -/
def Reg.xwArspStatCount : Fld := ⟨0x24, 4, 0⟩
/-- XW_ARSP_POP.pop. -/
def Reg.xwArspPopPop : Fld := ⟨0x28, 0, 0⟩
/-- XW_SLOT_SEL.node. -/
def Reg.xwSlotSelNode : Fld := ⟨0x40, 3, 0⟩
/-- XW_SCHED.word. -/
def Reg.xwSched : Fld := ⟨0x8000, 31, 0⟩
/-- PWM_CTRL.cfg_warn. -/
def Reg.pwmCtrlCfgWarn : Fld := ⟨0x300000, 31, 31⟩
/-- PWM_TIMING.t_apply. -/
def Reg.pwmTimingTApply : Fld := ⟨0x300004, 31, 16⟩
/-- PWM_TIMING.t_cmd. -/
def Reg.pwmTimingTCmd : Fld := ⟨0x300004, 15, 0⟩
/-- PWM_DLY_STAT.dly_err. -/
def Reg.pwmDlyStatDlyErr : Fld := ⟨0x300008, 31, 31⟩
/-- PWM_DLY_STAT.err_ps. -/
def Reg.pwmDlyStatErrPs : Fld := ⟨0x300008, 23, 16⟩
/-- PWM_DLY_STAT.trim. -/
def Reg.pwmDlyStatTrim : Fld := ⟨0x300008, 5, 0⟩
/-- PWM_GRP_CFG.en. -/
def Reg.pwmGrpCfgEn : Fld := ⟨0, 31, 31⟩
/-- PWM_GRP_CFG.hold_limit. -/
def Reg.pwmGrpCfgHoldLimit : Fld := ⟨0, 30, 23⟩
/-- PWM_GRP_CFG.fb. -/
def Reg.pwmGrpCfgFb : Fld := ⟨0, 22, 20⟩
/-- PWM_GRP_CFG.spare. -/
def Reg.pwmGrpCfgSpare : Fld := ⟨0, 19, 18⟩
/-- PWM_GRP_CFG.mp_mode. -/
def Reg.pwmGrpCfgMpMode : Fld := ⟨0, 17, 17⟩
/-- PWM_GRP_CFG.kind. -/
def Reg.pwmGrpCfgKind : Fld := ⟨0, 16, 16⟩
/-- PWM_GRP_CFG.t_per. -/
def Reg.pwmGrpCfgTPer : Fld := ⟨0, 15, 0⟩
/-- PWM_GRP_DT.dt. -/
def Reg.pwmGrpDtDt : Fld := ⟨4, 31, 21⟩
/-- PWM_GRP_DT.tmin. -/
def Reg.pwmGrpDtTmin : Fld := ⟨4, 20, 10⟩
/-- PWM_GRP_OUT.ss_tmin. -/
def Reg.pwmGrpOutSsTmin : Fld := ⟨8, 29, 16⟩
/-- PWM_GRP_OUT.safe. -/
def Reg.pwmGrpOutSafe : Fld := ⟨8, 7, 0⟩
/-- PWM_GRP_MASK.src. -/
def Reg.pwmGrpMaskSrc : Fld := ⟨0xC, 31, 31⟩
/-- PWM_GRP_MASK.hall_ofs. -/
def Reg.pwmGrpMaskHallOfs : Fld := ⟨0xC, 30, 28⟩
/-- PWM_GRP_MASK.filt. -/
def Reg.pwmGrpMaskFilt : Fld := ⟨0xC, 27, 25⟩
/-- PWM_GRP_MASK.blank. -/
def Reg.pwmGrpMaskBlank : Fld := ⟨0xC, 24, 12⟩
/-- PWM_GRP_CHOP.decay. -/
def Reg.pwmGrpChopDecay : Fld := ⟨0x10, 31, 30⟩
/-- PWM_GRP_CHOP.hyst. -/
def Reg.pwmGrpChopHyst : Fld := ⟨0x10, 29, 22⟩
/-- PWM_GRP_CHOP.t_on. -/
def Reg.pwmGrpChopTOn : Fld := ⟨0x10, 21, 14⟩
/-- PWM_GRP_CHOP.t_off. -/
def Reg.pwmGrpChopTOff : Fld := ⟨0x10, 13, 6⟩
/-- PWM_GRP_CHOP.t_mix. -/
def Reg.pwmGrpChopTMix : Fld := ⟨0x10, 5, 0⟩
/-- PWM_GRP_ZERO.z_b. -/
def Reg.pwmGrpZeroZB : Fld := ⟨0x14, 29, 16⟩
/-- PWM_GRP_ZERO.z_a. -/
def Reg.pwmGrpZeroZA : Fld := ⟨0x14, 13, 0⟩
/-- PWM_GRP_STAT.state. -/
def Reg.pwmGrpStatState : Fld := ⟨0x18, 31, 29⟩
/-- PWM_GRP_STAT.stale. -/
def Reg.pwmGrpStatStale : Fld := ⟨0x18, 28, 28⟩
/-- PWM_GRP_STAT.mask_on. -/
def Reg.pwmGrpStatMaskOn : Fld := ⟨0x18, 27, 27⟩
/-- PWM_GRP_STAT.mask_step. -/
def Reg.pwmGrpStatMaskStep : Fld := ⟨0x18, 26, 24⟩
/-- PWM_GRP_STAT.held. -/
def Reg.pwmGrpStatHeld : Fld := ⟨0x18, 23, 16⟩
/-- PWM_GRP_STAT.short. -/
def Reg.pwmGrpStatShort : Fld := ⟨0x18, 7, 0⟩
/-- PWM_GRP_CNT.filtered. -/
def Reg.pwmGrpCntFiltered : Fld := ⟨0x1C, 31, 16⟩
/-- PWM_GRP_CNT.realign. -/
def Reg.pwmGrpCntRealign : Fld := ⟨0x1C, 15, 8⟩
/-- PWM_GRP_CNT.ev_missed. -/
def Reg.pwmGrpCntEvMissed : Fld := ⟨0x1C, 7, 0⟩
/-- PWM_GRP_OFS.o_b. -/
def Reg.pwmGrpOfsOB : Fld := ⟨0x20, 31, 16⟩
/-- PWM_GRP_OFS.o_a. -/
def Reg.pwmGrpOfsOA : Fld := ⟨0x20, 15, 0⟩
/-- ADC_CTRL.cfg_warn. -/
def Reg.adcCtrlCfgWarn : Fld := ⟨0x340000, 31, 31⟩
/-- ADC_CTRL.running. -/
def Reg.adcCtrlRunning : Fld := ⟨0x340000, 0, 0⟩
/-- ADC_DUE.due. -/
def Reg.adcDueDue : Fld := ⟨0x340004, 15, 0⟩
/-- ADC_URG.channel. -/
def Reg.adcUrgChannel : Fld := ⟨0x340008, 5, 0⟩
/-- ADC_STAT.aborts. -/
def Reg.adcStatAborts : Fld := ⟨0x34000C, 31, 24⟩
/-- ADC_STAT.dropped. -/
def Reg.adcStatDropped : Fld := ⟨0x34000C, 23, 16⟩
/-- ADC_STAT.late. -/
def Reg.adcStatLate : Fld := ⟨0x34000C, 15, 8⟩
/-- ADC_STAT.holds. -/
def Reg.adcStatHolds : Fld := ⟨0x34000C, 7, 0⟩
/-- ADC_OVR_LO.ovr. -/
def Reg.adcOvrLoOvr : Fld := ⟨0x340010, 31, 0⟩
/-- ADC_OVR_HI.ovr. -/
def Reg.adcOvrHiOvr : Fld := ⟨0x340014, 15, 0⟩
/-- ADC_RES.result. -/
def Reg.adcRes : Fld := ⟨0x340100, 31, 0⟩
/-- ADC_GAIN.gain. -/
def Reg.adcGainGain : Fld := ⟨0x340200, 17, 0⟩
/-- ADC_OFF.off. -/
def Reg.adcOffOff : Fld := ⟨0x340300, 19, 0⟩
/-- ADC_SEQ.kind. -/
def Reg.adcSeqKind : Fld := ⟨0x341000, 31, 30⟩
/-- ADC_SEQ.urg. -/
def Reg.adcSeqUrg : Fld := ⟨0x341000, 29, 29⟩
/-- ADC_SEQ.mux. -/
def Reg.adcSeqMux : Fld := ⟨0x341000, 28, 27⟩
/-- ADC_SEQ.grp. -/
def Reg.adcSeqGrp : Fld := ⟨0x341000, 26, 24⟩
/-- ADC_SEQ.dst. -/
def Reg.adcSeqDst : Fld := ⟨0x341000, 23, 21⟩
/-- ADC_SEQ.chop. -/
def Reg.adcSeqChop : Fld := ⟨0x341000, 20, 20⟩
/-- ADC_SEQ.coil. -/
def Reg.adcSeqCoil : Fld := ⟨0x341000, 19, 19⟩
/-- ADC_SEQ.offset. -/
def Reg.adcSeqOffset : Fld := ⟨0x341000, 15, 0⟩
/-- FB_CFG.mode. -/
def Reg.fbCfgMode : Fld := ⟨0, 31, 30⟩
/-- FB_CFG.hall_en. -/
def Reg.fbCfgHallEn : Fld := ⟨0, 29, 29⟩
/-- FB_CFG.z_mode. -/
def Reg.fbCfgZMode : Fld := ⟨0, 28, 27⟩
/-- FB_CFG.swap_fix. -/
def Reg.fbCfgSwapFix : Fld := ⟨0, 26, 26⟩
/-- FB_CFG.extrap. -/
def Reg.fbCfgExtrap : Fld := ⟨0, 25, 25⟩
/-- FB_CFG.ext. -/
def Reg.fbCfgExt : Fld := ⟨0, 24, 24⟩
/-- FB_CFG.filt. -/
def Reg.fbCfgFilt : Fld := ⟨0, 23, 21⟩
/-- FB_CFG.z_tol. -/
def Reg.fbCfgZTol : Fld := ⟨0, 15, 0⟩
/-- FB_CPR.cpr. -/
def Reg.fbCprCpr : Fld := ⟨4, 31, 0⟩
/-- FB_SER.div. -/
def Reg.fbSerDiv : Fld := ⟨8, 31, 24⟩
/-- FB_SER.len. -/
def Reg.fbSerLen : Fld := ⟨8, 23, 18⟩
/-- FB_SER.pos_lsb. -/
def Reg.fbSerPosLsb : Fld := ⟨8, 17, 12⟩
/-- FB_SER.pos_width. -/
def Reg.fbSerPosWidth : Fld := ⟨8, 11, 6⟩
/-- FB_SER.gray. -/
def Reg.fbSerGray : Fld := ⟨8, 5, 5⟩
/-- FB_LEAD.lead. -/
def Reg.fbLeadLead : Fld := ⟨0xC, 15, 0⟩
/-- FB_HALL.map. -/
def Reg.fbHallMap : Fld := ⟨0x10, 17, 0⟩
/-- FB_POS.value. -/
def Reg.fbPos : Fld := ⟨0x14, 31, 0⟩
/-- FB_LATCH_POS.value. -/
def Reg.fbLatchPos : Fld := ⟨0x18, 31, 0⟩
/-- FB_LATCH_T.value. -/
def Reg.fbLatchT : Fld := ⟨0x1C, 31, 0⟩
/-- FB_DT.value. -/
def Reg.fbDt : Fld := ⟨0x20, 31, 0⟩
/-- FB_ZLATCH.value. -/
def Reg.fbZlatch : Fld := ⟨0x24, 31, 0⟩
/-- FB_STAT.fault. -/
def Reg.fbStatFault : Fld := ⟨0x28, 31, 31⟩
/-- FB_STAT.lost. -/
def Reg.fbStatLost : Fld := ⟨0x28, 30, 28⟩
/-- FB_STAT.shorted. -/
def Reg.fbStatShorted : Fld := ⟨0x28, 27, 27⟩
/-- FB_STAT.swap_det. -/
def Reg.fbStatSwapDet : Fld := ⟨0x28, 26, 26⟩
/-- FB_STAT.swap_fixed. -/
def Reg.fbStatSwapFixed : Fld := ⟨0x28, 25, 25⟩
/-- FB_STAT.zerr. -/
def Reg.fbStatZerr : Fld := ⟨0x28, 24, 24⟩
/-- FB_STAT.hall_err. -/
def Reg.fbStatHallErr : Fld := ⟨0x28, 23, 23⟩
/-- FB_STAT.dir. -/
def Reg.fbStatDir : Fld := ⟨0x28, 22, 22⟩
/-- FB_STAT.ser_err. -/
def Reg.fbStatSerErr : Fld := ⟨0x28, 21, 21⟩
/-- FB_STAT.warn. -/
def Reg.fbStatWarn : Fld := ⟨0x28, 20, 20⟩
/-- FB_STAT.qerr. -/
def Reg.fbStatQerr : Fld := ⟨0x28, 15, 8⟩
/-- FB_STAT.ser_fail. -/
def Reg.fbStatSerFail : Fld := ⟨0x28, 7, 0⟩
/-- TIME_CTRL.cfg_warn. -/
def Reg.timeCtrlCfgWarn : Fld := ⟨0x400000, 31, 31⟩
/-- TIME_STAT.stale. -/
def Reg.timeStatStale : Fld := ⟨0x400004, 31, 31⟩
/-- TIME_STAT.ramping. -/
def Reg.timeStatRamping : Fld := ⟨0x400004, 30, 30⟩
/-- TIME_INC_TGT_LO.value. -/
def Reg.timeIncTgtLo : Fld := ⟨0x400028, 31, 0⟩
/-- TIME_INC_TGT_HI.value. -/
def Reg.timeIncTgtHi : Fld := ⟨0x40002C, 15, 0⟩
/-- TIME_SLEW.interval. -/
def Reg.timeSlewInterval : Fld := ⟨0x400030, 31, 16⟩
/-- TIME_SLEW.step. -/
def Reg.timeSlewStep : Fld := ⟨0x400030, 15, 0⟩
/-- TIME_HOLD.stale_ms. -/
def Reg.timeHoldStaleMs : Fld := ⟨0x400034, 15, 0⟩
/-- TIME_PPS.width_us. -/
def Reg.timePpsWidthUs : Fld := ⟨0x400038, 18, 0⟩
/-- TIME_CYC_HZ.hz. -/
def Reg.timeCycHzHz : Fld := ⟨0x400040, 31, 0⟩
/-- TIME_CLK_PER.value. -/
def Reg.timeClkPer : Fld := ⟨0x400050, 31, 0⟩
/-- TIME_CLK_FRAC.value. -/
def Reg.timeClkFrac : Fld := ⟨0x400054, 31, 0⟩
/-- TIME_CLK_CTRL.en. -/
def Reg.timeClkCtrlEn : Fld := ⟨0x400058, 31, 31⟩
/-- TIME_CLK_CTRL.pending. -/
def Reg.timeClkCtrlPending : Fld := ⟨0x400058, 30, 30⟩
/-- BB_PAIR_CTRL.closed. -/
def Reg.bbPairCtrlClosed : Fld := ⟨0x400100, 31, 31⟩
/-- BB_PAIR_CTRL.bypass. -/
def Reg.bbPairCtrlBypass : Fld := ⟨0x400100, 0, 0⟩
/-- BB_CTRL.tc_en. -/
def Reg.bbCtrlTcEn : Fld := ⟨0, 4, 4⟩
/-- BB_CTRL.fwd_en. -/
def Reg.bbCtrlFwdEn : Fld := ⟨0, 3, 3⟩
/-- BB_CTRL.en. -/
def Reg.bbCtrlEn : Fld := ⟨0, 2, 2⟩
/-- BB_CTRL.rate. -/
def Reg.bbCtrlRate : Fld := ⟨0, 1, 0⟩
/-- BB_STAT.lock. -/
def Reg.bbStatLock : Fld := ⟨4, 31, 31⟩
/-- BB_STAT.inv. -/
def Reg.bbStatInv : Fld := ⟨4, 30, 30⟩
/-- BB_STAT.tsq_ovf. -/
def Reg.bbStatTsqOvf : Fld := ⟨4, 29, 29⟩
/-- BB_STAT.tsq_count. -/
def Reg.bbStatTsqCount : Fld := ⟨4, 4, 0⟩
/-- BB_MAC_LO.value. -/
def Reg.bbMacLo : Fld := ⟨8, 31, 0⟩
/-- BB_MAC_HI.value. -/
def Reg.bbMacHi : Fld := ⟨0xC, 15, 0⟩
/-- BB_TS_CORR.tx. -/
def Reg.bbTsCorrTx : Fld := ⟨0x10, 31, 16⟩
/-- BB_TS_CORR.rx. -/
def Reg.bbTsCorrRx : Fld := ⟨0x10, 15, 0⟩
/-- BB_TSQ_POP.pop. -/
def Reg.bbTsqPopPop : Fld := ⟨0x14, 0, 0⟩
/-- BB_TSQ_ID.valid. -/
def Reg.bbTsqIdValid : Fld := ⟨0x18, 16, 16⟩
/-- BB_TSQ_ID.ts_id. -/
def Reg.bbTsqIdTsId : Fld := ⟨0x18, 15, 0⟩
/-- BB_TSQ_SUB.value. -/
def Reg.bbTsqSub : Fld := ⟨0x1C, 15, 0⟩
/-- BB_TSQ_NS.value. -/
def Reg.bbTsqNs : Fld := ⟨0x20, 31, 0⟩
/-- BB_TSQ_S.value. -/
def Reg.bbTsqS : Fld := ⟨0x24, 31, 0⟩
/-- BB_TSQ_LOST.lost. -/
def Reg.bbTsqLost : Fld := ⟨0x2C, 15, 0⟩
/-- BB_TX_BASE.value. -/
def Reg.bbTxBase : Fld := ⟨0x30, 31, 0⟩
/-- BB_TX_LEN.value. -/
def Reg.bbTxLen : Fld := ⟨0x38, 31, 0⟩
/-- BB_TX_TAIL.value. -/
def Reg.bbTxTail : Fld := ⟨0x3C, 31, 0⟩
/-- BB_TX_HEAD.value. -/
def Reg.bbTxHead : Fld := ⟨0x40, 31, 0⟩
/-- BB_RX_BASE.value. -/
def Reg.bbRxBase : Fld := ⟨0x44, 31, 0⟩
/-- BB_RX_LEN.value. -/
def Reg.bbRxLen : Fld := ⟨0x4C, 31, 0⟩
/-- BB_CNT.fwd_drop. -/
def Reg.bbCntFwdDrop : Fld := ⟨0x50, 31, 16⟩
/-- BB_CNT.rx_err. -/
def Reg.bbCntRxErr : Fld := ⟨0x50, 15, 0⟩
/-- BB_LATE.late. -/
def Reg.bbLateLate : Fld := ⟨0x54, 15, 0⟩
/-- BB_RX_TAIL.value. -/
def Reg.bbRxTail : Fld := ⟨0x58, 31, 0⟩
/-- BB_RX_HEAD.value. -/
def Reg.bbRxHead : Fld := ⟨0x5C, 31, 0⟩
/-- CMD_CTRL.cfg_warn. -/
def Reg.cmdCtrlCfgWarn : Fld := ⟨0x500000, 31, 31⟩
/-- CMD_CTRL.timeout_ms. -/
def Reg.cmdCtrlTimeoutMs : Fld := ⟨0x500000, 9, 0⟩
/-- CMD_STAT.fw_alive. -/
def Reg.cmdStatFwAlive : Fld := ⟨0x500004, 31, 31⟩
/-- CMD_STAT.drop. -/
def Reg.cmdStatDrop : Fld := ⟨0x500004, 23, 16⟩
/-- CMD_STAT.timeouts. -/
def Reg.cmdStatTimeouts : Fld := ⟨0x500004, 15, 0⟩
/-- CMD_AUTH_ERR.auth. -/
def Reg.cmdAuthErrAuth : Fld := ⟨0x500008, 31, 16⟩
/-- CMD_AUTH_ERR.pf1_wr. -/
def Reg.cmdAuthErrPf1Wr : Fld := ⟨0x500008, 15, 0⟩
/-- JNL_MIRROR_CFG.en. -/
def Reg.jnlMirrorCfgEn : Fld := ⟨0x50301C, 31, 31⟩
/-- JNL_MIRROR_CFG.size_log2. -/
def Reg.jnlMirrorCfgSizeLog2 : Fld := ⟨0x50301C, 30, 26⟩
/-- JNL_MIRROR_CFG.max_lag. -/
def Reg.jnlMirrorCfgMaxLag : Fld := ⟨0x50301C, 25, 17⟩
/-- JNL_MIRROR_BASE.base. -/
def Reg.jnlMirrorBaseBase : Fld := ⟨0x503020, 31, 18⟩
/-- QP_CTRL.en. -/
def Reg.qpCtrlEn : Fld := ⟨0, 31, 31⟩
/-- QP_CTRL.irq_en. -/
def Reg.qpCtrlIrqEn : Fld := ⟨0, 30, 30⟩
/-- QP_CTRL.size_log2. -/
def Reg.qpCtrlSizeLog2 : Fld := ⟨0, 3, 0⟩
/-- QP_STAT.fault. -/
def Reg.qpStatFault : Fld := ⟨4, 31, 31⟩
/-- QP_STAT.cq_full. -/
def Reg.qpStatCqFull : Fld := ⟨4, 30, 30⟩
/-- QP_STAT.sq_head. -/
def Reg.qpStatSqHead : Fld := ⟨4, 25, 16⟩
/-- QP_STAT.cq_tail. -/
def Reg.qpStatCqTail : Fld := ⟨4, 9, 0⟩
/-- QP_SQ_LO.value. -/
def Reg.qpSqLo : Fld := ⟨8, 31, 6⟩
/-- QP_SQ_HI.value. -/
def Reg.qpSqHi : Fld := ⟨0xC, 31, 0⟩
/-- QP_CQ_LO.value. -/
def Reg.qpCqLo : Fld := ⟨0x10, 31, 5⟩
/-- QP_CQ_HI.value. -/
def Reg.qpCqHi : Fld := ⟨0x14, 31, 0⟩
/-- QP_DATA_LO.value. -/
def Reg.qpDataLo : Fld := ⟨0x18, 31, 8⟩
/-- QP_DATA_HI.value. -/
def Reg.qpDataHi : Fld := ⟨0x1C, 31, 0⟩
/-- QP_SQ_TAIL.tail. -/
def Reg.qpSqTailTail : Fld := ⟨0x20, 9, 0⟩
/-- QP_CQ_HEAD.head. -/
def Reg.qpCqHeadHead : Fld := ⟨0x24, 9, 0⟩
/-- KPR_CMD.word. -/
def Reg.kprCmd : Fld := ⟨0, 31, 0⟩
/-- KPR_GO.go. -/
def Reg.kprGoGo : Fld := ⟨0x40, 0, 0⟩
/-- KPR_STAT.busy. -/
def Reg.kprStatBusy : Fld := ⟨0x44, 31, 31⟩
/-- KPR_STAT.done. -/
def Reg.kprStatDone : Fld := ⟨0x44, 30, 30⟩
/-- KPR_STAT.dropped. -/
def Reg.kprStatDropped : Fld := ⟨0x44, 29, 29⟩
/-- KPR_RPL.word. -/
def Reg.kprRpl : Fld := ⟨0x80, 31, 0⟩
/-- KPR_DATA.word. -/
def Reg.kprData : Fld := ⟨0x100, 31, 0⟩
/-- FOX_CTRL.cfg_warn. -/
def Reg.foxCtrlCfgWarn : Fld := ⟨0x580000, 31, 31⟩
/-- FOX_CTRL.alarm_en. -/
def Reg.foxCtrlAlarmEn : Fld := ⟨0x580000, 0, 0⟩
/-- FOX_QUIET_0.quiet. -/
def Reg.foxQuiet0Quiet : Fld := ⟨0x580010, 15, 0⟩
/-- FOX_QUIET_1.quiet. -/
def Reg.foxQuiet1Quiet : Fld := ⟨0x580014, 15, 0⟩
/-- FOX_QUIET_2.quiet. -/
def Reg.foxQuiet2Quiet : Fld := ⟨0x580018, 15, 0⟩
/-- FOX_QUIET_3.quiet. -/
def Reg.foxQuiet3Quiet : Fld := ⟨0x58001C, 15, 0⟩
/-- FOX_RECOV_LO.l1. -/
def Reg.foxRecovLoL1 : Fld := ⟨0x580020, 31, 16⟩
/-- FOX_RECOV_LO.l0. -/
def Reg.foxRecovLoL0 : Fld := ⟨0x580020, 15, 0⟩
/-- FOX_RECOV_HI.l3. -/
def Reg.foxRecovHiL3 : Fld := ⟨0x580024, 31, 16⟩
/-- FOX_RECOV_HI.l2. -/
def Reg.foxRecovHiL2 : Fld := ⟨0x580024, 15, 0⟩
/-- FOX_LOST.lost. -/
def Reg.foxLost : Fld := ⟨0x58002C, 31, 0⟩
/-- FOX_ACKED.value. -/
def Reg.foxAcked : Fld := ⟨0x580030, 31, 0⟩
/-- FOX_ALARM_MAC_LO.value. -/
def Reg.foxAlarmMacLo : Fld := ⟨0x580038, 31, 0⟩
/-- FOX_ALARM_MAC_HI.value. -/
def Reg.foxAlarmMacHi : Fld := ⟨0x58003C, 15, 0⟩
/-- FOX_ALARM_SUPP.value. -/
def Reg.foxAlarmSupp : Fld := ⟨0x580040, 31, 0⟩
/-- IND_CTRL.cfg_warn. -/
def Reg.indCtrlCfgWarn : Fld := ⟨0x600000, 31, 31⟩
/-- IND_CTRL.master. -/
def Reg.indCtrlMaster : Fld := ⟨0x600000, 3, 3⟩
/-- IND_CTRL.multi. -/
def Reg.indCtrlMulti : Fld := ⟨0x600000, 2, 2⟩
/-- IND_CFG.size_log2. -/
def Reg.indCfgSizeLog2 : Fld := ⟨0x600008, 31, 26⟩
/-- IND_CFG.post. -/
def Reg.indCfgPost : Fld := ⟨0x600008, 15, 0⟩
/-- IND_BASE_LO.value. -/
def Reg.indBaseLo : Fld := ⟨0x600010, 31, 12⟩
/-- IND_BASE_HI.value. -/
def Reg.indBaseHi : Fld := ⟨0x600014, 31, 0⟩
/-- IND_GUAR.value. -/
def Reg.indGuar : Fld := ⟨0x600024, 31, 0⟩
/-- IND_LOST.lost. -/
def Reg.indLost : Fld := ⟨0x60002C, 31, 0⟩
/-- IND_ADC_LO.sel. -/
def Reg.indAdcLo : Fld := ⟨0x600030, 31, 0⟩
/-- IND_ADC_HI.sel. -/
def Reg.indAdcHi : Fld := ⟨0x600034, 15, 0⟩
/-- IND_TAP.en. -/
def Reg.indTapEn : Fld := ⟨0x600100, 31, 31⟩
/-- IND_TAP.last. -/
def Reg.indTapLast : Fld := ⟨0x600100, 25, 13⟩
/-- IND_TAP.first. -/
def Reg.indTapFirst : Fld := ⟨0x600100, 12, 0⟩
/-- IND_CMP.en. -/
def Reg.indCmpEn : Fld := ⟨0x600200, 31, 31⟩
/-- IND_CMP.op. -/
def Reg.indCmpOp : Fld := ⟨0x600200, 30, 28⟩
/-- IND_CMP.fp. -/
def Reg.indCmpFp : Fld := ⟨0x600200, 27, 27⟩
/-- IND_CMP.word. -/
def Reg.indCmpWord : Fld := ⟨0x600200, 26, 21⟩
/-- IND_CMP.queue. -/
def Reg.indCmpQueue : Fld := ⟨0x600200, 12, 0⟩
/-- IND_CMP_VAL.value. -/
def Reg.indCmpVal : Fld := ⟨0x600204, 31, 0⟩
/-- IND_SEQ.en. -/
def Reg.indSeqEn : Fld := ⟨0x600300, 31, 31⟩
/-- IND_SEQ.cond. -/
def Reg.indSeqCond : Fld := ⟨0x600300, 30, 26⟩
/-- IND_SEQ.next. -/
def Reg.indSeqNext : Fld := ⟨0x600300, 25, 23⟩
/-- IND_SEQ.actions. -/
def Reg.indSeqActions : Fld := ⟨0x600300, 22, 17⟩
/-- IND_SEQ.cnt. -/
def Reg.indSeqCnt : Fld := ⟨0x600300, 16, 15⟩
/-- IND_SEQ.tmr. -/
def Reg.indSeqTmr : Fld := ⟨0x600300, 14, 13⟩
/-- IND_CNT.value. -/
def Reg.indCntValue : Fld := ⟨0x600340, 31, 16⟩
/-- IND_CNT.limit. -/
def Reg.indCntLimit : Fld := ⟨0x600340, 15, 0⟩
/-- IND_TMR.value. -/
def Reg.indTmrValue : Fld := ⟨0x600350, 31, 16⟩
/-- IND_TMR.limit. -/
def Reg.indTmrLimit : Fld := ⟨0x600350, 15, 0⟩
/-- IND_MASK.en. -/
def Reg.indMaskEn : Fld := ⟨0x600360, 31, 31⟩
/-- IND_MASK.stop. -/
def Reg.indMaskStop : Fld := ⟨0x600360, 30, 30⟩
/-- IND_MASK.fp. -/
def Reg.indMaskFp : Fld := ⟨0x600360, 29, 29⟩
/-- IND_MASK.len_m1. -/
def Reg.indMaskLenM1 : Fld := ⟨0x600360, 28, 20⟩
/-- IND_MASK.word. -/
def Reg.indMaskWord : Fld := ⟨0x600360, 18, 13⟩
/-- IND_MASK.queue. -/
def Reg.indMaskQueue : Fld := ⟨0x600360, 12, 0⟩
/-- IND_ENV.word. -/
def Reg.indEnv : Fld := ⟨0x608000, 31, 0⟩
/-- LSP_CTRL.cfg_warn. -/
def Reg.lspCtrlCfgWarn : Fld := ⟨0x680000, 31, 31⟩
/-- LSP_CTRL.auto_sync. -/
def Reg.lspCtrlAutoSync : Fld := ⟨0x680000, 2, 2⟩
/-- LSP_CTRL.inhibit. -/
def Reg.lspCtrlInhibit : Fld := ⟨0x680000, 1, 1⟩
/-- LSP_TIMING.t_cs_tw. -/
def Reg.lspTimingTCsTw : Fld := ⟨0x680008, 31, 16⟩
/-- LSP_TIMING.t_watch. -/
def Reg.lspTimingTWatch : Fld := ⟨0x680008, 15, 0⟩
/-- LSP_CNT.takeovers. -/
def Reg.lspCntTakeovers : Fld := ⟨0x68000C, 31, 24⟩
/-- LSP_CNT.mismatches. -/
def Reg.lspCntMismatches : Fld := ⟨0x68000C, 23, 16⟩
/-- LSP_CNT.twin_losses. -/
def Reg.lspCntTwinLosses : Fld := ⟨0x68000C, 15, 8⟩
/-- LSP_CNT.woad_losses. -/
def Reg.lspCntWoadLosses : Fld := ⟨0x68000C, 7, 0⟩
/-- LSP_TAKEOVER_CYCLE.cycle. -/
def Reg.lspTakeoverCycle : Fld := ⟨0x680010, 31, 0⟩
/-- LSP_MISMATCH.cycle. -/
def Reg.lspMismatch : Fld := ⟨0x680014, 31, 0⟩
/-- WOAD_AXIS_SEL.axis. -/
def Reg.woadAxisSelAxis : Fld := ⟨0x700014, 8, 0⟩
/-- WOAD_CNT.mismatch. -/
def Reg.woadCntMismatch : Fld := ⟨0x70001C, 31, 16⟩
/-- WOAD_CNT.single. -/
def Reg.woadCntSingle : Fld := ⟨0x70001C, 15, 0⟩
/-- DMA_CTRL.cfg_warn. -/
def Reg.dmaCtrlCfgWarn : Fld := ⟨0x800000, 31, 31⟩
/-- DMA_SCRUB.period_ms. -/
def Reg.dmaScrubPeriodMs : Fld := ⟨0x800004, 15, 0⟩
/-- DMA_ECC.corrected. -/
def Reg.dmaEccCorrected : Fld := ⟨0x800008, 31, 0⟩
/-- CRC_SCAN_CTRL.busy. -/
def Reg.crcScanCtrlBusy : Fld := ⟨0x800100, 31, 31⟩
/-- CRC_SCAN_CTRL.mismatch. -/
def Reg.crcScanCtrlMismatch : Fld := ⟨0x800100, 30, 30⟩
/-- CRC_SCAN_CTRL.status. -/
def Reg.crcScanCtrlStatus : Fld := ⟨0x800100, 29, 22⟩
/-- CRC_SCAN_CTRL.cmp. -/
def Reg.crcScanCtrlCmp : Fld := ⟨0x800100, 5, 5⟩
/-- CRC_SCAN_CTRL.poly. -/
def Reg.crcScanCtrlPoly : Fld := ⟨0x800100, 3, 1⟩
/-- CRC_SCAN_CTRL.go. -/
def Reg.crcScanCtrlGo : Fld := ⟨0x800100, 0, 0⟩
/-- CRC_SCAN_START.start. -/
def Reg.crcScanStart : Fld := ⟨0x800104, 31, 0⟩
/-- CRC_SCAN_LEN.len. -/
def Reg.crcScanLen : Fld := ⟨0x800108, 24, 0⟩
/-- CRC_SCAN_EXP.value. -/
def Reg.crcScanExp : Fld := ⟨0x80010C, 31, 0⟩
/-- DMA_HWR.value. -/
def Reg.dmaHwr : Fld := ⟨0x800400, 31, 0⟩
/-- DMA_E_CTRL.en. -/
def Reg.dmaECtrlEn : Fld := ⟨0, 31, 31⟩
/-- DMA_E_CTRL.len. -/
def Reg.dmaECtrlLen : Fld := ⟨0, 12, 0⟩
/-- DMA_E_STAT.busy. -/
def Reg.dmaEStatBusy : Fld := ⟨4, 31, 31⟩
/-- DMA_E_STAT.last_status. -/
def Reg.dmaEStatLastStatus : Fld := ⟨4, 23, 16⟩
/-- DMA_E_STAT.done. -/
def Reg.dmaEStatDone : Fld := ⟨4, 15, 0⟩
/-- DMA_E_BASE_LO.value. -/
def Reg.dmaEBaseLo : Fld := ⟨8, 31, 5⟩
/-- DMA_E_BASE_HI.value. -/
def Reg.dmaEBaseHi : Fld := ⟨0xC, 31, 0⟩
/-- DMA_E_TAIL.tail. -/
def Reg.dmaETailTail : Fld := ⟨0x10, 11, 0⟩
/-- DMA_E_HEAD.head. -/
def Reg.dmaEHeadHead : Fld := ⟨0x14, 11, 0⟩
/-- CRC_CH_CFG.conflict. -/
def Reg.crcChCfgConflict : Fld := ⟨0, 31, 31⟩
/-- CRC_CH_CFG.restart. -/
def Reg.crcChCfgRestart : Fld := ⟨0, 4, 4⟩
/-- CRC_CH_CFG.bind. -/
def Reg.crcChCfgBind : Fld := ⟨0, 3, 3⟩
/-- CRC_CH_CFG.poly. -/
def Reg.crcChCfgPoly : Fld := ⟨0, 2, 0⟩
/-- CELL_CTRL.op_budget. -/
def Reg.cellCtrlOpBudget : Fld := ⟨0, 23, 0⟩
/-- CELL_FAULT.cfg_warn. -/
def Reg.cellFaultCfgWarn : Fld := ⟨8, 31, 31⟩
/-- CELL_FAULT.first_code. -/
def Reg.cellFaultFirstCode : Fld := ⟨8, 23, 16⟩
/-- CELL_FAULT.nonfinite. -/
def Reg.cellFaultNonfinite : Fld := ⟨8, 5, 5⟩
/-- CELL_FAULT.runaway. -/
def Reg.cellFaultRunaway : Fld := ⟨8, 4, 4⟩
/-- CELL_FAULT.bounds. -/
def Reg.cellFaultBounds : Fld := ⟨8, 3, 3⟩
/-- CELL_FAULT.loopnest. -/
def Reg.cellFaultLoopnest : Fld := ⟨8, 2, 2⟩
/-- CELL_FAULT.illegal. -/
def Reg.cellFaultIllegal : Fld := ⟨8, 1, 1⟩
/-- CELL_FAULT.ecc. -/
def Reg.cellFaultEcc : Fld := ⟨8, 0, 0⟩
/-- CELL_FAULT_PC.pc. -/
def Reg.cellFaultPcPc : Fld := ⟨0xC, 13, 0⟩
/-- CELL_ECC.corrected. -/
def Reg.cellEccCorrected : Fld := ⟨0x10, 15, 0⟩
/-- CELL_ISSUED.issued. -/
def Reg.cellIssuedIssued : Fld := ⟨0x14, 31, 0⟩
/-- CELL_STALLED.stalled. -/
def Reg.cellStalledStalled : Fld := ⟨0x18, 31, 0⟩

end Sys2Proof.Machine
end

