-- ==== Sys2Proof/Machine/Ops.lean ====
section
/-! DEFINITION. The named operations every unit shares: registers and memories, time, outputs, free values, raisings, and
what the variant has.
Log: DEDUCED 15, 153, 161. DESIGN CHOICE 3, 6, 7, 148, 195. -/

namespace Sys2Proof.Machine

/-- A truth value as a bit. -/
def bitN (b : Bool) : Nat := if b then 1 else 0
/-- One bit at a place of a word. -/
def bitAt (b : Bool) (k : Nat) : Nat := bitN b * 2 ^ k

/-! ### Variants and places -/

/-- Regions of the variant (R5, CHIP_CAPS). -/
def State.regions (s : State) : Nat := if s.variant = .c then 2 else 4
/-- Rings of the variant. -/
def State.ringCount (s : State) : Nat := if s.variant = .c then 4 else 8
/-- Cells, 16 per region (R5). -/
def State.cellCount (s : State) : Nat := 16 * s.regions
/-- Blocks, 4 per region (R5). -/
def State.blocks (s : State) : Nat := 4 * s.regions
/-- Hardware queues, 2,048 per region (R5). -/
def State.queueCount (s : State) : Nat := 2048 * s.regions
/-- Indigo and Larkspur are present on the T256-A alone. -/
def State.isA (s : State) : Bool := decide (s.variant = .a)

/-- The block of a cell, and the region of a block (R6). -/
def blockOfCell (c : Nat) : Nat := c / 4
def regionOfBlock (b : Nat) : Nat := b / 4
/-- The home block of a queue (R130). -/
def blockOfQueue (q : Nat) : Nat := 4 * (q / 2048) + q % 2048 / 512

/-- The window of REGION_n (R52). -/
def regionBase (n : Nat) : Nat := 0x04000000 + n * 0x01000000
/-- The memories of CELL_c (R53). -/
def cellBase (c : Nat) : Nat := regionBase (c / 16) + 0x600000 + (c % 16) * 0x40000
/-- The registers of CELL_c (R54). -/
def cellRegs (c : Nat) : Nat := regionBase (c / 16) + 0xA00000 + 0x1000 + (c % 16) * 0x40
/-- Instruction `i` of CELL_c, and its X and Y words (R53). -/
def insAddr (c i : Nat) : Nat := cellBase c + 8 * i
def xAddr (c w : Nat) : Nat := cellBase c + 0x20000 + 4 * w
def yAddr (c w : Nat) : Nat := cellBase c + 0x30000 + 4 * w
/-- The memory of BLOCK_b (R52). -/
def blockMem (b : Nat) : Nat := regionBase (b / 4) + 0x200000 + (b % 4) * 0x100000
/-- The registers of the repeated units. -/
def ringBase (n : Nat) : Nat := 0x00200000 + n * 0x10000
def lgBase (k : Nat) : Nat := 0x00300100 + k * 0x40
def fbBase (k : Nat) : Nat := 0x00360100 + k * 0x40
def bbBase (p : Nat) : Nat := 0x00401000 + p * 0x1000
def qpBase (q : Nat) : Nat := 0x00500100 + q * 0x40
def kprBase (f : Nat) : Nat := 0x00502000 + f * 0x200
def dmaBase (e : Nat) : Nat := 0x00801000 + e * 0x40
def chBase (j : Nat) : Nat := 0x00808000 + j * 0x10

/-! ### Registers -/

/-- A register located in the map: its unit and group instance. -/
structure RegAt where
  unit : UnitDesc
  ui : Nat
  group : GroupDesc
  gi : Nat
  reg : RegDesc
deriving DecidableEq, Repr

/-- The instance of a repeated thing that holds an offset, if any. -/
def instanceAt (base count stride size off : Nat) : Option Nat :=
  if off < base then none
  else if count ≤ 1 then (if off - base < size then some 0 else none)
  else
    let k := (off - base) / stride
    if k < count && (off - base) % stride < size then some k else none

/-- The register of a group at an offset relative to the group instance. -/
def findReg (rs : List RegDesc) (off : Nat) : Option RegDesc :=
  rs.find? (fun r => (instanceAt r.off r.count r.stride 4 off).isSome)

/-- The register at a BAR0 offset, if the map has one there. -/
def locate (off : Nat) : Option RegAt :=
  units.findSome? (fun u =>
    match instanceAt u.base u.count u.stride u.size off with
    | none => none
    | some ui =>
      let rel := off - u.base - ui * u.stride
      u.groups.findSome? (fun g =>
        match instanceAt g.base g.count g.stride (if g.count ≤ 1 then u.size else g.stride) rel with
        | none => none
        | some gi => (findReg g.regs (rel - g.base - gi * g.stride)).map (fun r => ⟨u, ui, g, gi, r⟩)))

/-- The reset value of a located register. -/
def RegAt.reset (r : RegAt) : Word :=
  let w := r.reg.fields.foldl (fun a f => a + f.reset * 2 ^ f.lo) 0
  BitVec.ofNat 32 (if r.reg.byIndex then w + r.gi * 2 ^ 20 else w)

/-- What an unlisted register holds: the reset value of the tables, 0 where the map has none. -/
def regReset (off : Nat) : Word :=
  match locate off with
  | some r => r.reset
  | none => 0#32

/-- The content of a register. -/
def State.reg (s : State) (off : Nat) : Word := (Tab.find s.regs off).getD (regReset off)

/-- A register given a content. -/
def State.setReg (s : State) (off : Nat) (w : Word) : State :=
  { s with regs := if w = regReset off then Tab.drop s.regs off else Tab.ins (Tab.drop s.regs off) off w }

/-- A field of a register, of the instance at `base`. -/
def State.fld (s : State) (f : Fld) (base : Nat := 0) : Nat := bitsOf (s.reg (base + f.off)).toNat f.hi f.lo

/-- A field given a value. -/
def State.setFld (s : State) (f : Fld) (v : Nat) (base : Nat := 0) : State :=
  s.setReg (base + f.off) (BitVec.ofNat 32 (withBits (s.reg (base + f.off)).toNat f.hi f.lo v))

/-- A one-bit field as a truth value. -/
def State.bit (s : State) (f : Fld) (base : Nat := 0) : Bool := decide (s.fld f base = 1)

/-- A one-bit field set from a truth value. -/
def State.setBit (s : State) (f : Fld) (b : Bool) (base : Nat := 0) : State := s.setFld f (if b then 1 else 0) base

/-- A counter field raised, saturating at its width. -/
def State.addFld (s : State) (f : Fld) (n : Nat) (base : Nat := 0) : State :=
  s.setFld f (satAdd (s.fld f base) n (2 ^ (f.hi + 1 - f.lo) - 1)) base

/-- A counter field raised by one. -/
def State.incFld (s : State) (f : Fld) (base : Nat := 0) : State := s.addFld f 1 base

/-! ### Memories -/

/-- The canonical form of a memory: addresses strictly rising, no entry equal to what an unlisted address reads as. -/
def Memory.wf (m : List Host.Cell) : Bool := Tab.wf (0#8 : Byte) m

/-- What a byte of cell, block or region memory holds; one that nothing has written reads 0. Log entry 6. -/
def State.ramByte (s : State) (a : Nat) : Byte := Tab.get (0#8 : Byte) s.ram a

/-- Bytes written from an address on. -/
def ramPut (m : List Host.Cell) (a : Nat) : List Byte → List Host.Cell
  | [] => m
  | b :: r => ramPut (Tab.put (0#8 : Byte) m a b) (a + 1) r

/-- The words of four bytes that a range of bytes touches. -/
def wordsIn (a n : Nat) : List Nat :=
  (List.range ((a % 4 + n + 3) / 4)).map (fun i => a - a % 4 + 4 * i)

/-- Bytes written to memory; a word written afresh is no longer in error. -/
def State.ramWrite (s : State) (a : Nat) (bs : List Byte) : State :=
  { s with ram := ramPut s.ram a bs
           flip1 := s.flip1.filter (fun x => !(wordsIn a bs.length).contains x)
           flip2 := s.flip2.filter (fun x => !(wordsIn a bs.length).contains x) }

/-- `n` bytes of memory from an address on. -/
def State.ramBytes (s : State) (a : Nat) : Nat → List Byte
  | 0 => []
  | n + 1 => s.ramByte a :: s.ramBytes (a + 1) n

/-- The little-endian word at a byte address (R20). -/
def State.ramWord (s : State) (a : Nat) : Word :=
  s.ramByte (a + 3) ++ s.ramByte (a + 2) ++ s.ramByte (a + 1) ++ s.ramByte a

/-- A word as its four bytes, little-endian. -/
def wordBytes (w : Word) : List Byte :=
  [w.extractLsb' 0 8, w.extractLsb' 8 8, w.extractLsb' 16 8, w.extractLsb' 24 8]

/-- A word written to memory. -/
def State.ramSetWord (s : State) (a : Nat) (w : Word) : State := s.ramWrite a (wordBytes w)

/-! ### Memory units and error correction (R52 to R55, R480, R481) -/

/-- The memory window of R52 and R53 that holds a BAR0 offset: a number for each region memory, block memory and cell memory. -/
def memUnit (a : Nat) : Option Nat :=
  if a < 0x04000000 || 0x08000000 ≤ a then none
  else
    let r := (a - 0x04000000) / 0x1000000
    let rel := (a - 0x04000000) % 0x1000000
    if rel < 0x200000 then some (32 * r)
    else if rel < 0x600000 then some (32 * r + 1 + (rel - 0x200000) / 0x100000)
    else if rel < 0xA00000 then some (32 * r + 5 + (rel - 0x600000) / 0x40000)
    else none

/-- The cell whose memory holds an offset. -/
def memCell (a : Nat) : Option Nat :=
  match memUnit a with
  | some u => if 5 ≤ u % 32 then some (16 * (u / 32) + u % 32 - 5) else none
  | none => none

/-- An offset in a cell's X or Y memory, whose words are 32 bits; every other memory has words of 64 bits (R480). -/
def inXY (a : Nat) : Bool := (memCell a).isSome && decide (0x20000 ≤ (a - 0x04000000) % 0x1000000 % 0x40000)

/-- Offsets of the 32-bit halves of the words that a range touches, as errors are kept. -/
def eccWords (a n : Nat) : List Nat :=
  if inXY a then wordsIn a n
  else (List.range ((a % 8 + n + 7) / 8)).flatMap (fun i => [a - a % 8 + 8 * i, a - a % 8 + 8 * i + 4])

/-- Single-bit errors among some words corrected and counted (R55, R481). -/
def State.correct (s : State) (ws : List Nat) : State :=
  let hit := s.flip1.filter (fun x => ws.contains x)
  let s : State := { s with flip1 := s.flip1.filter (fun x => !ws.contains x) }
  hit.foldl (fun s x => match memCell x with
    | some c => s.incFld Reg.cellEccCorrected (cellRegs c)
    | none => s.incFld Reg.dmaEccCorrected) s

/-! ### Units under LEVEL_RESET (R29, R507) -/

/-- The units held in reset: level 0 cell, 1 block, 2 region, and index. -/
def State.downUnits (s : State) : List (Nat × Nat) := s.power.unitResets ++ s.power.resuming
def State.regionDown (s : State) (r : Nat) : Bool := s.downUnits.contains (2, r)
def State.blockDown (s : State) (b : Nat) : Bool := s.downUnits.contains (1, b) || s.regionDown (regionOfBlock b)
def State.cellDown (s : State) (c : Nat) : Bool := s.downUnits.contains (0, c) || s.blockDown (blockOfCell c)

/-! ### Time, outputs, free values -/

/-- Something sent. -/
def State.emit (s : State) (o : Output) : State := { s with sent := o :: s.sent }

/-- A frame of a ring, backbone or twin port: none starts while PFAIL handling runs (R510). -/
def State.sendFrame (s : State) (o : Output) : State := if s.power.handling then s else s.emit o

/-- The next free value (R45, UB_02; values the manual leaves open). -/
def State.freeW (s : State) : Word := Config.freeWord s.freeCtr

/-- The counter of free values advanced. -/
def State.drew (s : State) : State := { s with freeCtr := s.freeCtr + 1 }

/-- `n` free words, and the counter advanced past them. -/
def State.freeWords (s : State) (n : Nat) : List Word := (List.range n).map (fun i => Config.freeWord (s.freeCtr + i))
def State.drewN (s : State) (n : Nat) : State := { s with freeCtr := s.freeCtr + n }

/-! ### Undefined behaviour (R8, R9, R45) -/

/-- A case of undefined behaviour has arisen. -/
def State.undefine (s : State) (x : Extent) : State := if s.undef.contains x then s else { s with undef := s.undef ++ [x] }

/-- A case has ended. -/
def State.define (s : State) (p : Extent → Bool) : State := { s with undef := s.undef.filter (fun x => !p x) }

/-- The outputs of a cell, a ring, the gate outputs of a group are undefined. -/
def State.cellUndef (s : State) (n : Nat) : Bool :=
  s.undef.any (fun x => match x with | .cell k => k == n | .region r => r == n / 16 | .chip => true | _ => false)
def State.ringUndef (s : State) (r : Nat) : Bool := s.undef.contains (.ring r) || s.undef.contains .chip
def State.groupUndef (s : State) (k : Nat) : Bool := s.undef.contains (.group k) || s.undef.contains .chip

/-- The bits of a register that belong to what R9 keeps as specified: the keeper's command windows and journal with its window, Foxglove,
Woad, CHIP_PWR for PFAIL_N; the bits that show the bypass switches, XW_STAT.bypass_closed and BB_PAIR_CTRL. -/
def keptBits (off : Nat) : Word :=
  if (0x502000 ≤ off ∧ off < 0x504000) ∨ (0x540000 ≤ off ∧ off < 0x600000) ∨ (0x700000 ≤ off ∧ off < 0x800000) ∨ off = 0x308 then 0xFFFFFFFF#32
  else if off = Reg.bbPairCtrlBypass.off then 0x80000001#32
  else if 0x200000 ≤ off ∧ off < 0x280000 ∧ off % 0x10000 = Reg.xwStatBypassClosed.off then 1#32 <<< Reg.xwStatBypassClosed.lo
  else 0#32

/-- Where the registers of the unit that has a BAR0 offset begin. -/
def unitStart (off : Nat) : Option Nat :=
  units.findSome? (fun (u : UnitDesc) => (instanceAt u.base u.count u.stride u.size off).map (fun k => u.base + k * u.stride))

/-- A register of a unit that a case of undefined behaviour reaches. -/
def State.offUndef (s : State) (off : Nat) : Bool :=
  decide (keptBits off ≠ 0xFFFFFFFF#32) && s.undef.any (fun x => match x with
    | .ring r => unitStart off == some (ringBase r)
    | .unit b => unitStart off == some b
    | .chip => true
    | _ => false)

/-- What a register of such a unit shows: a free word, but for the bits that R9 keeps. -/
def State.unsure (s : State) (off : Nat) (w : Word) : State × Word :=
  if s.offUndef off then (s.drew, (s.freeW &&& ~~~(keptBits off)) ||| (w &&& keptBits off)) else (s, w)

/-- Nanoseconds and low seconds of the time value. -/
def State.nowNs (s : State) : Word := s.time.ns
def State.nowS (s : State) : Word := s.time.s.setWidth 32

/-- The time value in units of 2^−40 ns (R330). -/
def TimeSt.total (t : TimeSt) : Nat := (t.s.toNat * 1000000000 + t.ns.toNat) * 2 ^ 40 + t.frac.toNat

/-- The time value set from units of 2^−40 ns. -/
def TimeSt.setTotal (t : TimeSt) (x : Nat) : TimeSt :=
  { t with frac := BitVec.ofNat 40 (x % 2 ^ 40)
           ns := BitVec.ofNat 32 (x / 2 ^ 40 % 1000000000)
           s := BitVec.ofNat 64 (x / 2 ^ 40 / 1000000000) }

/-! ### Cycle numbers (R36) -/

/-- `a` is later than `b`: the signed difference is positive. -/
def cycLater (a b : Word) : Bool := decide (0 < (a - b).toInt)
/-- `a` is not earlier than `b`. -/
def cycGe (a b : Word) : Bool := decide (0 ≤ (a - b).toInt)

/-! ### Raisings -/

/-- A raising sent to Foxglove (R446); it reaches Foxglove by FAULT_RAISING or when the part idles. -/
def State.raise (s : State) (cls level kind index : Nat) : State :=
  { s with fox := { s.fox with inflight := s.fox.inflight ++ [⟨cls, level, ⟨kind, index⟩⟩] } }

/-! ### Units by number -/

/-- A cell. -/
def State.cell (s : State) (n : Nat) : CellSt := Tab.get {} s.cells n
def State.setCell (s : State) (n : Nat) (c : CellSt) : State := { s with cells := Tab.put {} s.cells n c }

/-- An island. -/
def State.island (s : State) (n : Nat) : IslandSt := Tab.get {} s.islands n
def State.setIsland (s : State) (n : Nat) (i : IslandSt) : State := { s with islands := Tab.put {} s.islands n i }

/-- A queue of Madder. -/
def State.queue (s : State) (n : Nat) : QueueSt := Tab.get {} s.mad.queues n
def State.setQueue (s : State) (n : Nat) (q : QueueSt) : State :=
  { s with mad := { s.mad with queues := Tab.put {} s.mad.queues n q } }

/-- A graph operation's own state. -/
def State.op (s : State) (k : Nat) : OpSt := Tab.get {} s.mad.ops k
def State.setOp (s : State) (k : Nat) (o : OpSt) : State :=
  { s with mad := { s.mad with ops := Tab.put {} s.mad.ops k o } }

/-- A work-item channel. -/
def State.chan (s : State) (k : Nat) : ChanSt := Tab.get {} s.mad.chans k
def State.setChan (s : State) (k : Nat) (c : ChanSt) : State :=
  { s with mad := { s.mad with chans := Tab.put {} s.mad.chans k c } }

/-- A queue pair. -/
def State.qp (s : State) (q : Nat) : QpSt := Tab.get {} s.host.qps q
def State.setQp (s : State) (q : Nat) (x : QpSt) : State :=
  { s with host := { s.host with qps := Tab.put {} s.host.qps q x } }

/-! ### The image -/

/-- The descriptors of the loaded image. -/
def State.ops (s : State) : List OpDesc := (s.image.map Image.ops).getD []
def State.qdescs (s : State) : List QDesc := (s.image.map Image.queues).getD []
def State.wics (s : State) : List WicDesc := (s.image.map Image.wics).getD []
def State.qdesc (s : State) (q : Nat) : Option QDesc := s.qdescs.find? (fun d => d.id == q)
def State.wic (s : State) (k : Nat) : Option WicDesc := s.wics.find? (fun d => d.id == k)
def State.axisCfg (s : State) (a : Nat) : Option AxisCfg :=
  ((s.image.map Image.axes).getD []).find? (fun d => d.axis == a)
/-- What the image gives a ring for the part's own position (R420). -/
def State.ringCfg (s : State) (r : Nat) : Option RingCfg :=
  ((s.image.map Image.rings).getD []).find? (fun d => d.ring == r && d.mid == s.lsp.pos)

/-- Graphs fire (R496). -/
def State.graphsFire (s : State) : Bool :=
  match s.mode with
  | .commission | .standby | .run | .degraded | .safeHold => true
  | _ => false

/-- Cycle edges run: an image is loaded and the grid of R336 stands. -/
def State.edgesRun (s : State) : Bool := s.time.t0.isSome

end Sys2Proof.Machine
end

