-- ==== Sys2Proof/Machine/KBlock.lean ====
section
/-! DEFINITION. The memory blocks of the standard kernels (R168, R210, R428, R538): each axis's parameter block in Y at p3 and state block in X
at p2, as words. The axis holds what the words stand for; a read of a block's word shows it, and a write changes the axis. The manual
gives the state blocks no layout; the one here, which the state copy uses too, is the model's (log entries 17, 52).
Log: DESIGN CHOICE 17, 52, 197. -/

namespace Sys2Proof.Machine

/-! ### Axes -/

/-- An axis. -/
def State.axis (s : State) (a : Nat) : AxisSt := Tab.get {} s.axes a
def State.setAxis (s : State) (a : Nat) (x : AxisSt) : State := { s with axes := Tab.put {} s.axes a x }

/-- A parameter word of an axis. -/
def AxisSt.raw (x : AxisSt) (k : Nat) : Nat := (Tab.get 0#32 x.params k).toNat
/-- The repetitive controller is enabled (R235). -/
def AxisSt.rcEn (x : AxisSt) : Bool := bitsOf (x.raw 64) 1 1 == 1

/-! ### Words -/

/-- The words of a list by place, 0 beyond it. -/
def wordAt (ws : List Word) (k : Nat) : Word := (ws[k]?).getD 0#32

def cpN (n : Nat) : Word := BitVec.ofNat 32 n
def cpB (b : Bool) : Word := if b then 1#32 else 0#32
def upB (w : Word) : Bool := decide (w ≠ 0#32)
def cp64 (x : BitVec 64) : List Word := [x.setWidth 32, (x >>> 32).setWidth 32]
def up64 (ws : List Word) : BitVec 64 := wordAt ws 1 ++ wordAt ws 0
def cpOW (o : Option Word) : List Word := match o with | none => [0#32, 0#32] | some w => [1#32, w]
def upOW (ws : List Word) : Option Word := if upB (wordAt ws 0) then some (wordAt ws 1) else none
def cpON (o : Option Nat) : List Word := cpOW (o.map cpN)
def upON (ws : List Word) : Option Nat := (upOW ws).map BitVec.toNat
def cpPhase : SixPhase → Word
  | .align => 0#32 | .ramp => 1#32 | .run => 2#32
def upPhase (w : Word) : SixPhase := if w = 0#32 then .align else if w = 1#32 then .ramp else .run
def cpRc : RcState → Word
  | .frozen => 0#32 | .learn => 1#32 | .diverged => 2#32
def upRc (w : Word) : RcState := if w = 0#32 then .frozen else if w = 1#32 then .learn else .diverged

/-- Words made up to a length, or cut to it. -/
def fitWords (n : Nat) (ws : List Word) : List Word := ws.take n ++ List.replicate (n - ws.length) 0#32

/-! ### State blocks of the standard kernels -/

/-- The words of a state block part. -/
def AxIn.copy (x : AxIn) : List Word :=
  [cpN x.holds] ++ [cpN x.gap] ++ cpOW x.posPrev ++ [x.xd] ++ [x.xq] ++ [x.vd] ++ [x.vq] ++ [x.vbus] ++ [x.theta] ++
    [x.we] ++ [x.wm] ++ [x.id] ++ [x.iq] ++ [x.encW] ++ [x.va] ++ [x.vb] ++ [x.ia] ++ [x.ib] ++ [x.a] ++
    [cpB x.limited] ++ [x.iLim] ++ [x.iqr] ++ [cpN x.uv] ++ [cpB x.chopOn] ++ [cpN x.lr] ++ cpON x.sec ++
    cpON x.left ++ [cpB x.armed] ++ [cpN x.slow] ++ [cpN x.x3] ++ [cpN x.x1] ++ [cpB x.ssClamp] ++ [cpN x.flags] ++
    [cpN x.ev] ++ [cpN x.angle]

/-- A state block part from its words. -/
def upAxIn (ws : List Word) : AxIn :=
  { holds := (wordAt ws 0).toNat, gap := (wordAt (ws.drop 1) 0).toNat, posPrev := (upOW (ws.drop 2))
    xd := (wordAt (ws.drop 4) 0), xq := (wordAt (ws.drop 5) 0), vd := (wordAt (ws.drop 6) 0)
    vq := (wordAt (ws.drop 7) 0), vbus := (wordAt (ws.drop 8) 0), theta := (wordAt (ws.drop 9) 0)
    we := (wordAt (ws.drop 10) 0), wm := (wordAt (ws.drop 11) 0), id := (wordAt (ws.drop 12) 0)
    iq := (wordAt (ws.drop 13) 0), encW := (wordAt (ws.drop 14) 0), va := (wordAt (ws.drop 15) 0)
    vb := (wordAt (ws.drop 16) 0), ia := (wordAt (ws.drop 17) 0), ib := (wordAt (ws.drop 18) 0)
    a := (wordAt (ws.drop 19) 0), limited := (upB (wordAt (ws.drop 20) 0)), iLim := (wordAt (ws.drop 21) 0)
    iqr := (wordAt (ws.drop 22) 0), uv := (wordAt (ws.drop 23) 0).toNat, chopOn := (upB (wordAt (ws.drop 24) 0))
    lr := (wordAt (ws.drop 25) 0).toNat, sec := (upON (ws.drop 26)), left := (upON (ws.drop 28))
    armed := (upB (wordAt (ws.drop 30) 0)), slow := (wordAt (ws.drop 31) 0).toNat
    x3 := (wordAt (ws.drop 32) 0).toNat, x1 := (wordAt (ws.drop 33) 0).toNat
    ssClamp := (upB (wordAt (ws.drop 34) 0)), flags := (wordAt (ws.drop 35) 0).toNat
    ev := (wordAt (ws.drop 36) 0).toNat, angle := (wordAt (ws.drop 37) 0).toNat }

/-- The words of a state block part. -/
def AxTrk.copy (x : AxTrk) : List Word :=
  [x.th] ++ [x.w] ++ [x.hth] ++ [x.hw] ++ [x.idP] ++ [x.iqP] ++ [x.iqH] ++ [cpB x.inj] ++ [cpN x.pol] ++ [x.pk1] ++
    [x.pk2]

/-- A state block part from its words. -/
def upAxTrk (ws : List Word) : AxTrk :=
  { th := (wordAt ws 0), w := (wordAt (ws.drop 1) 0), hth := (wordAt (ws.drop 2) 0), hw := (wordAt (ws.drop 3) 0)
    idP := (wordAt (ws.drop 4) 0), iqP := (wordAt (ws.drop 5) 0), iqH := (wordAt (ws.drop 6) 0)
    inj := (upB (wordAt (ws.drop 7) 0)), pol := (wordAt (ws.drop 8) 0).toNat, pk1 := (wordAt (ws.drop 9) 0)
    pk2 := (wordAt (ws.drop 10) 0) }

/-- The words of a state block part. -/
def AxSix.copy (x : AxSix) : List Word :=
  [cpPhase x.ph] ++ [cpN x.cnt] ++ [cpN x.step] ++ [x.phi] ++ [x.f] ++ [cpN x.good] ++ [cpN x.evStep] ++
    [cpN x.since] ++ [cpN x.ival] ++ [cpN x.ivalN] ++ [cpN x.pend] ++ [cpN x.inStep] ++ [x.we] ++ cpOW x.scale ++
    [cpN x.cool] ++ [cpN x.refusals] ++ [cpN x.blend] ++ [x.delta] ++ [cpB x.neg] ++ [x.xi]

/-- A state block part from its words. -/
def upAxSix (ws : List Word) : AxSix :=
  { ph := (upPhase (wordAt ws 0)), cnt := (wordAt (ws.drop 1) 0).toNat, step := (wordAt (ws.drop 2) 0).toNat
    phi := (wordAt (ws.drop 3) 0), f := (wordAt (ws.drop 4) 0), good := (wordAt (ws.drop 5) 0).toNat
    evStep := (wordAt (ws.drop 6) 0).toNat, since := (wordAt (ws.drop 7) 0).toNat
    ival := (wordAt (ws.drop 8) 0).toNat, ivalN := (wordAt (ws.drop 9) 0).toNat
    pend := (wordAt (ws.drop 10) 0).toNat, inStep := (wordAt (ws.drop 11) 0).toNat, we := (wordAt (ws.drop 12) 0)
    scale := (upOW (ws.drop 13)), cool := (wordAt (ws.drop 15) 0).toNat, refusals := (wordAt (ws.drop 16) 0).toNat
    blend := (wordAt (ws.drop 17) 0).toNat, delta := (wordAt (ws.drop 18) 0), neg := (upB (wordAt (ws.drop 19) 0))
    xi := (wordAt (ws.drop 20) 0) }

/-- The words of a state block part. -/
def AxProf.copy (x : AxProf) : List Word :=
  cp64 x.pInt ++ [x.pFrac] ++ [x.v] ++ [x.a] ++ cp64 x.tgt ++ [x.vTgt] ++ [x.ovr] ++ [cpB x.kindPos] ++
    [cpN x.sub] ++ [cpB x.inPos]

/-- A state block part from its words. -/
def upAxProf (ws : List Word) : AxProf :=
  { pInt := (up64 ws), pFrac := (wordAt (ws.drop 2) 0), v := (wordAt (ws.drop 3) 0), a := (wordAt (ws.drop 4) 0)
    tgt := (up64 (ws.drop 5)), vTgt := (wordAt (ws.drop 7) 0), ovr := (wordAt (ws.drop 8) 0)
    kindPos := (upB (wordAt (ws.drop 9) 0)), sub := (wordAt (ws.drop 10) 0).toNat
    inPos := (upB (wordAt (ws.drop 11) 0)) }

/-- The words of a state block part. -/
def AxRc.copy (x : AxRc) : List Word :=
  [cpRc x.st] ++ [x.n0] ++ [x.sum] ++ cpOW x.last ++ [cpN x.grow] ++ [cpN x.kLast]

/-- A state block part from its words. -/
def upAxRc (ws : List Word) : AxRc :=
  { st := (upRc (wordAt ws 0)), n0 := (wordAt (ws.drop 1) 0), sum := (wordAt (ws.drop 2) 0)
    last := (upOW (ws.drop 3)), grow := (wordAt (ws.drop 5) 0).toNat, kLast := (wordAt (ws.drop 6) 0).toNat }

/-- The words of a state block part. -/
def AxSup.copy (x : AxSup) : List Word :=
  [x.wmP] ++ [x.iqP] ++ [x.rf] ++ [x.rs] ++ [x.dev] ++ [cpN x.cnt] ++ [cpB x.warn] ++ [cpB x.plausNow] ++
    [cpB x.followNow] ++ [cpB x.plaus] ++ [cpB x.follow]

/-- A state block part from its words. -/
def upAxSup (ws : List Word) : AxSup :=
  { wmP := (wordAt ws 0), iqP := (wordAt (ws.drop 1) 0), rf := (wordAt (ws.drop 2) 0), rs := (wordAt (ws.drop 3) 0)
    dev := (wordAt (ws.drop 4) 0), cnt := (wordAt (ws.drop 5) 0).toNat, warn := (upB (wordAt (ws.drop 6) 0))
    plausNow := (upB (wordAt (ws.drop 7) 0)), followNow := (upB (wordAt (ws.drop 8) 0))
    plaus := (upB (wordAt (ws.drop 9) 0)), follow := (upB (wordAt (ws.drop 10) 0)) }

/-- The words of a state block part. -/
def AxOut.copy (x : AxOut) : List Word :=
  cp64 x.p ++ cpOW x.pos ++ [x.wm] ++ [x.iq] ++ [x.xv] ++ [x.wr] ++ [cpN x.mode.code] ++ [x.eP] ++
    [cpN x.tgtRefused] ++ [cpN x.idle] ++ x.prof.copy ++ x.rc.copy ++ x.sup.copy ++ [x.kc]

/-- A state block part from its words. -/
def upAxOut (ws : List Word) : AxOut :=
  { p := (up64 ws), pos := (upOW (ws.drop 2)), wm := (wordAt (ws.drop 4) 0), iq := (wordAt (ws.drop 5) 0)
    xv := (wordAt (ws.drop 6) 0), wr := (wordAt (ws.drop 7) 0), mode := (AxMode.ofCode (wordAt (ws.drop 8) 0).toNat)
    eP := (wordAt (ws.drop 9) 0), tgtRefused := (wordAt (ws.drop 10) 0).toNat, idle := (wordAt (ws.drop 11) 0).toNat
    prof := (upAxProf (ws.drop 12)), rc := (upAxRc (ws.drop 24)), sup := (upAxSup (ws.drop 31)), kc := (wordAt (ws.drop 42) 0) }

/-- The length of the state block of K_INNER for one axis. -/
def innerLen : Nat := 76

/-- The state block of K_INNER for one axis. -/
def AxisSt.copyInner (x : AxisSt) : List Word :=
  [cpN x.mode.code, cpN x.follow.code, x.faults.setWidth 32, cpB x.reqRefused, cpN x.refusals, x.since] ++ x.i.copy ++ x.trk.copy
    ++ x.six.copy

/-- An axis with the state block of K_INNER loaded. -/
def AxisSt.loadInner (x : AxisSt) (ws : List Word) : AxisSt :=
  { x with mode := AxMode.ofCode (wordAt ws 0).toNat, follow := AxMode.ofCode (wordAt ws 1).toNat
           faults := (wordAt ws 2).setWidth 7, reqRefused := upB (wordAt ws 3), refusals := (wordAt ws 4).toNat
           since := wordAt ws 5, i := upAxIn (ws.drop 6), trk := upAxTrk (ws.drop 44), six := upAxSix (ws.drop 55) }

/-- The words of the repetitive table that belong to the state block. -/
def AxisSt.rcWords (x : AxisSt) : Nat := if x.rcEn then x.raw 75 else 0

/-- The length of the state block of K_OUTER without the repetitive table. -/
def outerLen : Nat := 43

/-- The state block of K_OUTER: its words and the repetitive table. -/
def AxisSt.copyOuter (x : AxisSt) : List Word :=
  x.o.copy ++ (List.range x.rcWords).map (fun k => Tab.get 0#32 x.o.rc.tab k)

/-- A table from its words. -/
def upTab (ws : List Word) : List (Nat × Word) :=
  ((List.range ws.length).zip ws).filter (fun e => decide (e.2 ≠ 0#32))

/-- An axis with the state block of K_OUTER loaded. -/
def AxisSt.loadOuter (x : AxisSt) (ws : List Word) : AxisSt :=
  let o := upAxOut ws
  { x with o := { o with rc := { o.rc with tab := upTab ((ws.drop outerLen).take x.rcWords) } } }

/-- The axes that a standard kernel serves. -/
def kernelAxes : Kernel → List Nat
  | .inner axes => axes
  | .outer a => [a]
  | .custom => []

/-- The length of an operation's state block: of a standard kernel, that of its axes' blocks; of a kernel of the cell's own, the image's, up
to the end of X. -/
def State.stateLen (s : State) (d : OpDesc) : Nat :=
  match d.kernel with
  | .inner axes => axes.length * innerLen
  | .outer a => outerLen + (s.axis a).rcWords
  | .custom => min d.stateWords (16384 - d.state)

/-- The words of X that hold it. -/
def State.stateAddrs (s : State) (d : OpDesc) : List Nat := (List.range (s.stateLen d)).map (fun i => xAddr d.cell (d.state + i))

/-- The words that a step of a standard kernel reads: of each axis the parameters that the kernel uses, words 0 to 50 for K_INNER (R208), and
its state block (log entry 197). -/
def State.kernelWords (s : State) (d : OpDesc) : List Nat :=
  let n := match d.kernel with | .inner _ => 51 | _ => 128
  (List.range (kernelAxes d.kernel).length).flatMap (fun j => (List.range n).map (fun i => yAddr d.cell (d.params + 128 * j + i)))
    ++ s.stateAddrs d

/-! ### The blocks in memory -/

/-- What a word of a standard kernel's block holds: a parameter word of an axis, or a word of one of its two state blocks. -/
inductive BlockWord where
  | param (axis k : Nat)
  | inner (axis k : Nat)
  | outer (axis k : Nat)
deriving DecidableEq, Repr

/-- The word of a parameter block, 128 words for each axis in the order of the operation's axes (log entry 17). -/
def paramAt (d : OpDesc) (a : Nat) : Option BlockWord :=
  let y := yAddr d.cell d.params
  if a < y then none else ((kernelAxes d.kernel)[(a - y) / 512]?).map (fun x => .param x ((a - y) % 512 / 4))

/-- The word of a state block. -/
def State.stateAt (s : State) (d : OpDesc) (a : Nat) : Option BlockWord :=
  let k := (a - xAddr d.cell d.state) / 4
  if a < xAddr d.cell d.state then none
  else match d.kernel with
    | .inner axes => (axes[k / innerLen]?).map (fun x => .inner x (k % innerLen))
    | .outer x => if k < outerLen + (s.axis x).rcWords then some (.outer x k) else none
    | .custom => none

/-- The block word at a word of X or Y: a cell's parameter words lie in its Y, its state words in its X. -/
def State.blockAt (s : State) (a : Nat) : Option BlockWord :=
  s.ops.findSome? (fun d =>
    if memCell a ≠ some d.cell then none
    else if a < yAddr d.cell 0 then s.stateAt d a else paramAt d a)

/-- Its value. -/
def State.blockGet (s : State) : BlockWord → Word
  | .param x k => Tab.get 0#32 (s.axis x).params k
  | .inner x k => wordAt (s.axis x).copyInner k
  | .outer x k => wordAt (s.axis x).copyOuter k

/-- The axis with one of its block words changed. -/
def State.blockPut (s : State) (w : Word) : BlockWord → State
  | .param x k => s.setAxis x { s.axis x with params := Tab.put 0#32 (s.axis x).params k w }
  | .inner x k => s.setAxis x ((s.axis x).loadInner ((s.axis x).copyInner.set k w))
  | .outer x k => s.setAxis x ((s.axis x).loadOuter ((s.axis x).copyOuter.set k w))

/-- A word of memory as a load or a read from outside sees it. -/
def State.memWord (s : State) (a : Nat) : Word := ((s.blockAt a).map s.blockGet).getD (s.ramWord a)

/-- What a word written to memory does to the axes. -/
def State.blockStore (s : State) (a : Nat) (w : Word) : State := ((s.blockAt a).map (s.blockPut w)).getD s
def State.blockStores (s : State) (l : List (Nat × Word)) : State := l.foldl (fun s x => s.blockStore x.1 x.2) s

/-- A byte of memory as a read from outside sees it. -/
def State.memByte (s : State) (a : Nat) : Byte :=
  match s.blockAt (a / 4 * 4) with
  | some b => (s.blockGet b).extractLsb' (8 * (a % 4)) 8
  | none => s.ramByte a
def State.memBytes (s : State) (a n : Nat) : List Byte := (List.range n).map (fun i => s.memByte (a + i))

/-- A word with the bytes of a range written over it. -/
def overWrite (w : Word) (at_ a : Nat) (bs : List Byte) : Word :=
  let b := fun i => if at_ + i < a then w.extractLsb' (8 * i) 8 else (bs[at_ + i - a]?).getD (w.extractLsb' (8 * i) 8)
  b 3 ++ b 2 ++ b 1 ++ b 0

/-- What bytes written from outside the cores do to the axes. -/
def State.blockWrite (s : State) (a : Nat) (bs : List Byte) : State :=
  (wordsIn a bs.length).foldl (fun s w => match s.blockAt w with
    | some b => s.blockPut (overWrite (s.blockGet b) w a bs) b
    | none => s) s

end Sys2Proof.Machine
end

