-- ==== Sys2Proof/Machine/Gates.lean ====
section
/-! DEFINITION. The gate outputs of the local groups (R289 to R292, R299): the state that applies to a group, the switches of a stepper,
the levels of the eight outputs at an instant. Places within a period are in taps of 125 ps, 32 to a count of 4 ns.
Log: DEDUCED 77, 78, 175. -/

namespace Sys2Proof.Machine

/-! ### Instants -/

/-- The time value, truncated to 2^−16 ns. -/
def State.now16 (s : State) : Int := ((s.time.total / 2 ^ 24 : Nat) : Int)

/-- Nanoseconds as an instant. -/
def ns16 (n : Int) : Int := n * 65536

/-- An instant rounded to 125 ps, halves upward (R293). -/
def tapOf (x : Int) : Int := (x + 4096) / 8192
/-- Taps as an instant. -/
def ofTap (x : Int) : Int := x * 8192

/-- A local group. -/
def State.lg (s : State) (k : Nat) : LgSt := Tab.get {} s.lgs k
def State.setLg (s : State) (k : Nat) (x : LgSt) : State := { s with lgs := Tab.put {} s.lgs k x }

/-! ### The command record's states (R170, R226) -/

def recBit (ws : List Word) (k : Nat) : Bool := (wordAt ws 2).getLsbD k
def recSafe (ws : List Word) : Bool := recBit ws 10
def recEnable (ws : List Word) : Bool := recBit ws 9
def recMask (ws : List Word) : Bool := recBit ws 11

/-! ### Precedence (R291) -/

/-- The STO line of a group is de-energised: its safe output is in use for it and is off. -/
def State.stoOff (s : State) (k : Nat) : Bool :=
  match s.image.bind Image.safety with
  | none => false
  | some p => decide (p.outputs[k]? = some .sto) && !s.woad.so.getLsbD k

/-- Modes in which the local groups are not driven: the part is not up, standby keeps them disabled (R421), and so does a part that has taken over (R439). -/
def State.groupsRest (s : State) : Bool :=
  match s.mode with
  | .off | .reset | .boot | .configure | .standby | .fault => true
  | _ => s.power.handling || s.lsp.tookOver

/-- The state of orders 4 to 8, which orders 1 to 3 only cover: carrier, mask and choppers go on under them. -/
def State.waveOrder (s : State) (k : Nat) : Nat :=
  let x := s.lg k
  if !s.bit Reg.pwmGrpCfgEn (lgBase k) || !x.started || s.groupsRest then 4
  else if x.safe5 then 5
  else if !recEnable x.rec_ then 6
  else if x.masked then 7
  else 8

/-- The order of R291 that applies to a group; PFAIL handling holds the gates as order 1 does (R510). -/
def State.lgOrder (s : State) (k : Nat) : Nat :=
  if s.stoOff k || s.power.handling then 1
  else if s.fox.latch then 2
  else if (s.lg k).fault then 3
  else s.waveOrder k

/-- The group takes its safe pattern (orders 2 and 5). -/
def State.lgSafe (s : State) (k : Nat) : Bool := s.lgOrder k == 2 || s.lgOrder k == 5

/-- The spare output of a three-phase group is driven high (R299, PWM_GRP_CFG.spare): with value 2 in output fault and under the safe
pattern (log entry 175). -/
def State.spareHigh (s : State) (k : Nat) : Bool :=
  !s.bit Reg.pwmGrpCfgKind (lgBase k) &&
    match s.fld Reg.pwmGrpCfgSpare (lgBase k) with
    | 0 => false
    | 1 => decide (6 ≤ s.lgOrder k)
    | _ => s.lgSafe k || s.lgOrder k == 3

/-! ### The switches of a stepper (R289, R305, R307) -/

/-- The legs of a coil's bridge that drive high: DRIVE is one diagonal, fast decay the opposite one, slow decay both lower switches. -/
def CoilSt.legHigh (c : CoilSt) (leg2 : Bool) : Bool :=
  match c.ph with
  | .drive => c.pos != leg2
  | .fast => c.pos == leg2
  | .slow => false

/-- The instant a leg last changed. -/
def CoilSt.legAt (c : CoilSt) (leg2 : Bool) : Option Int := if leg2 then c.leg2At else c.leg1At

/-- The two outputs of a leg, upper first: both low for the dead time after a change, which falls on the grid (R294). -/
def CoilSt.legPins (c : CoilSt) (leg2 : Bool) (dt now : Int) : Nat :=
  let on := if c.legHigh leg2 then 1 else 2
  match c.legAt leg2 with
  | some t => if now < t then 3 - on else if now < t + dt then 0 else on
  | none => on

/-- The four outputs of a coil. -/
def CoilSt.pins (c : CoilSt) (dt now : Int) : Nat := c.legPins false dt now + 4 * c.legPins true dt now

/-- A coil as it becomes at an instant: the legs that change keep the dead time. -/
def CoilSt.become (c d : CoilSt) (now : Int) : CoilSt :=
  { d with leg1At := if c.legHigh false = d.legHigh false then c.leg1At else some now
           leg2At := if c.legHigh true = d.legHigh true then c.leg2At else some now }

/-! ### Levels -/

/-- The level of an output at a place of the period: its last edge up to there, else its level at the start. -/
def LgSt.levelAt (x : LgSt) (place : Int) (j : Nat) : Bool :=
  let es := x.edges.filter (fun e => e.out == j && decide ((e.at_ : Int) ≤ place))
  match es with
  | [] => x.base.testBit j
  | e :: rest => (rest.foldl (fun a b => if a.at_ ≤ b.at_ then b else a) e).high

/-- Levels of `n` outputs as bits. -/
def pinBits (n : Nat) (f : Nat → Bool) : Nat := (List.range n).foldl (fun acc j => acc + 2 ^ j * bitN (f j)) 0

/-- The outputs that waveform, mask or choppers drive now. -/
def State.wavePins (s : State) (k : Nat) : Nat :=
  let x := s.lg k
  if s.bit Reg.pwmGrpCfgKind (lgBase k) then
    let dt := ofTap (s.fld Reg.pwmGrpDtDt (lgBase k))
    x.coilA.pins dt s.now16 + 16 * x.coilB.pins dt s.now16
  else pinBits 7 (x.levelAt (s.now16 / 8192 - x.start)) + 128 * bitN (s.spareHigh k)

/-- The safe pattern: outputs that were low when it came turn on 25 ns later (R292). -/
def State.safePins (s : State) (k : Nat) : Nat :=
  let pat := Nat.lor (s.fld Reg.pwmGrpOutSafe (lgBase k)) (128 * bitN (s.spareHigh k))
  match (s.lg k).safeAt with
  | some (t, was) => if s.now16 < t + ns16 25 then Nat.land pat was else pat
  | none => pat

/-- The levels of GATE_k_0 to GATE_k_7 now, bit j for GATE_k_j (R289 to R291); low in FAULT (R496). In an undefined group only orders 1 and 2 are certain. -/
def State.gatePins (s : State) (k : Nat) : Nat :=
  if s.mode = .fault then 0
  else match s.lgOrder k with
  | 1 => 0
  | 2 => s.safePins k
  | o =>
    if s.groupUndef k then s.freeW.toNat % 256
    else match o with
      | 4 => 0
      | 5 => s.safePins k
      | 3 | 6 => 128 * bitN (s.spareHigh k)
      | _ => s.wavePins k

/-- A change after which some groups take their safe pattern: each notes the instant and its outputs before (R292). -/
def State.gated (s : State) (f : State → State) : State :=
  let t := f s
  (List.range 8).foldl (fun u k =>
    if u.lgSafe k && !s.lgSafe k then u.setLg k { u.lg k with safeAt := some (u.now16, s.gatePins k) } else u) t

end Sys2Proof.Machine
end

