-- ==== Sys2Proof/Machine/BbPort.lean ====
section
/-! DEFINITION. What the sending units know of a backbone port: the timed frame at the head of its ring, the guard before its launch
(R346), and the frames of the part's own that wait for it.
Log: DEDUCED 178. -/

namespace Sys2Proof.Machine

/-- A port's own state. -/
def State.bbSt (s : State) (p : Nat) : BbSt := Tab.get {} s.bb p
def State.setBbSt (s : State) (p : Nat) (x : BbSt) : State := { s with bb := Tab.put {} s.bb p x }

/-- A whole second as an instant. -/
def sec16 (n : Nat) : Int := (n : Int) * 65536000000000

/-- A launch time. -/
def txLaunch (d : BbTxDesc) : Int := sec16 d.launchS.toNat + ns16 d.launchNs.toNat

/-- Maximum frame time at the port's rate, in hundredths of 2^−16 ns (R346). -/
def State.maxFrame100 (s : State) (p : Nat) : Int := ns16 (if s.fld Reg.bbCtrlRate (bbBase p) = 1 then 123360 else 49344)

/-- At an instant a launch lies at most one maximum frame time ahead. -/
def State.inGuard (s : State) (p : Nat) (d : BbTxDesc) (at_ : Int) : Bool := decide ((txLaunch d - at_) * 100 ≤ s.maxFrame100 p)

/-- The guard before a timed frame: the port starts no other frame. -/
def State.bbGuard (s : State) (p : Nat) : Bool :=
  match (s.bbSt p).timed with
  | some d => s.inGuard p d s.now16
  | none => false

/-- A frame of the part's own leaves by a backbone port, after the timed frame when its guard holds. -/
def State.bbSend (s : State) (p : Nat) (bytes : List Byte) : State :=
  if s.bbGuard p then s.setBbSt p { s.bbSt p with held := (s.bbSt p).held ++ [bytes] } else s.sendFrame (.backbone p bytes)

end Sys2Proof.Machine
end

