-- ==== Sys2Proof/Machine/Journal.lean ====
section
/-! DEFINITION. Ochre (R388 to R394) and little-endian bytes (R20).
Log: DEDUCED 161, 193. DESIGN CHOICE 198. -/

namespace Sys2Proof.Machine

/-! ### Bytes -/

/-- `k` bytes of a number, little-endian (R20). -/
def leBytes (k n : Nat) : List Byte := (List.range k).map (fun i => BitVec.ofNat 8 (n / 256 ^ i))

/-- Whole blocks of 8 bytes, filled up with zeros (R242, R250). -/
def wholeBlocks (body : List Byte) : List Byte := body ++ List.replicate ((body.length + 7) / 8 * 8 - body.length) 0#8

/-- A frame on the wire (R242, R423): the start block with the header, whole body blocks, and the terminate block with the check value
over both; the last three bytes of the terminate block carry nothing. -/
def framed (head blocks : List Byte) : List Byte :=
  0x78#8 :: head ++ blocks ++ (0xCC#8 :: leBytes 4 (crc32c (head ++ blocks))) ++ List.replicate 3 0#8

/-- The number of some little-endian bytes. -/
def leNat : List Byte → Nat
  | [] => 0
  | b :: r => b.toNat + 256 * leNat r

/-- A part of a list of bytes, made up with zeros. -/
def slice (bs : List Byte) (at_ n : Nat) : List Byte :=
  let x := (bs.drop at_).take n
  x ++ List.replicate (n - x.length) 0#8

/-- The number at some bytes. -/
def numAt (bs : List Byte) (at_ n : Nat) : Nat := leNat (slice bs at_ n)
/-- The word at some bytes. -/
def wordAtB (bs : List Byte) (at_ : Nat) : Word := BitVec.ofNat 32 (numAt bs at_ 4)
/-- Words as bytes. -/
def bytesOfWords (ws : List Word) : List Byte := ws.flatMap wordBytes

/-! ### Entries -/

/-- Bytes 0 to 59 of an entry (R389). -/
def JEntry.head (e : JEntry) : List Byte :=
  leBytes 8 e.seq ++ wordBytes e.tNs ++ wordBytes e.tS ++ wordBytes e.cycle ++ leBytes 2 e.opcode.toNat
    ++ [BitVec.ofNat 8 (e.origin.toNat * 32 + (if e.at_ then 16 else 0)), BitVec.ofNat 8 e.index.toNat] ++ slice e.param 0 36

/-- The 64 bytes of an entry. -/
def jBytes (e : JEntry) : List Byte := JEntry.head e ++ leBytes 4 (crc32c (JEntry.head e))

/-- An entry from its 64 bytes (R393). -/
def jOfBytes (bs : List Byte) : JEntry :=
  { seq := numAt bs 0 8, tNs := wordAtB bs 8, tS := wordAtB bs 12, cycle := wordAtB bs 16
    opcode := BitVec.ofNat 16 (numAt bs 20 2), origin := BitVec.ofNat 3 (numAt bs 22 1 / 32), at_ := numAt bs 22 1 / 16 % 2 == 1
    index := BitVec.ofNat 6 (numAt bs 23 1), param := slice bs 24 36 }

/-- The journal takes entries (R392). -/
def State.jnlOpen (s : State) : Bool := !s.jnl.frozen

/-- An entry put at the head of the ring (R391). -/
def JnlSt.add (j : JnlSt) (e : JEntry) : JnlSt :=
  { j with head := e.seq, entries := (e :: j.entries).take 4096
           overwritten := if j.entries.length ≥ 4096 then j.overwritten + 1 else j.overwritten }

/-- Entries not yet mirrored (R394). -/
def JnlSt.lag (j : JnlSt) : Nat := j.head - j.mirrored

/-- The mirror's part in a new entry (R394): the next entry to be copied must still be in the ring. -/
def State.mirrorTest (s : State) : State :=
  if s.bit Reg.jnlMirrorCfgEn && s.jnl.copying && s.jnl.lag > 4096 then
    { s with jnl := { s.jnl with mirrorErr := true, copying := false } }.raise 0x62 1 10 107
  else s

/-- A twin frame (R423): kind and position of the sender, the cycle it belongs to, the body's blocks. -/
def twinFrame (kind : Nat) (pos : Bool) (cycle : Word) (body : List Byte) : List Byte :=
  let b := wholeBlocks body
  framed ([BitVec.ofNat 8 (kind * 16 + bitN pos)] ++ leBytes 4 cycle.toNat ++ [BitVec.ofNat 8 (b.length / 8), 0#8]) b

/-- A twin frame sent. -/
def State.sendTwin (s : State) (kind : Nat) (cycle : Word) (body : List Byte) : State :=
  s.sendFrame (.twin (twinFrame kind s.lsp.pos cycle body))

/-- A twin frame carries the entry to the partner (R427, R431): every entry of the active, and a standby's of the twin
group. -/
def State.forward (s : State) (e : JEntry) : State :=
  let mine := match s.lsp.role with
    | .active => true
    | .standby => e.opcode.toNat / 256 == 0x0A
    | .unpaired => false
  if mine && s.lsp.linkUp then s.sendTwin 3 s.cycle (jBytes e) else s

/-- An entry written (R388 to R391); nothing while the journal is frozen. -/
def State.journal (s : State) (origin : BitVec 3) (index : Nat) (at_ : Bool) (opcode : Nat) (cycle : Word)
    (param : List Byte) : State :=
  if !s.jnlOpen then s
  else
    let e : JEntry := { seq := s.jnl.head + 1, tNs := s.nowNs, tS := s.nowS, cycle := cycle, opcode := BitVec.ofNat 16 opcode
                        origin := origin, at_ := at_, index := BitVec.ofNat 6 index, param := slice param 0 36 }
    ({ s with jnl := s.jnl.add e }.mirrorTest).forward e

/-- An entry of the T256's own (R390). -/
def State.ownEntry (s : State) (opcode : Nat) (param : List Nat) : State :=
  s.journal 6#3 0 false opcode s.cycle (param.map (fun n => BitVec.ofNat 8 n))

/-- The entry with a number, if the ring still holds it. -/
def State.entry (s : State) (seq : Nat) : Option JEntry := s.jnl.entries.find? (fun e => e.seq == seq)

/-! ### Modes -/

/-- The causes of a MODE entry (R390). -/
inductive Cause where
  | command | fault | takeover | boot
deriving DecidableEq, Repr

def Cause.code : Cause → Nat
  | .command => 0 | .fault => 1 | .takeover => 2 | .boot => 3

/-- The mode set, without an entry. -/
def State.putMode (s : State) (m : Mode) (c : Cause) : State :=
  { s with mode := m, modeCause := BitVec.ofNat 2 c.code, modeCycle := s.cycle }

/-- Replay stopped before its end (R159, R160). -/
def State.replayStop (s : State) (bufErr : Bool) : State :=
  let s := (s.setFld Reg.madReplayStatState 3).setFld Reg.madReplayStatBufError (bitN bufErr)
  { s with mad := { s.mad with replay := {} } }

/-- Replay runs in COMMISSION alone: it stops when that is left (log entry 198). -/
def State.leaveReplay (s : State) : State := if s.mad.replay.running then s.replayStop false else s

/-- A change of mode, journaled before it takes effect (R390, R498). -/
def State.setMode (s : State) (m : Mode) (c : Cause) : State :=
  (s.ownEntry 0x00F1 [s.mode.code, m.code, c.code]).leaveReplay.putMode m c

end Sys2Proof.Machine
end

