-- ==== Sys2Proof/Machine/Fp32.lean ====
section
/-! DEFINITION. The FP32 arithmetic of the cell, R76 to R81 and R107: exact values, one rounding rule (to nearest, a tie to
the value nearer positive infinity), flushing of subnormals, the canonical NaN.
Log: DEDUCED 12. DESIGN CHOICE 217. -/

namespace Sys2Proof.Machine

/-- What a word counts as when an FP32 operation reads it (R78, R80): a subnormal is a zero of its sign. The value of
`num neg m e` is `m × 2^e` with the sign `neg`. -/
inductive FpVal where
  | nan
  | inf (neg : Bool)
  | num (neg : Bool) (m : Nat) (e : Int)
deriving DecidableEq, Repr

/-- The canonical NaN (R80). -/
def Fp.qnan : Word := 0x7FC00000#32
/-- A zero of a sign. -/
def Fp.zero (neg : Bool) : Word := if neg then 0x80000000#32 else 0#32
/-- An infinity of a sign. -/
def Fp.inf (neg : Bool) : Word := if neg then 0xFF800000#32 else 0x7F800000#32
/-- The constants table of R107. -/
def Fp.kR3 : Word := 0x3F13CD3A#32
def Fp.k2R3 : Word := 0x3F93CD3A#32
def Fp.k3 : Word := 0x3EAAAAAB#32
def Fp.kH3 : Word := 0x3F5DB3D7#32
def Fp.kPi : Word := 0x40490FDB#32
def Fp.k2Pi : Word := 0x40C90FDB#32
def Fp.kInv2Pi : Word := 0x3E22F983#32
def Fp.one : Word := 0x3F800000#32
def Fp.half : Word := 0x3F000000#32
def Fp.two : Word := 0x40000000#32

/-- Reading a word as an FP32 operand. -/
def Fp.val (w : Word) : FpVal :=
  let n := w.toNat
  let neg := n / 0x80000000 == 1
  let ex := n / 0x800000 % 256
  let fr := n % 0x800000
  if ex = 255 then (if fr = 0 then .inf neg else .nan)
  else if ex = 0 then .num neg 0 0
  else .num neg (fr + 0x800000) ((ex : Int) - 150)

def Fp.isNan (w : Word) : Bool := match Fp.val w with | .nan => true | _ => false
/-- An exponent field of all ones, the test of the output guard (R82). -/
def Fp.nonFinite (w : Word) : Bool := w.toNat / 0x800000 % 256 == 255

/-- `2^k` for a non-negative `k`, else 1. -/
def Fp.pow2 (k : Int) : Nat := 2 ^ k.toNat

/-- The exponent of `a / d`: the `E` with `2^E ≤ a / d < 2^(E+1)`, for positive `a` and `d`. -/
def Fp.expOf (a d : Nat) : Int :=
  let e0 : Int := (Nat.log2 a : Int) - (Nat.log2 d : Int)
  if a * Fp.pow2 (-e0) ≥ d * Fp.pow2 e0 then e0 else e0 - 1

/-- Rounding the exact value `n / d` (`d > 0`) by R76, with R77 and R78 applied to the rounded magnitude; `zneg` is the
sign of an exact zero. -/
def Fp.round (n : Int) (d : Nat) (zneg : Bool) : Word :=
  if n = 0 then Fp.zero zneg else
  let neg := decide (n < 0)
  let e := Fp.expOf n.natAbs d
  let s : Int := 23 - e
  let num : Int := n * (Fp.pow2 s : Int)
  let den : Nat := d * Fp.pow2 (-s)
  let r : Nat := ((2 * num + (den : Int)) / (2 * (den : Int))).natAbs
  let (m, e) : Nat × Int := if r = 0x1000000 then (0x800000, e + 1) else (r, e)
  if e > 127 then Fp.inf neg
  else if e < -126 then Fp.zero neg
  else BitVec.ofNat 32 ((if neg then 0x80000000 else 0) + (e + 127).toNat * 0x800000 + (m - 0x800000))

/-- The exact value of a number as an integer over a power of two. -/
def Fp.ratio (neg : Bool) (m : Nat) (e : Int) : Int × Nat :=
  let a : Int := (m * Fp.pow2 e : Nat)
  ((if neg then -a else a), Fp.pow2 (-e))

/-- What an operation that returns one of its operands returns (R78, R80). -/
def Fp.canon (w : Word) : Word :=
  match Fp.val w with
  | .nan => Fp.qnan
  | .inf neg => Fp.inf neg
  | .num neg 0 _ => Fp.zero neg
  | .num _ _ _ => w

/-- The sign bit inverted; exact. -/
def Fp.flip (w : Word) : Word := w ^^^ 0x80000000#32

/-- NEG (R113) and the negation of R107. -/
def Fp.neg (w : Word) : Word := if Fp.isNan w then Fp.qnan else Fp.flip (Fp.canon w)

/-- ABS (R113). -/
def Fp.abs (w : Word) : Word := if Fp.isNan w then Fp.qnan else Fp.canon w &&& 0x7FFFFFFF#32

/-- The sum (R79): an exact zero sum of operands of opposite signs is +0. -/
def Fp.add (a b : Word) : Word :=
  match Fp.val a, Fp.val b with
  | .nan, _ => Fp.qnan
  | _, .nan => Fp.qnan
  | .inf s, .inf t => if s = t then Fp.inf s else Fp.qnan
  | .inf s, _ => Fp.inf s
  | _, .inf t => Fp.inf t
  | .num s m e, .num t k f =>
    let (n1, d1) := Fp.ratio s m e
    let (n2, d2) := Fp.ratio t k f
    Fp.round (n1 * d2 + n2 * d1) (d1 * d2) (s && t)

def Fp.sub (a b : Word) : Word := Fp.add a (Fp.flip b)

/-- The product; its sign is the exclusive or of the operands' signs (R79). -/
def Fp.mul (a b : Word) : Word :=
  match Fp.val a, Fp.val b with
  | .nan, _ => Fp.qnan
  | _, .nan => Fp.qnan
  | .inf s, .inf t => Fp.inf (s != t)
  | .inf s, .num t k _ => if k = 0 then Fp.qnan else Fp.inf (s != t)
  | .num s m _, .inf t => if m = 0 then Fp.qnan else Fp.inf (s != t)
  | .num s m e, .num t k f =>
    let (n1, d1) := Fp.ratio s m e
    let (n2, d2) := Fp.ratio t k f
    Fp.round (n1 * n2) (d1 * d2) (s != t)

/-- The fused multiply-add `a × b + c`, computed exactly and rounded once (R76, R107). -/
def Fp.fma (a b c : Word) : Word :=
  match Fp.val a, Fp.val b, Fp.val c with
  | .nan, _, _ => Fp.qnan
  | _, .nan, _ => Fp.qnan
  | _, _, .nan => Fp.qnan
  | .num s m e, .num t k f, .num u j g =>
    let (n1, d1) := Fp.ratio s m e
    let (n2, d2) := Fp.ratio t k f
    let (n3, d3) := Fp.ratio u j g
    Fp.round (n1 * n2 * d3 + n3 * (d1 * d2 : Nat)) (d1 * d2 * d3) ((s != t) && u)
  | .num _ _ _, .num _ _ _, .inf u => Fp.inf u
  | .inf s, .inf t, z => infSum (s != t) z
  | .inf s, .num t k _, z => if k = 0 then Fp.qnan else infSum (s != t) z
  | .num s m _, .inf t, z => if m = 0 then Fp.qnan else infSum (s != t) z
where
  /-- an infinite product and an addend: infinity − infinity is a NaN (R80) -/
  infSum (neg : Bool) (z : FpVal) : Word :=
    match z with
    | .inf u => if u = neg then Fp.inf neg else Fp.qnan
    | _ => Fp.inf neg

/-- The quotient, one step (R107). -/
def Fp.div (a b : Word) : Word :=
  match Fp.val a, Fp.val b with
  | .nan, _ => Fp.qnan
  | _, .nan => Fp.qnan
  | .inf _, .inf _ => Fp.qnan
  | .inf s, .num t _ _ => Fp.inf (s != t)
  | .num s _ _, .inf t => Fp.zero (s != t)
  | .num s m e, .num t k f =>
    if k = 0 then (if m = 0 then Fp.qnan else Fp.inf (s != t))
    else
      let (n1, d1) := Fp.ratio s m e
      let (n2, d2) := Fp.ratio false k f
      Fp.round ((if t then -n1 else n1) * d2) (d1 * n2.natAbs) (s != t)

/-- The outcome of a compare (R79, R80, R114): equal, less, unordered. -/
structure FpOrd where
  z : Bool
  n : Bool
  u : Bool
deriving DecidableEq, Repr

def Fp.cmp (a b : Word) : FpOrd :=
  match Fp.val a, Fp.val b with
  | .nan, _ => ⟨false, false, true⟩
  | _, .nan => ⟨false, false, true⟩
  | .inf s, .inf t => ⟨s == t, s && !t, false⟩
  | .inf s, .num _ _ _ => ⟨false, s, false⟩
  | .num _ _ _, .inf t => ⟨false, !t, false⟩
  | .num s m e, .num t k f =>
    let (n1, d1) := Fp.ratio s m e
    let (n2, d2) := Fp.ratio t k f
    let x := n1 * (d2 : Int)
    let y := n2 * (d1 : Int)
    ⟨x == y, decide (x < y), false⟩

def Fp.lt (a b : Word) : Bool := (Fp.cmp a b).n
def Fp.eq (a b : Word) : Bool := (Fp.cmp a b).z
def Fp.le (a b : Word) : Bool := (Fp.cmp a b).n || (Fp.cmp a b).z
def Fp.gt (a b : Word) : Bool := Fp.lt b a
def Fp.ge (a b : Word) : Bool := Fp.le b a

/-- MIN (R113): when they compare equal, `a`; a NaN operand gives the NaN. -/
def Fp.min (a b : Word) : Word :=
  let c := Fp.cmp a b
  if c.u then Fp.qnan else if c.z || c.n then Fp.canon a else Fp.canon b

/-- MAX (R113), with the same rules. -/
def Fp.max (a b : Word) : Word :=
  let c := Fp.cmp a b
  if c.u then Fp.qnan else if c.n then Fp.canon b else Fp.canon a

/-- SAT (R113): `min(max(a, −b), b)`. -/
def Fp.sat (a b : Word) : Word := Fp.min (Fp.max a (Fp.neg b)) b
/-- The clamp `sat(x, lo, hi)` of the axis laws: `min(max(x, lo), hi)`. -/
def Fp.clamp (a lo hi : Word) : Word := Fp.min (Fp.max a lo) hi

/-- The nearest integer, a tie upward (R76), of a number. -/
def Fp.nearest (neg : Bool) (m : Nat) (e : Int) : Int :=
  let (n, d) := Fp.ratio neg m e
  (2 * n + (d : Int)) / (2 * (d : Int))

/-- An integer converted to FP32 (R81). -/
def Fp.ofInt (i : Int) : Word := Fp.round i 1 false

/-- CVTIF: a word read as a signed integer. -/
def Fp.cvtif (w : Word) : Word := Fp.ofInt w.toInt
/-- UCVTF: a word read as an unsigned integer (R124). -/
def Fp.ucvtf (w : Word) : Word := Fp.ofInt (w.toNat : Int)

/-- An integer saturated to a range. -/
def satInt (i lo hi : Int) : Int := if i < lo then lo else if i > hi then hi else i

/-- Conversion to a signed 32-bit integer as an integer (R81): rounds, saturates, NaN gives 0. -/
def Fp.toInt32 (w : Word) : Int :=
  match Fp.val w with
  | .nan => 0
  | .inf neg => if neg then -2147483648 else 2147483647
  | .num neg m e => satInt (Fp.nearest neg m e) (-2147483648) 2147483647

/-- CVTFI (R113). -/
def Fp.cvtfi (w : Word) : Word := BitVec.ofInt 32 (Fp.toInt32 w)

/-- CVTFU (R124). -/
def Fp.cvtfu (w : Word) : Word :=
  match Fp.val w with
  | .nan => 0#32
  | .inf neg => if neg then 0#32 else 0xFFFFFFFF#32
  | .num neg m e => BitVec.ofInt 32 (satInt (Fp.nearest neg m e) 0 4294967295)

/-- RND (R120). DEDUCED (log entry 12): a value that rounds to zero gives the zero of its sign, as R78 says of results. -/
def Fp.rnd (w : Word) : Word :=
  match Fp.val w with
  | .nan => Fp.qnan
  | .inf neg => Fp.inf neg
  | .num neg m e => Fp.round (Fp.nearest neg m e) 1 neg

/-- FRAC (R120). -/
def Fp.frac (a : Word) : Word := Fp.sub a (Fp.rnd a)

/-- SIGN (R120). -/
def Fp.sign (a : Word) : Word :=
  match Fp.val a with
  | .nan => Fp.qnan
  | .inf neg => if neg then 0xBF800000#32 else Fp.one
  | .num _ 0 _ => 0#32
  | .num neg _ _ => if neg then 0xBF800000#32 else Fp.one

/-- CPSGN (R120): the magnitude of `a` with the sign of `b`, a NaN `b` too (log entry 217). -/
def Fp.cpsgn (a b : Word) : Word :=
  if Fp.isNan a then Fp.qnan else (Fp.canon a &&& 0x7FFFFFFF#32) ||| (b &&& 0x80000000#32)

/-- SCALE (R120): `a × 2^k`, `k` clamped to −256 to +255. -/
def Fp.scale (a b : Word) : Word :=
  let k := satInt b.toInt (-256) 255
  match Fp.val a with
  | .nan => Fp.qnan
  | .inf neg => Fp.inf neg
  | .num neg m e => let (n, d) := Fp.ratio neg m (e + k); Fp.round n d neg

/-- MAXABS (R125). -/
def Fp.maxabs (a b : Word) : Word := Fp.max (Fp.abs a) (Fp.abs b)

/-- The integer square root by digits, from bit `k` down. -/
def isqrtFrom (n : Nat) : Nat → Nat → Nat
  | 0, r => r
  | k + 1, r => let t := r + 2 ^ k; isqrtFrom n k (if t * t ≤ n then t else r)

/-- The integer square root, rounded down. -/
def isqrt (n : Nat) : Nat := isqrtFrom n (Nat.log2 n / 2 + 1) 0

/-- A positive value `n / d` known to lie strictly between multiples of the last place is rounded through a
scaled integer: `2·floor + 1` stands for every value strictly between two integers. -/
def stickyOf (fl : Nat) (exact : Bool) : Nat := 2 * fl + (if exact then 0 else 1)

/-- sqrt, correctly rounded (R71): −0 gives −0, a negative operand NaN. -/
def Fp.sqrt (a : Word) : Word :=
  match Fp.val a with
  | .nan => Fp.qnan
  | .inf neg => if neg then Fp.qnan else Fp.inf false
  | .num neg m e =>
    if m = 0 then Fp.zero neg else if neg then Fp.qnan else
    let (m', e') : Nat × Int := if e % 2 = 0 then (m, e) else (2 * m, e - 1)
    let big := m' * 2 ^ 64
    let r := isqrt big
    let v := stickyOf r (r * r == big)
    let (n, d) := Fp.ratio false v (e' / 2 - 33)
    Fp.round n d false

/-- rsqrt, correctly rounded (R71). -/
def Fp.rsqrt (a : Word) : Word :=
  match Fp.val a with
  | .nan => Fp.qnan
  | .inf neg => if neg then Fp.qnan else 0#32
  | .num neg m e =>
    if m = 0 then Fp.inf false else if neg then Fp.qnan else
    let (m', e') : Nat × Int := if e % 2 = 0 then (m, e) else (2 * m, e - 1)
    -- 1 / sqrt(m') scaled by 2^96: the floor of sqrt(2^192 / m')
    let q := 2 ^ 192 / m'
    let r := isqrt q
    let v := stickyOf r (r * r * m' == 2 ^ 192)
    let (n, d) := Fp.ratio false v (-(e' / 2) - 97)
    Fp.round n d false

/-- recip, correctly rounded; a result that underflows is +0 (R71). -/
def Fp.recip (a : Word) : Word :=
  match Fp.val a with
  | .nan => Fp.qnan
  | .inf neg => Fp.zero neg
  | .num neg m _ =>
    if m = 0 then Fp.inf neg
    else
      let w := Fp.div Fp.one a
      if w = Fp.zero true then 0#32 else w

end Sys2Proof.Machine
end

