-- ==== Sys2Proof/Machine/Flags.lean ====
section
/-! DEFINITION. The condition flags (R109): every rule by which an instruction writes z, n and u; t is set and cleared as
R110 gives. -/

namespace Sys2Proof.Machine

/-- z, n and u of an ordered outcome: equal, less. -/
def CC.ordered (cc : CC) (eq lt : Bool) : CC := { cc with z := eq, n := lt, u := false }

/-- The flags of CMP (R114, R79, R80). -/
def CC.ofFp (cc : CC) (a b : Word) : CC :=
  let o := Fp.cmp a b
  { cc with z := o.z, n := o.n, u := o.u }

/-- The flags of ICMP: signed 32-bit integers. -/
def CC.ofInt (cc : CC) (a b : Word) : CC := cc.ordered (decide (a = b)) (decide (a.toInt < b.toInt))

/-- The flags of PCMP: unsigned 16-bit values. -/
def CC.ofPtr (cc : CC) (a b : BitVec 16) : CC := cc.ordered (decide (a = b)) (decide (a.toNat < b.toNat))

/-- The flag of INTS, RLIM and LIMV. -/
def CC.limited (cc : CC) (n : Bool) : CC := { cc with n := n }

/-- The flags of SVM3 (R116). -/
def CC.svm (cc : CC) (n u : Bool) : CC := { cc with n := n, u := u }

/-- The flags of QISH (R119). -/
def CC.ofHold (cc : CC) (hold : Bool) : CC := { cc with z := hold, n := false, u := false }

/-- fd[3:0] of MOVFCC: t, u, n, z from bit 3 to bit 0 (R112). -/
def CC.word (cc : CC) : Word :=
  BitVec.ofNat 32 ((if cc.t then 8 else 0) + (if cc.u then 4 else 0) + (if cc.n then 2 else 0) + (if cc.z then 1 else 0))

end Sys2Proof.Machine
end

