-- ==== Sys2Proof/Machine/Trig.lean ====
section
/-! DEFINITION. sin, cos, atan2, exp2 and log2 of the trig unit (R71): fixed-point series carried to `Trig.prec` fractional
bits, rounded once by R76. UNVERIFIED (log entry 13): no operand's exact value lies so near a rounding boundary that the
truncation of the series moves the result.
Log: DESIGN CHOICE 214. UNVERIFIED 13. -/

namespace Sys2Proof.Machine

/-- Fractional bits of the fixed-point series. -/
def Trig.prec : Nat := 420
/-- One in fixed point. -/
def Trig.unit : Nat := 2 ^ Trig.prec

/-- Terms of `atan(1/k)` in fixed point. -/
def Trig.atanInv (k2 : Nat) : Nat → Nat → Nat → Bool → Int → Int
  | 0, _, _, _, acc => acc
  | n + 1, p, j, neg, acc =>
    Trig.atanInv k2 n (p / k2) (j + 2) (!neg) (acc + (if neg then -((p / j : Nat) : Int) else ((p / j : Nat) : Int)))

/-- π in fixed point, by Machin's formula. -/
def Trig.pi : Nat :=
  (16 * Trig.atanInv 25 100 (Trig.unit / 5) 1 false 0 - 4 * Trig.atanInv 57121 30 (Trig.unit / 239) 1 false 0).natAbs

/-- An FP32 number in fixed point, rounded down. -/
def Trig.fix (m : Nat) (e : Int) : Nat := m * Fp.pow2 (e + Trig.prec) / Fp.pow2 (-(e + Trig.prec))

/-- The alternating series of sin (`j = 1`, first term `x`) or cos (`j = 0`, first term 1) in fixed point. -/
def Trig.series (x2 : Nat) : Nat → Nat → Nat → Bool → Int → Int
  | 0, _, _, _, acc => acc
  | n + 1, term, j, neg, acc =>
    Trig.series x2 n (term * x2 / Trig.unit / ((j + 1) * (j + 2))) (j + 2) (!neg)
      (acc + (if neg then -(term : Int) else (term : Int)))

/-- sin and cos of a fixed-point angle of at most π/4. -/
def Trig.sinSmall (x : Nat) : Int := Trig.series (x * x / Trig.unit) 60 x 1 false 0
def Trig.cosSmall (x : Nat) : Int := Trig.series (x * x / Trig.unit) 60 Trig.unit 0 false 0

/-- sin and cos of a non-negative fixed-point angle. -/
def Trig.sinCos (x : Nat) : Int × Int :=
  let hp := Trig.pi / 2
  let q := x / hp
  let r := x % hp
  let (s, c) : Int × Int :=
    if 2 * r ≤ hp then (Trig.sinSmall r, Trig.cosSmall r) else (Trig.cosSmall (hp - r), Trig.sinSmall (hp - r))
  match q % 4 with
  | 0 => (s, c)
  | 1 => (c, -s)
  | 2 => (-s, -c)
  | _ => (-c, s)

/-- The magnitude of a number exceeds 2^15 (R71, R116). -/
def Trig.above15 (m : Nat) (e : Int) : Bool := decide (m * Fp.pow2 e > 32768 * Fp.pow2 (-e))

/-- sin (R71): a zero result keeps the sign of x. -/
def Fp.sin (a : Word) : Word :=
  match Fp.val a with
  | .num neg m e =>
    if m = 0 then Fp.zero neg
    else if Trig.above15 m e then Fp.qnan
    else let s := (Trig.sinCos (Trig.fix m e)).1; Fp.round (if neg then -s else s) Trig.unit neg
  | _ => Fp.qnan

/-- cos (R71). -/
def Fp.cos (a : Word) : Word :=
  match Fp.val a with
  | .num _ m e =>
    if m = 0 then Fp.one
    else if Trig.above15 m e then Fp.qnan
    else Fp.round (Trig.sinCos (Trig.fix m e)).2 Trig.unit false
  | _ => Fp.qnan

/-- The series of atan in fixed point, for a small argument. -/
def Trig.atanSeries (x2 : Nat) : Nat → Nat → Nat → Bool → Int → Int
  | 0, _, _, _, acc => acc
  | n + 1, p, j, neg, acc =>
    Trig.atanSeries x2 n (p * x2 / Trig.unit) (j + 2) (!neg)
      (acc + (if neg then -((p / j : Nat) : Int) else ((p / j : Nat) : Int)))

/-- Halving the angle: `r / (1 + sqrt(1 + r²))`. -/
def Trig.atanHalf (r : Nat) : Nat :=
  r * Trig.unit / (Trig.unit + isqrt (Trig.unit * Trig.unit + r * r))

/-- atan of a fixed-point argument of at most one. -/
def Trig.atan (r : Nat) : Nat :=
  let h := Trig.atanHalf (Trig.atanHalf (Trig.atanHalf r))
  8 * (Trig.atanSeries (h * h / Trig.unit) 70 h 1 false 0).natAbs

/-- atan2 (R71): the result in (−π, π]; every zero result of this function is +0; of two infinities ±π/4 or ±3π/4 (log entry
214). -/
def Fp.atan2 (y x : Word) : Word :=
  let fin (neg : Bool) (t : Nat) : Word :=
    let w := Fp.round (if neg then -(t : Int) else (t : Int)) Trig.unit false
    if w = 0xC0490FDB#32 then Fp.kPi else if w &&& 0x7FFFFFFF#32 = 0#32 then 0#32 else w
  match Fp.val y, Fp.val x with
  | .nan, _ => Fp.qnan
  | _, .nan => Fp.qnan
  | .inf sy, .inf sx => fin sy (if sx then 3 * (Trig.pi / 4) else Trig.pi / 4)
  | .inf sy, .num _ _ _ => fin sy (Trig.pi / 2)
  | .num sy my _, .inf sx => if sx then (if my = 0 then Fp.kPi else fin sy Trig.pi) else 0#32
  | .num sy my ey, .num sx mx ex =>
    if my = 0 then (if sx then Fp.kPi else 0#32)
    else if mx = 0 then fin sy (Trig.pi / 2)
    else
      -- the ratio of the smaller magnitude to the larger
      let a := my * Fp.pow2 (ey - ex)
      let b := mx * Fp.pow2 (ex - ey)
      let t := if a ≤ b then Trig.atan (a * Trig.unit / b) else Trig.pi / 2 - Trig.atan (b * Trig.unit / a)
      fin sy (if sx then Trig.pi - t else t)

/-- The series of atanh in fixed point: `ln((1+w)/(1−w)) / 2`. -/
def Trig.atanhSeries (w2 : Nat) : Nat → Nat → Nat → Nat → Nat
  | 0, _, _, acc => acc
  | n + 1, p, j, acc => Trig.atanhSeries w2 n (p * w2 / Trig.unit) (j + 2) (acc + p / j)

/-- The natural logarithm of `num / den`, between 1 and 2. -/
def Trig.ln (num den : Nat) : Nat :=
  let w := (num - den) * Trig.unit / (num + den)
  2 * Trig.atanhSeries (w * w / Trig.unit) 140 w 1 0

def Trig.ln2 : Nat := Trig.ln 2 1

/-- The series of exp in fixed point. -/
def Trig.expSeries (x : Nat) : Nat → Nat → Nat → Nat → Nat
  | 0, _, _, acc => acc
  | n + 1, term, j, acc => Trig.expSeries x n (term * x / Trig.unit / j) (j + 1) (acc + term)

/-- exp2 (R71). -/
def Fp.exp2 (a : Word) : Word :=
  match Fp.val a with
  | .nan => Fp.qnan
  | .inf neg => if neg then 0#32 else Fp.inf false
  | .num neg m e =>
    if m = 0 then Fp.one
    else
      let (n, d) := Fp.ratio neg m e
      if n ≥ 128 * (d : Int) then Fp.inf false
      else if n < -127 * (d : Int) then 0#32
      else
        let k : Int := n / (d : Int)
        let f : Nat := (n % (d : Int)).natAbs
        let v := if f = 0 then Trig.unit else Trig.expSeries (f * Trig.ln2 / d) 90 Trig.unit 1 0
        let w := Fp.round ((v * Fp.pow2 k : Nat) : Int) (Trig.unit * Fp.pow2 (-k)) false
        w

/-- log2 (R71). -/
def Fp.log2 (a : Word) : Word :=
  match Fp.val a with
  | .nan => Fp.qnan
  | .inf neg => if neg then Fp.qnan else Fp.inf false
  | .num neg m e =>
    if m = 0 then Fp.inf true
    else if neg then Fp.qnan
    else
      let l : Int := e + 23
      let f := if m = 0x800000 then 0 else Trig.ln m 0x800000 * Trig.unit / Trig.ln2
      Fp.round (l * (Trig.unit : Int) + (f : Int)) Trig.unit false

end Sys2Proof.Machine
end

