-- ==== Sys2Proof/Machine/Alu.lean ====
section
/-! DEFINITION. The values the cell's compute operations give, apart from where they are written: R113 to R117, R120, R122 to
R125.
Log: DEDUCED 25. DESIGN CHOICE 183, 215. -/

namespace Sys2Proof.Machine

/-- fma with the exact product's sign turned (R107, R114). -/
def Fp.fnma (a b c : Word) : Word := Fp.fma (Fp.flip a) b c

/-- SAT, SATFI (R113, R123): `min(max(a, −b), b)`. -/
def aluSat (a b : Word) : Word := Fp.sat a b

/-- Signed comparison of raw words. -/
def iMin (a b : Word) : Word := if a.toInt < b.toInt then a else b
def iMax (a b : Word) : Word := if a.toInt < b.toInt then b else a
/-- ISATU (R115). -/
def iSatu (a b : Word) : Word := iMin (iMax a 0#32) b

/-- Shifts by bits [4:0] of the count (R115). -/
def shiftL (a b : Word) : Word := a <<< (b.toNat % 32)
def shiftR (a b : Word) : Word := a >>> (b.toNat % 32)
def shiftA (a b : Word) : Word := a.sshiftRight (b.toNat % 32)

/-- A pair of results. -/
structure Pair where
  lo : Word
  hi : Word
deriving DecidableEq, Repr

/-- CLARKE (R116). -/
def clarkeOf (ia ib : Word) : Pair := ⟨Fp.canon ia, Fp.fma ib Fp.k2R3 (Fp.mul ia Fp.kR3)⟩

/-- CLARKE3 (R116). -/
def clarke3Of (ia ib ic : Word) : Pair :=
  let s := Fp.add ib ic
  let t := Fp.fma ia Fp.two (Fp.flip s)
  ⟨Fp.mul t Fp.k3, Fp.mul (Fp.sub ib ic) Fp.kR3⟩

/-- PARK (R116). -/
def parkOf (al be sn cs : Word) : Pair :=
  let id := Fp.fma al cs (Fp.mul be sn)
  let p := Fp.mul al sn
  ⟨id, Fp.fma be cs (Fp.flip p)⟩

/-- IPARK (R116). -/
def iparkOf (vd vq sn cs : Word) : Pair :=
  let p := Fp.mul vq sn
  ⟨Fp.fma vd cs (Fp.flip p), Fp.fma vd sn (Fp.mul vq cs)⟩

/-- The outcome of SVM3: three on-times, n and u. -/
structure Svm where
  ta : Word
  tb : Word
  tc : Word
  n : Bool
  u : Bool
deriving DecidableEq, Repr

/-- SVM3 (R116), with its special cases; where both apply, that of vbus (log entry 183). Two NaNs do not differ (log entry 215). -/
def svm3Of (va' vb' vbus tper : Word) : Svm :=
  if Fp.isNan vbus || !Fp.gt vbus 0#32 then
    let x := Fp.mul tper Fp.half
    ⟨x, x, x, false, true⟩
  else if Fp.isNan va' || Fp.isNan vb' || Fp.isNan tper then ⟨Fp.qnan, Fp.qnan, Fp.qnan, false, true⟩
  else
    let h := Fp.mul va' Fp.half
    let q := Fp.mul vb' Fp.kH3
    let va := va'
    let vb := Fp.sub q h
    let vc := Fp.add (Fp.flip q) (Fp.flip h)
    let o := Fp.mul (Fp.add (Fp.max (Fp.max va vb) vc) (Fp.min (Fp.min va vb) vc)) Fp.half
    let w := Fp.div Fp.one vbus
    let d := fun v => Fp.fma (Fp.sub v o) w Fp.half
    let sx := fun v => Fp.clamp (d v) 0#32 Fp.one
    let cut := fun v => decide (sx v ≠ d v)
    ⟨Fp.mul (sx va) tper, Fp.mul (sx vb) tper, Fp.mul (sx vc) tper, cut va || cut vb || cut vc, false⟩

/-- The outcome of LIMV: two components and n. -/
structure Limv where
  ud : Word
  uq : Word
  n : Bool
deriving DecidableEq, Repr

/-- LIMV (R116). A NaN operand gives canonical NaN results, with n = 1 as the steps leave it (log entry 25). -/
def limvOf (vd vq lim : Word) : Limv :=
  if Fp.isNan vd || Fp.isNan vq || Fp.isNan lim then ⟨Fp.qnan, Fp.qnan, true⟩ else
  let l2 := Fp.mul lim lim
  let m2 := Fp.fma vd vd (Fp.mul vq vq)
  if Fp.le m2 l2 then ⟨Fp.canon vd, Fp.canon vq, false⟩
  else
    let ud := Fp.sat vd lim
    let r := Fp.max (Fp.fma (Fp.flip ud) ud l2) 0#32
    ⟨ud, Fp.cpsgn (Fp.sqrt r) vq, true⟩

/-- ANGW (R116): an angle brought into (−π, π]. -/
def angwOf (a : Word) : Word :=
  if Fp.isNan a || Fp.nonFinite a || Fp.gt (Fp.abs a) 0x47000000#32 then Fp.qnan
  else
    let k := Fp.rnd (Fp.mul a Fp.kInv2Pi)
    let r := Fp.fma (Fp.flip k) Fp.k2Pi a
    let r := if Fp.gt r Fp.kPi then Fp.sub r Fp.k2Pi else r
    if Fp.le r (Fp.flip Fp.kPi) then Fp.add r Fp.k2Pi else r

/-- ANGADD (R116). -/
def angaddOf (a b : Word) : Word :=
  if Fp.isNan a || Fp.nonFinite a || Fp.gt (Fp.abs a) 0x47000000#32
      || Fp.isNan b || Fp.nonFinite b || Fp.gt (Fp.abs b) 0x47000000#32 then Fp.qnan
  else angwOf (Fp.add a b)

/-- DEADZ, LPF, DOT2, CROSS2, MAG2 (R120). -/
def deadzOf (a b : Word) : Word := Fp.sub a (Fp.sat a b)
def lpfOf (a b d : Word) : Word := Fp.fma b (Fp.sub a d) d
def dot2Of (a a1 b b1 : Word) : Word := Fp.fma a b (Fp.mul a1 b1)
def cross2Of (a a1 b b1 : Word) : Word := Fp.fma a b1 (Fp.flip (Fp.mul a1 b))
def mag2Of (a a1 : Word) : Word := Fp.fma a a (Fp.mul a1 a1)

/-- POPC and CLZ (R122). -/
def popcOf (a : Word) : Word := BitVec.ofNat 32 (((List.range 32).filter (fun i => a.getLsbD i)).length)
def clzOf (a : Word) : Word := BitVec.ofNat 32 (if a = 0#32 then 32 else 31 - Nat.log2 a.toNat)

/-- The field of BEXT and BINS (R122): its position and length. -/
def bitPos (imm : Word) : Nat := imm.toNat % 32
def bitLen (imm : Word) : Nat := imm.toNat / 32 % 32 + 1
/-- BEXT: bits above 31 read as 0. -/
def bextOf (a imm : Word) : Word := BitVec.ofNat 32 (a.toNat / 2 ^ bitPos imm % 2 ^ bitLen imm)
/-- BINS: bits above 31 are dropped, the other bits of `d` stay. -/
def binsOf (d a imm : Word) : Word :=
  let mask := BitVec.ofNat 32 ((2 ^ bitLen imm - 1) * 2 ^ bitPos imm)
  (d &&& ~~~mask) ||| (BitVec.ofNat 32 (a.toNat * 2 ^ bitPos imm) &&& mask)

/-- DIFFW (R124). -/
def diffwOf (a b : Word) : Word := Fp.cvtif (a - b)
/-- PACK16, UNPKL, UNPKH (R124). -/
def pack16Of (a b : Word) : Word := b.setWidth 16 ++ a.setWidth 16
def unpklOf (a : Word) : Word := (a.setWidth 16).signExtend 32
def unpkhOf (a : Word) : Word := (a.extractLsb' 16 16).signExtend 32

/-- A limited result and whether the limit acted. -/
structure Limited where
  v : Word
  cut : Bool
deriving DecidableEq, Repr

/-- Two results differ, as bits of the canonical form; two NaNs do not (log entry 215). -/
def differs (a b : Word) : Bool := decide (Fp.canon a ≠ Fp.canon b)

/-- INTS (R125). -/
def intsOf (a b d c : Word) : Limited :=
  let s := Fp.fma a b d
  let r := Fp.sat s c
  ⟨r, differs r s⟩

/-- RLIM (R125). -/
def rlimOf (a b d : Word) : Limited :=
  let e := Fp.sub a d
  let g := Fp.sat e b
  ⟨Fp.add d g, differs g e⟩

/-- AVG and SQDIF (R125). -/
def avgOf (a b : Word) : Word := Fp.mul (Fp.add a b) Fp.half
def sqdifOf (a b : Word) : Word := let e := Fp.sub a b; Fp.mul e e

end Sys2Proof.Machine
end

