-- ==== Sys2Proof/Machine/Arb.lean ====
section
/-! DEFINITION. Arbitration at the block, the region and the chip (R30, R32 to R35): who is granted a turn, and where wheels and
pointers stand then. A turn is one slot; when its clock comes is timing (log entry 11). At the cell a command is one granted access, and
the order of the commands is the order of the grants (log entry 167).
Log: DEDUCED 167. DESIGN CHOICE 213. -/

namespace Sys2Proof.Machine

/-- The next of `n` requesters after the one served last, in turn. -/
def rrNext (n last : Nat) (req : List Nat) : Option Nat := ((List.range n).map (fun i => (last + 1 + i) % n)).find? (fun p => req.contains p)

/-- A round robin's turn among `n` requesters: the pointer advances past the one it serves (R32). -/
def WheelSt.robin (n : Nat) (req : List Nat) (w : WheelSt) : Option Nat × WheelSt :=
  match rrNext n w.last req with
  | some p => (some p, { w with last := p, spent := 1 })
  | none => (none, w)

/-- A weighted round robin's turn: the port served last goes on until it has had as many turns as its weight (R33). -/
def WheelSt.weighted (n : Nat) (weight : Nat → Nat) (req : List Nat) (w : WheelSt) : Option Nat × WheelSt :=
  if req.contains w.last && decide (0 < w.spent ∧ w.spent < weight w.last) then (some w.last, { w with spent := w.spent + 1 })
  else w.robin n req

/-- The owner of the present slot; none while the level is held in reset (R35). -/
def WheelSt.owner (slots : List (Option Nat)) (held : Bool) (w : WheelSt) : Option Nat :=
  if held then none else (slots[w.slot]?).join

/-- The wheel turned to its next slot. -/
def WheelSt.step (len : Nat) (w : WheelSt) : WheelSt := { w with slot := (w.slot + 1) % len }

/-- A turn of a block's wheel or of the chip's frame: the owner of the slot where it asks, else the round robin (R32, R34). -/
def WheelSt.grant (len n : Nat) (slots : List (Option Nat)) (held : Bool) (req : List Nat) (w : WheelSt) : Option Nat × WheelSt :=
  match w.owner slots held with
  | some p => if req.contains p then (some p, w.step len) else let y := w.robin n req; (y.1, y.2.step len)
  | none => let y := w.robin n req; (y.1, y.2.step len)

/-- A turn of a region: LOOP traffic takes reserved slots alone, other traffic what is left, by weight (R33). While the region is held in
reset, reserved slots pass to the round robin, for either traffic (R35). -/
def WheelSt.grantLoop (slots : List (Option Nat)) (held : Bool) (weight : Nat → Nat) (loop req : List Nat) (w : WheelSt) : Option Nat × WheelSt :=
  match w.owner slots held with
  | some p => if loop.contains p then (some p, w.step 64) else let y := w.weighted 5 weight req; (y.1, y.2.step 64)
  | none => let y := w.weighted 5 weight (if held then loop ++ req else req); (y.1, y.2.step 64)

/-- The requesters at a cell's memories (R30). -/
inductive CellReq where
  | core
  | writeBack
  | dma
deriving DecidableEq, Repr

/-- Who is served at a cell's memory in a clock, given who asks and the clocks that a write-back and a DMA request have waited: core, then
write-back, then DMA; before the core a write-back after 4 clocks, then a DMA request after 64 (R30, R31). -/
def cellGrant (req : List CellReq) (wbWait dmaWait : Nat) : Option CellReq :=
  if req.contains .writeBack && decide (4 ≤ wbWait) then some .writeBack
  else if req.contains .dma && decide (64 ≤ dmaWait) then some .dma
  else [CellReq.core, .writeBack, .dma].find? (fun r => req.contains r)

/-! ### The arbiters of the part -/

def State.wheels (s : State) : Wheels := (s.image.map Image.wheels).getD {}
def State.blockWheel (s : State) (b : Nat) : WheelSt := Tab.get {} s.arb.blocks b
def State.regionWheel (s : State) (r : Nat) : WheelSt := Tab.get {} s.arb.regions r

/-- The weight of a port of a region, 1 where the image gives none. -/
def State.weight (s : State) (r p : Nat) : Nat := max 1 (((Tab.get [] s.wheels.weights r)[p]?).getD 1)

/-- A cell's access to its block's memory and slice (R32). -/
def State.cellTurn (s : State) (n : Nat) : State :=
  let b := blockOfCell n
  let y := (s.blockWheel b).grant 16 4 (Tab.get [] s.wheels.blocks b) (s.blockDown b) [n % 4]
  { s with arb := { s.arb with blocks := Tab.put {} s.arb.blocks b y.2 } }

/-- An access of a port of a region, 0 to 3 its blocks and 4 the chip inbound port (R33): LOOP traffic turns the wheel to a slot of its
own. -/
def loopTurns (s : State) (r p : Nat) : Nat → WheelSt → WheelSt
  | 0, w => w
  | k + 1, w =>
    let y := w.grantLoop (Tab.get [] s.wheels.regions r) (s.regionDown r) (s.weight r) [p] []
    if y.1 = some p then y.2 else loopTurns s r p k y.2
def State.regionTurn (s : State) (r p : Nat) (loop : Bool) : State :=
  let w := s.regionWheel r
  let w' := if loop then loopTurns s r p 64 w
    else (w.grantLoop (Tab.get [] s.wheels.regions r) (s.regionDown r) (s.weight r) [] [p]).2
  { s with arb := { s.arb with regions := Tab.put {} s.arb.regions r w' } }

/-- An access of a port of the chip fabric: 0 to 3 the regions, 4 and above the units (R34). -/
def State.chipTurn (s : State) (p : Nat) : State :=
  { s with arb := { s.arb with chip := (s.arb.chip.grant 256 128 s.wheels.chip false [p]).2 } }

/-! ### Ways through the fabrics (R23, R24) -/

/-- A unit's port of the chip fabric, and the unit's home region, where it has one. -/
structure FabPort where
  no : Nat
  home : Option Nat
deriving DecidableEq, Repr

/-- The ports of the units, by the numbers of their islands. -/
def State.ringPort (s : State) (r : Nat) : FabPort := ⟨84 + r, some (r % s.regions)⟩
def drivePort : FabPort := ⟨102, some 0⟩
def adcPort : FabPort := ⟨103, some 0⟩
def fbPort : FabPort := ⟨104, some 0⟩
def timePort : FabPort := ⟨96, none⟩

/-- From one region's port into another region: the chip fabric, then that region's inbound port. -/
def State.regionHop (s : State) (a b : Nat) (loop : Bool) : State := if a = b then s else (s.chipTurn a).regionTurn b 4 loop

/-- A token from a unit to a queue: it enters at the unit's home region, and goes on to the queue's. -/
def State.sourceTurn (s : State) (u : FabPort) (q : Nat) (loop : Bool) : State :=
  let r := q / 2048
  let h := u.home.getD r
  ((s.chipTurn u.no).regionTurn h 4 loop).regionHop h r loop

/-- A token from a queue to its unit: out of the queue's block, out of its region. -/
def State.sinkTurn (s : State) (u : FabPort) (q : Nat) (loop : Bool) : State :=
  let r := q / 2048
  let h := u.home.getD r
  ((s.regionTurn r (q % 2048 / 512) loop).regionHop r h loop).chipTurn h

/-- Between a cell's block and the block of a queue; within one block the cell's own port serves (`State.cellTurn`). -/
def State.crossTurn (s : State) (b q : Nat) (loop : Bool) : State :=
  if b = blockOfQueue q then s else (s.regionTurn (regionOfBlock b) (b % 4) loop).regionHop (regionOfBlock b) (q / 2048) loop

/-- The way of an access from a unit's port to a memory: the chip fabric, then the inbound port of the memory's region. -/
def State.routed (s : State) (port a : Nat) : State :=
  (s.chipTurn port).regionTurn ((a - 0x04000000) / 0x1000000) 4 false

end Sys2Proof.Machine
end

