-- ==== Sys2Proof/Machine/Operands.lean ====
section
/-! DEFINITION. The operand forms of the cell instructions: registers and the rotating file (R46, R47), destinations pending
in the trig unit (R73), pointers and post-modify (R57, R58), and the X and Y accesses of an instruction (R59 to R61, R96). -/

namespace Sys2Proof.Machine

/-- The physical register of an architectural one (R47). -/
def CellSt.phys (c : CellSt) (k : Nat) : Nat := if k < 32 then k else 32 + (k - 32 + c.rrb.toNat) % 32

/-- What one trig operation will write to a destination. -/
def TrigOp.value (t : TrigOp) (d : TrigDest) : Option Word :=
  if t.squashed then none else (t.writes.find? (fun w => decide (w.1 = d))).map Prod.snd

/-- The value pending for a destination (R73): a read stalls until it is written, so it sees this value. -/
def CellSt.pendingAt (c : CellSt) (d : TrigDest) : Option Word :=
  c.trig.foldl (fun acc t => (t.value d).or acc) none

/-- A destination no longer pending: the core overwrote it after the result was written (R73). -/
def CellSt.settle (c : CellSt) (d : TrigDest) : CellSt :=
  { c with trig := c.trig.map (fun t => { t with writes := t.writes.filter (fun w => !decide (w.1 = d)) }) }

/-- A physical `f` register, read. -/
def CellSt.getF (c : CellSt) (k : Nat) : Word := (c.pendingAt (.reg k)).getD (Tab.get 0#32 c.f k)

/-- A physical `f` register, written by the core. -/
def CellSt.putF (c : CellSt) (k : Nat) (v : Word) : CellSt :=
  let c := c.settle (.reg k)
  { c with f := Tab.put 0#32 c.f k v }

/-- An architectural `f` register, read. -/
def CellSt.rdF (c : CellSt) (k : BitVec 6) : Word := c.getF (c.phys k.toNat)

/-- The even and the odd register of a pair (R102). -/
def evenOf (k : BitVec 6) : Nat := k.toNat / 2 * 2
def CellSt.rdEven (c : CellSt) (k : BitVec 6) : Word := c.getF (c.phys (evenOf k))
def CellSt.rdOdd (c : CellSt) (k : BitVec 6) : Word := c.getF (c.phys (evenOf k + 1))

/-- Pointer, modifier and counter registers: bits [3:0] and [2:0] of the operand (R102). -/
def pIdx (k : BitVec 6) : Nat := k.toNat % 16
def CellSt.rdP (c : CellSt) (k : Nat) : BitVec 16 := Tab.get 0#16 c.p k
def CellSt.rdM (c : CellSt) (k : Nat) : Word := Tab.get 0#32 c.m k
def CellSt.rdC (c : CellSt) (k : Nat) : BitVec 16 := Tab.get 0#16 c.c k

/-- The least power of two not below `len`, counted up from `b`. -/
def powAtLeast (len : Nat) : Nat → Nat → Nat
  | 0, p => p
  | k + 1, p => if len ≤ p then p else powAtLeast len k (2 * p)

/-- Post-modify (R58). -/
def postMod (p : BitVec 16) (m : Word) : BitVec 16 :=
  let len := m.toNat / 65536
  let step := (m.setWidth 16).toInt
  if len = 0 then BitVec.ofInt 16 (p.toNat + step)
  else
    let b := powAtLeast len 16 1
    let base := p.toNat / b * b
    BitVec.ofInt 16 (base + ((p.toNat - base : Nat) + step) % (len : Int))

/-- The two data memories of a cell. -/
inductive Bank where
  | x | y
deriving DecidableEq, Repr

/-- The BAR0 offset of a word of X or Y. -/
def Bank.addr (b : Bank) (cell w : Nat) : Nat :=
  match b with
  | .x => xAddr cell w
  | .y => yAddr cell w

/-- What an access does: registers loaded (physical), words stored (BAR0 offset), words it reads, the pointer modified, and
the faults it raises. -/
structure AccRes where
  loads : List (Nat × Word) := []
  stores : List (Nat × Word) := []
  reads : List Nat := []
  ptr : Option (Nat × BitVec 16) := none
  faults : List Nat := []
deriving DecidableEq, Repr

/-- A word of X or Y as the core reads it. -/
def coreWord (s : State) (c : CellSt) (addr : Nat) : Word := (c.pendingAt (.mem addr)).getD (s.memWord addr)

/-- The access of a field laid out as R96, on one bank: pointers and store data as they stand at issue (R61, R104). -/
def access (s : State) (cell : Nat) (c : CellSt) (b : Bank) (a : Access) : AccRes :=
  let p := c.rdP a.p.toNat
  let ptr := if a.pm then some (a.p.toNat, postMod p (c.rdM a.m.toNat)) else none
  let w := p.toNat
  match a.kind.toNat with
  | 0 => {}
  | k =>
    if w ≥ 16384 then { ptr, faults := [4] }
    else if k = 1 then
      let ad := b.addr cell w
      { loads := [(c.phys a.f.toNat, coreWord s c ad)], reads := [ad], ptr }
    else if k = 2 then { stores := [(b.addr cell w, c.rdF a.f)], ptr }
    else
      let lo := b.addr cell (w / 2 * 2)
      let hi := b.addr cell (w / 2 * 2 + 1)
      { loads := [(c.phys (evenOf a.f), coreWord s c lo), (c.phys (evenOf a.f + 1), coreWord s c hi)]
        reads := [lo, hi], ptr }

/-- The pointer part alone of an access field used as the destination of a memory form (R118): the word address taken at
issue and the post-modify. -/
def destAccess (c : CellSt) (a : Access) : Nat × AccRes :=
  let p := c.rdP a.p.toNat
  let ptr := if a.pm then some (a.p.toNat, postMod p (c.rdM a.m.toNat)) else none
  (p.toNat, { ptr, faults := if p.toNat ≥ 16384 then [4] else [] })

end Sys2Proof.Machine
end

