-- ==== Sys2Proof/Machine/Madder.lean ====
section
/-! DEFINITION. Madder's queues, tokens and firing (R126 to R154): what a queue takes, when an operation is ready, how a job
starts and ends, how work items complete.
Log: DEDUCED 153. DESIGN CHOICE 21, 185, 218. -/

namespace Sys2Proof

/-! ### Descriptors -/

/-- The input and output ports of an operation, in ascending port number, with the port number. -/
def OpDesc.numbered (d : OpDesc) : List (Nat × PortDesc) := (List.range d.ports.length).zip d.ports
def OpDesc.inputs (d : OpDesc) : List (Nat × PortDesc) := d.numbered.filter (fun p => p.2.dir == 1)
def OpDesc.outputs (d : OpDesc) : List (Nat × PortDesc) := d.numbered.filter (fun p => p.2.dir == 2)

end Sys2Proof

namespace Sys2Proof.Machine

/-- A standby that is not in step: its graphs run, if at all, on recomputed cycles (R435). -/
def State.catchingUp (s : State) : Bool := decide (s.mode = .standby) && decide (s.lsp.sync ≠ .inStep)

/-- The cycle a synchronising standby recomputes. -/
def State.catchCycle (s : State) : Word := s.lsp.copyCycle + BitVec.ofNat 32 s.lsp.caught

/-- The graphs follow the live edges: neither replay nor synchronisation drives them. -/
def State.liveGraphs (s : State) : Bool := !s.mad.replay.running && !s.catchingUp

/-- The cycle of the control fabric: the present one, in replay the one replayed (R160), in synchronisation the one recomputed (R435). -/
def State.madCycle (s : State) : Word :=
  if s.mad.replay.running then s.reg Reg.madReplayAt.off else if s.catchingUp then s.catchCycle else s.cycle

/-- A graph operation by its place in the image. -/
def State.opDesc (s : State) (k : Nat) : Option OpDesc := s.ops[k]?

/-- The operations with their places. -/
def State.numberedOps (s : State) : List (Nat × OpDesc) := (List.range s.ops.length).zip s.ops

/-- The operation that consumes a queue. -/
def State.consumer (s : State) (q : Nat) : Option Nat :=
  (s.numberedOps.find? (fun o => o.2.inputs.any (fun p => p.2.queue == q))).map Prod.fst

/-! ### Descriptors in block memory (R126 to R128) -/

/-- A port entry as its word, and a word as a port entry (R128). -/
def portWord (p : PortDesc) : Nat := bitAt p.raw 16 + bitAt p.qop 15 + p.dir % 4 * 2 ^ 13 + p.queue % 2 ^ 13
def portOfWord (w : Nat) : PortDesc :=
  { raw := bitsOf w 16 16 == 1, qop := bitsOf w 15 15 == 1, dir := bitsOf w 14 13, queue := bitsOf w 12 0 }

/-- The 80 bytes of an operation descriptor (R127); a port entry that the image does not give is unused. -/
def opBytes (d : OpDesc) : List Byte :=
  leBytes 4 (d.prio % 8 * 2 ^ 29 + bitAt d.loop 28 + d.cell % 64 * 2 ^ 22 + d.entry % 2 ^ 14)
    ++ leBytes 4 (d.outFrame % 65536 * 65536 + d.inFrame % 65536) ++ leBytes 4 (d.params % 65536 * 65536 + d.state % 65536)
    ++ leBytes 4 0 ++ (List.range 16).flatMap (fun i => leBytes 4 (((d.ports[i]?).map portWord).getD 0))

/-- An operation as its descriptor bytes give it; the block it is placed in stays (R126). -/
def opReread (d : OpDesc) (bs : List Byte) : OpDesc :=
  let w0 := numAt bs 0 4
  let w1 := numAt bs 4 4
  let w2 := numAt bs 8 4
  { d with prio := bitsOf w0 31 29, loop := bitsOf w0 28 28 == 1, cell := 4 * (d.cell / 4) + bitsOf w0 23 22, entry := bitsOf w0 13 0
           outFrame := bitsOf w1 31 16, inFrame := bitsOf w1 15 0, params := bitsOf w2 31 16, state := bitsOf w2 15 0
           ports := (List.range 16).map (fun i => portOfWord (numAt bs (16 + 4 * i) 4)) }

/-- Where an operation's descriptor lies. -/
def opPlace (d : OpDesc) : Nat := blockMem (blockOfCell d.cell) + d.at_

/-- The descriptors of the image written to block memory, all or those of some operations. -/
def State.placeDescsIn (s : State) (f : OpDesc → Bool) : State := (s.ops.filter f).foldl (fun s d => s.ramWrite (opPlace d) (opBytes d)) s
def State.placeDescs (s : State) : State := s.placeDescsIn (fun _ => true)

/-- A byte of an operation descriptor. -/
def State.inDesc (s : State) (a : Nat) : Bool := s.ops.any (fun d => decide (opPlace d ≤ a ∧ a < opPlace d + 80))

/-- The operations whose descriptors lie in a range, as block memory gives them. -/
def State.rereadOps (s : State) (a n : Nat) : State :=
  { s with image := s.image.map (fun (i : Image) => { i with ops := i.ops.map (fun d =>
      if opPlace d < a + n ∧ a < opPlace d + 80 then opReread d (s.ramBytes (opPlace d) 80) else d) }) }

/-- Bytes written to memory from outside the cores: descriptors take a write in CONFIGURE alone (R126). -/
def State.descWrite (s : State) (a : Nat) (bs : List Byte) : State :=
  if !(List.range bs.length).any (fun i => s.inDesc (a + i)) then s.ramWrite a bs
  else if s.mode = .configure then (s.ramWrite a bs).rereadOps a bs.length
  else ((List.range bs.length).zip bs).foldl (fun s (e : Nat × Byte) => if s.inDesc (a + e.1) then s else s.ramWrite (a + e.1) [e.2]) s

/-! ### Tokens -/

/-- The payload of a hold of a queue (R133): the last payload that was no hold, zeros when there has been none. -/
def State.holdWords (s : State) (q : Nat) : List Word :=
  let g := (s.queue q).lastGood
  if g.isEmpty then List.replicate (((s.qdesc q).map QDesc.words).getD 0) 0#32 else g

/-- A hold token of a queue for a cycle. -/
def State.holdTok (s : State) (q : Nat) (cycle : Word) : Token := ⟨cycle, false, true, s.holdWords q⟩

/-- Late tokens leave the head of a queue (R138): those earlier than the consumer's next-cycle number. -/
def dropLate (next : Word) : List Token → Nat → List Token × Nat
  | [], n => ([], n)
  | t :: r, n => if cycLater next t.cycle then dropLate next r (n + 1) else (t :: r, n)

/-- The first cycle whose tokens an operation still wants: that of its run, where it runs, else its next-cycle number. -/
def State.wants (s : State) (k : Nat) : Word :=
  match (s.opDesc k).bind (fun d => (s.cell d.cell).run) with
  | some r => if r.job = .op k && cycLater (s.op k).next r.cycle then r.cycle else (s.op k).next
  | none => (s.op k).next

/-- The head of a queue cleared of late tokens; those of a cycle that still runs are not late. -/
def State.trim (s : State) (q : Nat) : State :=
  match s.consumer q with
  | none => s
  | some k =>
    let x := s.queue q
    let r := dropLate (s.wants k) x.toks 0
    if r.2 = 0 then s else s.setQueue q { x with toks := r.1, late := satAdd x.late r.2 255 }

/-- QFULL at L1 with the queue's home block as source (R142, R446). -/
def State.qfull (s : State) (q : Nat) : State := (s.incFld Reg.madEvtQfull).raise 0x20 1 2 (blockOfQueue q)

/-- The header word of a token after its cycle (R132). -/
def tokFlags (t : Token) : Nat := (if t.poison then 512 else 0) + (if t.hold then 256 else 0) + t.words.length

/-! ### Token storage (R130) -/

/-- The bytes of a slot: a descriptor, a record, or a token with its header. -/
def slotLen (d : QDesc) : Nat := match d.kind with | 4 => 32 | 5 => 16 | _ => 8 + 4 * d.words
/-- Where a slot of a queue lies. -/
def slotAt (d : QDesc) (i : Nat) : Nat := blockMem (blockOfQueue d.id) + d.base + i % max 1 d.depth * slotLen d
/-- A token as it lies in its slot (R132). -/
def tokBytes (t : Token) : List Byte := wordBytes t.cycle ++ wordBytes (BitVec.ofNat 32 (tokFlags t)) ++ t.words.flatMap wordBytes
/-- A slot filled. -/
def State.fillSlot (s : State) (d : QDesc) (i : Nat) (bs : List Byte) : State := s.ramWrite (slotAt d i) (bs.take (slotLen d))
/-- The slot that the head of a queue stands in. -/
def QueueSt.headSlot (x : QueueSt) (d : QDesc) : Nat := x.wr + d.depth - x.toks.length
/-- The words of a slot, as memory errors are kept. -/
def slotWords (d : QDesc) (i : Nat) : List Nat := eccWords (slotAt d i) (slotLen d)

/-- A token in the record format of R159. -/
def recBytes (q : Nat) (t : Token) : List Byte :=
  wordBytes t.cycle ++ wordBytes (BitVec.ofNat 32 q) ++ wordBytes (BitVec.ofNat 32 (tokFlags t)) ++ wordBytes 0#32
    ++ t.words.flatMap wordBytes

/-- A queue that Indigo taps (IND_TAP). -/
def State.tapped (s : State) (q : Nat) : Bool :=
  (List.range 64).any (fun i =>
    let x := (s.reg (0x600100 + 4 * i)).toNat
    decide (bitsOf x 31 31 = 1 ∧ bitsOf x 12 0 ≤ q ∧ q ≤ bitsOf x 25 13))

/-- A token that entered a queue, seen by those who watch it: the snapshot and the digest, the twin (R427), Indigo. -/
def State.noteToken (s : State) (d : QDesc) (t : Token) : State :=
  let r : TokenRec := ⟨d.id, t⟩
  let s := if d.kind = 1 then { s with mad := { s.mad with samples := s.mad.samples ++ [r] } } else s
  let s := if d.kind = 2 then { s with mad := { s.mad with sinks := s.mad.sinks ++ [r] } } else s
  let s := if d.kind = 1 && decide (s.lsp.role = .active) && s.lsp.linkUp then s.sendTwin 2 t.cycle (recBytes d.id t) else s
  if s.isA then { s with ind := { s.ind with toks := s.ind.toks ++ [r] } } else s

/-- A command token that comes after its launch (R39). -/
def QueueSt.tooLate (x : QueueSt) (t : Token) : Bool :=
  match x.done with
  | some c => cycGe c t.cycle
  | none => false

/-- A token appended to a queue (R130, R132, R133, R142), in its storage too: a poisoned token becomes a hold (R29), with the last payload
that was none; one that is a hold already, from a record or the mirror, has its words (R159, R427); a token that meets a full queue is dropped, and QFULL is raised. A command token that comes after
its launch is discarded (R39, R138), and so is a token for a block that is held in reset (R29). -/
def State.push (s : State) (q : Nat) (t : Token) : State :=
  match s.qdesc q with
  | none => s
  | some d =>
    let x := s.queue q
    if s.blockDown (blockOfQueue q) then s
    else if x.tooLate t then s.setQueue q { x with late := satAdd x.late 1 255 }
    else if x.toks.length ≥ d.depth then
      (s.setQueue q { x with refused := satAdd x.refused 1 255 }).qfull q
    else
      let hold := t.hold || t.poison
      let t' : Token := if t.poison && !t.hold then { t with hold := true, words := s.holdWords q } else t
      let s := s.setQueue q { x with toks := x.toks ++ [t'], wr := (x.wr + 1) % max 1 d.depth
                                     lastGood := if hold then x.lastGood else t.words }
      ((s.fillSlot d x.wr (tokBytes t')).noteToken d t').trim q

/-- A hold appended to a queue. -/
def State.pushHold (s : State) (q : Nat) (cycle : Word) : State := s.push q (s.holdTok q cycle)

/-- An operation tagged LOOP reads or writes the queue: its tokens are loop traffic (R33). -/
def State.loopQueue (s : State) (q : Nat) : Bool := s.ops.any (fun d => d.loop && d.ports.any (fun p => p.dir != 0 && p.queue == q))

/-- The token of a SOURCE queue from its unit, which sends it by its port (R23, R141): `none` is a hold. -/
def State.pushSource (s : State) (u : FabPort) (q : Nat) (cycle : Word) (w : Option (List Word)) : State :=
  let s := s.sourceTurn u q (s.loopQueue q)
  match w with
  | none => s.pushHold q cycle
  | some ws => s.push q ⟨cycle, false, false, ws⟩

/-- Units feed the graphs: these fire, from live samples (R159, R433, R496). -/
def State.liveSources (s : State) : Bool := s.graphsFire && !s.mad.replay.running && decide (s.mode ≠ .standby)

/-- The token of a SOURCE queue from its unit, where the units feed the graphs; elsewhere it is discarded. -/
def State.liveSource (s : State) (u : FabPort) (q : Nat) (cycle : Word) (w : Option (List Word)) : State :=
  if s.liveSources then s.pushSource u q cycle w else s

/-- The head token of a queue, as it is read from its slot: one with an uncorrectable error is poisoned, and a hold (R29, R130). -/
def State.headTok (s : State) (q : Nat) : Option Token :=
  match (s.queue q).toks.head?, s.qdesc q with
  | some t, some d =>
    let ws := slotWords d ((s.queue q).headSlot d)
    if s.flip2.any (fun a => ws.contains a) then some { t with poison := true, hold := true, words := s.holdWords q } else some t
  | t, _ => t

/-- Single-bit errors in the slot of a head token corrected and counted (R55). -/
def State.correctHead (s : State) (q : Nat) : State :=
  match s.qdesc q with
  | some d => if (s.queue q).toks.isEmpty then s else s.correct (slotWords d ((s.queue q).headSlot d))
  | none => s

/-- The tokens of a queue laid out afresh in its storage, from the first slot on. -/
def State.layQueue (s : State) (d : QDesc) : State :=
  let x := s.queue d.id
  let s := ((List.range x.toks.length).zip x.toks).foldl (fun s (e : Nat × Token) => s.fillSlot d e.1 (tokBytes e.2)) s
  s.setQueue d.id { x with wr := x.toks.length % max 1 d.depth }

/-- The token of a cycle anywhere in a queue. -/
def State.tokOf (s : State) (q : Nat) (cycle : Word) : Option Token :=
  (s.queue q).toks.find? (fun t => decide (t.cycle = cycle))

/-- The tokens of one cycle removed; those before them, of a cycle that still runs, stay. -/
def State.popCycle (s : State) (q : Nat) (cycle : Word) : State :=
  let x := s.queue q
  let early := x.toks.takeWhile (fun t => cycLater cycle t.cycle)
  s.setQueue q { x with toks := early ++ (x.toks.drop early.length).dropWhile (fun t => decide (t.cycle = cycle)) }

/-- The head tokens up to a cycle removed. -/
def State.popUpTo (s : State) (q : Nat) (cycle : Word) : State :=
  let x := s.queue q
  s.setQueue q { x with toks := x.toks.dropWhile (fun t => cycGe cycle t.cycle) }

/-! ### The firing rule -/

/-- Every input queue carries the operation's cycle at its head (R135). -/
def State.inputsReady (s : State) (d : OpDesc) (c : Word) : Bool :=
  d.inputs.all (fun p => match s.headTok p.2.queue with | some t => decide (t.cycle = c) | none => false)

/-- Every output queue has a free place (R135). -/
def State.outputsFree (s : State) (d : OpDesc) : Bool :=
  d.outputs.all (fun p => match s.qdesc p.2.queue with
    | some q => decide ((s.queue p.2.queue).toks.length < q.depth)
    | none => true)

/-- The operation runs on its cell, or stands in its prefetch slot. -/
def State.opRuns (s : State) (k : Nat) (d : OpDesc) : Bool :=
  match (s.cell d.cell).run with
  | some r => decide (r.job = .op k)
  | none => false
def State.opSlotted (s : State) (k : Nat) (d : OpDesc) : Bool :=
  match (s.cell d.cell).slot with
  | some r => decide (r.job = .op k)
  | none => false

/-- The firing rule (R135). -/
def State.opReady (s : State) (k : Nat) (d : OpDesc) : Bool :=
  let c := (s.op k).next
  s.graphsFire && !(s.cell d.cell).inReset && s.inputsReady d c && s.outputsFree d && !s.opRuns k d && !s.opSlotted k d
    && cycGe s.madCycle (c - 1#32)

/-- One operation's readiness noted: the order in which it became ready (R146), and a refusal with QFULL once per operation
and cycle when only an output queue stands in its way (R142). -/
def State.noteOp (s : State) (e : Nat × OpDesc) : State :=
  let k := e.1
  let d := e.2
  let o := s.op k
  if s.opReady k d then
    match o.stamp with
    | some _ => s
    | none => s.setOp k { o with stamp := some s.mad.stamp }
  else
    let s := if o.stamp.isSome && !s.opSlotted k d then s.setOp k { o with stamp := none } else s
    if s.graphsFire && s.inputsReady d o.next && !s.outputsFree d && !s.opRuns k d
        && decide (o.qfullAt ≠ some o.next) then
      let q := ((d.outputs.find? (fun p => match s.qdesc p.2.queue with
        | some x => decide ((s.queue p.2.queue).toks.length ≥ x.depth) | none => false)).map (fun p => p.2.queue)).getD 0
      let s := s.setOp k { s.op k with qfullAt := some o.next }
      let x := s.queue q
      (s.setQueue q { x with refused := satAdd x.refused 1 255 }).qfull q
    else s

/-- The readiness of every operation noted; those that become ready together share one stamp. -/
def State.note (s : State) : State :=
  let s := s.numberedOps.foldl State.noteOp s
  { s with mad := { s.mad with stamp := s.mad.stamp + 1 } }

/-! ### Starting a job -/

/-- Words copied into X (R129), wrapping at its end (log entry 218). -/
def State.copyIn (s : State) (cell : Nat) (at_ : Nat) : List Word → State
  | [] => s
  | w :: r => State.copyIn (s.ramSetWord (xAddr cell (at_ % 16384)) w) cell (at_ + 1) r

/-- The framed inputs copied into X from in_frame, in ascending port number (R129). -/
def State.copyInputs (s : State) (d : OpDesc) : State :=
  let ws := (d.inputs.filter (fun p => !p.2.qop)).flatMap (fun p => ((s.headTok p.2.queue).map Token.words).getD [])
  s.copyIn d.cell d.inFrame ws

/-- The registers of a cell at the start of a job (R48); the check values stay (R87). -/
def CellSt.cleared (c : CellSt) (entry p0 p1 p2 p3 : Nat) (r : RunCtx) : CellSt :=
  { c with f := [], m := [], c := [], cc := {}, rrb := 0#5, loops := [], shadow := none, run := some r
           pc := BitVec.ofNat 14 entry
           p := [(0, p0), (1, p1), (2, p2), (3, p3)].foldl (fun t e => Tab.put 0#16 t e.1 (BitVec.ofNat 16 e.2)) [] }

/-- A job starts on a cell (R48, R129). -/
def State.start (s : State) (n : Nat) (j : Job) : State :=
  match j with
  | .op k =>
    match s.opDesc k with
    | none => s
    | some d =>
      let s := d.inputs.foldl (fun s p => (s.crossTurn (blockOfCell d.cell) p.2.queue d.loop).correctHead p.2.queue) (s.cellTurn n)
      let s := s.copyInputs d
      let s := s.setCell n ((s.cell n).cleared d.entry d.inFrame d.outFrame d.state d.params
        { job := j, cycle := (s.op k).next
          ins := d.inputs.filterMap (fun p => (s.headTok p.2.queue).map (fun t => (p.2.queue, t))) })
      s.setOp k { s.op k with stamp := none }
  | .item w =>
    s.setCell n ((s.cell n).cleared w.entry w.p0.toNat w.p1.toNat w.p2.toNat w.p3.toNat { job := j, cycle := 0#32 })

/-- An idle cell takes the job of its prefetch slot (R148). -/
def State.takeSlot (s : State) (n : Nat) : State :=
  let c := s.cell n
  match c.run, c.slot with
  | none, some r => (s.setCell n { c with slot := none }).start n r.job
  | _, _ => s

/-! ### Ending a job -/

/-- The token of a queue the operation began with. -/
def RunCtx.tok (r : RunCtx) (q : Nat) : Option Token := (r.ins.find? (fun e => e.1 == q)).map Prod.snd

/-- What a cell puts out, a hold or words: as computed, free where its outputs are undefined (R45). -/
def State.outOf (s : State) (cell len : Nat) (w : Option (List Word)) : State × Option (List Word) :=
  if s.cellUndef cell then (s.drewN (len + 1), if Config.freeBool s.freeCtr then none else some (s.drew.freeWords len)) else (s, w)

/-- One output token of an operation (R136): `none` stands for a hold. It goes from the cell's block to the queue's (R23). Nothing is
appended when the operation is late (R140). -/
def State.pushOut (s : State) (d : OpDesc) (c : Word) (q : Nat) (w : Option (List Word)) (poison : Bool) : State :=
  let lag := ((s.qdesc q).map QDesc.lag).getD 0
  let cy := c + BitVec.ofNat 32 lag
  let s := s.crossTurn (blockOfCell d.cell) q d.loop
  match w with
  | none => s.pushHold q cy
  | some ws => s.push q ⟨cy, poison, false, ws⟩

/-- The output guard on one word (R82): a non-finite word is replaced by the word a hold of the queue carries there. -/
def guardWords (ws hold : List Word) : List Word × Bool :=
  match ws with
  | [] => ([], false)
  | w :: r =>
    let g := guardWords r hold.tail
    if Fp.nonFinite w then ((hold.head?).getD 0#32 :: g.1, true) else (w :: g.1, g.2)

/-- The inputs of an operation removed and its next-cycle number advanced past cycle `c` (R136, R139). -/
def State.retireInputs (s : State) (k : Nat) (d : OpDesc) (c : Word) : State :=
  let s := d.inputs.foldl (fun s p => s.popUpTo p.2.queue c) s
  let o := s.op k
  let s := if cycGe c o.next then s.setOp k { o with next := c + 1#32 } else s
  d.inputs.foldl (fun s p => s.trim p.2.queue) s

/-- An operation that was late has ended (R140). -/
def State.countLate (s : State) (r : RunCtx) : State := if r.late then s.incFld Reg.madEvtLateOps else s

/-- The job of a cell is over: what it gave went through the block's arbiter (R32), the cell is free and takes the job of its prefetch slot (R49, R89). -/
def State.freeCell (s : State) (n : Nat) : State :=
  ((s.setCell n { s.cell n with run := none, loops := [], shadow := none }).cellTurn n).takeSlot n

/-- The 16 bytes of a completion record (R145). -/
def ComplRec.bytes (r : ComplRec) : List Byte :=
  [BitVec.ofNat 8 r.status, BitVec.ofNat 8 r.fault] ++ leBytes 2 r.tag ++ wordBytes r.issued ++ wordBytes r.tEnd ++ leBytes 4 (r.cell % 64)

/-- The records of a channel as its COMPLETION queue's slots hold them (R130); `n` of them are new. -/
def State.layCompl (s : State) (ch n : Nat) : State :=
  let c := s.chan ch
  let s := s.setChan ch { c with complWr := c.complWr + n }
  match ((s.wic ch).bind WicDesc.complQ).bind s.qdesc with
  | none => s
  | some d => ((List.range c.compl.length).zip c.compl).foldl (fun s (e : Nat × ComplRec) =>
      s.fillSlot d (c.complWr + n + e.1 - c.compl.length) e.2.bytes) s

/-- The COMPLETION queue of a channel lies in a block that is held in reset, which discards records (R29). -/
def State.recordsDown (s : State) (ch : Nat) : Bool :=
  match (s.wic ch).bind WicDesc.complQ with
  | some q => s.blockDown (blockOfQueue q)
  | none => false

/-- A completion record appended to a channel (R145), however many it holds (log entry 185). -/
def State.complete (s : State) (w : WorkItem) (fault status issued cell : Nat) : State :=
  let c := s.chan w.ch
  if s.recordsDown w.ch then s
  else (s.setChan w.ch { c with compl := c.compl ++ [⟨w.tag, fault, status, BitVec.ofNat 32 issued, s.nowNs, cell⟩] }).layCompl w.ch 1

/-- The region whose delay list a channel uses (R151). -/
def State.wicRegion (s : State) (ch : Nat) : Nat := ((s.wic ch).map (fun d => d.home / 4)).getD 0

/-- A delay list. -/
def State.delay (s : State) (r : Nat) : DelaySt := Tab.get {} s.mad.delay r
def State.setDelay (s : State) (r : Nat) (x : DelaySt) : State :=
  { s with mad := { s.mad with delay := Tab.put {} s.mad.delay r x } }

/-- An entry placed in a delay list, after the entries of equal expiry (R151). -/
def insertByExpiry (w : WorkItem) : List WorkItem → List WorkItem
  | [] => [w]
  | x :: r => if w.expiry < x.expiry then w :: x :: r else x :: insertByExpiry w r

/-- An entry inserted into its region's delay list; the second part tells whether there was room. A region held in reset discards the
entry (R29). -/
def State.delayInsert (s : State) (w : WorkItem) : State × Bool :=
  let r := s.wicRegion w.ch
  let x := s.delay r
  if s.regionDown r then (s, true)
  else if x.ents.length ≥ 1024 then (s, false)
  else
    let es := insertByExpiry w x.ents
    (s.setDelay r { ents := es, high := max x.high es.length }, true)

/-- A work item that becomes ready waits at the tail of its channel's priority level (R149, R163); a channel whose home block is held in
reset discards it (R29). -/
def State.enqueue (s : State) (w : WorkItem) : State :=
  if s.blockDown (((s.wic w.ch).map WicDesc.home).getD 0) then s
  else
    { s with mad := { s.mad with waiting := s.mad.waiting ++ [⟨.item w, (s.chan w.ch).prio, s.mad.stamp⟩]
                                 stamp := s.mad.stamp + 1 } }

/-- A work item ends on a cell, completed or abandoned with a fault code: one that completes is re-armed when it is periodic (R151), and
its record is written (R145). A re-arm that finds the delay list full is dropped, and the record carries BUSY. -/
def State.endItem (s : State) (n : Nat) (w : WorkItem) (ctx : RunCtx) (fault : Nat) : State :=
  let r := if w.period = 0 || fault ≠ 0 then (s, true) else s.delayInsert { w with expiry := w.expiry + w.period }
  let status := if ctx.status = 0 && !r.2 then 1 else ctx.status
  (r.1.complete w fault status ctx.issued n).freeCell n

/-- The operation of a cell is abandoned (R89, R136): holds go out, unless it is late already. -/
def State.abandon (s : State) (n : Nat) (code : Nat) : State :=
  match (s.cell n).run with
  | none => s
  | some ctx =>
    match ctx.job with
    | .item w => s.endItem n w ctx code
    | .op k =>
      match s.opDesc k with
      | none => s.freeCell n
      | some d =>
        let s := if ctx.late then s else d.outputs.foldl (fun s p => s.pushOut d ctx.cycle p.2.queue none false) s
        (((s.countLate ctx).retireInputs k d ctx.cycle).freeCell n).note

/-- A cell fault (R88, R90): its bit of CELL_FAULT, the code and place of the first, and the raising at L0. -/
def State.cellFault (s : State) (n code pc : Nat) : State :=
  let b := cellRegs n
  let first := bitsOf (s.reg (b + 8)).toNat 5 0 == 0
  let bitFld : Fld := match code with
    | 1 => Reg.cellFaultEcc | 2 => Reg.cellFaultIllegal | 3 => Reg.cellFaultLoopnest
    | 4 => Reg.cellFaultBounds | 5 => Reg.cellFaultRunaway | _ => Reg.cellFaultNonfinite
  let s := if first then (s.setFld Reg.cellFaultFirstCode code b).setFld Reg.cellFaultPcPc pc b else s
  (s.setFld bitFld 1 b).raise code 0 1 n

/-- The words of Y that an output token takes, by BAR0 offset; their values, and whether one was poisoned. -/
def yAddrs (cell at_ n : Nat) : List Nat := (List.range n).map (fun i => yAddr cell ((at_ + i) % 16384))
def State.yWords (s : State) (cell at_ : Nat) (n : Nat) : List Word × Bool :=
  ((yAddrs cell at_ n).map s.memWord, (yAddrs cell at_ n).any (fun a => s.flip2.contains a))

/-- The words of a token that queue operations wrote, made up to the token's length: a word no instruction wrote is open
(log entry 21), and words beyond the length are no part of the token. -/
def State.padWords (s : State) (ws : List Word) (len : Nat) : List Word × State :=
  if ws.length ≥ len then (ws.take len, s)
  else
    let k := len - ws.length
    (ws ++ (List.range k).map (fun i => Config.freeWord (s.freeCtr + i)), { s with freeCtr := s.freeCtr + k })

/-- One output port at END: its token, whether the guard replaced a word, whether a word was poisoned, and the Y word
address of the next framed port (R82, R129). -/
def State.endPort (s : State) (d : OpDesc) (ctx : RunCtx) (p : Nat × PortDesc) (at_ : Nat) :
    State × Nat × Bool × Bool :=
  let q := p.2.queue
  let len := ((s.qdesc q).map QDesc.words).getD 0
  if p.2.qop then
    let r := s.padWords (Tab.get [] ctx.outs p.1) len
    let s := r.2
    let o := s.outOf d.cell len (if ctx.holds.contains p.1 then none else some r.1)
    (if ctx.late then s else o.1.pushOut d ctx.cycle q o.2 false, at_, false, false)
  else
    let y := s.yWords d.cell at_ len
    let s := s.correct (yAddrs d.cell at_ len)
    let g := if p.2.raw then (y.1, false) else guardWords y.1 (s.holdWords q)
    let o := s.outOf d.cell len (some g.1)
    (if ctx.late then s else o.1.pushOut d ctx.cycle q o.2 y.2, at_ + len, g.2, y.2)

/-- Every output port at END, in ascending port number. -/
def State.endPorts (s : State) (d : OpDesc) (ctx : RunCtx) : List (Nat × PortDesc) → Nat → State × Bool × Bool
  | [], _ => (s, false, false)
  | p :: r, at_ =>
    let x := s.endPort d ctx p at_
    let y := State.endPorts x.1 d ctx r x.2.1
    (y.1, x.2.2.1 || y.2.1, x.2.2.2 || y.2.2)

/-- A graph operation of the cell's own code ends (R49, R82, R129, R136). -/
def State.endCustom (s : State) (n k : Nat) (d : OpDesc) (ctx : RunCtx) (pc : Nat) : State :=
  let r := s.endPorts d ctx d.outputs d.outFrame
  let code := if r.2.2 then 1 else if r.2.1 then 6 else 0
  let s := if code ≠ 0 && !ctx.nonfinite then r.1.cellFault n code pc else r.1
  (((s.countLate ctx).retireInputs k d ctx.cycle).freeCell n).note

end Sys2Proof.Machine
end

