-- ==== Sys2Proof/Machine/KBase.lean ====
section
/-! DEFINITION. What the two standard kernels share: the parameter words of an axis (R207, R235), named constants of their
laws (R107, R177), the sample, reference and command records (R169, R170, R211, R226).
Log: DEDUCED 39. -/

namespace Sys2Proof.Machine

/-! ### Axes -/

/-- A parameter word of an axis as an FP32 word, in which a subnormal counts as a zero (R537). -/
def AxisSt.pw (x : AxisSt) (k : Nat) : Word := Fp.canon (Tab.get 0#32 x.params k)

/-- The fields of kind (R207): bridge, shunt, src, chopper. -/
def AxisSt.bridge (x : AxisSt) : Nat := bitsOf (x.raw 0) 1 0
def AxisSt.shunt (x : AxisSt) : Nat := bitsOf (x.raw 0) 3 2
def AxisSt.src (x : AxisSt) : Nat := bitsOf (x.raw 0) 5 4
def AxisSt.chopper (x : AxisSt) : Bool := bitsOf (x.raw 0) 6 6 == 1
def AxisSt.stepper (x : AxisSt) : Bool := x.bridge == 2
def AxisSt.isLocal (x : AxisSt) : Bool := x.bridge == 1 || x.bridge == 2
/-- The fields of react (R207). -/
def AxisSt.faultSafe (x : AxisSt) : Bool := bitsOf (x.raw 49) 0 0 == 1
def AxisSt.decelEnd (x : AxisSt) : Bool := bitsOf (x.raw 49) 1 1 == 1
def AxisSt.lrCurrent (x : AxisSt) : Bool := bitsOf (x.raw 49) 2 2 == 1
/-- The pole pairs and encoder counts as FP32 (R177). -/
def AxisSt.pp (x : AxisSt) : Word := Fp.ofInt (x.raw 1 : Int)
def AxisSt.encCounts (x : AxisSt) : Nat := x.raw 2
/-- An integer count held in an FP32 word. -/
def AxisSt.counts (x : AxisSt) (k : Nat) : Int := Fp.toInt32 (x.pw k)

/-- The field-oriented modes. -/
def AxMode.foc : AxMode → Bool
  | .current | .velocity | .position | .decel => true
  | _ => false

/-- T of the loaded image (R177): the FP32 value of 1/f. -/
def State.kT (s : State) : Word := Fp.div Fp.one (Fp.ofInt (((s.image.map Image.f).getD 0 : Nat) : Int))

/-- An axis of Woad, and its two outputs to K_INNER (R405, R407): the energise permission and the stop request, each the
decision of both channels. -/
def State.woadAx (s : State) (a : Nat) : WoadAx := Tab.get {} s.woad.axes a
/-- Permissions may be given at all (R405, R415). -/
def State.sfPermit (s : State) : Bool := s.woad.locked || decide (s.mode = .commission)
def State.energise (s : State) (a : Nat) : Bool :=
  let w := s.woadAx a
  w.a.energise && w.b.energise && !s.woad.internal && s.sfPermit
def State.stopReq (s : State) (a : Nat) : Bool :=
  let w := s.woadAx a
  w.a.stop || w.b.stop

/-- The stop request as K_INNER sees it: one set in a cycle is taken in the next (R407). -/
def State.stopTaken (s : State) (a : Nat) : Bool := (s.woadAx a).stopAsked

/-! ### Constants of R177: decimal constants as FP32 words -/

/-- A decimal constant `n / d` as its FP32 value. -/
def Fp.dec (n : Int) (d : Nat) : Word := Fp.round n d false
/-- π/3 and π/6 as one rounded quotient of the constant π. -/
def Fp.kPi3 : Word := Fp.div Fp.kPi (Fp.dec 3 1)
def Fp.kPi6 : Word := Fp.div Fp.kPi (Fp.dec 6 1)
def Fp.k65535 : Word := Fp.dec 65535 1

/-! ### Records -/

/-- The sample record (R169). -/
structure Sample where
  s0 : Int
  s1 : Int
  s2 : Int
  vbus : Nat
  pos : Word
  ev : Nat
  hall : Nat
  flags : Nat
deriving DecidableEq, Repr

/-- The halves of a word. -/
def loHalf (w : Word) : BitVec 16 := w.setWidth 16
def hiHalf (w : Word) : BitVec 16 := w.extractLsb' 16 16

/-- Reading a sample record. -/
def Sample.of (ws : List Word) : Sample :=
  let w3 := (wordAt ws 3).toNat
  { s0 := (loHalf (wordAt ws 0)).toInt, s1 := (hiHalf (wordAt ws 0)).toInt, s2 := (loHalf (wordAt ws 1)).toInt
    vbus := (hiHalf (wordAt ws 1)).toNat, pos := wordAt ws 2
    ev := bitsOf w3 23 16, hall := bitsOf w3 15 13, flags := bitsOf w3 7 0 }

/-- The command record of a three-phase axis (R170). -/
structure CmdRec where
  onA : Nat := 0
  onB : Nat := 0
  onC : Nat := 0
  chop : Nat := 0
  step : Nat := 0
  mask : Bool := false
  safe : Bool := false
  enable : Bool := false
  float : Nat := 0
  rise : Nat := 0
deriving DecidableEq, Repr

/-- The words of a command record. -/
def CmdRec.words (c : CmdRec) : List Word :=
  [BitVec.ofNat 32 (c.onB * 65536 + c.onA), BitVec.ofNat 32 (c.chop * 65536 + c.onC),
   BitVec.ofNat 32 (c.step * 4096 + bitN c.mask * 2048 + bitN c.safe * 1024 + bitN c.enable * 512 + c.float * 64 + c.rise)]

/-- The command record of a stepper axis (R226). -/
def stepperWords (refA refB : Int) (safe enable : Bool) : List Word :=
  [(BitVec.ofInt 16 refB) ++ (BitVec.ofInt 16 refA), 0#32, BitVec.ofNat 32 (bitN safe * 1024 + bitN enable * 512)]

/-- A token that carries a value for this cycle. -/
def tokFresh (t : Token) : Bool := !t.hold && !t.poison

/-- The default microstep table (R225). -/
def msDefault (k : Nat) : BitVec 16 :=
  let s := (Trig.sinCos (Trig.pi * k / 512)).1 * 65535
  BitVec.ofInt 16 ((2 * s + Trig.unit) / (2 * Trig.unit))

/-- A microstep table entry as an integer; entry 256 counts as 65,535 (R224). -/
def AxisSt.msEntry (x : AxisSt) (k : Nat) : Int :=
  if k ≥ 256 then 65535 else (((Tab.find x.ms k).getD (msDefault k)).toNat : Int)

end Sys2Proof.Machine
end

