-- ==== Sys2Proof/Machine/KOuter.lean ====
section
/-! DEFINITION. K_OUTER (R209 to R234): position, profile generator, velocity and position laws, repetitive controller,
supervisor and stepper amplitude of one axis, one cycle.
Log: DEDUCED 41, 44, 46, 48, 70, 136. DESIGN CHOICE 42, 43, 47. -/

namespace Sys2Proof.Machine

/-- What one step reads besides the axis: the cycle, T, the feedback token and the target mailbox's token. -/
structure OutIn where
  n : Word
  t : Word
  fb : Token
  tgt : Option Token
deriving DecidableEq, Repr

/-- What one step gives: the axis, its reference token's words, the Foxglove classes raised (R234). -/
structure OutOut where
  x : AxisSt
  ref : List Word
  raises : List Nat
deriving DecidableEq, Repr

/-- Counts per revolution (R212). -/
def AxisSt.cRev (x : AxisSt) : Nat := if x.stepper then 256 * x.raw 88 else x.encCounts
/-- Counts per radian: `kcFormed` is the value formed at each entry into RUN, and `kc` the one every step of that RUN takes (R212). -/
def AxisSt.kcFormed (x : AxisSt) : Word := Fp.mul (Fp.ofInt (x.cRev : Int)) Fp.kInv2Pi
def AxisSt.kc (x : AxisSt) : Word := x.o.kc

/-- The fields of octl (R235). -/
def AxisSt.ffEn (x : AxisSt) : Bool := bitsOf (x.raw 64) 0 0 == 1
def AxisSt.rcAngle (x : AxisSt) : Bool := bitsOf (x.raw 64) 2 2 == 1
def AxisSt.supReact (x : AxisSt) : Nat := bitsOf (x.raw 64) 4 3
def AxisSt.supEn (x : AxisSt) : Bool := bitsOf (x.raw 64) 5 5 == 1

/-- The axis with its profile or outer state changed. -/
def AxisSt.setProf (x : AxisSt) (p : AxProf) : AxisSt := { x with o := { x.o with prof := p } }

/-! ### Position (R213) -/

def AxisSt.trackPos (x : AxisSt) (t pos : Word) (hold : Bool) : AxisSt :=
  if x.stepper then x
  else
    match x.o.pos with
    | none => if hold then x else { x with o := { x.o with p := pos.setWidth 64, pos := some pos } }
    | some q =>
      if hold then
        { x with o := { x.o with p := x.o.p + BitVec.ofInt 64 (Fp.toInt32 (Fp.rnd (Fp.mul (Fp.mul x.o.wm t) x.kc))) } }
      else
        let d := (pos - q).toInt
        let d := if 2 * d > x.cRev then d - x.cRev else if 2 * d < -(x.cRev : Int) then d + x.cRev else d
        { x with o := { x.o with p := x.o.p + BitVec.ofInt 64 d, pos := some pos } }

/-! ### The repetitive controller (R228 to R230) -/

/-- The table index of a cycle (R228). -/
def AxisSt.rcIndex (x : AxisSt) (n : Word) : Nat :=
  if x.rcAngle then (x.raw 75 * (x.o.p.toInt % (x.cRev : Int)).toNat) / x.cRev
  else (n - x.o.rc.n0).toNat % x.raw 75

/-- rc(n) (R228). -/
def AxisSt.rcOut (x : AxisSt) (n : Word) (m : AxMode) : Word :=
  if x.rcEn && !x.stepper && (m = .velocity || m = .position) then
    Tab.get 0#32 x.o.rc.tab ((x.rcIndex n + x.raw 76) % x.raw 75)
  else 0#32

/-- Learning and the divergence test (R229, R230): the axis and whether RC_DIVERGE is raised. -/
def AxisSt.rcLearn (x : AxisSt) (n eW : Word) (hold pinned : Bool) : AxisSt × Bool :=
  let rc := x.o.rc
  let k := x.rcIndex n
  if rc.st ≠ .learn then ({ x with o := { x.o with rc := { rc with kLast := k } } }, false)
  else
    let ended := k = 0 && rc.kLast ≠ 0
    let grown := match rc.last with
      | some e => Fp.gt rc.sum (Fp.mul (Fp.dec 125 100) e)
      | none => false
    let grow := if ended then (if grown then rc.grow + 1 else 0) else rc.grow
    let div := ended && grow ≥ 3
    let sum := Fp.add (if ended then 0#32 else rc.sum) (Fp.mul eW eW)
    let u := Fp.sat (Fp.add (Fp.mul (x.pw 78) (Tab.get 0#32 rc.tab k)) (Fp.mul (x.pw 77) eW)) (x.pw 79)
    let tab := if hold || pinned || div then rc.tab else Tab.put 0#32 rc.tab k u
    ({ x with o := { x.o with rc := { rc with st := if div then .diverged else .learn, tab := tab, sum := sum, grow := grow
                                              last := if ended then some rc.sum else rc.last, kLast := k } } }, div)

/-! ### Presets and targets -/

/-- The presets of a hand-over cycle (R216), with the supervisor's (R232) and the stepper's idle count (R223). -/
def AxisSt.preset (x : AxisSt) (n wm iqr : Word) (m : AxMode) : AxisSt :=
  let pr := x.o.prof
  let v := Fp.mul wm x.kc
  let sup := { x.o.sup with wmP := wm, iqP := iqr, rf := 0#32, rs := 0#32 }
  let rest := { pr with pInt := x.o.p, pFrac := 0#32, v := v, a := 0#32, tgt := x.o.p }
  match m with
  | .velocity => { x with o := { x.o with prof := { pr with v := v, a := 0#32, vTgt := wm }, sup := sup
                                          xv := Fp.sub iqr (x.rcOut n m) } }
  | .position => { x with o := { x.o with prof := rest, sup := sup, xv := Fp.sub iqr (x.rcOut n m) } }
  | .decel => { x with o := { x.o with prof := rest, wr := wm, xv := iqr } }
  | .step => { x with o := { x.o with prof := { pr with pFrac := 0#32, v := 0#32, a := 0#32, tgt := pr.pInt }, idle := 0 } }
  | _ => x

/-- A delivered target (R220, R221). -/
def AxisSt.target (x : AxisSt) (m : AxMode) (ws : List Word) : AxisSt :=
  let kind := (wordAt ws 1).toNat % 4
  let pr := { x.o.prof with ovr := Fp.canon (wordAt ws 4) }
  let v : BitVec 64 := wordAt ws 3 ++ wordAt ws 2
  if kind ≤ 1 && (m = .position || m = .step) then
    x.setProf { pr with tgt := if kind = 0 then v else pr.tgt + v, kindPos := true }
  else if kind = 2 && (m = .velocity || m = .step) then
    x.setProf { pr with vTgt := Fp.canon (wordAt ws 2), kindPos := false }
  else { x with o := { x.o with tgtRefused := satAdd x.o.tgtRefused 1 255 } }

/-! ### The profile generator (R217) -/

/-- vbrk. -/
def vbrk (x al jl : Word) : Word :=
  let al3 := Fp.mul (Fp.mul al al) al
  let jl2 := Fp.mul jl jl
  if Fp.eq x 0#32 then 0#32
  else if Fp.ge x (Fp.div al3 jl2) then
    let r := Fp.sqrt (Fp.add (Fp.div (Fp.mul al3 al) jl2) (Fp.mul (Fp.mul (Fp.dec 8 1) al) x))
    Fp.mul (Fp.sub r (Fp.div (Fp.mul al al) jl)) Fp.half
  else Fp.exp2 (Fp.div (Fp.log2 (Fp.mul (Fp.mul x x) jl)) (Fp.dec 3 1))

/-- The part of a step after its target velocity is known. -/
def AxProf.move (p : AxProf) (t vt al jl jt : Word) : AxProf :=
  let dv := Fp.sub vt p.v
  let va := if Fp.le (Fp.abs dv) (Fp.mul jt t) && Fp.le (Fp.abs p.a) jt then (vt, 0#32)
    else
      let s := Fp.sub dv (Fp.div (Fp.mul p.a (Fp.abs p.a)) (Fp.mul Fp.two jl))
      let an := Fp.add p.a (Fp.sat (Fp.sub (Fp.mul (Fp.sign s) al) p.a) jt)
      (Fp.add p.v (Fp.mul (Fp.mul (Fp.add p.a an) Fp.half) t), an)
  let f := Fp.add p.pFrac (Fp.mul va.1 t)
  let k := Fp.rnd f
  { p with v := va.1, a := va.2, pInt := p.pInt + BitVec.ofInt 64 (Fp.toInt32 k), pFrac := Fp.sub f k, inPos := false }

/-- One step of the generator in sub-mode POS or VEL. -/
def AxisSt.profileStep (x : AxisSt) (t : Word) (pos : Bool) : AxisSt :=
  let p := { x.o.prof with sub := bitN pos }
  let vl := Fp.mul (Fp.mul (x.pw 70) x.kc) p.ovr
  let al := Fp.mul (x.pw 71) x.kc
  let jl := Fp.mul (x.pw 72) x.kc
  let jt := Fp.mul jl t
  if pos then
    let d := Fp.sub (Fp.ofInt (p.tgt.toInt - p.pInt.toInt)) p.pFrac
    if Fp.le (Fp.abs d) (Fp.ofInt (x.raw 74 : Int)) && Fp.le (Fp.abs p.v) (Fp.mul (x.pw 73) x.kc)
        && Fp.le (Fp.abs p.a) jt then
      x.setProf { p with pInt := p.tgt, pFrac := 0#32, v := 0#32, a := 0#32, inPos := true }
    else x.setProf (p.move t (Fp.mul (Fp.sign d) (Fp.min vl (vbrk (Fp.abs d) al jl))) al jl jt)
  else x.setProf (p.move t (Fp.sat (Fp.mul p.vTgt x.kc) vl) al jl jt)

/-! ### The laws -/

/-- The velocity law from e_w on (R214): iq_ref, and whether the reference was pinned. -/
def AxisSt.law (x : AxisSt) (eW ff rc iLim : Word) (skip : Bool) : AxisSt × Word × Bool :=
  let iq := Fp.add (Fp.add (Fp.add (Fp.mul (x.pw 65) eW) x.o.xv) ff) rc
  let pinned := Fp.ge (Fp.abs iq) iLim && decide (Fp.sign eW = Fp.sign iq)
  let xv := if skip || pinned then x.o.xv else Fp.sat (Fp.add x.o.xv (Fp.mul (x.pw 66) eW)) (x.pw 19)
  ({ x with o := { x.o with xv := xv } }, Fp.sat iq iLim, pinned)

/-- The supervisor on a cycle that is no hold (R232, R233): the axis, the classes raised, the request it makes. -/
def AxisSt.supervise (x : AxisSt) (t wm iq : Word) (m : AxMode) : AxisSt × List Nat × Nat :=
  if !x.supEn then (x, [], 0)
  else
    let s := x.o.sup
    let pred := Fp.add s.wmP (Fp.mul (Fp.div t (x.pw 80)) (Fp.sub (Fp.mul (x.pw 81) s.iqP) (Fp.mul (x.pw 82) s.wmP)))
    let r := Fp.sub wm pred
    let rf := Fp.add s.rf (Fp.mul (x.pw 83) (Fp.sub r s.rf))
    let rs := Fp.add s.rs (Fp.mul (Fp.mul (x.pw 83) (Fp.dec 1 64)) (Fp.sub r s.rs))
    let dev := Fp.abs (Fp.sub rf rs)
    let cnt := if Fp.gt dev (x.pw 85) then s.cnt + 1 else 0
    let pl := decide (cnt ≥ x.raw 86)
    let fo := m = .position && Fp.gt (Fp.abs x.o.eP) (Fp.ofInt (x.raw 87 : Int))
    let new := (if pl && !s.plausNow then [0x18] else []) ++ (if fo && !s.followNow then [0x19] else [])
    let req := if new.isEmpty then 0 else match x.supReact with | 1 => 8 + AxMode.decel.code | 2 => 8 + AxMode.off.code | _ => 0
    ({ x with o := { x.o with sup := { wmP := wm, iqP := iq, rf := rf, rs := rs, dev := dev, cnt := cnt
                                       warn := Fp.gt dev (x.pw 84), plausNow := pl, followNow := fo
                                       plaus := s.plaus || pl, follow := s.follow || fo } } }, new, req)

/-- The ramp of DECEL (R197, step 1). -/
def AxisSt.decelRamp (x : AxisSt) (t wm : Word) (busLim : Bool) : Word :=
  let d := Fp.mul (x.pw 29) t
  if busLim then wm
  else if Fp.gt x.o.wr 0#32 then Fp.max (Fp.sub x.o.wr d) 0#32
  else if Fp.lt x.o.wr 0#32 then Fp.min (Fp.add x.o.wr d) 0#32 else x.o.wr

/-- The stepper's amplitude (R223). -/
def AxisSt.amplitude (x : AxisSt) : AxisSt × Word :=
  let moving := !(Fp.eq x.o.prof.v 0#32 && Fp.eq x.o.prof.a 0#32)
  let k := if moving then 0 else x.o.idle + 1
  let run := x.pw 89
  let past := k - x.raw 91
  let amp := if past = 0 then run else if past ≥ 64 then x.pw 90
    else Fp.add run (Fp.mul (Fp.sub (x.pw 90) run) (Fp.mul (Fp.ofInt (past : Int)) (Fp.dec 1 64)))
  ({ x with o := { x.o with idle := k } }, amp)

/-- One step of K_OUTER for one axis. -/
def AxisSt.outer (x : AxisSt) (c : OutIn) : OutOut :=
  let w4 := (wordAt c.fb.words 4).toNat
  let marked := c.fb.hold || c.fb.poison
  let hold := marked || bitsOf w4 3 3 == 1
  let m := if marked then x.o.mode else AxMode.ofCode (bitsOf w4 2 0)
  let busLim := bitsOf w4 4 4 == 1
  let wm := if hold then x.o.wm else wordAt c.fb.words 1
  let iq := if hold then x.o.iq else wordAt c.fb.words 2
  let iLim := wordAt c.fb.words 3
  let x := x.trackPos c.t (wordAt c.fb.words 0) hold
  let x := if m = x.o.mode then x else x.preset c.n wm (wordAt c.fb.words 5) m
  let x := { x with o := { x.o with mode := m, wm := wm, iq := iq, sup := { x.o.sup with warn := false } } }
  let x := match c.tgt with
    | some k => if tokFresh k then x.target m k.words else x
    | none => x
  if x.stepper then
    let r := if m = .step then (x.profileStep c.t x.o.prof.kindPos).amplitude else (x, 0#32)
    let x := { r.1 with o := { r.1.o with p := r.1.o.prof.pInt } }
    { x := x, ref := [0#32, r.2, x.o.prof.pInt.setWidth 32, 0#32], raises := [] }
  else
    match m with
    | .velocity | .position =>
      let x := x.profileStep c.t (m = .position)
      let eP := if m = .position then Fp.add (Fp.ofInt (x.o.prof.pInt.toInt - x.o.p.toInt)) x.o.prof.pFrac else 0#32
      let x := { x with o := { x.o with eP := eP } }
      let wSet := Fp.div (Fp.add (Fp.mul (x.pw 68) eP) x.o.prof.v) x.kc
      let eW := Fp.sub wSet wm
      let ff := if x.ffEn then Fp.mul (x.pw 67) (Fp.div x.o.prof.a x.kc) else 0#32
      let l := x.law eW ff (x.rcOut c.n m) iLim hold
      let r := l.1.rcLearn c.n eW hold l.2.2
      let s := if hold then (r.1, [], 0) else r.1.supervise c.t wm iq m
      { x := s.1, ref := [l.2.1, x.pw 69, 0#32, BitVec.ofNat 32 s.2.2]
        raises := (if r.2 then [0x1A] else []) ++ s.2.1 }
    | .decel =>
      let x := { x with o := { x.o with wr := x.decelRamp c.t wm busLim } }
      let l := x.law (Fp.sub x.o.wr wm) 0#32 0#32 iLim (hold || busLim)
      let x := { l.1 with o := { l.1.o with eP := 0#32 } }.setProf { l.1.o.prof with pInt := l.1.o.p, pFrac := 0#32, a := 0#32, v := Fp.mul wm x.kc, tgt := l.1.o.p }
      { x := x, ref := [l.2.1, x.pw 69, 0#32, 0#32], raises := [] }
    | _ => { x := x, ref := [0#32, x.pw 69, 0#32, 0#32], raises := [] }

/-- The axis at entry into RUN (R182, R213, R219, R229, R497): every state block fresh, the axis in OFF; when RUN is entered from an
ARMED reached by REARM they stay as they stood, but that no position of before the entry forms a speed (R182). -/
def AxisSt.runEntry (x : AxisSt) (first : Word) (rearmed : Bool) : AxisSt :=
  if rearmed then { x with i := { x.i with posPrev := none, gap := 0 }, o := { x.o with kc := x.kcFormed } }
  else { params := x.params, ms := x.ms, since := first, i := { iLim := x.pw 19 }, o := { rc := { n0 := first }, kc := x.kcFormed } }

/-- The mode OFF, with its integrators at 0 (R174). -/
def AxisSt.toOff (x : AxisSt) (n : Word) : AxisSt :=
  { x with mode := .off, follow := .off, since := if x.mode = .off then x.since else n
           i := { x.i with xd := 0#32, xq := 0#32, iqr := 0#32, slow := 0 }
           trk := { x.trk with pol := 0, inj := false }, six := {} }

/-- AXIS_RESET at its apply cycle (R176, R205, R237). -/
def AxisSt.reset (x : AxisSt) (n : Word) : AxisSt :=
  let x := { x with faults := 0#7, reqRefused := false, refusals := 0, i := { x.i with holds := 0, uv := 0, lr := 0 } }
  let x := x.toOff n
  { x with o := { x.o with tgtRefused := 0, sup := { x.o.sup with plaus := false, follow := false }
                           prof := { x.o.prof with tgt := x.o.p } } }
/-- The axis forced into SAFE (R176). -/
def AxisSt.forceSafe (x : AxisSt) (n : Word) : AxisSt :=
  { x with mode := .safe, follow := .off, since := if x.mode = .safe then x.since else n
           i := { x.i with xd := 0#32, xq := 0#32, iqr := 0#32, slow := 0, lr := 0 }
           trk := { x.trk with pol := 0, inj := false }, six := {} }

/-- The axis status record (R206). -/
def AxisSt.statusRec (x : AxisSt) : List Word :=
  [BitVec.ofNat 32 (x.refusals * 2 ^ 24 + Nat.min x.i.holds 255 * 2 ^ 16 + (bitN x.reqRefused * 128 + x.faults.toNat) * 256
     + x.i.angle * 64 + x.follow.code * 8 + x.mode.code), x.since, x.i.iq, x.i.wm]

/-- The motion status record (R237). -/
def AxisSt.motionRec (x : AxisSt) : List Word :=
  let p := x.o.prof
  let moving := !(Fp.eq p.v 0#32 && Fp.eq p.a 0#32)
  let feed := Fp.eq p.ovr 0#32 && !moving
  let rc := match x.o.rc.st with | .frozen => 0 | .learn => 1 | .diverged => 2
  [BitVec.ofNat 32 (x.o.tgtRefused * 2 ^ 24 + rc * 256 + bitN feed * 128 + bitN x.o.sup.follow * 64 + bitN x.o.sup.plaus * 32
     + bitN x.o.sup.warn * 16 + p.sub * 4 + bitN moving * 2 + bitN p.inPos), x.o.eP, Fp.div p.v x.kc, x.o.sup.dev]

end Sys2Proof.Machine
end

