-- ==== Sys2Proof/Machine/RingState.lean ====
section
/-! DEFINITION. A ring port's state (R241, R268): what the rows of the rings and the reactions to faults share.
Log: DEDUCED 209. -/

namespace Sys2Proof.Machine

/-- A ring port. -/
def State.ringSt (s : State) (r : Nat) : RingSt := Tab.get {} s.rings r
def State.setRing (s : State) (r : Nat) (x : RingSt) : State := { s with rings := Tab.put {} s.rings r x }

/-- The port states (R268). -/
inductive XwState where
  | off | link | lone | discover | intact | healed | bypass | pass
deriving DecidableEq, Repr

def XwState.code : XwState → Nat
  | .off => 0 | .link => 1 | .lone => 2 | .discover => 3 | .intact => 4 | .healed => 5 | .bypass => 6 | .pass => 7
def XwState.ofCode : Nat → XwState
  | 0 => .off | 1 => .link | 2 => .lone | 3 => .discover | 4 => .intact | 5 => .healed | 6 => .bypass | _ => .pass

def State.xw (s : State) (r : Nat) : XwState := XwState.ofCode (s.fld Reg.xwStatState (ringBase r))
def State.setXw (s : State) (r : Nat) (x : XwState) : State := s.setFld Reg.xwStatState x.code (ringBase r)

/-- A loop-back node shown for a path. -/
def State.setLb (s : State) (r : Nat) (x : Side) (n : Option Nat) : State :=
  let b := ringBase r
  match x with
  | .east => (s.setBit Reg.xwStatLbEValid n.isSome b).setFld Reg.xwStatLbE (n.getD 0) b
  | .west => (s.setBit Reg.xwStatLbWValid n.isSome b).setFld Reg.xwStatLbW (n.getD 0) b

/-- A port seeks lock at the rate XW_CTRL.phy gives, 25GBASE-R first (R241). -/
def State.seekRate (s : State) (r : Nat) : State :=
  let b := ringBase r
  (s.setRing r { s.ringSt r with rateHeld := false, rateAt := s.time.ran }).setFld Reg.xwStatRate10 (if s.fld Reg.xwCtrlPhy b = 1 then 1 else 0) b

/-- A port started (R241, R268). -/
def State.toLink (s : State) (r : Nat) : State :=
  let x := s.ringSt r
  let s := (s.setRing r { x with sentRun := 0, csAt := none, returned := false, evid := [], farRun := 0, permit := false
                                 reclosing := false, verify := false, step := .discover, echoes := [], acks := [], waited := 0 }).seekRate r
  (((s.setXw r .link).setLb r .east none).setLb r .west none)

/-- A part leaves STANDBY: it belongs to no pair, and the ports that were in PASS start anew (R268). -/
def State.unpair (s : State) : State :=
  let s : State := { s with lsp := { s.lsp with role := .unpaired, sync := .none, ready := false, matchRun := 0 }
                            ind := { s.ind with suspended := false } }
  (List.range s.ringCount).foldl (fun s r => if s.xw r = .pass then s.toLink r else s) s

end Sys2Proof.Machine
end

