-- ==== Sys2Proof/Machine/Fox.lean ====
section
/-! DEFINITION. Foxglove (R446 to R459): records, escalation, fault states, the safe latch, reactions, alarms.
Log: DEDUCED 73, 143, 159, 164. DESIGN CHOICE 45, 195. -/

namespace Sys2Proof.Machine

/-- The warning classes and the fatal classes (R446, R478, R493). -/
def foxWarn (cls : Nat) : Bool :=
  [0x30, 0x42, 0x43, 0x45, 0x50, 0x51, 0x73, 0x80, 0x86, 0x92, 0x93, 0xA1, 0xA2, 0xE2, 0xE5].contains cls
def foxFatal (cls : Nat) : Bool := [0x75, 0xE4, 0xE7].contains cls

/-- Consecutive codes of one default level and source kind. -/
structure FoxClass where
  first : Nat
  last : Nat
  level : Nat
  kind : Nat

/-- The classes, with their default levels and source kinds (R446, R478, R493). -/
def foxClasses : List FoxClass :=
  [⟨0x01, 0x06, 0, 1⟩, ⟨0x11, 0x1A, 0, 4⟩, ⟨0x20, 0x20, 1, 2⟩, ⟨0x21, 0x21, 1, 5⟩, ⟨0x30, 0x34, 1, 6⟩, ⟨0x40, 0x41, 1, 7⟩,
   ⟨0x42, 0x42, 1, 10⟩, ⟨0x43, 0x43, 1, 8⟩, ⟨0x44, 0x45, 1, 9⟩, ⟨0x50, 0x51, 1, 10⟩, ⟨0x60, 0x60, 1, 11⟩, ⟨0x61, 0x62, 1, 10⟩,
   ⟨0x70, 0x70, 1, 4⟩, ⟨0x71, 0x71, 1, 12⟩, ⟨0x72, 0x72, 1, 13⟩, ⟨0x73, 0x74, 1, 14⟩, ⟨0x75, 0x75, 3, 10⟩, ⟨0x80, 0x86, 1, 10⟩,
   ⟨0x90, 0x93, 1, 10⟩, ⟨0xA0, 0xA2, 1, 10⟩, ⟨0xE0, 0xE0, 1, 2⟩, ⟨0xE1, 0xE1, 2, 3⟩, ⟨0xE2, 0xE2, 1, 10⟩, ⟨0xE3, 0xE3, 2, 3⟩,
   ⟨0xE4, 0xE4, 3, 0⟩, ⟨0xE5, 0xE5, 1, 0⟩, ⟨0xE6, 0xE7, 3, 0⟩, ⟨0xF0, 0xF0, 3, 0⟩]

/-- A class that is defined. -/
def foxDefined (cls : Nat) : Bool := foxClasses.any (fun x => decide (x.first ≤ cls ∧ cls ≤ x.last))

/-- A raising as a unit sends it: a defined class, at its default level, from a source of its kind. -/
def foxSent (r : Raising) : Bool :=
  foxClasses.any (fun x => decide (x.first ≤ r.cls ∧ r.cls ≤ x.last ∧ r.level = x.level ∧ r.src.kind = x.kind))

/-- The home region of a ring (R24). -/
def State.homeRegion (s : State) (ring : Nat) : Nat := ring % s.regions

/-- The cell that runs an axis's K_INNER (R538). -/
def State.innerCell (s : State) (a : Nat) : Option Nat :=
  (s.ops.find? (fun d => match d.kernel with | .inner as => as.contains a | _ => false)).map OpDesc.cell

/-- The containing unit of a source (R448). An axis that no operation runs is contained by REGION_0, as every other source
below L2 (log entry 45). -/
def State.container (s : State) (x : FoxSrc) : FoxSrc :=
  match x.kind with
  | 1 => ⟨2, blockOfCell x.index⟩
  | 2 => ⟨3, regionOfBlock x.index⟩
  | 4 => match s.innerCell x.index with
    | some c => ⟨2, blockOfCell c⟩
    | none => ⟨3, 0⟩
  | 5 => ⟨3, if x.index < 16 then s.homeRegion (x.index / 2) else 0⟩
  | 6 => ⟨3, s.homeRegion x.index⟩
  | 0 => ⟨0, 0⟩
  | 3 => ⟨0, 0⟩
  | _ => ⟨3, 0⟩

/-- An unacknowledged record of a class at a level. -/
def FoxRec.openAt (r : FoxRec) (cls level : Nat) : Bool := !r.ack && r.cls == cls && r.level == level

/-- A record with one more raising (R450). -/
def State.again (s : State) (r : FoxRec) : FoxRec :=
  { r with count := satAdd r.count 1 65535, lastNs := s.nowNs, lastS := s.nowS }

/-- The records changed at a number, in the queue and in retention (R452). -/
def FoxSt.upd (f : FoxSt) (no : Nat) (g : FoxRec → FoxRec) : FoxSt :=
  let h := fun r : FoxRec => if r.no = no then g r else r
  { f with queue := f.queue.map h, retained := f.retained.map h }

/-- The newest `k` of a list that grows at its end. -/
def newest {α : Type} (k : Nat) (l : List α) : List α := l.drop (l.length - k)

/-- A new record (R450, R452). -/
def State.newRec (s : State) (r : Raising) (esc : Bool) : State × FoxRec :=
  let f := s.fox
  let x : FoxRec := { no := f.head + 1, cls := r.cls, level := r.level, esc := esc, ack := false, src := r.src, count := 1
                      cycle := s.cycle, firstNs := s.nowNs, firstS := s.nowS, lastNs := s.nowNs, lastS := s.nowS }
  let lost := match f.queue with
    | o :: _ => f.queue.length ≥ 512 && !o.ack
    | [] => false
  let s := { s with fox := { f with head := x.no, queue := newest 512 (f.queue ++ [x]), retained := newest 64 (f.retained ++ [x]) } }
  (if lost then s.incFld Reg.foxLost else s, x)

/-- The 32 bytes of a record (R451). -/
def FoxRec.bytes (r : FoxRec) : List Byte :=
  leBytes 4 r.no ++ leBytes 2 r.cls
    ++ [BitVec.ofNat 8 (r.level * 64 + bitN (foxWarn r.cls) * 32 + bitN r.esc * 16 + bitN r.ack * 8 + bitN (foxFatal r.cls) * 4),
        BitVec.ofNat 8 r.src.kind]
    ++ leBytes 2 r.src.index ++ leBytes 2 r.count ++ bytesOfWords [r.cycle, r.firstNs, r.firstS, r.lastNs, r.lastS]

/-! ### Alarms (R458) -/

/-- The bytes of a management frame (R387): addresses in wire order, the rest little-endian. -/
def mgmtFrame (dst src kind : Nat) (payload : List Byte) : List Byte :=
  (leBytes 6 dst).reverse ++ (leBytes 6 src).reverse ++ [0x88#8, 0xB5#8] ++ leBytes 2 kind ++ leBytes 2 0 ++ payload

/-- The station address of a port, and the alarm destination. -/
def State.bbMac (s : State) (p : Nat) : Nat := s.fld Reg.bbMacLo (bbBase p) + s.fld Reg.bbMacHi (bbBase p) * 2 ^ 32
def State.alarmMac (s : State) : Nat := s.fld Reg.foxAlarmMacLo + s.fld Reg.foxAlarmMacHi * 2 ^ 32

/-- A record sent as an alarm on every enabled backbone port. -/
def State.sendAlarm (s : State) (r : FoxRec) : State :=
  [0, 1].foldl (fun s p =>
    if s.bit Reg.bbCtrlEn (bbBase p) then s.bbSend p (mgmtFrame s.alarmMac (s.bbMac p) 3 r.bytes) else s) s

/-- The alarm of a record opened or coalesced into, at most one sending per source and millisecond. -/
def State.alarm (s : State) (r : FoxRec) : State :=
  if !s.bit Reg.foxCtrlAlarmEn then s
  else
    match s.fox.windows.find? (fun w => decide (w.src = r.src)) with
    | none => { s with fox := { s.fox with windows := s.fox.windows ++ [(⟨r.src, [], s.time.ran⟩ : AlarmWin)] } }.sendAlarm r
    | some _ =>
      let add := fun w : AlarmWin => if w.src = r.src ∧ !w.changed.contains r.no then { w with changed := w.changed ++ [r.no] } else w
      { s with fox := { s.fox with windows := s.fox.windows.map add } }.incFld Reg.foxAlarmSupp

/-! ### Indigo's fault marks (R465, R472) -/

def State.faultMark (s : State) (r : FoxRec) (level : Nat) : State :=
  let b := s.ind.cur
  let b := if b.fox.length < 4 then { b with fox := b.fox ++ [r] } else { b with gap := b.gap + 1 }
  { s with ind := { s.ind with cur := { b with high := b.high || decide (level ≥ 1) } } }

/-! ### Reactions -/

/-- Some region is in its L2 state. -/
def State.regionL2 (s : State) : Bool := s.fox.states.any (fun x => x.level == 2 && x.src.kind == 3)

/-- A fault state is that of a unit at a level. -/
def FaultState.is (x : FaultState) (level : Nat) (src : FoxSrc) : Bool := x.level == level && decide (x.src = src)

/-- A unit is in its fault state at a level. -/
def State.inFault (s : State) (level : Nat) (src : FoxSrc) : Bool := s.fox.states.any (fun x => x.is level src)

/-- A unit enters its fault state at a level, or its quiet period starts again (R454). -/
def State.enterState (s : State) (level : Nat) (src : FoxSrc) : State :=
  let f := s.fox
  { s with fox := { f with states := if s.inFault level src then f.states.map (fun x => if x.is level src then { x with since := s.time.ran } else x)
                                     else f.states ++ [⟨level, src, s.time.ran⟩] } }

/-- Every axis enters SAFE (R176). -/
def State.allSafe (s : State) : State :=
  let as := ((s.image.map Image.axes).getD []).map AxisCfg.axis
  as.foldl (fun s a => s.setAxis a ((s.axis a).forceSafe s.cycle)) s

/-- The reactions of a level (R455 to R457). -/
def State.react (s : State) (cls level : Nat) : State :=
  match level with
  | 2 => if s.mode = .run && s.regionL2 then s.setMode .degraded .fault else s
  | 3 =>
    let s := (s.gated (fun s => { s with fox := { s.fox with latch := true, fatal := s.fox.fatal || foxFatal cls } })).allSafe
    if foxFatal cls then
      (match s.mode with
        | .standby => (s.setMode .fault .fault).unpair
        | .boot | .configure | .commission | .idle | .armed | .run | .degraded | .safeHold => s.setMode .fault .fault
        | _ => s)
    else
      (match s.mode with
        | .standby => (s.setMode .safeHold .fault).unpair
        | .configure | .commission | .idle | .armed | .run | .degraded => s.setMode .safeHold .fault
        | _ => s)
  | _ => s

/-- One raising recorded, at its level (R447, R450, R454, R455, R458, R465). -/
def State.recordRaising (s : State) (r : Raising) (esc : Bool) : State :=
  let old := s.fox.queue.find? (fun x => x.openAt r.cls r.level && decide (x.src = r.src))
  let y := match old with
    | some x => let x' := s.again x; ({ s with fox := s.fox.upd x.no (fun _ => x') }, x')
    | none => s.newRec r esc
  let s := ((y.1.faultMark y.2 r.level).alarm y.2)
  if foxWarn r.cls then s else (s.enterState r.level r.src).react r.cls r.level

/-- The record at the next level that counts a raising in place of an escalation (R449): a raising at that level (log entry 159). -/
def State.countAt (s : State) (x : FoxRec) : State :=
  let x' := s.again x
  let s := { s with fox := s.fox.upd x.no (fun _ => x') }
  (((s.faultMark x' x.level).alarm x').enterState x.level x.src).react x.cls x.level

/-- A raising with its escalations (R449), each one level up. -/
def State.foxRaise (s : State) (r : Raising) (esc : Bool) : Nat → State
  | 0 => s.recordRaising r esc
  | fuel + 1 =>
    let up := s.container r.src
    let climbs := !foxWarn r.cls && decide (r.level < 3)
      && s.fox.queue.any (fun x => x.openAt r.cls r.level && decide (s.container x.src = up))
    let above := s.fox.queue.find? (fun x => x.openAt r.cls (r.level + 1) && decide (x.src = up))
    let s := s.recordRaising r esc
    if !climbs then s
    else
      match above with
      | some x => s.countAt ((s.fox.queue.find? (fun y => y.no == x.no)).getD x)
      | none => State.foxRaise s ⟨r.cls, r.level + 1, up⟩ true fuel

/-- A raising reaches Foxglove. -/
def State.foxTake (s : State) (r : Raising) : State :=
  ({ s with fox := { s.fox with inflight := s.fox.inflight.erase r } }).foxRaise r false 3

/-! ### The channels to Foxglove (R28, R534) -/

/-- The island that sends the raisings of a source (log entry 164). -/
def State.sender (s : State) (x : FoxSrc) : Nat :=
  match x.kind with
  | 0 => 98
  | 1 => x.index
  | 2 => 64 + x.index
  | 3 => 80 + x.index
  | 4 => (s.innerCell x.index).getD 98
  | 5 => if x.index < 16 then 84 + x.index / 2 else 102
  | 6 => 84 + x.index
  | 7 => 102
  | 8 => 103
  | 9 => 104
  | 10 => x.index
  | 11 => 97
  | _ => 100

/-- The raisings an island has sent, in the order sent: the first eight stand in its channel, the sender keeps the rest until a place
is free. -/
def State.raisingsOf (s : State) (island : Nat) : List Raising := s.fox.inflight.filter (fun r => s.sender r.src == island)
def State.channelOf (s : State) (island : Nat) : List Raising := (s.raisingsOf island).take 8

/-- The raising that Foxglove takes next of those that stand at the heads of channels: the one of the lowest sending island (R534). -/
def State.nextArrival (s : State) : Option Raising :=
  match s.fox.inflight with
  | [] => none
  | r :: l => some (l.foldl (fun a b => if s.sender b.src < s.sender a.src then b else a) r)

/-- A raising arrives after those that its island sent before it (R28). -/
def State.foxArrive (s : State) (r : Raising) : State :=
  (((s.raisingsOf (s.sender r.src)).takeWhile (fun x => decide (x ≠ r))).foldl State.foxTake s).foxTake r

/-- The channel out of an island emptied before a reset takes hold (R29); what its sender still kept is lost. -/
def State.emptyChannel (s : State) (island : Nat) : State :=
  let rest := (s.raisingsOf island).drop 8
  let s := (s.channelOf island).foldl State.foxTake s
  { s with fox := { s.fox with inflight := rest.foldl List.erase s.fox.inflight } }

/-- FAULT_RAISING (R446, R449). -/
def execFaultRaising (r : Raising) (s : State) : Host.Outcome State Fault Refusal :=
  .next (match s.mode with
    | .off | .reset => s
    | _ => if foxSent r then s.foxArrive r else s)

/-- The end of fault states of a unit and of every unit it contains (R454), without a recovery. -/
def State.endStates (s : State) (level index : Nat) : State :=
  let root : FoxSrc := ⟨match level with | 0 => 1 | 1 => 2 | 2 => 3 | _ => 0, index⟩
  let inside := fun x : FoxSrc =>
    let a := s.container x
    let b := s.container a
    let c := s.container b
    decide (x = root) || decide (a = root) || decide (b = root) || decide (c = root)
  let s := { s with fox := { s.fox with states := s.fox.states.filter (fun x => !inside x.src) } }
  if s.mode = .degraded && !s.regionL2 then s.setMode .run .fault else s

/-- What a reset of the chip leaves of Foxglove (R452, R456). -/
def FoxSt.afterReset (f : FoxSt) (kept : Bool) : FoxSt :=
  if kept then { retained := f.retained, head := ((f.retained.getLast?).map FoxRec.no).getD 0 } else {}

end Sys2Proof.Machine
end

