-- ==== Sys2Proof/Machine/Time.lean ====
section
/-! DEFINITION. The instants of the control cycle (R36 to R38, R336) and the counter of the time unit (R330 to R333). Instants
are integers in units of 2^−16 ns.
Log: DEDUCED 64, 75, 192. DESIGN CHOICE 11. -/

namespace Sys2Proof.Machine

/-! ### The counter -/

/-- The increment of the next tick: a target committed while step is 0 is taken at the first tick (R333). -/
def TimeSt.taken (t : TimeSt) : TimeSt := if t.takeTgt then { t with inc := t.tgt, takeTgt := false } else t

/-- The present increment one step nearer its target (R333). -/
def stepToward (inc tgt step : Nat) : Nat :=
  if step = 0 then tgt
  else if inc ≤ tgt then (if tgt - inc ≤ step then tgt else inc + step)
  else (if inc - tgt ≤ step then tgt else inc - step)

/-- TIME_SLEW: the step and the spacing of the boundaries in microseconds. -/
structure Slew where
  step : Nat
  interval : Nat

/-- The spacing in ticks of 2 ns. -/
def Slew.ticks (w : Slew) : Nat := 500 * max 1 w.interval

def State.slew (s : State) : Slew := ⟨s.fld Reg.timeSlewStep, s.fld Reg.timeSlewInterval⟩

/-- A ramp boundary (R333, R334): it uses the step written last, and the next one falls at the spacing written last. -/
def TimeSt.boundary (t : TimeSt) (w : Slew) : TimeSt :=
  { t with inc := BitVec.ofNat 48 (stepToward t.inc.toNat t.tgt.toNat w.step), takeTgt := t.takeTgt && decide (w.step ≠ 0)
           step := BitVec.ofNat 16 w.step, interval := BitVec.ofNat 16 w.interval, left := w.ticks }

/-- `k` ticks of the counter (R330), none of them after a boundary that falls among them. -/
def TimeSt.add (t : TimeSt) (k : Nat) : TimeSt := { t.setTotal (t.total + k * t.inc.toNat) with ran := t.ran + k, left := t.left - k }

/-- The boundaries change nothing but their own place. -/
def TimeSt.steady (t : TimeSt) (w : Slew) : Bool :=
  decide (t.inc = t.tgt ∧ t.step.toNat = w.step ∧ t.interval.toNat = w.interval)

/-- `k` ticks over boundaries that change nothing. -/
def TimeSt.pass (t : TimeSt) (w : Slew) (k : Nat) : TimeSt :=
  { t.add k with left := if k < t.left then t.left - k else w.ticks - (k - t.left) % w.ticks }

/-- The counter run on by a number of ticks, told by the time that stands, with the boundaries that fall on the way (R330, R333). -/
def TimeSt.run (w : Slew) (need : TimeSt → Nat) : Nat → TimeSt → TimeSt
  | 0, t => t
  | fuel + 1, t =>
    let k := need t
    if k < t.left || t.steady w then t.pass w k else TimeSt.run w need fuel ((t.add t.left).boundary w)

/-- `k` ticks. -/
def State.ticks (s : State) (k : Nat) : State :=
  if k = 0 then s
  else
    let t := s.time.taken
    { s with time := t.run s.slew (fun u => t.ran + k - u.ran) (k / 500 + 3) }

/-- TIME_STAT.ramping follows the increments. -/
def State.rampStat (s : State) : State := s.setBit Reg.timeStatRamping (decide (s.time.inc ≠ s.time.tgt))

/-- The counter run on to a count of ticks since reset; nothing when that has come. -/
def State.runTo (s : State) (n : Nat) : State := (s.ticks (n - s.time.ran)).rampStat

/-- One tick. -/
def State.tick (s : State) : State := (s.ticks 1).rampStat

/-- The ticks to the first at or after an instant. -/
def TimeSt.need (x : Int) (t : TimeSt) : Nat := ((x * 2 ^ 24 - (t.total : Int)).toNat + t.inc.toNat - 1) / t.inc.toNat

/-- The counter run on by whole ticks to the first tick at or after an instant; nothing when that has come. -/
def State.advanceTo (s : State) (x : Int) : State :=
  let t := s.time.taken
  if x ≤ s.now16 || t.inc = 0#48 then s
  else ({ s with time := t.run s.slew (TimeSt.need x) (((x - s.now16) / 60000000).toNat + 3) } : State).rampStat

/-! ### Cycle edges (R336) -/

/-- The cycle rate. -/
def State.rate (s : State) : Nat := s.fld Reg.timeCycHzHz

/-- `t_E(n)`, once the grid stands. -/
def State.edgeAt (s : State) (n : Word) : Option Int :=
  match s.time.t0 with
  | some t0 => if s.rate = 0 then none
    else some ((t0 : Int) * 1000000000 * 65536 + ((n - s.time.n0).toInt * 65536000000000) / (s.rate : Int))
  | none => none

/-- The edge grid restarted at the first whole second later than now (R336, R338). -/
def State.restartGrid (s : State) : State :=
  { s with time := { s.time with t0 := some (s.time.s.toNat + 1), n0 := s.cycle + 1#32 } }

/-- The edge grid counted from an edge one second later. -/
def State.rebase (s : State) : State :=
  match s.time.t0 with
  | some t0 => if s.cycle - s.time.n0 = BitVec.ofNat 32 s.rate ∧ s.rate ≠ 0 then
      { s with time := { s.time with t0 := some (t0 + 1), n0 := s.cycle } } else s
  | none => s

/-! ### Instants of a cycle -/

/-- The timing section (R540). -/
def State.timing (s : State) : Timing := (s.image.map Image.timing).getD ⟨0, 0, 0, 0, 0, 0⟩

/-- An instant given in ns from edge E of a cycle. -/
def State.instant (s : State) (n : Word) (ns : Int) : Option Int := (s.edgeAt n).map (fun e => e + ns16 ns)

/-- The counter run on to an instant given from edge E of the present cycle. -/
def State.toInstant (s : State) (ns : Int) : State :=
  match s.instant s.cycle ns with
  | some x => s.advanceTo x
  | none => s

/-- The mailbox cut-off of a cycle has passed (R37): its instant is not later than now. -/
def State.cutPassed (s : State) (n : Word) : Bool :=
  match s.instant n (-(s.timing.tCut : Int)) with
  | some x => decide (x ≤ s.now16)
  | none => false

/-- The first cycle after `n` whose cut-off has not passed. -/
def State.firstOpen (s : State) (n : Word) : Nat → Word
  | 0 => n
  | k + 1 => if s.cutPassed n then State.firstOpen s (n + 1#32) k else n

/-- The apply cycle of a fenced command with at = 0 (R374). The cycles looked at are those to come. -/
def State.nextOpen (s : State) : Word :=
  let k := ((s.now16 / 65536000000000).toNat - (s.time.t0.getD 0) + 2) * s.rate + s.timing.tCut * s.rate / 1000000000
  s.firstOpen (s.cycle + 1#32) (k + 2)

/-- An apply cycle is LATE (R36, R374): its cut-off has passed, or it lies 2^31 cycles or more away. -/
def State.lateFor (s : State) (a : Word) : Bool :=
  !cycLater a s.cycle || a - s.cycle = 0x80000000#32 || s.cutPassed a

end Sys2Proof.Machine
end

