-- ==== Sys2Proof/Machine/RegIO.lean ====
section
/-! DEFINITION. What a write and a read do to a register by its table alone (R10 to R12): field by field, by access, gate and
reserved values. What a unit does besides is with the unit.
Log: DEDUCED 134, 180, 196, 210. -/

namespace Sys2Proof.Machine

/-- CFG_WARN of the unit of a located register set. -/
def State.setWarn (s : State) (r : RegAt) : State :=
  let put := fun off : Nat => s.setReg off (s.reg off ||| 0x80000000#32)
  match r.unit.warn with
  | .at off => put off
  | .unitOff off => put (r.unit.base + r.ui * r.unit.stride + off)
  | .groupOff off => put (r.unit.base + r.ui * r.unit.stride + r.group.base + r.gi * r.group.stride + off)
  | .chip => { s with chipWarn := true }
  | .fb => { s with fbWarn := true }
  | .none => s

/-- The base of a located register's group instance. -/
def RegAt.base (r : RegAt) : Nat := r.unit.base + r.ui * r.unit.stride + r.group.base + r.gi * r.group.stride

/-- A field accepts writes now. -/
def State.gateOpen (s : State) (r : RegAt) (g : Gate) : Bool :=
  match g with
  | .always => true
  | .configure => decide (s.mode = .configure)
  | .configComm => decide (s.mode = .configure ∨ s.mode = .commission)
  | .qpOff => !s.bit Reg.qpCtrlEn r.base
  | .dmaOff => !s.bit Reg.dmaECtrlEn r.base

/-- A value is not reserved for a field (R10). -/
def State.valueOk (s : State) (v : Valid) (x data : Nat) : Bool :=
  match v with
  | .any => true
  | .ranges l => l.any (fun p => decide (p.1 ≤ x ∧ x ≤ p.2))
  | .queue => decide (x < s.queueCount)
  | .channel => true
  | .mailbox => ((s.qdesc x).map (fun d => d.kind == 3)).getD false
  | .geFirst => decide (bitsOf data 12 0 ≤ x)
  | .axis => decide (x ≤ 263)
  | .seqOffset => decide (bitsOf data 31 30 = 0)

/-- What a field takes of a value that is not valid for it, and whether the value was reserved (R10); the bits of a sequence entry's
offset that its kind reserves read 0 and ignore writes (R12, R310). -/
def FieldDesc.instead (f : FieldDesc) (x data : Nat) : Nat × Bool :=
  match f.valid with
  | .axis => (0, false)
  | .seqOffset => (if bitsOf data 31 30 = 2 then x % 64 else 0, false)
  | _ => (f.reset, true)

/-- One field of a write: the register's content and whether a reserved value was met. -/
def State.putField (s : State) (r : RegAt) (data : Nat) (acc : Nat × Bool) (f : FieldDesc) : Nat × Bool :=
  let v := bitsOf data f.hi f.lo
  match f.acc with
  | .rw =>
    if !s.gateOpen r f.gate then acc
    else if s.valueOk f.valid v data then (withBits acc.1 f.hi f.lo v, acc.2)
    else (withBits acc.1 f.hi f.lo (f.instead v data).1, acc.2 || (f.instead v data).2)
  | .w1c => (withBits acc.1 f.hi f.lo (Nat.land (bitsOf acc.1 f.hi f.lo) (2 ^ (f.hi + 1 - f.lo) - 1 - v)), acc.2)
  | _ => acc

/-- A write of a register by its table (R10, R11): a clear of CFG_WARN and a set by the same write leave it set. -/
def State.storeReg (s : State) (off : Nat) (data : Word) : State :=
  match locate off with
  | none => s
  | some r =>
    let x := r.reg.fields.foldl (s.putField r data.toNat) ((s.reg off).toNat, false)
    let s := s.setReg off (BitVec.ofNat 32 x.1)
    if x.2 then s.setWarn r else s

/-- The fields that a read clears, cleared. -/
def State.readClear (s : State) (off : Nat) : State :=
  match locate off with
  | none => s
  | some r =>
    let x := r.reg.fields.foldl (fun a f => if f.acc = .rc then withBits a f.hi f.lo 0 else a) (s.reg off).toNat
    s.setReg off (BitVec.ofNat 32 x)

/-- The windows of units the variant lacks (R4). -/
def State.absentAt (s : State) (off : Nat) : Bool :=
  (!s.isA && decide (0x600000 ≤ off ∧ off < 0x700000))
  || decide (0x200000 + s.ringCount * 0x10000 ≤ off ∧ off < 0x280000)
  || decide (0x808000 + 0x10 * (2 * s.cellCount) ≤ off ∧ off < 0x808800)
  || decide (0x4000000 + s.regions * 0x1000000 ≤ off)

/-- The cell whose registers lie at an offset (R54). -/
def regCell (off : Nat) : Option Nat :=
  let rel := (off - 0x4000000) % 0x1000000
  if off < 0x4000000 ∨ 0x8000000 ≤ off ∨ rel < 0xA01000 ∨ 0xA01400 ≤ rel then none
  else some (16 * ((off - 0x4000000) / 0x1000000) + (rel - 0xA01000) / 0x40)

/-- A register of a cell that LEVEL_RESET holds (R29): writes are discarded, reads give a poisoned 0. CELL_STAT, whose state has a code for
in reset, is readable then (log entry 196). -/
def State.heldReg (s : State) (off : Nat) : Bool := ((regCell off).map s.cellDown).getD false
def State.heldRead (s : State) (off : Nat) : Bool := s.heldReg off && decide (off % 0x40 ≠ 4)

/-- A register that takes no write: the variant lacks it (R4), or its cell is held in reset (R29). -/
def State.shutAt (s : State) (off : Nat) : Bool := s.absentAt off || s.heldReg off

/-- A function may write an offset (R361). -/
def mayWrite (fn off : Nat) : Bool :=
  fn == 0 || decide (0x500900 ≤ off ∧ off < 0x501100) || decide (0x502200 ≤ off ∧ off < 0x502400)

/-- The part answers its surroundings: it is powered and out of reset (R496). -/
def State.awake (s : State) : Bool := decide (s.mode ≠ .off ∧ s.mode ≠ .reset)

/-- The keeper runs: from VHOLD also while the part is without its supplies, and through every reset (R384, R506). -/
def State.keeperUp (s : State) : Bool := decide (s.mode ≠ .off) || s.power.vholdOk

/-- Woad runs: also in a RESET that a LEVEL_RESET of the chip began, which keeps it (R398, R506). -/
def State.woadOn (s : State) : Bool := s.awake || decide (s.mode = .reset ∧ s.power.kind = 3)

/-- A write row whose register is its own: what the write does, under the limits of R4, R29 and R361. A write row that names
another register does nothing. -/
def State.ownWrite (s : State) (w : RegWrite) (own : Bool) (f : State → State) : State :=
  if !own || !s.awake then s
  else if !mayWrite w.fn w.off then s.incFld Reg.cmdAuthErrPf1Wr
  else if s.shutAt w.off then s
  else f s

/-- A one-bit field of written data. -/
def dataBit (d : Word) (k : Nat) : Bool := d.getLsbD k

end Sys2Proof.Machine
end

