-- ==== Sys2Proof/Machine/Cmd.lean ====
section
/-! DEFINITION. Commands from arrival to effect (R357 to R377): ports, the nine checks, the journal, replies and their ways out.
Each command's own part is a `CmdSpec`, written in its unit's file.
Log: DEDUCED 51, 68, 69, 71, 205. DESIGN CHOICE 50, 76. -/

namespace Sys2Proof.Machine

/-! ### Packets (R363, R365) -/

/-- The command of a packet, as it stands inside the T256. -/
def CmdIn.ofPacket (port : Port) (bs : List Byte) (slot : Option Nat) : CmdIn :=
  let b2 := numAt bs 2 2
  { port := port, opcode := numAt bs 0 2, irq := b2 / 8 % 2 == 1, chk := b2 / 4 % 2 == 1, at_ := b2 % 2 == 1
    tag := BitVec.ofNat 16 (numAt bs 4 2), apply := wordAtB bs 8
    checkOk := decide (wordAtB bs 12 = BitVec.ofNat 32 (crc32c (slice bs 0 12 ++ slice bs 16 48)))
    param := slice bs 16 40, slot := slot }

/-- The command of a row of the table. -/
def CmdIn.ofReq (r : CmdReq) (opcode : Nat) (slot : Option Nat) : CmdIn :=
  { port := r.port, opcode := opcode, irq := r.irq, chk := r.chk, at_ := r.at_, tag := r.tag, apply := r.apply
    checkOk := r.checkOk, param := slice r.param 0 40, slot := slot }

/-- The parameter bytes read as numbers. -/
def CmdIn.p8 (c : CmdIn) (k : Nat) : Nat := numAt c.param k 1
def CmdIn.p16 (c : CmdIn) (k : Nat) : Nat := numAt c.param k 2
def CmdIn.p32 (c : CmdIn) (k : Nat) : Nat := numAt c.param k 4
def CmdIn.p64 (c : CmdIn) (k : Nat) : Nat := numAt c.param k 8
def CmdIn.pw (c : CmdIn) (k : Nat) : Word := wordAtB c.param k

/-- The source of a command in the turn of R369. The commands a keeper window passes on take the last places
(log entry 50). -/
def portSrc : Port → Nat
  | .qp q => q | .spi => 64 | .backbone p _ => 65 + p % 2 | .woadLine => 67 | .workItem _ => 68 | .keeper f => 69 + f % 2

/-- Rank of the port, origin code and index of its journal entries (R357, R389). -/
def portRank : Port → Nat
  | .qp q => if q < 32 then 4 else 2
  | .keeper f => if f = 0 then 4 else 2
  | .spi => 3
  | .backbone _ _ => 1
  | .woadLine => 0
  | .workItem _ => 0
def portOrigin : Port → BitVec 3
  | .qp q => if q < 32 then 0#3 else 1#3
  | .keeper f => if f = 0 then 0#3 else 1#3
  | .spi => 2#3
  | .backbone _ _ => 3#3
  | .woadLine => 4#3
  | .workItem _ => 5#3
def portIndex : Port → Nat
  | .qp q => q % 32 | .backbone p _ => p | .workItem ch => ch | _ => 0

/-- What a command answers: its status once accepted, the bytes for 20 to 31, the long data, and whether it answers later
with its result (R372). -/
structure CmdOut where
  status : Nat := 0
  data : List Byte := []
  long : List Byte := []
  wait : Bool := false

/-- An answer of data alone: more than 12 bytes go to the long-data area (R365). -/
def CmdOut.of (bs : List Byte) : CmdOut := if bs.length > 12 then { long := bs } else { data := bs }

/-- An answer with long data alone. -/
def CmdOut.ofLong (bs : List Byte) : CmdOut := { long := bs }

/-- A command's own part: opcode, minimum authority, whether SAFETY may send it and whether SAFETY alone may, whether it is a
query, one of the always-available set, cycle-fenced, a mailbox post, fenced and answered with its result, answered before it acts; its named parameter bytes as
(place, length); the tests of steps 4, 5, 6 and 8 of R370; what it does on acceptance, given its entry's number and its cycle
of effect; what a fenced command does at its cycle; for a command turned away with a status, what it counts and the data of
its reply; and the cycle a query's values belong to. -/
structure CmdSpec where
  opcode : Nat
  rank : Nat := 1
  safety : Bool := false
  onlySafety : Bool := false
  query : Bool := false
  always : Bool := false
  fenced : Bool := false
  post : Bool := false
  later : Bool := false
  early : Bool := false
  unheld : Bool := false
  named : List (Nat × Nat) := []
  absent : State → CmdIn → Bool := fun _ _ => false
  bad : State → CmdIn → Bool := fun _ _ => false
  mode : State → CmdIn → Bool := fun _ _ => false
  busy : State → CmdIn → Bool := fun _ _ => false
  run : State → CmdIn → Nat → Word → State × CmdOut := fun s _ _ _ => (s, {})
  effect : State → CmdIn → Word → State := fun s _ _ => s
  turned : State → CmdIn → Nat → State := fun s _ _ => s
  why : State → CmdIn → Nat → List Byte := fun _ _ _ => []
  cyc : State → Word := fun s => s.cycle

/-! ### The checks (R370) -/

/-- The check value is tested (R364). -/
def CmdIn.tested (c : CmdIn) : Bool :=
  match c.port with
  | .qp _ => c.chk
  | .keeper _ => c.chk
  | _ => true

/-- Authority (R358). -/
def CmdSpec.allowed (k : CmdSpec) (c : CmdIn) : Bool :=
  match c.port with
  | .woadLine => k.safety
  | p => !k.onlySafety && decide (k.rank ≤ portRank p)

/-- A parameter byte that is not named is not 0 (R363). -/
def CmdSpec.strayByte (k : CmdSpec) (c : CmdIn) : Bool :=
  (List.range 40).any (fun i => c.p8 i != 0 && !k.named.any (fun r => decide (r.1 ≤ i ∧ i < r.1 + r.2)))

/-- The mode accepts commands of this kind (R431, R496). In STANDBY a MODE_SET may go to IDLE as R498 has it (log entry 205). -/
def State.modeTakes (s : State) (k : CmdSpec) : Bool :=
  match s.mode with
  | .off => false
  | .reset => false
  | .boot => k.always
  | .fault => k.query || k.always
  | .standby => k.query || k.always || decide (k.opcode / 256 = 0x0A ∨ k.opcode = 0x0101)
  | _ => true

/-- The lag of the mirror holds commands back (R394). -/
def State.lagBusy (s : State) : Bool :=
  s.bit Reg.jnlMirrorCfgEn && s.jnl.lagHolds && !s.jnl.mirrorErr && decide (s.fld Reg.jnlMirrorCfgMaxLag ≤ s.jnl.lag)

/-- A command's status on the checks of R370 in their order; 0 when it passes all. -/
def State.verdict (s : State) (k : CmdSpec) (c : CmdIn) : Nat :=
  if c.tested && !c.checkOk then 0x0A
  else if !k.allowed c then 0x04
  else if k.absent s c then 0x06
  else if k.bad s c || k.strayByte c then 0x03
  else if !s.modeTakes k || (k.fenced && c.at_ && !s.edgesRun) || k.mode s c then 0x05
  else if k.fenced && c.at_ && s.lateFor c.apply then 0x0B
  else if k.busy s c || (!k.query && !k.unheld && s.lagBusy)
      || (k.fenced && !k.post && s.edgesRun && decide (256 ≤ s.host.fenced.length)) then 0x01
  else if !k.query && !s.jnlOpen then 0x07
  else 0

/-! ### Replies (R365, R367) -/

/-- The 32 bytes of a reply, with phase 0. -/
def replyBytes (c : CmdIn) (status : Nat) (journaled : Bool) (seq : Nat) (cycle : Word) (o : CmdOut) : List Byte :=
  let long := o.long.take 256
  leBytes 2 c.opcode ++ [BitVec.ofNat 8 status, BitVec.ofNat 8 ((if long.isEmpty then 0 else 2) + (if journaled then 1 else 0))]
    ++ leBytes 2 c.tag.toNat ++ leBytes 2 long.length ++ leBytes 8 seq ++ wordBytes cycle ++ slice o.data 0 12

/-- A reply. -/
def Reply.make (c : CmdIn) (status : Nat) (journaled : Bool) (seq : Nat) (cycle : Word) (o : CmdOut) : Reply :=
  { bytes := replyBytes c status journaled seq cycle o, long := o.long.take 256, irq := c.irq }

/-- The reply with the phase of the completion queue. -/
def Reply.phased (r : Reply) (phase : Bool) : List Byte :=
  if phase then r.bytes.take 3 ++ [((r.bytes[3]?).getD 0#8) ||| 0x80#8] ++ r.bytes.drop 4 else r.bytes

/-- The depth of a queue pair, its three areas. -/
def State.qpDepth (s : State) (q : Nat) : Nat := 2 ^ s.fld Reg.qpCtrlSizeLog2 (qpBase q)
def State.qpSq (s : State) (q : Nat) : Nat := (s.reg (qpBase q + 0x08)).toNat + 2 ^ 32 * (s.reg (qpBase q + 0x0C)).toNat
def State.qpCq (s : State) (q : Nat) : Nat := (s.reg (qpBase q + 0x10)).toNat + 2 ^ 32 * (s.reg (qpBase q + 0x14)).toNat
def State.qpData (s : State) (q : Nat) : Nat := (s.reg (qpBase q + 0x18)).toNat + 2 ^ 32 * (s.reg (qpBase q + 0x1C)).toNat

/-- QP_STAT.cq_full follows the entries in use. -/
def State.cqStat (s : State) (q : Nat) : State :=
  s.setBit Reg.qpStatCqFull (decide (s.qpDepth q ≤ (s.qp q).used)) (qpBase q)

/-- One reply written to a completion queue (R365 to R367). -/
def State.writeReply (s : State) (q slot : Nat) (r : Reply) : State :=
  let b := qpBase q
  let tail := s.fld Reg.qpStatCqTail b
  let x := s.qp q
  let s := if r.long.isEmpty then s else s.emit (.hostWrite (s.qpData q + 256 * slot) r.long)
  let s := s.emit (.hostWrite (s.qpCq q + 32 * tail) (r.phased x.phase))
  let next := (tail + 1) % s.qpDepth q
  let s := s.setFld Reg.qpStatCqTail next b
  let s := (s.setQp q { x with used := x.used + 1, phase := if next = 0 then !x.phase else x.phase }).cqStat q
  if r.irq && s.bit Reg.qpCtrlIrqEn b then s.emit (.msix (q / 32) (q % 32)) else s

/-- The replies at the front of a pair's order, written (R369). -/
def State.flushOwed (s : State) (q : Nat) : List Owed → State
  | [] => s
  | o :: rest =>
    match o.reply with
    | none => s
    | some r =>
      let s := s.setQp q { s.qp q with owed := rest }
      State.flushOwed (s.writeReply q o.slot r) q rest

/-- Words written to consecutive registers. -/
def State.setRegs (s : State) (off : Nat) : List Word → State
  | [] => s
  | w :: r => State.setRegs (s.setReg off w) (off + 4) r

/-- Bytes as words, made up with zeros. -/
def wordsOfBytes (bs : List Byte) (n : Nat) : List Word := (List.range n).map (fun i => wordAtB bs (4 * i))

/-- A keeper window's reply (R381): KPR_DATA is written where there is long data; done is set, which sends vector 32, and busy ends. -/
def State.keeperReply (s : State) (f : Nat) (r : Reply) : State :=
  let b := kprBase f
  let s := (s.setRegs (b + 0x80) (wordsOfBytes r.bytes 8)).setRegs (b + 0x100) (wordsOfBytes r.long ((r.long.length + 3) / 4))
  ((s.setFld Reg.kprStatBusy 0 b).setFld Reg.kprStatDone 1 b).emit (.msix f 32)

/-- A reply on its way out of the port its command came by. -/
def State.deliver (s : State) (c : CmdIn) (r : Reply) : State :=
  match c.port with
  | .qp q =>
    let x := s.qp q
    let owed := x.owed.map (fun o => if c.slot = some o.slot ∧ c.era = o.era then { o with reply := some r } else o)
    (s.setQp q { x with owed := owed }).flushOwed q owed
  | .keeper f => if s.bit Reg.kprStatBusy (kprBase f) then s.keeperReply f r else s
  | .spi => { s with host := { s.host with spiBusy := false, spiReply := some (r.bytes ++ r.long) } }.emit (.pin "MGMT_IRQ_N" false)
  | .backbone p mac =>
    { s with host := { s.host with mgmt := s.host.mgmt.erase p } }.bbSend p (mgmtFrame mac.toNat (s.bbMac p) 2 (r.bytes ++ r.long))
  | .woadLine => { s with woad := { s.woad with reply := some (r.bytes ++ r.long) } }
  | .workItem _ => s

/-- The journaled replies of an active wait for the ACK of a ready standby (R427). -/
def State.ackHeld (s : State) (seq : Nat) : Bool :=
  decide (s.lsp.role = .active) && s.lsp.linkUp && s.lsp.partnerReady && decide (s.lsp.acked < seq)

/-- A reply sent, or held until its entry is acknowledged. -/
def State.answer (s : State) (c : CmdIn) (status : Nat) (journaled : Bool) (seq : Nat) (cycle : Word) (o : CmdOut) : State :=
  let r := Reply.make c status journaled seq cycle o
  if journaled && s.ackHeld seq then { s with host := { s.host with awaitAck := s.host.awaitAck ++ [(seq, c, r)] } }
  else s.deliver c r

/-- A command turned away: nothing but its reply, and the count of AUTH. -/
def State.turnAway (s : State) (c : CmdIn) (status : Nat) (data : List Byte := []) : State :=
  (if status = 4 then s.incFld Reg.cmdAuthErrAuth else s).answer c status false 0 s.cycle { data := data }

/-- The entry of a command (R388, R389). -/
def State.journalCmd (s : State) (c : CmdIn) (cycle : Word) : State :=
  s.journal (portOrigin c.port) (portIndex c.port) c.at_ c.opcode cycle c.param

/-- The cycle of effect (R374, R376). -/
def State.effectCycle (s : State) (k : CmdSpec) (c : CmdIn) : Word :=
  if !k.fenced then s.cycle
  else if !s.edgesRun then 0#32
  else if c.at_ then c.apply
  else s.nextOpen

/-- A command whose execution is under way, with the number of its entry and its cycle of effect (R372). -/
def State.awaitResult (s : State) (seq : Nat) (c : CmdIn) (cyc : Word) : State :=
  { s with host := { s.host with results := s.host.results ++ [(seq, { c with cyc := cyc })] } }

/-- An accepted command that changes state: journaled, then in effect or waiting for its cycle (R372, R374 to R376). A mailbox post
goes among the pending entries of its mailbox at once (R153, R164). -/
def State.takeEffect (s : State) (k : CmdSpec) (c : CmdIn) : State :=
  let cyc := s.effectCycle k c
  let s := s.journalCmd c cyc
  let seq := s.jnl.head
  if k.fenced && !k.post then
    if s.edgesRun then
      let s : State := { s with host := { s.host with fenced := s.host.fenced ++ [{ cmd := c, cycle := cyc, seq := seq }] } }
      if k.later then s.awaitResult seq c cyc
      else s.answer c 0 true seq cyc {}
    else if k.later then k.effect (s.awaitResult seq c cyc) c cyc
    else (k.effect s c cyc).answer c 0 true seq cyc {}
  else if k.post then (k.effect s c cyc).answer c 0 true seq cyc {}
  else if k.early then (k.run (s.answer c 0 true seq cyc {}) c seq cyc).1
  else
    let r := k.run s c seq cyc
    if r.2.wait then r.1.awaitResult seq c cyc
    else r.1.answer c r.2.status true seq cyc r.2

/-- A command checked, and turned away, answered, or put into effect (R370). -/
def State.process (s : State) (k : CmdSpec) (c : CmdIn) : State :=
  let v := s.verdict k c
  if v ≠ 0 then (k.turned s c v).turnAway c v (k.why s c v)
  else if k.query then
    let r := k.run s c 0 s.cycle
    r.1.answer c r.2.status false 0 (k.cyc s) r.2
  else s.takeEffect k c

/-- The command whose result came, by its opcode, with its entry's number. -/
def State.resultOf (s : State) (opcode : Nat) : Option (Nat × CmdIn) := s.host.results.find? (fun x => x.2.opcode == opcode)

/-- The reply of a command that answers with its result (R372). -/
def State.finish (s : State) (x : Nat × CmdIn) (status : Nat) (o : CmdOut) : State :=
  { s with host := { s.host with results := s.host.results.filter (fun y => !decide (y.1 = x.1)) } }.answer x.2 status true x.1
    x.2.cyc o

/-! ### Arrival (R357, R367, R381, R386, R387) -/

/-- A completion entry is free for one more command of a pair (R367). -/
def State.cqRoom (s : State) (q : Nat) : Bool := decide ((s.qp q).used + (s.qp q).owed.length < s.qpDepth q)

/-- The backbone port carries frames: enabled, locked, the bypass switch open (R352). -/
def State.bbUp (s : State) (p : Nat) : Bool :=
  s.bit Reg.bbCtrlEn (bbBase p) && s.bit Reg.bbStatLock (bbBase p) && !s.bit Reg.bbPairCtrlClosed

/-- A command arrives on a port: the state with the port taken, and the slot, when the port takes it. `none` leaves the state
given. -/
def State.arrive (s : State) (port : Port) (tag : BitVec 16) : State × Option (Option Nat) :=
  match s.mode with
  | .off => (s, none)
  | .reset => (s, none)
  | _ =>
    match port with
    | .qp q =>
      let b := qpBase q
      let head := s.fld Reg.qpStatSqHead b
      if 64 ≤ q || !s.bit Reg.qpCtrlEn b || decide (head = s.fld Reg.qpSqTailTail b) || !s.cqRoom q then (s, none)
      else
        let x := s.qp q
        ((s.setFld Reg.qpStatSqHead ((head + 1) % s.qpDepth q) b).setQp q { x with owed := x.owed ++ [⟨head, tag, none, x.era⟩] },
          some (some head))
    | .keeper f =>
      if 2 ≤ f then (s, none)
      else if s.bit Reg.kprStatBusy (kprBase f) then (s.setFld Reg.kprStatDropped 1 (kprBase f), none)
      else (s.setFld Reg.kprStatBusy 1 (kprBase f), some none)
    | .spi =>
      if s.host.spiBusy || s.host.spiReply.isSome then (s.incFld Reg.cmdStatDrop, none)
      else ({ s with host := { s.host with spiBusy := true } }, some none)
    | .backbone p _ =>
      if 2 ≤ p || !s.bbUp p then (s, none)
      else if s.host.mgmt.contains p then (s.incFld Reg.cmdStatDrop, none)
      else ({ s with host := { s.host with mgmt := s.host.mgmt ++ [p] } }, some none)
    | .woadLine => (s, some none)
    | .workItem _ => (s, none)

/-- The keeper serves an always-available command of its own ports, at once (R381). -/
def CmdSpec.keepers (k : CmdSpec) (c : CmdIn) : Bool :=
  k.always && (match c.port with | .keeper _ => true | .spi => true | _ => false)

/-- Any other command waits for its turn while one waits at any source (R369). -/
def State.mustWait (s : State) (k : CmdSpec) (c : CmdIn) : Bool := !k.keepers c && !s.host.waiting.isEmpty

/-- The command processor takes a command of a source: the turn has come to it (R369), and commands are taken (R373, R379). -/
def State.taken (s : State) (src : Nat) : State :=
  { s with host := { s.host with turn := src, stalled := false } }.setFld Reg.cmdStatFwAlive 1

/-- The state in which a command that need not wait is judged. -/
def State.judged (s : State) (k : CmdSpec) (c : CmdIn) : State := if k.keepers c then s else s.taken (portSrc c.port)

/-- The enabling of a queue pair that fetches a command (R367). -/
def State.eraOf (s : State) : Port → Nat
  | .qp q => (s.qp q).era
  | _ => 0

/-- A command put into the waiting line of its source, with its instant of arrival. -/
def State.wait (s : State) (c : CmdIn) : State :=
  { s with host := { s.host with waiting := s.host.waiting ++ [⟨portSrc c.port, c, none, s.time.s.toNat, s.time.ns.toNat⟩] } }

/-- A row of the table: the command arrives on its port and, when no command waits, is taken at once (log entry 51). -/
def State.command (s : State) (k : CmdSpec) (r : CmdReq) : State :=
  match s.arrive r.port r.tag with
  | (s, none) => s
  | (s, some slot) =>
    let c := { CmdIn.ofReq r k.opcode slot with era := s.eraOf r.port }
    if s.mustWait k c then s.wait c else (s.judged k c).process k c

end Sys2Proof.Machine
end

