-- ==== Sys2Proof/Machine/TimeUnit.lean ====
section
/-! DEFINITION. The time unit's own rows (R330 to R338, R348 to R351, R355): increments, ramps, holdover, PPS_OUT and the clock
outputs.
Log: DEDUCED 64, 65, 147, 211, 212. DESIGN CHOICE 63, 191. -/

namespace Sys2Proof.Machine

/-! ### Increments (R331, R333, R334) -/

/-- The target of the two registers. -/
def State.tgtRegs (s : State) : Nat := s.fld Reg.timeIncTgtHi * 2 ^ 32 + s.fld Reg.timeIncTgtLo

/-- A target committed: it restarts the holdover timer (R335), and with step 0 in force it is taken at the first tick. -/
def State.commitTarget (s : State) (v : Nat) : State :=
  let t := s.time
  ({ s with time := { t with tgt := BitVec.ofNat 48 v, takeTgt := decide (t.step = 0#16), hold := t.ran } }.setFld Reg.timeStatStale 0).rampStat

/-- The commit of a write of TIME_INC_TGT_HI (R331, R333). -/
def State.incTgtWrite (s : State) (data : Word) : State :=
  let s := s.storeReg 0x40002C data
  let v := s.tgtRegs
  if 0x01FF7CED9168 ≤ v ∧ v ≤ 0x020083126E98 then s.commitTarget v
  else
    (((s.setReg 0x400028 0#32).setReg 0x40002C 0x200#32).setBit Reg.timeCtrlCfgWarn true).commitTarget 0x020000000000

/-- TIME_INC_TGT_COMMIT (R331, R333, R334); in STANDBY the register ignores the host's writes (R432). -/
def execTimeIncTgtCommit (w : RegWrite) (s : State) : Host.Outcome State Fault Refusal :=
  .next (s.ownWrite w (w.off == 0x40002C) (fun s => if s.mode = .standby then s else s.incTgtWrite w.data))

/-- RAMP_BOUNDARY (R333, R334): the counter runs on to the next boundary. -/
def execRampBoundary (s : State) : Host.Outcome State Fault Refusal :=
  .next (if s.awake then (s.ticks s.time.left).rampStat else s)

/-- TIME_SLEW_WRITE (R333): the registers; the next boundary takes them over. -/
def execTimeSlewWrite (w : RegWrite) (s : State) : Host.Outcome State Fault Refusal :=
  .next (s.ownWrite w (w.off == 0x400030) (fun s => s.storeReg w.off w.data))

/-- TIME_HOLD_WRITE (R335): the holdover timer counts from this write. -/
def execTimeHoldWrite (w : RegWrite) (s : State) : Host.Outcome State Fault Refusal :=
  .next (s.ownWrite w (w.off == 0x400034) (fun s =>
    let s := s.storeReg w.off w.data
    { s with time := { s.time with hold := s.time.ran } }))

/-- HOLDOVER_EXPIRY (R335, R354): the counter runs on to the end of stale_ms, 500,000 ticks to a millisecond, from the last commit or
write of TIME_HOLD; once, while the timer is on. -/
def execHoldoverExpiry (s : State) : Host.Outcome State Fault Refusal :=
  .next (
    let ms := s.fld Reg.timeHoldStaleMs
    if !s.awake || decide (ms = 0) || s.bit Reg.timeStatStale then s
    else
      let s := s.runTo (s.time.hold + 500000 * ms)
      (s.setFld Reg.timeStatStale 1).raise 0x50 1 10 96)

/-! ### Reading the time (R332) -/

/-- Bits [39:24] of the fraction. -/
def State.subNs (s : State) : Nat := s.time.frac.toNat / 2 ^ 24

/-- The latch of a read of TIME_NOW_SUB. -/
def State.latchTime (s : State) : State := { s with time := { s.time with latNs := s.time.ns, latS := s.time.s } }

/-- TIME_NOW_SUB_READ (R332). -/
def execTimeNowSubRead (r : RegRead) (s : State) : Host.Outcome State Fault Refusal :=
  .next (if !s.awake || r.off ≠ 0x400010 then s
    else
      let y := s.latchTime.unsure r.off (BitVec.ofNat 32 s.subNs)
      y.1.emit (.readData r.fn r.off y.2))

/-! ### PPS_OUT (R350, R351) -/

/-- The whole second of the next rise (R350): the first whose first tick has not gone by, from `ppsFrom` on. -/
def State.ppsDue (s : State) : Nat :=
  max s.time.ppsFrom ((((s.time.total : Int) - s.time.inc.toNat) / (1000000000 * 2 ^ 40) + 1).toNat)

/-- The pulses of whole seconds that the counter has passed since the last rise (R350), the latest first. -/
def State.ppsPassed (s : State) : State :=
  { s with sent := (List.replicate (s.ppsDue - s.time.ppsFrom) [Output.pin "PPS_OUT" false, Output.pin "PPS_OUT" true]).flatten ++ s.sent }

/-- PPS_RISE (R350): the counter runs on to the whole second of the rise; every second it has passed has had its pulse before. -/
def execPpsRise (s : State) : Host.Outcome State Fault Refusal :=
  .next (if !s.awake || s.time.ppsHigh then s
    else
      let s := s.ppsPassed.advanceTo (sec16 s.ppsDue)
      let sec := s.time.s.toNat
      let width := ns16 ((s.fld Reg.timePpsWidthUs : Int) * 1000)
      { s with time := { s.time with ppsHigh := true, ppsFrom := sec + 1, ppsEnd := sec16 sec + width } }.emit
        (.pin "PPS_OUT" true))

/-- PPS_FALL (R350). -/
def execPpsFall (s : State) : Host.Outcome State Fault Refusal :=
  .next (if !s.awake || !s.time.ppsHigh then s
    else
      let s := s.advanceTo s.time.ppsEnd
      { s with time := { s.time with ppsHigh := false } }.emit (.pin "PPS_OUT" false))

/-- PPS_OUT when the time value is written (R350): a pulse that is high completes its width, and the next rise is the first
whole second at least a width after its end. -/
def State.ppsAfterSet (s : State) (old : Int) : State :=
  if s.time.ppsHigh then
    let e := s.time.ppsEnd + (s.now16 - old)
    let w := ns16 ((s.fld Reg.timePpsWidthUs : Int) * 1000)
    { s with time := { s.time with ppsEnd := e, ppsFrom := ((e + w + 65536000000000 - 1) / 65536000000000).toNat } }
  else { s with time := { s.time with ppsFrom := s.time.s.toNat + 1 } }

/-! ### Clock outputs (R348, R349) -/

/-- A period in 2^−32 ns. -/
def ClkSet.units (c : ClkSet) : Int := c.per.toNat * 2 ^ 32 + c.frac.toNat

/-- The half periods begun at an instant since the rising edge of a stretch; each begins at an edge cut to 2^−16 ns. -/
def ClkSeg.half (g : ClkSeg) (t : Int) : Int := ((t - g.rise + 1) * 2 ^ 17 - 1) / g.set.units

/-- The edge that begins a half period: rising for an even number, falling for an odd one. -/
def ClkSeg.edge (g : ClkSeg) (m : Int) : Int := g.rise + m * g.set.units / 2 ^ 17

/-- A stretch's first rising edge later than an instant, and its first falling edge. -/
def ClkSeg.nextRise (g : ClkSeg) (t : Int) : Int := if t < g.rise then g.rise else g.edge (g.half t + 2 - g.half t % 2)
def ClkSeg.nextFall (g : ClkSeg) (t : Int) : Int := g.edge (if t < g.rise then 1 else g.half t + 1 + g.half t % 2)

/-- A stretch stands at an instant; it is over. -/
def ClkSeg.ended (g : ClkSeg) (t : Int) : Bool := (g.till.map (fun e => decide (e ≤ t))).getD false
def ClkSeg.covers (g : ClkSeg) (t : Int) : Bool := decide (g.rise ≤ t) && !g.ended t

/-- The level of CLK_OUT_k: high in the first half of each period (R348); low in reset (R351). -/
def State.clkPin (s : State) (k : Nat) : Bool :=
  s.awake && (Tab.get [] s.time.clkNow k).any (fun g => g.covers s.now16 && decide (g.half s.now16 % 2 = 0))

/-- The half period of the higher of two frequencies. -/
def ClkSet.half (a b : ClkSet) : Int := min a.units b.units / 2 ^ 17

/-- The stretches that matter at an instant: those not over, after the last one that is. -/
def clkLive (gs : List ClkSeg) (t : Int) : List ClkSeg :=
  (gs.filter (fun g => g.ended t)).getLast?.toList ++ gs.filter (fun g => !g.ended t)

/-- The wave once a setting has locked: it takes over at the next rising edge, and an output that is off begins at the next whole second
(R348, R349). One that is yet to stop begins at the first whole second that leaves the low half after its last fall whole (R349). -/
def clkTake (gs : List ClkSeg) (c : ClkSet) (t : Int) : List ClkSeg :=
  let gs := clkLive gs t
  match gs.getLast? with
  | some g =>
    match g.till with
    | none => gs.dropLast ++ (if t < g.rise then [] else [{ g with till := some (g.nextRise t) }]) ++ [⟨c, g.nextRise t, none⟩]
    | some e => gs ++ [⟨c, sec16 ((max t (e + g.set.half c - 1)) / sec16 1 + 1).toNat, none⟩]
  | none => [⟨c, sec16 (t / sec16 1 + 1).toNat, none⟩]

/-- The wave after a commit with en = 0 (R349): it ends at the output's next falling edge; an output that has not begun stays low. -/
def clkStop (gs : List ClkSeg) (t : Int) : List ClkSeg :=
  (gs.filter (fun g => g.ended t)).getLast?.toList ++
  match gs.filter (fun g => !g.ended t) with
  | [] => []
  | g :: rest =>
    if t < g.rise then []
    else if !g.ended (g.nextFall t) then [{ g with till := some (g.nextFall t) }]
    else g :: (rest.filter (fun h => g.till == some h.rise)).map (fun h => { h with till := some (h.nextFall t) })

/-- The wave after the time value is written: it goes on as it was, and one that has not begun waits for the next whole second
(log entry 191). -/
def clkMoved (gs : List ClkSeg) (old new : Int) : List ClkSeg :=
  let gs := clkLive gs old
  let begun := gs.any (fun g => g.covers old)
  gs.map (fun g => if begun || g.ended old then { g with rise := g.rise + (new - old), till := g.till.map (· + (new - old)) }
    else { g with rise := sec16 (new / sec16 1 + 1).toNat })

/-- The wave of an output changed. -/
def State.clkWave (s : State) (k : Nat) (f : List ClkSeg → List ClkSeg) : State :=
  { s with time := { s.time with clkNow := Tab.put [] s.time.clkNow k (f (Tab.get [] s.time.clkNow k)) } }

/-- The commit of a clock output: a reserved period resets both registers and sets CFG_WARN, and no period is committed; with
en = 0 the output stops at its next falling edge, and otherwise the setting awaits lock. -/
def State.clkCommit (s : State) (k : Nat) (data : Word) : State :=
  let b := 0x10 * k
  let s := s.storeReg (0x400058 + b) data
  let per := s.fld Reg.timeClkPer b
  let frac := s.fld Reg.timeClkFrac b
  let p := per * 2 ^ 32 + frac
  let ok := decide (8 * 2 ^ 32 ≤ p ∧ p ≤ 1000000000 * 2 ^ 32)
  let s := if ok then s
    else ((s.setFld Reg.timeClkPer 0 b).setFld Reg.timeClkFrac 0 b).setBit Reg.timeCtrlCfgWarn true
  if !dataBit data 31 then
    let s := s.clkWave k (fun gs => clkStop gs s.now16)
    { s with time := { s.time with clkNext := Tab.drop s.time.clkNext k } }.setFld Reg.timeClkCtrlPending 0 b
  else if ok then
    { s with time := { s.time with clkNext := Tab.ins (Tab.drop s.time.clkNext k) k ⟨BitVec.ofNat 32 per, BitVec.ofNat 32 frac⟩ } }.setFld
      Reg.timeClkCtrlPending 1 b
  else s

/-- CLK_OUT_COMMIT (R348, R349). -/
def execClkOutCommit (w : RegWrite) (s : State) : Host.Outcome State Fault Refusal :=
  .next (s.ownWrite w (w.off == 0x400058 || w.off == 0x400068) (fun s => s.clkCommit ((w.off - 0x400058) / 0x10) w.data))

/-- CLK_OUT_LOCK (R349): the setting that awaited lock takes over. -/
def execClkOutLock (k : Nat) (s : State) : Host.Outcome State Fault Refusal :=
  .next (match Tab.find s.time.clkNext k with
    | none => s
    | some c =>
      let s := s.clkWave k (fun gs => clkTake gs c s.now16)
      { s with time := { s.time with clkNext := Tab.drop s.time.clkNext k } }.setFld Reg.timeClkCtrlPending 0 (0x10 * k))

/-! ### Commands (R355) -/

/-- TIME_STATUS_GET. -/
def specTimeStatusGet : CmdSpec :=
  { opcode := 0x0600, query := true
    run := fun s _ _ _ => (s, .ofLong (wordBytes (s.reg 0x400004) ++ leBytes 4 s.subNs
      ++ wordBytes s.time.ns ++ leBytes 8 s.time.s.toNat ++ leBytes 8 s.time.inc.toNat)) }

/-- The time value written (R338). -/
def State.setTime (s : State) (sec ns : Nat) : State :=
  let old := s.now16
  let s := ({ s with time := { s.time with s := BitVec.ofNat 64 sec, ns := BitVec.ofNat 32 ns, frac := 0#40 } }).ppsAfterSet old
  let s := (s.clkWave 0 (fun gs => clkMoved gs old s.now16)).clkWave 1 (fun gs => clkMoved gs old s.now16)
  if s.edgesRun then s.restartGrid else s

/-- TIME_SET. -/
def specTimeSet : CmdSpec :=
  { opcode := 0x0601, rank := 4, named := [(0, 12)]
    bad := fun _ c => decide (1000000000 ≤ c.p32 8)
    mode := fun s _ => match s.mode with | .standby => true | .armed => true | .run => true | .degraded => true | _ => false
    run := fun s c _ _ => (s.setTime (c.p64 0) (c.p32 8), {}) }

def execTimeStatusGet (r : CmdReq) (s : State) : Host.Outcome State Fault Refusal := .next (s.command specTimeStatusGet r)
def execTimeSet (r : CmdReq) (s : State) : Host.Outcome State Fault Refusal := .next (s.command specTimeSet r)

end Sys2Proof.Machine
end

