-- ==== Sys2Proof/Machine/Backbone.lean ====
section
/-! DEFINITION. The two backbone ports (R339 to R347, R352 to R354): frames, stamps, host rings, the bypass switch.
Log: DEDUCED 66, 73, 146, 178, 179. -/

namespace Sys2Proof

/-! ### Event messages (R343, R344) -/

/-- Bytes replaced from a place on. -/
def patch (bs : List Byte) (at_ : Nat) (new : List Byte) : List Byte :=
  bs.take at_ ++ new ++ bs.drop (at_ + new.length)

/-- The number of some bytes in wire order. -/
def beNumAt (bs : List Byte) (at_ n : Nat) : Nat := ((bs.drop at_).take n).foldl (fun a b => a * 256 + b.toNat) 0

/-- Where the PTP message of a recognised frame begins, and where its UDP checksum lies, if it has one (R343). -/
def ptpPlace (bs : List Byte) : Nat × Option Nat :=
  let t := if beNumAt bs 12 2 = 0x8100 then 16 else 12
  if beNumAt bs t 2 = 0x0800 then
    let ip := t + 2
    let udp := ip + 4 * (beNumAt bs ip 1 % 16)
    (udp + 8, some (udp + 6))
  else (t + 2, none)

/-- A recognised IEEE 1588-2019 event message (R343): ethertype 0x88F7, or UDP over IPv4 to port 319, after at most one tag; version 2,
message type 0 to 3. -/
def ptpEvent (bs : List Byte) : Bool :=
  let t := if beNumAt bs 12 2 = 0x8100 then 16 else 12
  let ip := t + 2
  let udp := ip + 4 * (beNumAt bs ip 1 % 16)
  let carried := decide (beNumAt bs t 2 = 0x88F7)
    || decide (beNumAt bs t 2 = 0x0800 ∧ beNumAt bs ip 1 / 16 = 4 ∧ beNumAt bs (ip + 9) 1 = 17 ∧ beNumAt bs (udp + 2) 2 = 319)
  let m := (ptpPlace bs).1
  carried && decide (m + 2 ≤ bs.length ∧ beNumAt bs (m + 1) 1 % 16 = 2 ∧ beNumAt bs m 1 % 16 ≤ 3)

/-- The residence time added to correctionField, the UDP checksum set to 0 (R344). -/
def addResidence (bs : List Byte) (res : Int) : List Byte :=
  let x := ptpPlace bs
  let old := beNumAt bs (x.1 + 8) 8
  let new := ((old : Int) + res) % 2 ^ 64
  let bs := patch bs (x.1 + 8) ((List.range 8).map (fun i => BitVec.ofNat 8 (new.toNat / 256 ^ (7 - i))))
  match x.2 with
  | some u => patch bs u [0#8, 0#8]
  | none => bs

end Sys2Proof

namespace Sys2Proof.Machine

/-! ### Stamps (R342, R345) -/

/-- A signed 16-bit correction. -/
def signed16 (n : Nat) : Int := if n < 32768 then n else (n : Int) - 65536

/-- Ingress and egress stamps at an instant. -/
def State.rxStamp (s : State) (p : Nat) (x : Int) : Int := x + signed16 (s.fld Reg.bbTsCorrRx (bbBase p))
def State.txStamp (s : State) (p : Nat) (x : Int) : Int := x + signed16 (s.fld Reg.bbTsCorrTx (bbBase p))

/-- The parts of a stamp: sub-nanoseconds, nanoseconds, seconds. -/
def stampSub (x : Int) : Nat := (x % 65536).toNat
def stampNs (x : Int) : Nat := (x / 65536 % 1000000000).toNat
def stampS (x : Int) : Nat := (x / 65536000000000).toNat

/-- The registers of the stamp queue follow its oldest entry. -/
def State.showTsq (s : State) (p : Nat) : State :=
  let b := bbBase p
  let q := (s.bbSt p).tsq
  let s := s.setFld Reg.bbStatTsqCount q.length b
  match q with
  | [] => (((s.setReg (b + 0x18) 0#32).setReg (b + 0x1C) 0#32).setReg (b + 0x20) 0#32).setRegs (b + 0x24) [0#32, 0#32]
  | e :: _ =>
    (((s.setReg (b + 0x18) (e.id.setWidth 32 ||| 0x10000#32)).setReg (b + 0x1C) (e.sub.setWidth 32)).setReg (b + 0x20) e.ns).setRegs
      (b + 0x24) [e.s.setWidth 32, (e.s >>> 32).setWidth 32]

/-- A stamp placed in the queue, or lost (R345). -/
def State.pushStamp (s : State) (p : Nat) (id : BitVec 16) (x : Int) : State :=
  let b := s.bbSt p
  if 16 ≤ b.tsq.length then (s.setFld Reg.bbStatTsqOvf 1 (bbBase p)).incFld Reg.bbTsqLost (bbBase p)
  else
    let e : Stamp := ⟨id, BitVec.ofNat 16 (stampSub x), BitVec.ofNat 32 (stampNs x), BitVec.ofNat 64 (stampS x)⟩
    (s.setBbSt p { b with tsq := b.tsq ++ [e] }).showTsq p

/-! ### Host rings (R347) -/

/-- The address of a descriptor. -/
def State.bbTxAddr (s : State) (p i : Nat) : Nat :=
  (s.reg (bbBase p + 0x30)).toNat + 2 ^ 32 * (s.reg (bbBase p + 0x34)).toNat + 32 * i
def State.bbRxAddr (s : State) (p i : Nat) : Nat :=
  (s.reg (bbBase p + 0x44)).toNat + 2 ^ 32 * (s.reg (bbBase p + 0x48)).toNat + 32 * i

/-- A descriptor is free in the receive ring; one waits in the transmit ring. -/
def State.rxFree (s : State) (p : Nat) : Bool :=
  let b := bbBase p
  decide (0 < s.fld Reg.bbRxLen b ∧ s.fld Reg.bbRxHead b ≠ s.fld Reg.bbRxTail b)
def State.txWaits (s : State) (p : Nat) : Bool :=
  let b := bbBase p
  decide (0 < s.fld Reg.bbTxLen b ∧ s.fld Reg.bbTxHead b ≠ s.fld Reg.bbTxTail b)

/-- The descriptor at the transmit head retired with a status: done is written back, and the head moves on. -/
def State.retireTx (s : State) (p : Nat) (d : BbTxDesc) (status : Nat) : State :=
  let b := bbBase p
  let head := s.fld Reg.bbTxHead b
  let flags := (if d.timed then 2 else 0) + (if d.tsReq then 1 else 0) + 0x8000
  let s := s.emit (.hostWrite (s.bbTxAddr p head + 10) (leBytes 2 flags ++ leBytes 2 d.tsId.toNat ++ [BitVec.ofNat 8 status]))
  (s.setFld Reg.bbTxHead ((head + 1) % s.fld Reg.bbTxLen b) b).setBbSt p { s.bbSt p with headAt := s.now16 }

/-- A frame for the receive ring (R340, R347): its data and its descriptor, or the count of R347. -/
def State.toRxRing (s : State) (p : Nat) (f : BbFrame) (bytes : List Byte) (x : Int) : State :=
  let b := bbBase p
  if !s.rxFree p then s.incFld Reg.bbCntRxErr b
  else
    let head := s.fld Reg.bbRxHead b
    let s := s.emit (.hostWrite f.buf bytes)
    let s := s.emit (.hostWrite (s.bbRxAddr p head + 8) (leBytes 2 (f.length - 4) ++ leBytes 2 (0x8000 + (if ptpEvent bytes then 1 else 0))
      ++ leBytes 2 (stampSub x) ++ leBytes 2 0 ++ leBytes 4 (stampNs x) ++ leBytes 8 (stampS x)))
    s.setFld Reg.bbRxHead ((head + 1) % s.fld Reg.bbRxLen b) b

/-! ### Receiving (R339, R340) -/

/-- A number in wire order. -/
def beBytes (k n : Nat) : List Byte := (leBytes k n).reverse

/-- The bytes of a received frame. -/
def bbFrameBytes (f : BbFrame) : List Byte :=
  beBytes 6 f.dst.toNat ++ beBytes 6 f.src.toNat ++ beBytes 2 f.ethertype.toNat ++ f.payload

/-- The forwarding buffer of 64 KiB holds one more frame. -/
def State.fwdRoom (s : State) (p n : Nat) : Bool :=
  decide (((s.bbSt p).fwd.map (fun f => f.bytes.length)).foldl (· + ·) 0 + n ≤ 65536)

/-- A frame forwarded to the other port. -/
def State.forwardFrame (s : State) (p : Nat) (bytes : List Byte) (x : Int) : State :=
  let o := 1 - p
  if !s.bit Reg.bbCtrlFwdEn (bbBase p) || !s.bbUp o then s
  else if !s.fwdRoom o bytes.length then s.incFld Reg.bbCntFwdDrop (bbBase p)
  else s.setBbSt o { s.bbSt o with fwd := (s.bbSt o).fwd ++ [⟨ptpEvent bytes, x, bytes⟩] }

/-- A management frame (R387): a command waits for its turn. -/
def State.mgmtFrameIn (s : State) (p : Nat) (f : BbFrame) : State :=
  if numAt f.payload 0 2 ≠ 1 then s
  else
    let c := CmdIn.ofPacket (.backbone p f.src) (slice f.payload 4 64) none
    match s.arrive c.port c.tag with
    | (s, none) => s
    | (s, some _) => s.wait c

/-- A frame by its destination (R340). -/
def State.bbDeliver (s : State) (p : Nat) (f : BbFrame) : State :=
  let mine := decide (f.dst.toNat = s.bbMac p)
  let bytes := bbFrameBytes f
  let x := s.rxStamp p s.now16
  if mine && decide (f.ethertype = 0x88B5#16) then s.mgmtFrameIn p f
  else if mine then s.toRxRing p f bytes x
  else if f.dst.getLsbD 40 then (s.toRxRing p f bytes x).forwardFrame p bytes x
  else s.forwardFrame p bytes x

/-- BB_FRAME_RECEIVE (R339, R340). -/
def execBbFrameReceive (port : Nat) (f : BbFrame) (s : State) : Host.Outcome State Fault Refusal :=
  .next (if 2 ≤ port || !s.awake || !s.bbUp port then s
    else if !f.fcsOk || decide (1522 < f.length) then s.incFld Reg.bbCntRxErr (bbBase port)
    else if f.length < 64 then s
    else s.bbDeliver port f)

/-! ### Transmitting (R341, R344 to R346) -/

/-- A forwarded frame leaves (R344). -/
def State.sendForwarded (s : State) (p : Nat) (f : BbFwd) (rest : List BbFwd) : State :=
  let egress := s.txStamp p s.now16
  let bytes := if f.ptp && s.bit Reg.bbCtrlTcEn (bbBase p) then addResidence f.bytes (egress - f.stamp) else f.bytes
  (s.setBbSt p { s.bbSt p with fwd := rest }).emit (.backbone p bytes)

/-- The frame of a descriptor leaves at an instant and its descriptor is retired. -/
def State.sendRing (s : State) (p : Nat) (d : BbTxDesc) (x : Int) : State :=
  let s := s.emit (.backbone p d.frame)
  let s := if d.tsReq then s.pushStamp p d.tsId (s.txStamp p x) else s
  s.retireTx p d 0

/-- The descriptor at the head of the transmit ring as it comes there (R346, R347): one of a bad length or a bad launch time is retired,
a timed one waits for its launch; true where the frame may leave at once. -/
def State.headTx (s : State) (p : Nat) (d : BbTxDesc) : State × Bool :=
  let at_ := (s.bbSt p).headAt
  if d.length < 60 ∨ 1518 < d.length then (s.retireTx p d 3, false)
  else if !d.timed then (s, true)
  else if (txLaunch d - at_) * 100 < s.maxFrame100 p then ((s.incFld Reg.bbLateLate (bbBase p)).retireTx p d 0x0B, false)
  else if txLaunch d - at_ > sec16 1 then (s.retireTx p d 3, false)
  else (s.setBbSt p { s.bbSt p with timed := some d }, false)

/-- The part's own frames that waited for a guard leave. -/
def State.sendHeld (s : State) (p : Nat) : State :=
  (s.bbSt p).held.foldl (fun s bs => s.sendFrame (.backbone p bs)) (s.setBbSt p { s.bbSt p with held := [] })

/-- BB_FRAME_TRANSMIT (R341, R346): the descriptor at the head is looked at first; nothing leaves within the guard of a timed frame;
forwarded frames leave before the ring's, and no frame of the ring before a timed one ahead of it. -/
def execBbFrameTransmit (port : Nat) (d : BbTxDesc) (s : State) : Host.Outcome State Fault Refusal :=
  .next (if 2 ≤ port || !s.awake || !s.bbUp port || s.power.handling then s
    else
      let y := if (s.bbSt port).timed.isNone && s.txWaits port then s.headTx port d else (s, false)
      if y.1.bbGuard port then y.1
      else
        let s := y.1.sendHeld port
        match (s.bbSt port).fwd with
        | f :: rest => s.sendForwarded port f rest
        | [] => if y.2 then s.sendRing port d s.now16 else s)

/-- BB_TIMED_LAUNCH (R346): the timed frame leaves at its launch time; when that has gone by it retires LATE. -/
def execBbTimedLaunch (port : Nat) (s : State) : Host.Outcome State Fault Refusal :=
  .next (if 2 ≤ port || !s.awake || !s.bbUp port || s.power.handling then s
    else
      match (s.bbSt port).timed with
      | none => s
      | some d =>
        let late := decide (txLaunch d < s.now16)
        let s := (s.setBbSt port { s.bbSt port with timed := none }).advanceTo (txLaunch d)
        (if late then (s.incFld Reg.bbLateLate (bbBase port)).retireTx port d 0x0B else s.sendRing port d (txLaunch d)).sendHeld port)

/-- A transmit tail written: in an empty ring the next descriptor comes to the head. -/
def State.txTail (s : State) (p : Nat) (w : RegWrite) : State :=
  let t := s.storeReg w.off w.data
  if s.txWaits p then t else t.setBbSt p { t.bbSt p with headAt := t.now16 }

/-- BB_TX_TAIL_WRITE and BB_RX_TAIL_WRITE (R346, R347). -/
def execBbTxTailWrite (w : RegWrite) (s : State) : Host.Outcome State Fault Refusal :=
  .next (s.ownWrite w (w.off == 0x40103C || w.off == 0x40203C) (fun s => s.txTail ((w.off - 0x401000) / 0x1000) w))
def execBbRxTailWrite (w : RegWrite) (s : State) : Host.Outcome State Fault Refusal :=
  .next (s.ownWrite w (w.off == 0x401058 || w.off == 0x402058) (fun s => s.storeReg w.off w.data))

/-- The oldest stamp freed. -/
def State.popStamp (s : State) (p : Nat) (data : Word) : State :=
  if !dataBit data 0 then s else (s.setBbSt p { s.bbSt p with tsq := (s.bbSt p).tsq.drop 1 }).showTsq p

/-- BB_TSQ_POP_WRITE (R345). -/
def execBbTsqPopWrite (w : RegWrite) (s : State) : Host.Outcome State Fault Refusal :=
  .next (s.ownWrite w (w.off == 0x401014 || w.off == 0x402014) (fun s => s.popStamp ((w.off - 0x401014) / 0x1000) w.data))

/-! ### Lock and bypass (R352 to R354) -/

/-- The conditions that keep the backbone switch closed (R352). -/
def State.bbWantClosed (s : State) : Bool :=
  !s.awake || s.bit Reg.bbPairCtrlBypass || s.bypassSet.contains 8 || s.power.handling

/-- BB_LOCK_LOSS (R354). -/
def execBbLockLoss (port : Nat) (s : State) : Host.Outcome State Fault Refusal :=
  .next (if 2 ≤ port || !s.awake || !s.bit Reg.bbStatLock (bbBase port) then s
    else
      let s := s.setFld Reg.bbStatLock 0 (bbBase port)
      if s.bit Reg.bbCtrlEn (bbBase port) && !s.bit Reg.bbPairCtrlClosed then s.raise 0x51 1 10 (92 + port) else s)

/-- BB_BLOCK_LOCK (R352): a port with its switch open locks. -/
def execBbBlockLock (port : Nat) (s : State) : Host.Outcome State Fault Refusal :=
  .next (if 2 ≤ port || !s.awake || s.bit Reg.bbPairCtrlClosed || !s.bit Reg.bbCtrlEn (bbBase port) then s
    else s.setFld Reg.bbStatLock 1 (bbBase port))

/-- BB_BYPASS_WRITE (R352): the bit; the switch moves until BYPASS_SWITCH_COMPLETE. -/
def execBbBypassWrite (w : RegWrite) (s : State) : Host.Outcome State Fault Refusal :=
  .next (s.ownWrite w (w.off == 0x400100) (fun s => s.storeReg w.off w.data))

/-- The backbone switch has moved (R352, R353): closed, both ports are down, and their receivers invert no more (R271, R339). -/
def State.bbSwitchDone (s : State) : State :=
  let c := s.bbWantClosed
  let s := s.setBit Reg.bbPairCtrlClosed c
  if c then [0, 1].foldl (fun s p => (s.setBit Reg.bbStatLock false (bbBase p)).setBit Reg.bbStatInv false (bbBase p)) s else s

/-- BYPASS_N (R516): low while a bypass switch is closed, released while all are open; none without VHOLD, where the ball is high
impedance. -/
def State.bypassN (s : State) : Option Bool :=
  if !s.power.vholdOk then none
  else some (!s.bit Reg.bbPairCtrlClosed && (List.range s.ringCount).all (fun r => !s.bit Reg.xwStatBypassClosed (ringBase r)))

/-- The pin shows a change since a state. -/
def State.showBypass (s old : State) : State :=
  match s.bypassN with
  | some level => if old.bypassN = some level then s else s.emit (.pin "BYPASS_N" level)
  | none => s

end Sys2Proof.Machine
end

