-- ==== Sys2Proof/Machine/Cell.lean ====
section
/-! DEFINITION. How a cell issues one instruction: squash, budget, stage suppression, the effect of a compute operation with
its two accesses, loops, faults (R59 to R74, R88 to R91, R104, R105).
Log: DEDUCED 23, 24, 151, 152. DESIGN CHOICE 16, 22, 165, 166. -/

namespace Sys2Proof.Machine

/-- What a compute operation does: the `f` registers it writes (physical), pointer and modifier registers, flags, rrb, a
trig operation it starts, a running check value, the run it changes, a conflict flag it sets, free values it draws, faults
it raises. -/
structure Eff where
  f : List (Nat × Word) := []
  p : List (Nat × BitVec 16) := []
  m : List (Nat × Word) := []
  cc : Option CC := none
  rrb : Option (BitVec 5) := none
  trig : Option TrigOp := none
  ch : Option (Nat × BitVec 64) := none
  conflict : Option Nat := none
  run : Option RunCtx := none
  draws : Nat := 0
  faults : List Nat := []
deriving DecidableEq, Repr

/-- The rest of what an instruction does after its effect. -/
inductive After where
  /-- Execution goes on with the next instruction (or the loop does). -/
  | seq
  /-- A branch taken to a target (R69). -/
  | jump (target : BitVec 14)
  /-- A loop of no passes is skipped, up to the last instruction of its body (R62). -/
  | skip (last : Nat)
deriving DecidableEq, Repr

/-- What an instruction did: state, faults, what comes after. -/
structure Done where
  s : State
  faults : List Nat := []
  after : After := .seq
deriving DecidableEq, Repr

/-! ### Loops -/

/-- The end of a pass of the innermost loop (R62, R65, R66): whether another pass follows, and the cell. -/
def passEnd (c : CellSt) (l : LoopEnt) (rest : List LoopEnt) : Bool × CellSt :=
  let c := if l.rot then { c with rrb := c.rrb - 1#5 } else c
  let cnt := (c.rdC l.ctr).toNat
  let c := { c with c := Tab.put 0#16 c.c l.ctr (BitVec.ofNat 16 (cnt - 1)) }
  let again := if l.rot then decide (l.pass + 1 < l.n + l.stages - 1) else decide (cnt > 1)
  (again, { c with loops := if again then { l with pass := l.pass + 1 } :: rest else rest })

/-- The instruction at `at_` has completed: the loops that end there are tested, innermost first (R62, R63). -/
def loopEnd (c : CellSt) (at_ : Nat) : List LoopEnt → CellSt
  | [] => { c with pc := BitVec.ofNat 14 (at_ + 1), loops := [] }
  | l :: rest =>
    if l.last = at_ then
      let r := passEnd c l rest
      if r.1 then { r.2 with pc := BitVec.ofNat 14 l.start } else loopEnd r.2 at_ rest
    else { c with pc := BitVec.ofNat 14 (at_ + 1), loops := l :: rest }

/-- A taken branch pops every loop whose body its target lies outside, with every loop inside it (R64). -/
def popLoops (t : Nat) (ls : List LoopEnt) : List LoopEnt :=
  match ls with
  | [] => []
  | l :: r =>
    let r' := popLoops t r
    if r'.length < r.length then r' else if l.start ≤ t && t ≤ l.last then l :: r' else r'

/-- The instruction is suppressed in this pass of the innermost rotating loop (R65, R67). In a plain loop nested in a rotating one the
rotating loop's pass counts: DESIGN CHOICE, log entry 165. -/
def CellSt.suppressed (c : CellSt) (stg : Nat) : Bool :=
  match c.loops.find? LoopEnt.rot with
  | some l => decide (l.pass < stg ∨ stg + l.n ≤ l.pass)
  | none => false

/-! ### Effects -/

/-- A trig operation put in flight: its register destinations and memory words become pending (R73). -/
def CellSt.startTrig (c : CellSt) (t : TrigOp) : CellSt := { c with trig := c.trig ++ [t] }

/-- Registers that a compute operation and a load of one instruction both name (UB_02): their value is free. -/
def clash (e loads : List (Nat × Word)) (ctr : Nat) : List (Nat × Word) :=
  let both := (e.filter (fun x => loads.any (fun y => y.1 == x.1))).map Prod.fst
  (both.zip (List.range both.length)).map (fun x => (x.1, Config.freeWord (ctr + x.2)))

/-- Pointers that a compute operation and a post-modify of one instruction both write: the manual states no result, and
the value is free (log entry 22). -/
def clashP (e ptrs : List (Nat × BitVec 16)) (ctr : Nat) : List (Nat × BitVec 16) :=
  let both := (e.filter (fun x => ptrs.any (fun y => y.1 == x.1))).map Prod.fst
  (both.zip (List.range both.length)).map (fun x => (x.1, (Config.freeWord (ctr + x.2)).setWidth 16))

/-- Registers written in order. -/
def CellSt.putFs (c : CellSt) (l : List (Nat × Word)) : CellSt := l.foldl (fun c x => c.putF x.1 x.2) c
def CellSt.putPs (c : CellSt) (l : List (Nat × BitVec 16)) : CellSt :=
  { c with p := l.foldl (fun t x => Tab.put 0#16 t x.1 x.2) c.p }
def CellSt.putMs (c : CellSt) (l : List (Nat × Word)) : CellSt :=
  { c with m := l.foldl (fun t x => Tab.put 0#32 t x.1 x.2) c.m }

/-! ### The trig unit's results (R72 to R75) -/

/-- One result of the trig unit written (R72). -/
def State.writeTrig (s : State) (n : Nat) (w : TrigDest × Word) : State :=
  match w.1 with
  | .reg k => s.setCell n { s.cell n with f := Tab.put 0#32 (s.cell n).f k w.2 }
  | .mem a => (s.ramSetWord a w.2).blockStore a w.2

/-- The oldest operation in flight ends: its results are written, none when it was squashed (R72, R74). -/
def State.writeBack (s : State) (n : Nat) : State :=
  match (s.cell n).trig with
  | [] => s
  | t :: r =>
    let s := s.setCell n { s.cell n with trig := r }
    if t.squashed then s else t.writes.foldl (fun s w => s.writeTrig n w) s

/-- Every operation in flight ends, oldest first. -/
def State.drainTrig (s : State) (n : Nat) : State :=
  (List.range (s.cell n).trig.length).foldl (fun s _ => s.writeBack n) s

/-- An operation writes a word of X or Y. -/
def TrigOp.toMem (t : TrigOp) : Bool := t.writes.any (fun w => match w.1 with | .mem _ => true | .reg _ => false)

/-- How many of the oldest operations end for fewer than two results to wait for X or Y. -/
def trigSpill : List TrigOp → Nat
  | [] => 0
  | t :: r => if ((t :: r).filter TrigOp.toMem).length < 2 then 0 else trigSpill r + 1

/-- A new operation finds a place in the 2-entry write-back buffer (R31, R72): results for X or Y beyond it are written first, while the
core stalls (log entry 166). -/
def State.trigRoom (s : State) (n : Nat) : State := (List.range (trigSpill (s.cell n).trig)).foldl (fun s _ => s.writeBack n) s

/-- A word of X or Y that the core reads while a trig result is pending for it: the result is written first (R73). -/
def State.landWord (s : State) (n a : Nat) : State :=
  match (s.cell n).pendingAt (.mem a) with
  | some v => ((s.ramSetWord a v).blockStore a v).setCell n ((s.cell n).settle (.mem a))
  | none => s

/-- The effect of a compute operation with the two accesses of its instruction (R61, R104, R105): the X load, then the Y
load, then the results; the X pointer, then the Y pointer; stores with the values read at issue; single-bit errors read
are corrected and counted (R55), and a double-bit error read raises ECC (R56). A pending word that is read is written first, and a trig
operation finds a place in the unit (R72, R73). -/
def apply (s : State) (n : Nat) (e : Eff) (xa ya : AccRes) : Done :=
  let s := if e.trig.isSome then s.trigRoom n else s
  let reads := xa.reads ++ ya.reads
  let s := reads.foldl (fun s a => s.landWord n a) s
  let c := s.cell n
  let loads := xa.loads ++ ya.loads
  let ptrs := xa.ptr.toList ++ ya.ptr.toList
  let fx := clash e.f loads s.freeCtr
  let px := clashP e.p ptrs (s.freeCtr + fx.length)
  let c := ((c.putFs loads).putFs e.f).putFs fx
  let c := ((c.putPs e.p).putPs ptrs).putPs px
  let c := c.putMs e.m
  let c := { c with cc := e.cc.getD c.cc, rrb := e.rrb.getD c.rrb, run := e.run.or c.run }
  let c := match e.ch with
    | some (0, v) => { c with ch0 := v }
    | some (_, v) => { c with ch1 := v }
    | none => c
  let stores := xa.stores ++ ya.stores
  let c := stores.foldl (fun c x => c.settle (.mem x.1)) c
  let c := match e.trig with
    | some t => c.startTrig t
    | none => c
  let ones := reads.filter (fun a => s.flip1.contains a)
  let s := s.setCell n c
  let s := (stores.foldl (fun s x => s.ramSetWord x.1 x.2) s).blockStores stores
  let s := { s with freeCtr := s.freeCtr + e.draws + fx.length + px.length
                    flip1 := s.flip1.filter (fun a => !reads.contains a) }
  let s := s.addFld Reg.cellEccCorrected ones.length (cellRegs n)
  let s := match e.conflict with
    | some j => s.setBit Reg.crcChCfgConflict true (chBase j)
    | none => s
  { s, faults := e.faults ++ xa.faults ++ ya.faults ++ (if reads.any (fun a => s.flip2.contains a) then [1] else []) }

/-! ### Issue -/

/-- The lower of two fault codes; 0 stands for none (R90). -/
def lowest (l : List Nat) : Nat := l.foldl (fun a x => if a = 0 then x else if x < a then x else a) 0

/-- A fault of the running operation: raised when it is the operation's first (R90), and the operation is abandoned. Its
trig operations complete first and write back (R75; log entry 24). -/
def State.faultAt (s : State) (n code pc : Nat) : State :=
  let first := match (s.cell n).run with | some r => !r.nonfinite | none => true
  ((if first then s.cellFault n code pc else s).drainTrig n).abandon n code

/-- NONFINITE by a queue write (R83): raised once per operation, which goes on. -/
def State.noteNonfinite (s : State) (n pc : Nat) : State :=
  match (s.cell n).run with
  | none => s
  | some r =>
    if r.nonfinite then s
    else (s.setCell n { s.cell n with run := some { r with nonfinite := true } }).cellFault n 6 pc

/-- What follows an instruction at `pc` that raised no fault. -/
def State.advance (s : State) (n pc : Nat) (a : After) : State :=
  let c := s.cell n
  match a with
  | .seq => s.setCell n (loopEnd c pc c.loops)
  | .jump t =>
    s.setCell n { c with shadow := some t, pc := BitVec.ofNat 14 (pc + 1), loops := popLoops t.toNat c.loops }
  | .skip last => s.setCell n (loopEnd c last c.loops)

/-- One more instruction issued, by the counter CELL_ISSUED and by the operation's own count (R91). -/
def State.countIssue (s : State) (n : Nat) (r : RunCtx) : State :=
  let s := s.incFld Reg.cellIssuedIssued (cellRegs n)
  s.setCell n { s.cell n with run := some { r with issued := r.issued + 1 } }

/-- A cell that runs an operation and can issue. -/
def State.issues (s : State) (n : Nat) : Option RunCtx :=
  let c := s.cell n
  if n < s.cellCount && !c.inReset && !c.halted then c.run else none

/-- The two words of an instruction. -/
def insWords (n pc : Nat) : List Nat := [insAddr n pc, insAddr n pc + 4]

/-- The next instruction exceeds the budget of the operation (R88, R91). -/
def State.overBudget (s : State) (n : Nat) (r : RunCtx) : Bool :=
  let budget := s.fld Reg.cellCtrlOpBudget (cellRegs n)
  budget != 0 && decide (budget < r.issued + 1)

/-- One instruction of stage `stg` issued by a cell. A cell that runs nothing issues nothing. In a taken branch's shadow
the instruction is squashed (R69): it does nothing, but a trig operation it started runs to its end without a result
(R74, `squashedTrig`). A suppressed one does nothing (R65), and neither raises a fault (R88). A single-bit error of the fetch is
corrected (R55), and a double-bit error raises ECC (R56) before any effect. Otherwise `act` gives the effect; an instruction beyond the
budget has none and raises RUNAWAY (R88, R91; log entry 23). Of all faults the lowest code counts (R90). -/
def issue (s : State) (n : Nat) (stg : BitVec 3) (squashedTrig : Bool) (act : State → Done) : State :=
  match s.issues n with
  | none => s
  | some r =>
    let pc := (s.cell n).pc.toNat
    let s := (s.countIssue n r).correct (insWords n pc)
    let c := s.cell n
    match c.shadow with
    | some t =>
      let c := { c with shadow := none, pc := t }
      s.setCell n (if squashedTrig then c.startTrig ⟨[], true⟩ else c)
    | none =>
      if c.suppressed stg.toNat then s.advance n pc .seq
      else if (insWords n pc).any (fun a => s.flip2.contains a) then s.faultAt n 1 pc
      else
        let d := act s
        if s.overBudget n r then s.faultAt n (lowest (5 :: d.faults)) pc
        else
          let code := lowest d.faults
          if code = 0 then d.s.advance n pc d.after
          else if code = 6 then (d.s.noteNonfinite n pc).advance n pc d.after
          else d.s.faultAt n code pc

/-- A Format A instruction: its compute operation with an X and a Y access (R95). -/
def issueA (s : State) (i : FmtA) (e : State → CellSt → Eff) : State :=
  issue s i.cell i.stg false (fun s =>
    let c := s.cell i.cell
    apply s i.cell (e s c) (access s i.cell c .x i.xa) (access s i.cell c .y i.ya))

/-- A Format F instruction: one access, to X or to Y (R97). -/
def issueF (s : State) (i : FmtF) (e : CellSt → Eff) : State :=
  issue s i.cell i.stg false (fun s =>
    let c := s.cell i.cell
    apply s i.cell (e c) (access s i.cell c (if i.sel then .y else .x) i.acc) {})

/-- A Format I instruction (R98): no access. -/
def issueI (s : State) (i : FmtI) (e : CellSt → Eff) : State :=
  issue s i.cell i.stg false (fun s => apply s i.cell (e (s.cell i.cell)) {} {})

/-- A Format M instruction (R101): the words it loads and stores. -/
def issueM (s : State) (i : FmtM) (a : State → CellSt → AccRes) : State :=
  issue s i.cell i.stg false (fun s => apply s i.cell {} (a s (s.cell i.cell)) {})

/-- The effect that writes one `f` register. -/
def Eff.toF (c : CellSt) (d : BitVec 6) (v : Word) : Eff := { f := [(c.phys d.toNat, v)] }

/-- The effect that writes a pair of `f` registers, even first (R102). -/
def Eff.toPair (c : CellSt) (d : BitVec 6) (lo hi : Word) : Eff :=
  { f := [(c.phys (evenOf d), lo), (c.phys (evenOf d + 1), hi)] }

end Sys2Proof.Machine
end

