-- ==== Sys2Proof/Machine/CellCtl.lean ====
section
/-! DEFINITION. Branches, loops, TSYNC and the undefined opcode (R62 to R69, R100, R106, R110, R111). END is with the kernels,
in CellEnd.
Log: DEDUCED 151. DESIGN CHOICE 16. -/

namespace Sys2Proof.Machine

/-- A branch on a condition (R69, R111). -/
def branch (s : State) (i : FmtB) (taken : CC → Bool) : State :=
  issue s i.cell i.stg false (fun s =>
    { s, after := if taken (s.cell i.cell).cc then .jump i.target else .seq })

/-- BR (R111). -/
def execBr (i : FmtB) (s : State) : Host.Outcome State Fault Refusal := .next (branch s i (fun _ => true))
/-- BREQ: z = 1. -/
def execBreq (i : FmtB) (s : State) : Host.Outcome State Fault Refusal := .next (branch s i (fun c => c.z))
/-- BRNE: z = 0. -/
def execBrne (i : FmtB) (s : State) : Host.Outcome State Fault Refusal := .next (branch s i (fun c => !c.z))
/-- BRLT: n = 1. -/
def execBrlt (i : FmtB) (s : State) : Host.Outcome State Fault Refusal := .next (branch s i (fun c => c.n))
/-- BRGE: n = 0 and u = 0. -/
def execBrge (i : FmtB) (s : State) : Host.Outcome State Fault Refusal := .next (branch s i (fun c => !c.n && !c.u))
/-- BRUN: u = 1. -/
def execBrun (i : FmtB) (s : State) : Host.Outcome State Fault Refusal := .next (branch s i (fun c => c.u))
/-- BROR: u = 0. -/
def execBror (i : FmtB) (s : State) : Host.Outcome State Fault Refusal := .next (branch s i (fun c => !c.u))
/-- BRGT: z = 0, n = 0 and u = 0. -/
def execBrgt (i : FmtB) (s : State) : Host.Outcome State Fault Refusal :=
  .next (branch s i (fun c => !c.z && !c.n && !c.u))
/-- BRLE: z = 1 or n = 1. -/
def execBrle (i : FmtB) (s : State) : Host.Outcome State Fault Refusal := .next (branch s i (fun c => c.z || c.n))
/-- BRTS: t = 1. -/
def execBrts (i : FmtB) (s : State) : Host.Outcome State Fault Refusal := .next (branch s i (fun c => c.t))
/-- BRTC: t = 0. -/
def execBrtc (i : FmtB) (s : State) : Host.Outcome State Fault Refusal := .next (branch s i (fun c => !c.t))

/-- A loop of `n` passes started (R62 to R65, R100): a body that does not lie after the instruction makes it a NOP; a
counter already in use, or a body that ends beyond the enclosing loop, raises LOOPNEST; a count of 0 skips the body. -/
def loopStart (s : State) (i : FmtL) (n : CellSt → Nat) : State :=
  issue s i.cell i.stg false (fun s =>
    let c := s.cell i.cell
    let pc := c.pc.toNat
    let last := i.last.toNat
    let n := n c
    if last ≤ pc then { s }
    else if c.loops.any (fun l => l.ctr == i.k.toNat) then { s, faults := [3] }
    else
      let c' := { c with c := Tab.put 0#16 c.c i.k.toNat (BitVec.ofNat 16 n) }
      if n = 0 then { s := s.setCell i.cell c', after := .skip last }
      else if (match c.loops with | l :: _ => decide (l.last < last) | [] => false) then { s, faults := [3] }
      else
        let l : LoopEnt := ⟨i.k.toNat, pc + 1, last, i.rot, if i.rot then i.sc.toNat + 1 else 1, n, 0⟩
        { s := s.setCell i.cell { c' with loops := l :: c.loops } })

/-- LOOP (R111): the count is the field n. -/
def execLoop (i : FmtL) (s : State) : Host.Outcome State Fault Refusal := .next (loopStart s i (fun _ => i.n.toNat))

/-- LOOPP (R111): the count is the pointer register that n[3:0] names, read at issue. -/
def execLoopp (i : FmtL) (s : State) : Host.Outcome State Fault Refusal :=
  .next (loopStart s i (fun c => (c.rdP (i.n.toNat % 16)).toNat))

/-- TSYNC (R110, R111): after the stall every trig operation has ended; cc.t is cleared. -/
def execTsync (i : FmtA) (s : State) : Host.Outcome State Fault Refusal :=
  .next (issue s i.cell i.stg false (fun s =>
    let s := s.drainTrig i.cell
    let c := s.cell i.cell
    apply s i.cell { cc := some { c.cc with t := false } } (access s i.cell c .x i.xa) (access s i.cell c .y i.ya)))

/-- The command that the word at a cell's pc spells (R53, R94, R106): the instruction an issue of that cell stands for. -/
def State.fetched (s : State) (n : Nat) : Instr :=
  let a := insAddr n (s.cell n).pc.toNat
  cellDecode n (s.ramWord (a + 4) ++ s.ramWord a)

/-- The opcode map of R106, row by row: how many opcodes of each row are defined, and from which column. -/
def definedOpcode (op : Nat) : Bool :=
  let c := op % 16
  match op / 16 with
  | 0 => decide (1 ≤ c ∧ c ≤ 13)
  | 1 => decide (c ≤ 13)
  | 2 => decide (c ≤ 13)
  | 3 => decide (c ≤ 5 ∨ 8 ≤ c ∧ c ≤ 11)
  | 4 => decide (c ≤ 12)
  | 5 => decide (c ≤ 10)
  | 6 => decide (c ≤ 8)
  | 7 => decide (c ≤ 8)
  | 8 => decide (c ≤ 5 ∨ 8 ≤ c ∧ c ≤ 13)
  | 9 => decide (c ≤ 6 ∨ 8 ≤ c ∧ c ≤ 10)
  | 10 => decide (c ≤ 12)
  | 11 => decide (c ≤ 11)
  | 12 => decide (c ≤ 6)
  | 13 => decide (c ≤ 5)
  | 14 => decide (c ≤ 4)
  | _ => false

/-- An undefined opcode raises ILLEGAL and the operation is abandoned (R14, R88, R106). A command that names a defined
opcode here is no such event and changes nothing. -/
def execIllegalOpcode (cell : Nat) (stg : BitVec 3) (opcode : BitVec 8) (s : State) :
    Host.Outcome State Fault Refusal :=
  .next (if definedOpcode opcode.toNat then s else issue s cell stg false (fun s => { s, faults := [2] }))

end Sys2Proof.Machine
end

