-- ==== Sys2Proof/Machine/CellDomain.lean ====
section
/-! DEFINITION. The domain operations (R116, R117). -/

namespace Sys2Proof.Machine

/-- Register a + 1 in the same file: f31 moves to f0, f63 to f32 (R117). -/
def nextInFile (a : BitVec 6) : Nat := if a.toNat < 32 then (a.toNat + 1) % 32 else 32 + (a.toNat - 31) % 32

/-- CLARKE: CLARKE of a pair (R116). -/
def execClarke (i : FmtA) (s : State) : Host.Outcome State Fault Refusal :=
  .next (issueA s i (fun _ c =>
    let r := clarkeOf (c.rdEven i.a) (c.rdOdd i.a)
    .toPair c i.d r.lo r.hi))

/-- CLARKE3: CLARKE of three currents (R116). -/
def execClarke3 (i : FmtA) (s : State) : Host.Outcome State Fault Refusal :=
  .next (issueA s i (fun _ c =>
    let r := clarke3Of (c.rdEven i.a) (c.rdOdd i.a) (c.rdF i.b)
    .toPair c i.d r.lo r.hi))

/-- PARK: PARK of a pair by a sine and cosine pair (R116). -/
def execPark (i : FmtA) (s : State) : Host.Outcome State Fault Refusal :=
  .next (issueA s i (fun _ c =>
    let r := parkOf (c.rdEven i.a) (c.rdOdd i.a) (c.rdEven i.b) (c.rdOdd i.b)
    .toPair c i.d r.lo r.hi))

/-- IPARK: The inverse of PARK (R116). -/
def execIpark (i : FmtA) (s : State) : Host.Outcome State Fault Refusal :=
  .next (issueA s i (fun _ c =>
    let r := iparkOf (c.rdEven i.a) (c.rdOdd i.a) (c.rdEven i.b) (c.rdOdd i.b)
    .toPair c i.d r.lo r.hi))

/-- SVM3: Three on-times into fk, fk+1 and fk+2 of a quad, with n and u (R116, R102). -/
def execSvm3 (i : FmtF) (s : State) : Host.Outcome State Fault Refusal :=
  .next (issueF s i (fun c =>
    let r := svm3Of (c.rdEven i.a) (c.rdOdd i.a) (c.rdF i.b) (c.rdF i.c)
    let k := i.d.toNat / 4 * 4
    { f := [(c.phys k, r.ta), (c.phys (k + 1), r.tb), (c.phys (k + 2), r.tc)], cc := some (c.cc.svm r.n r.u) }))

/-- TAP: d ← fma(a, b, d); register a + 1 of the same file ← a (R117). -/
def execTap (i : FmtA) (s : State) : Host.Outcome State Fault Refusal :=
  .next (issueA s i (fun _ c =>
    { f := [(c.phys i.d.toNat, Fp.fma (c.rdF i.a) (c.rdF i.b) (c.rdF i.d)), (c.phys (nextInFile i.a), c.rdF i.a)] }))

/-- TAPN: d ← fma(a, b, d) (R117). -/
def execTapn (i : FmtA) (s : State) : Host.Outcome State Fault Refusal :=
  .next (issueA s i (fun _ c => .toF c i.d (Fp.fma (c.rdF i.a) (c.rdF i.b) (c.rdF i.d))))

/-- TAP0: d ← a × b (R117). -/
def execTap0 (i : FmtA) (s : State) : Host.Outcome State Fault Refusal :=
  .next (issueA s i (fun _ c => .toF c i.d (Fp.mul (c.rdF i.a) (c.rdF i.b))))

/-- LIMV: A vector limited in magnitude, d kept and q shortened, with n (R116). -/
def execLimv (i : FmtA) (s : State) : Host.Outcome State Fault Refusal :=
  .next (issueA s i (fun _ c =>
    let r := limvOf (c.rdEven i.a) (c.rdOdd i.a) (c.rdF i.b)
    { f := [(c.phys (evenOf i.d), r.ud), (c.phys (evenOf i.d + 1), r.uq)], cc := some (c.cc.limited r.n) }))

/-- ANGW: d ← a brought into (−π, π] (R116). -/
def execAngw (i : FmtA) (s : State) : Host.Outcome State Fault Refusal :=
  .next (issueA s i (fun _ c => .toF c i.d (angwOf (c.rdF i.a))))

/-- ANGADD: d ← ANGW of a + b (R116). -/
def execAngadd (i : FmtA) (s : State) : Host.Outcome State Fault Refusal :=
  .next (issueA s i (fun _ c => .toF c i.d (angaddOf (c.rdF i.a) (c.rdF i.b))))

end Sys2Proof.Machine
end

