-- ==== Sys2Proof/Machine/KInner.lean ====
section
/-! DEFINITION. K_INNER (R167 to R201, R224, R226): one current-loop and commutation step of one axis.
Log: DEDUCED 29, 31, 32, 39, 48, 49, 70, 91, 168, 200. DESIGN CHOICE 27, 30, 33, 34, 35, 36, 37, 38, 42, 47, 187, 188, 189, 190, 220. -/

namespace Sys2Proof.Machine

/-- What one step reads besides the axis: the cycle, T, the tokens of the cycle, whether the safe latch stands, Woad's two
outputs for the axis, whether the position source of a local axis is in mode 1, 2 or 3, the free-value counter. -/
structure InIn where
  n : Word
  t : Word
  smp : Token
  mode : Option Token
  cur : Option Token
  ref : Token
  latch : Bool
  energise : Bool
  stop : Bool
  fbOk : Bool
  free : Nat
deriving DecidableEq, Repr

/-- What one step gives: the axis, its command words (none is a hold), its feedback token, the fault codes that arise, how
many free values it drew. -/
structure InOut where
  x : AxisSt
  sink : Option (List Word)
  fb : List Word
  raises : List Nat
  draws : Nat
deriving DecidableEq, Repr

/-! ### Modes and requests -/

/-- Position is valid in this cycle (R536). -/
def AxisSt.posValid (x : AxisSt) (hold fbOk : Bool) : Bool :=
  !hold && (if x.isLocal then bitsOf x.i.flags 1 1 == 0 && fbOk else bitsOf x.i.flags 5 5 == 0)

/-- Whether a request is allowed (R172). -/
def AxisSt.allowed (x : AxisSt) (m : AxMode) (hold fbOk : Bool) : Bool :=
  if m = x.mode then true
  else if x.faults ≠ 0#7 && m ≠ .off then false
  else
    match x.mode, m with
    | .off, .sixStep => !x.stepper && (x.src == 1 || (x.src == 3 && Fp.gt (x.pw 11) (x.pw 10)))
    | .off, .step => x.stepper
    | .off, .current | .off, .velocity | .off, .position =>
      !x.stepper && (match x.src with
        | 0 => x.posValid hold fbOk
        | 2 => x.posValid hold fbOk && Fp.gt (x.pw 11) (x.pw 10)
        | 3 => Fp.gt (x.pw 11) (x.pw 10)
        | _ => false)
    | .sixStep, .off | .sixStep, .current | .sixStep, .velocity | .sixStep, .position => true
    | .current, t | .velocity, t | .position, t =>
      (match t with | .current | .velocity | .position | .decel | .off => true | _ => false)
    | .decel, .current | .decel, .velocity | .decel, .position | .decel, .off => true
    | .step, .off => true
    | _, _ => false

/-- A refused request (R172). -/
def AxisSt.refuse (x : AxisSt) : AxisSt := { x with reqRefused := true, refusals := satAdd x.refusals 1 255 }

/-! ### Measurement -/

/-- One current (R535): (code − i_off) × i_gain. -/
def AxisSt.amps (x : AxisSt) (code : Int) (off : Nat) : Word := Fp.mul (Fp.sub (Fp.ofInt code) (x.pw off)) (x.pw 4)

/-- The phase currents a, b, c (R535, R188); on a stepper axis the two coil currents. -/
def AxisSt.phases (x : AxisSt) (r : Sample) : List Word :=
  if x.stepper then [x.amps r.s0 5, x.amps r.s1 6]
  else
    match x.shunt with
    | 0 => [x.amps r.s0 5, x.amps r.s1 6, x.amps r.s2 7]
    | 2 =>
      let i0 := x.amps r.s0 5
      let i1 := x.amps r.s1 5
      [0, 1, 2].map (fun k => if k = x.i.x3 then i0 else if k = x.i.x1 then Fp.neg i1 else Fp.sub i1 i0)
    | _ => let a := x.amps r.s0 5; let b := x.amps r.s1 6; [a, b, Fp.neg (Fp.add a b)]

/-- The currents in the αβ frame (R535). -/
def AxisSt.alphaBeta (x : AxisSt) (ph : List Word) : Pair :=
  if x.shunt = 1 then clarkeOf (wordAt ph 0) (wordAt ph 1) else clarke3Of (wordAt ph 0) (wordAt ph 1) (wordAt ph 2)

/-- The count difference from the last position (R182, R213), corrected for the wrap. -/
def countDiff (pos prev : Word) (perRev : Nat) : Int :=
  let d := (pos - prev).toInt
  if 2 * d > perRev then d - perRev else if 2 * d < -(perRev : Int) then d + perRev else d

/-- The encoder angle and the filtered speed (R182); the position becomes the last one. -/
def AxisSt.encoder (x : AxisSt) (t pos : Word) : AxisSt × Word :=
  let ec := x.encCounts
  let fc := Fp.ofInt (ec : Int)
  let th := angwOf (Fp.add (Fp.div (Fp.mul (Fp.mul x.pp Fp.k2Pi) (Fp.ofInt ((pos.toNat % ec : Nat) : Int))) fc) (x.pw 3))
  let w := match x.i.posPrev with
    | none => 0#32
    | some p =>
      let raw := Fp.div (Fp.div (Fp.mul Fp.k2Pi (Fp.ofInt (countDiff pos p ec))) (Fp.mul fc t)) (Fp.ofInt ((x.i.gap + 1 : Nat) : Int))
      lpfOf raw (x.pw 50) x.i.encW
  let th := if x.shunt = 2 then angwOf (Fp.sub th (Fp.mul (Fp.mul w x.pp) (x.pw 47))) else th
  ({ x with i := { x.i with encW := w, posPrev := some pos } }, th)

/-- The tracking update of R183. -/
def AxisSt.track (x : AxisSt) (t th w e : Word) : Word × Word :=
  let bw := x.pw 36
  let w' := Fp.add w (Fp.mul (Fp.mul (Fp.mul bw bw) t) e)
  (angwOf (Fp.add (Fp.add th (Fp.mul t w')) (Fp.mul (Fp.mul (Fp.mul Fp.two bw) t) e)), w')

/-- The back-EMF observer (R183), held in OFF and SAFE, after which it begins with the last vector from before (log entry 190). -/
def AxisSt.observe (x : AxisSt) (t : Word) (ab : Pair) : AxisSt :=
  if x.mode = .off || x.mode = .safe then x
  else
    let ls := Fp.div (Fp.add (x.pw 10) (x.pw 11)) Fp.two
    let emf := fun v i i0 => Fp.sub (Fp.sub v (Fp.mul (x.pw 9) i)) (Fp.div (Fp.mul ls (Fp.sub i i0)) t)
    let ea := emf x.i.va ab.lo x.i.ia
    let eb := emf x.i.vb ab.hi x.i.ib
    let num := Fp.sub (Fp.mul (Fp.neg ea) (Fp.cos x.trk.th)) (Fp.mul eb (Fp.sin x.trk.th))
    let psi := x.pw 12
    let sgn := if Fp.lt x.trk.w 0#32 then 0xBF800000#32 else Fp.one
    let den := Fp.mul sgn (Fp.max (Fp.mul (Fp.abs x.trk.w) psi) (Fp.mul (Fp.mul psi x.pp) (x.pw 34)))
    let r := x.track t x.trk.th x.trk.w (Fp.div num den)
    { x with trk := { x.trk with th := r.1, w := r.2 } }

/-- (−1)^n of a value. -/
def alternate (n : Word) (v : Word) : Word := if n.toNat % 2 = 0 then v else Fp.neg v

/-- The injection's error signal and its tracking (R184), run when the last command carried injection. -/
def AxisSt.hfi (x : AxisSt) (n t : Word) (ab : Pair) : AxisSt :=
  let iq := (parkOf ab.lo ab.hi (Fp.sin x.trk.hth) (Fp.cos x.trk.hth)).hi
  let x' := { x with trk := { x.trk with iqH := iq } }
  if !x.trk.inj then x'
  else
    let num := alternate (n - 1#32) (Fp.sub iq x.trk.iqH)
    let den := Fp.mul (Fp.mul (x.pw 33) t) (Fp.sub (Fp.div Fp.one (x.pw 10)) (Fp.div Fp.one (x.pw 11)))
    let r := x.track t x.trk.hth x.trk.hw (Fp.div num den)
    { x' with trk := { x'.trk with hth := r.1, hw := r.2 } }

/-- The crossover weight (R185), from the speed of the cycle before (log entry 33). -/
def AxisSt.weight (x : AxisSt) : Word :=
  Fp.clamp (Fp.div (Fp.sub (Fp.abs x.i.wm) (x.pw 34)) (Fp.sub (x.pw 35) (x.pw 34))) 0#32 Fp.one

/-- The angle source (R181 to R185) on a sample that is no hold: the axis with its angle and speeds, and the amplitude of
the injection. The blended speed is the HFI speed plus w times the difference (log entry 189). -/
def AxisSt.angleSource (x : AxisSt) (n t : Word) (r : Sample) (ab : Pair) : AxisSt × Word :=
  let e := x.encoder t r.pos
  let x := if x.src = 1 || x.src = 3 then e.1.observe t ab else e.1
  let encWe := Fp.mul x.i.encW x.pp
  let set := fun (x : AxisSt) (th we wm : Word) (code : Nat) =>
    let th := if x.six.blend = 0 then th
      else angwOf (Fp.sub x.trk.th (Fp.mul (Fp.div (Fp.ofInt ((16 - x.six.blend : Nat) : Int)) (Fp.dec 16 1)) x.six.delta))
    { x with i := { x.i with theta := th, th := th, we := we, wm := wm, angle := if x.six.blend = 0 then code else 1 } }
  match x.src with
  | 0 => (set x e.2 encWe x.i.encW 0, 0#32)
  | 1 => (set x x.trk.th x.trk.w (Fp.div x.trk.w x.pp) 1, 0#32)
  | _ =>
    let w := x.weight
    let thX := if x.src = 2 then e.2 else x.trk.th
    let weX := if x.src = 2 then encWe else x.trk.w
    let full := Fp.ge w Fp.one
    let x := if full then { x with trk := { x.trk with hth := thX, hw := weX } } else x.hfi n t ab
    let th := angaddOf x.trk.hth (Fp.mul w (angwOf (Fp.sub thX x.trk.hth)))
    let we := Fp.add x.trk.hw (Fp.mul w (Fp.sub weX x.trk.hw))
    let code := if full then (if x.src = 2 then 0 else 1) else if Fp.le w 0#32 then 2 else 3
    (set x th we (Fp.div we x.pp) code, if full then 0#32 else Fp.mul (Fp.sub Fp.one w) (x.pw 33))

/-! ### Limits and protections -/

/-- The budget and the limit of R194, steps 1 and 2. -/
def AxisSt.budget (x : AxisSt) (t : Word) : AxisSt :=
  let c2 := Fp.mul (x.pw 18) (x.pw 18)
  let i2 := Fp.sub (Fp.add (Fp.mul x.i.id x.i.id) (Fp.mul x.i.iq x.i.iq)) c2
  let a := Fp.max 0#32 (Fp.add x.i.a (Fp.mul i2 t))
  let full := Fp.ge a (Fp.mul (Fp.sub (Fp.mul (x.pw 19) (x.pw 19)) c2) (x.pw 20))
  let lim := full || (x.i.limited && Fp.gt a 0#32)
  { x with i := { x.i with a := a, limited := lim, iLim := if lim then x.pw 18 else x.pw 19 } }

/-- The references limited (R194, steps 3 and 4): d, then q from what is left. -/
def AxisSt.limitRefs (x : AxisSt) (idRef iqRef : Word) : Pair :=
  let d := Fp.sat idRef x.i.iLim
  ⟨d, Fp.sat iqRef (Fp.sqrt (Fp.sub (Fp.mul x.i.iLim x.i.iLim) (Fp.mul d d)))⟩

/-- The sector of an angle and whether it lies more than 5° inside (R196). -/
def sectorOf (th : Word) : Nat × Bool :=
  let phi := if Fp.lt th 0#32 then Fp.add th Fp.k2Pi else th
  let x := Fp.mul (Fp.mul phi Fp.kInv2Pi) (Fp.dec 6 1)
  let q : Nat := match Fp.val x with
    | .num false m e => Nat.min 5 (m * Fp.pow2 e / Fp.pow2 (-e))
    | _ => 0
  let r := Fp.sub x (Fp.ofInt (q : Int))
  (q, Fp.gt r 0x3DAAAAAB#32 && Fp.lt r 0x3F6AAAAB#32)

/-- The commutation events of the field-oriented modes (R196). -/
def AxisSt.sector (x : AxisSt) : AxisSt × Bool :=
  let q := sectorOf x.i.th
  match x.i.sec with
  | none => ({ x with i := { x.i with sec := some q.1 } }, false)
  | some s =>
    let i := if q.1 = s then x.i else { x.i with armed := decide (some q.1 ≠ x.i.left), left := some s, sec := some q.1 }
    let ev := i.armed && q.2
    ({ x with i := { i with armed := i.armed && !ev } }, ev)

/-- The brake chopper (R198). -/
def AxisSt.chop (x : AxisSt) (m : AxMode) : AxisSt × Nat :=
  if x.stepper || !x.chopper || m = .off || m = .safe then ({ x with i := { x.i with chopOn := false } }, 0)
  else
    let on := Fp.ge x.i.vbus (x.pw 26) || (x.i.chopOn && !Fp.lt x.i.vbus (x.pw 28))
    let k := Fp.clamp (Fp.div (Fp.sub x.i.vbus (x.pw 26)) (Fp.sub (x.pw 27) (x.pw 26))) 0#32 Fp.one
    ({ x with i := { x.i with chopOn := on } }, if on then (Fp.toInt32 (Fp.rnd (Fp.mul (Fp.dec 4095 1) k))).toNat else 0)

/-! ### The current loop -/

/-- A count of the bridge: rounded by R81 and saturated to 0 to t_per (R177). -/
def AxisSt.onTime (x : AxisSt) (v : Word) : Nat := (satInt (Fp.toInt32 v) 0 (x.counts 16)).toNat

/-- The order of the on-times, largest first, equal ones in the order a, b, c (R187). -/
def rank (t : List Nat) : List Nat :=
  let v := fun k => (t[k]?).getD 0
  [0, 1, 2].mergeSort (fun i j => v j < v i || (v j = v i && i ≤ j))

/-- Single-shunt staggering (R187). -/
def AxisSt.stagger (x : AxisSt) (t : List Nat) : AxisSt × List Nat × Nat :=
  let o := rank t
  let x3 := (o[0]?).getD 0
  let x2 := (o[1]?).getD 0
  let x1 := (o[2]?).getD 0
  let tmin := (x.counts 45).toNat
  let tp := (x.counts 16).toNat
  let cap := fun k => if k = x2 then tp - tmin else if k = x1 then tp - 2 * tmin else tp
  let t' := [0, 1, 2].map (fun k => Nat.min ((t[k]?).getD 0) (cap k))
  let clamp := decide (t' ≠ t)
  ({ x with i := { x.i with ssClamp := clamp, x3 := x3, x1 := x1 } }, t', 4 ^ x2 + 2 * 4 ^ x1)

/-- The modulation of two voltages (R177, R180, R187): none when SVM3 is unordered. -/
def AxisSt.modulate (x : AxisSt) (vd vq : Word) (chop : Nat) : AxisSt × Option (List Word) :=
  let th := angwOf (Fp.add x.i.th (Fp.mul x.i.we (x.pw 17)))
  let v := iparkOf vd vq (Fp.sin th) (Fp.cos th)
  let m := svm3Of v.lo v.hi x.i.vbus (x.pw 16)
  let x := { x with i := { x.i with va := v.lo, vb := v.hi } }
  if m.u then (x, none)
  else
    let t := [x.onTime m.ta, x.onTime m.tb, x.onTime m.tc]
    let r := if x.shunt = 2 then x.stagger t else (x, t, 0)
    let at_ := fun k => (r.2.1[k]?).getD 0
    (r.1, some ({ onA := at_ 0, onB := at_ 1, onC := at_ 2, chop := chop, enable := true, rise := r.2.2 } : CmdRec).words)

/-- The current loop on a sample that is no hold (R177, R178, R184). -/
def AxisSt.focLaw (x : AxisSt) (n amp idRef iqRef : Word) (chop : Nat) : AxisSt × Option (List Word) :=
  let lim2 := x.limitRefs idRef iqRef
  let inj := Fp.gt amp 0#32
  let mean := fun a b => if inj then Fp.div (Fp.add a b) Fp.two else a
  let id := mean x.i.id x.trk.idP
  let iq := mean x.i.iq x.trk.iqP
  let ed := Fp.sub lim2.lo id
  let eq := Fp.sub lim2.hi iq
  let kp := x.pw 13
  let vd := Fp.sub (Fp.add (Fp.mul kp ed) x.i.xd) (Fp.mul (Fp.mul x.i.we (x.pw 11)) iq)
  let vq := Fp.add (Fp.add (Fp.mul kp eq) x.i.xq) (Fp.mul x.i.we (Fp.add (Fp.mul (x.pw 10) id) (x.pw 12)))
  let lim := Fp.sub (Fp.mul (Fp.mul (x.pw 15) x.i.vbus) Fp.kR3) amp
  let l := limvOf vd vq lim
  let int := fun v e => if l.n then v else Fp.add v (Fp.mul (x.pw 14) e)
  let x := { x with i := { x.i with xd := Fp.sat (int x.i.xd ed) lim, xq := Fp.sat (int x.i.xq eq) lim
                                    vd := l.ud, vq := l.uq, iqr := lim2.hi }
                    trk := { x.trk with inj := inj } }
  x.modulate (Fp.add l.ud (if inj then alternate n amp else 0#32)) l.uq chop

/-- The polarity detection (R186): the d voltage of its cycle. -/
def AxisSt.polVolt (x : AxisSt) : Word :=
  let v := Fp.mul Fp.two (x.pw 33)
  if x.trk.pol ≤ 4 then v else if 9 ≤ x.trk.pol && x.trk.pol ≤ 12 then Fp.neg v else 0#32

/-- One cycle of the polarity detection: peaks, voltage, and the angle turned by π at its end. -/
def AxisSt.polStep (x : AxisSt) (hold : Bool) (chop : Nat) : AxisSt × Option (List Word) :=
  let k := x.trk.pol
  let a := Fp.abs x.i.id
  let pk1 := if !hold && k ≤ 4 then Fp.max x.trk.pk1 a else x.trk.pk1
  let pk2 := if !hold && 9 ≤ k && k ≤ 12 then Fp.max x.trk.pk2 a else x.trk.pk2
  let v := x.polVolt
  let turn := k = 16 && Fp.gt pk2 (Fp.mul pk1 (Fp.dec 105 100))
  let r := { x with i := { x.i with vd := v, vq := 0#32, iqr := 0#32 } }.modulate v 0#32 chop
  let t := { r.1.trk with pk1 := pk1, pk2 := pk2, pol := if k = 16 then 0 else k + 1, inj := false
                          hth := if turn then angwOf (Fp.add r.1.trk.hth Fp.kPi) else r.1.trk.hth }
  ({ r.1 with trk := t }, r.2)

/-! ### Six-step start -/

/-- Upper and lower phase of a step (R189). -/
def sixPhases : Nat → Nat × Nat
  | 0 => (0, 1) | 1 => (0, 2) | 2 => (1, 2) | 3 => (1, 0) | 4 => (2, 0) | _ => (2, 1)

/-- The measured current magnitude. -/
def AxisSt.iAbs (x : AxisSt) : Word := Fp.sqrt (Fp.add (Fp.mul x.i.id x.i.id) (Fp.mul x.i.iq x.i.iq))

/-- The command of a step with a duty (R189, R191, R300): on a local group the mask's record, `forced` for its forced mode. The driven
phases are what a single shunt then reconstructs with (log entry 187). -/
def AxisSt.sixCmd (x : AxisSt) (duty t : Word) (forced : Bool) (chop : Nat) : AxisSt × List Word :=
  let on := x.onTime (Fp.mul duty (x.pw 16))
  let ph := sixPhases x.six.step
  let m := Fp.mul (Fp.mul duty x.i.vbus) Fp.kR3
  let th := Fp.sub (Fp.mul Fp.kPi3 (Fp.ofInt (x.six.step : Int))) Fp.kPi6
  let x := { x with i := { x.i with va := Fp.mul m (Fp.cos th), vb := Fp.mul m (Fp.sin th), x3 := ph.1, x1 := ph.2 } }
  if x.isLocal then
    let d := Fp.mul (Fp.div (Fp.mul (Fp.ofInt (x.six.ival : Int)) t) (Fp.ofInt (x.six.ivalN : Int))) Fp.half
    let cnt := (satInt (Fp.toInt32 (Fp.mul d (Fp.dec 250000000 1))) 0 0xFFFE).toNat
    (x, ({ onA := on, onB := if forced then 0xFFFF else cnt, chop := chop, step := x.six.step, mask := true
           enable := true, rise := bitN x.six.neg } : CmdRec).words)
  else
    let at_ := fun k => if k = ph.1 then on else 0
    let fl := [0, 1, 2].foldl (fun a k => if k = ph.1 ∨ k = ph.2 then a else a + 2 ^ k) 0
    (x, ({ onA := at_ 0, onB := at_ 1, onC := at_ 2, chop := chop, step := x.six.step, enable := true
           float := fl } : CmdRec).words)

/-- The step `k` places on, in the order of the rotation: 0 to 5, or 5 to 0 for negative rotation (R189). -/
def AxSix.stepOn (s : AxSix) (k : Nat) : Nat := (s.step + (if s.neg then 5 else 1) * k) % 6

/-- The next step. -/
def AxSix.advance (s : AxSix) : AxSix := { s with step := s.stepOn 1, evStep := 0, inStep := 0 }

/-- RAMP: the forced step advances; steps that reported exactly one event are counted (R190). -/
def AxisSt.ramp (x : AxisSt) (t : Word) (ev : Nat) : AxisSt × Bool :=
  let s := { x.six with evStep := x.six.evStep + ev }
  let phi := Fp.add s.phi (Fp.mul (Fp.mul Fp.k2Pi s.f) t)
  let s := if Fp.ge phi Fp.kPi3
    then { s.advance with phi := Fp.sub phi Fp.kPi3, good := if s.evStep = 1 then s.good + 1 else 0 }
    else { s with phi := phi, inStep := s.inStep + 1 }
  let top := Fp.ge s.f (x.pw 40)
  let s := { s with f := Fp.min (Fp.add s.f (Fp.mul (x.pw 41) t)) (x.pw 40), cnt := if top then s.cnt + 1 else s.cnt }
  let s := { s with since := if ev = 0 then s.since + 1 else 0, ival := if ev = 0 then s.ival else s.since + 1
                    ivalN := if ev = 0 then s.ivalN else ev }
  if s.good ≥ x.raw 44 then ({ x with six := { s with ph := .run, pend := 0 } }, false)
  else ({ x with six := s }, decide (s.cnt > x.raw 32))

/-- RUN: the step advances π/6 after each event, half of one event's share of the interval (R190, R191); on a network axis at most once a
cycle: `pend` counts the advances still due, and one of them falls in the cycle of a next event. -/
def AxisSt.runSix (x : AxisSt) (t : Word) (ev : Nat) : AxisSt :=
  let s := x.six
  let s := if ev = 0 then { s with since := s.since + 1, inStep := s.inStep + 1 }
    else
      let we := Fp.div (Fp.mul Fp.kPi3 (Fp.ofInt (ev : Int))) (Fp.mul (Fp.ofInt ((s.since + 1 : Nat) : Int)) t)
      { s with since := 0, ival := s.since + 1, ivalN := ev, pend := s.pend + ev, inStep := s.inStep + 1
               we := if s.neg then Fp.neg we else we }
  let s := if x.isLocal then (if ev = 0 then s else { s with step := s.stepOn ev, inStep := 0 })
    else if s.pend > 0 && (if ev ≠ 0 then x.six.pend > 0 else 2 * s.since * s.ivalN ≥ s.ival) then { s.advance with pend := s.pend - 1 }
    else s
  { x with six := s }

/-- The six-step angle (R189): within the sector of the step. -/
def AxisSt.theta6 (x : AxisSt) (t : Word) : Word :=
  let lo := Fp.mul Fp.kPi3 (Fp.ofInt (x.six.step : Int))
  let hi := Fp.mul Fp.kPi3 (Fp.ofInt ((x.six.step + 1 : Nat) : Int))
  Fp.clamp (Fp.add (Fp.add lo Fp.kPi6) (Fp.mul x.six.we (Fp.mul (Fp.ofInt (x.six.inStep : Int)) t))) lo hi

/-- The PI of ALIGN (R190) on the measured current magnitude: the duty, and the integrator after the cycle. The manual gives neither gain;
both are free constants, and duty and integrator keep to 0 to 1 (log entry 37). -/
def AxisSt.alignDuty (x : AxisSt) : Word × Word :=
  let e := Fp.sub (x.pw 37) x.iAbs
  (Fp.clamp (Fp.add (Fp.mul Config.alignKp e) x.six.xi) 0#32 Fp.one,
   Fp.clamp (Fp.add x.six.xi (Fp.mul Config.alignKi e)) 0#32 Fp.one)

/-- A hand-over attempt (R192), at the speed that RUN measures from its events (R190; log entry 200): whether it succeeds, whether the
fourth refusal in a row falls. -/
def AxisSt.attempt (x : AxisSt) (t : Word) : AxisSt × Bool × Bool :=
  if x.six.cool > 0 then ({ x with six := { x.six with cool := x.six.cool - 1 } }, false, false)
  else if !Fp.ge (Fp.abs (Fp.div x.six.we x.pp)) (x.pw 43) then (x, false, false)
  else
    let d := angwOf (Fp.sub x.trk.th (x.theta6 t))
    if Fp.le (Fp.abs d) Fp.kPi6 then ({ x with six := { x.six with delta := d } }, true, false)
    else
      let k := x.six.refusals + 1
      ({ x with six := { x.six with cool := 64, refusals := if k ≥ 4 then 0 else k } }, false, k ≥ 4)

/-- The cycle of the blend that follows (R192): 0 when none runs. From the 16th the angle is θ̂ itself, on a BEMF axis that of its source;
on an HFI_BEMF axis it stays θ̂ until the crossover of R185 gives θ̂ too (log entry 168). -/
def AxisSt.blendNext (x : AxisSt) : Nat :=
  if x.six.blend = 0 then 0
  else if x.six.blend < 16 then x.six.blend + 1
  else if x.src = 3 && !Fp.ge x.weight Fp.one then 16 else 0

/-- The presets of a hand-over (R192, R174). -/
def AxisSt.handOver (x : AxisSt) : AxisSt :=
  let ed := Fp.sub 0#32 x.i.id
  let xd := Fp.add (Fp.mul (Fp.neg (x.pw 13)) ed) (Fp.mul (Fp.mul x.i.we (x.pw 11)) x.i.iq)
  let eq := Fp.sub x.i.iq x.i.iq
  let xq := Fp.sub (Fp.sub (Fp.mul (Fp.mul (x.pw 42) x.i.vbus) Fp.kR3) (Fp.mul (x.pw 13) eq))
    (Fp.mul x.i.we (Fp.add (Fp.mul (x.pw 10) x.i.id) (x.pw 12)))
  { x with i := { x.i with xd := xd, xq := xq, iqr := x.i.iq }
           six := { x.six with refusals := 0, cool := 0, blend := 1 } }

/-! ### One cycle -/

/-- What a sample that is no hold changes (R179, R182 to R186, R194): the axis, the injection amplitude, the fault bits it
shows (R195, R199, R200). -/
def AxisSt.measure (x : AxisSt) (n t : Word) (ws : List Word) : AxisSt × Word × BitVec 7 × Nat :=
  let r := Sample.of ws
  let run := x.mode ≠ .off && x.mode ≠ .safe
  let vbus := Fp.mul (Fp.ofInt (r.vbus : Int)) (x.pw 8)
  let ev := (r.ev + 256 - x.i.ev) % 256
  let ph := x.phases r
  let low := Fp.lt vbus (x.pw 22)
  let uv := if low then x.i.uv + 1 else 0
  let x := { x with i := { x.i with holds := 0, vbus := vbus, uv := uv, flags := r.flags, ev := r.ev } }
  let f : BitVec 7 := (if ph.any (fun i => Fp.ge (Fp.abs i) (x.pw 21)) then 1#7 else 0#7)
    ||| (if run && Fp.ge vbus (x.pw 23) then 2#7 else 0#7) ||| (if run && uv ≥ 2 then 4#7 else 0#7)
    ||| (if bitsOf r.flags 3 0 ≠ 0 then 64#7 else 0#7)
  if x.stepper then ({ x.budget t with i := { (x.budget t).i with gap := 0 } }, 0#32, f, ev)
  else
    let ab := x.alphaBeta ph
    let a := x.angleSource n t r ab
    let x := a.1
    let d := parkOf ab.lo ab.hi (Fp.sin x.i.theta) (Fp.cos x.i.theta)
    let x := { x with i := { x.i with gap := 0, id := d.lo, iq := d.hi, ia := ab.lo, ib := ab.hi }
                      trk := { x.trk with idP := x.i.id, iqP := x.i.iq } }
    (x.budget t, a.2, f, ev)

/-- A held sample (R177, R179): the angle of the cycle is that of the last non-hold sample advanced by one step, and is not
stored as it; the holds are counted. -/
def AxisSt.held (x : AxisSt) (t : Word) : AxisSt × BitVec 7 :=
  let th := if x.stepper then x.i.th else angwOf (Fp.add x.i.theta (Fp.mul x.i.we t))
  let h := x.i.holds + 1
  ({ x with i := { x.i with holds := h, gap := x.i.gap + 1, th := th }, trk := { x.trk with inj := false } },
   if h > x.raw 48 then 32#7 else 0#7)

/-- The references of the present mode (R171, R211) after the bus watch of DECEL (R197): d, q, bus_lim. -/
def AxisSt.refs (x : AxisSt) (c : InIn) : Word × Word × Bool :=
  match x.mode with
  | .current => match c.cur with
    | some k => (wordAt k.words 1, wordAt k.words 2, false)
    | none => (0#32, 0#32, false)
  | .velocity | .position => (wordAt c.ref.words 1, wordAt c.ref.words 0, false)
  | .decel =>
    let q := wordAt c.ref.words 0
    let brake := (Fp.lt q 0#32 && Fp.gt x.i.wm 0#32) || (Fp.gt q 0#32 && Fp.lt x.i.wm 0#32)
    if brake && Fp.gt x.i.vbus (x.pw 24) then
      let k := Fp.clamp (Fp.div (Fp.sub (x.pw 25) x.i.vbus) (Fp.sub (x.pw 25) (x.pw 24))) 0#32 Fp.one
      (wordAt c.ref.words 1, Fp.mul q k, Fp.lt k Fp.one)
    else (wordAt c.ref.words 1, q, false)
  | _ => (0#32, 0#32, false)

/-- The locked-rotor test of R196: the count of cycles and whether the fault is found. In SIX_STEP RUN no iq_ref exists, and
whether it reaches lr_iq is a free value (log entry 36). -/
def AxisSt.lockedRotor (x : AxisSt) (iqRef : Word) (ev : Bool) (six : Nat) (free : Nat) : AxisSt × Bool × Nat :=
  let sixRun := x.mode = .sixStep && x.six.ph = .run
  let on := x.mode = .velocity || x.mode = .position || x.mode = .decel || (x.mode = .current && x.lrCurrent) || sixRun
  let high := if sixRun then Config.freeBool free else Fp.ge (Fp.abs iqRef) (x.pw 31)
  let e := if x.mode = .sixStep then decide (six > 0) else ev
  let k := if on && high && !e then x.i.lr + 1 else 0
  ({ x with i := { x.i with lr := k } }, on && decide (k ≥ x.raw 32), if sixRun then 1 else 0)

/-- The stepper's command (R224, R226). -/
def AxisSt.coils (x : AxisSt) (m : AxMode) (ref : Token) : List Word :=
  match m with
  | .safe => stepperWords 0 0 true false
  | .step =>
    let u := (wordAt ref.words 2).toNat
    let amp := wordAt ref.words 1
    let k := u % 256
    let q := u / 256 % 4
    let up := x.msEntry k
    let dn := x.msEntry (256 - k)
    let a := match q with | 0 => dn | 1 => -up | 2 => -dn | _ => up
    let b := match q with | 0 => up | 1 => dn | 2 => -up | _ => -dn
    let code := fun (e : Int) (off : Nat) =>
      let i := Fp.div (Fp.mul amp (Fp.ofInt e)) Fp.k65535
      satInt (Fp.toInt32 (Fp.div i (x.pw 4)) + Fp.toInt32 (x.pw off)) (-32768) 32767
    stepperWords (code a 5) (code b 6) false true
  | _ => stepperWords 0 0 false false

/-- Entering a mode (R173, R174, R206). `neg` is the direction in which SIX_STEP will turn, which the manual lets nothing choose: a free
value (R189, log entry 38). -/
def AxisSt.enter (x : AxisSt) (m : AxMode) (n : Word) (follow : AxMode) (neg : Bool) : AxisSt :=
  if m = x.mode then x
  else
    let hfi := x.src = 2 || x.src = 3
    let clear := m = .off || m = .safe || x.mode = .off
    let fresh : AxSix := {}
    let i := if clear then { x.i with xd := 0#32, xq := 0#32 } else x.i
    let i := if m = .off || m = .safe then { i with iqr := 0#32 } else i
    let trk := if x.mode = .off && m.foc && hfi then { x.trk with pol := 1, pk1 := 0#32, pk2 := 0#32, inj := false }
      else if m.foc then x.trk else { x.trk with pol := 0, inj := false }
    let six := if m = .sixStep then { fresh with f := x.pw 39, neg := neg }
      else if m.foc then x.six else fresh
    { x with mode := m, since := n, follow := if m = .sixStep then follow else .off
             i := { i with slow := 0 }, trk := trk, six := six }

/-- What stands for the cycle: the mode of its command and the mode from it on (R173, R175). -/
structure Verdict where
  x : AxisSt
  target : AxMode
  cmd : AxMode
  follow : AxMode
deriving DecidableEq, Repr

/-- The events of the cycle in their order of precedence (R172, R175, R176, R233, R407). `auto` is an automatic transition,
`pol` the end of a polarity detection, taken before an end of DECEL (log entry 220). -/
def AxisSt.events (x : AxisSt) (c : InIn) (hold : Bool) (new : Bool) (auto : Option AxMode) (pol : Bool) : Verdict :=
  let sup := if tokFresh c.ref && bitsOf (wordAt c.ref.words 3).toNat 3 3 == 1
    then [(AxMode.ofCode (bitsOf (wordAt c.ref.words 3).toNat 2 0), AxMode.off)] else []
  let host := match c.mode with
    | some k => if tokFresh k then [(AxMode.ofCode (bitsOf (wordAt k.words 1).toNat 2 0), AxMode.ofCode (bitsOf (wordAt k.words 2).toNat 2 0))] else []
    | none => []
  let reqs := sup ++ host
  let drop := fun (x : AxisSt) (k : Nat) => (List.range k).foldl (fun x _ => x.refuse) x
  let stop := c.stop && (x.mode = .current || x.mode = .velocity || x.mode = .position)
  if c.latch || !c.energise then ⟨drop x reqs.length, .safe, .safe, .off⟩
  else if new then
    let m := if x.faultSafe || x.mode = .safe then .safe else .off
    ⟨drop x reqs.length, m, m, .off⟩
  else if stop then ⟨drop x reqs.length, .decel, x.mode, .off⟩
  else if pol then ⟨drop x reqs.length, x.mode, x.mode, x.follow⟩
  else
    match auto with
    | some m => ⟨drop x reqs.length, m, x.mode, .off⟩
    | none =>
      match reqs with
      | [] => ⟨x, x.mode, x.mode, x.follow⟩
      | r :: rest =>
        let y := drop x rest.length
        if !x.allowed r.1 hold c.fbOk then ⟨y.refuse, x.mode, x.mode, x.follow⟩
        else if x.mode = .sixStep && r.1.foc then ⟨{ y with follow := r.1 }, .sixStep, .sixStep, r.1⟩
        else ⟨y, r.1, x.mode, r.2⟩

/-- The fault codes of a set of bits (R200). -/
def faultCodes (f : BitVec 7) : List Nat := ((List.range 7).filter (fun k => f.getLsbD k)).map (· + 1)

/-- One step of K_INNER for one axis. The quotient that limits the RUN duty takes abs(i) of the cycle before (log entry 188). -/
def AxisSt.inner (x : AxisSt) (c : InIn) : InOut :=
  let hold := c.smp.hold || c.smp.poison
  let pos := wordAt c.smp.words 2
  let x := { x with i := { x.i with ssClamp := false } }
  let m := if hold then let h := x.held c.t; (h.1, 0#32, h.2, 0) else x.measure c.n c.t c.smp.words
  let x := m.1
  let amp := m.2.1
  let ev := m.2.2.2
  let r := x.refs c
  -- the six-step sequence and its automatic transition
  let six := x.mode = .sixStep
  let ph := x.six.ph
  let ra := if six && ph = .ramp then x.ramp c.t ev else (x, false)
  let x := if six && ph = .run then x.runSix c.t ev else ra.1
  let at_ := if six && ph = .run then x.attempt c.t else (x, false, false)
  let x := at_.1
  let sc := x.sector
  let x := if x.stepper then x else sc.1
  let lr := x.lockedRotor r.2.1 sc.2 ev c.free
  let x := lr.1
  let slow := if x.mode = .decel && Fp.lt (Fp.abs x.i.wm) (x.pw 30) then x.i.slow + 1 else 0
  let x := { x with i := { x.i with slow := slow } }
  let auto := if x.mode = .decel && slow ≥ 8 then some (if x.decelEnd then AxMode.position else .off)
    else if at_.2.1 then some x.follow else none
  let f := m.2.2.1 ||| (if lr.2.1 || ra.2 then 8#7 else 0#7) ||| (if at_.2.2 then 16#7 else 0#7)
  let new := f &&& ~~~x.faults
  let x := { x with faults := x.faults ||| f }
  let pol := x.trk.pol = 16
  let v := x.events c hold (new ≠ 0#7) auto pol
  let x := v.x
  let ch := x.chop v.cmd
  let x := ch.1
  -- the command of the cycle
  let o : AxisSt × Option (List Word) := if x.stepper then (x, some (x.coils v.cmd c.ref))
    else match v.cmd with
      | .safe => (x, some ({ safe := true } : CmdRec).words)
      | .sixStep =>
        let align := ph = .align
        let d6 := match x.six.scale with
          | some k => Fp.mul (x.pw 42) k
          | none => x.pw 42
        let pi := x.alignDuty
        let duty := if align then pi.1 else if ph = .run then d6 else x.pw 42
        let w := x.sixCmd duty c.t (ph ≠ .run) ch.2
        let hot := Fp.gt x.iAbs x.i.iLim
        let s := if align then { w.1.six with cnt := w.1.six.cnt + 1, xi := pi.2 } else w.1.six
        let s := { s with scale := if hot then some (Fp.div x.i.iLim x.iAbs) else none }
        let s := if align && s.cnt ≥ x.raw 38 then { s with ph := .ramp, cnt := 0 } else s
        ({ w.1 with six := s }, some w.2)
      | .current | .velocity | .position | .decel =>
        let y := if x.trk.pol > 0 then x.polStep hold ch.2
          else if hold then x.modulate x.i.vd x.i.vq ch.2
          else x.focLaw c.n amp r.1 r.2.1 ch.2
        ({ y.1 with six := { y.1.six with blend := y.1.blendNext } }, y.2)
      | _ => ({ x with i := { x.i with xd := 0#32, xq := 0#32, iqr := 0#32 } }, some ({} : CmdRec).words)
  let x := o.1
  let iqr := if v.cmd.foc then x.i.iqr else if at_.2.1 && v.target.foc then x.i.iq else 0#32
  let x := if six && v.cmd = .sixStep && v.target.foc then x.handOver else x
  let starts := v.target = .sixStep && x.mode ≠ .sixStep
  let x := x.enter v.target c.n v.follow (Config.freeBool (c.free + lr.2.2))
  let w4 := BitVec.ofNat 32 (bitN r.2.2 * 16 + bitN hold * 8 + x.mode.code)
  { x := x, sink := o.2, fb := [pos, x.i.wm, x.i.iq, x.i.iLim, w4, iqr], raises := faultCodes new
    draws := lr.2.2 + bitN starts }

end Sys2Proof.Machine
end

