-- ==== Sys2Proof/Machine/CellEnd.lean ====
section
/-! DEFINITION. END (R49, R82, R111, R129, R136, R140, R145): the end of a cell's own operation, of a work item, and of a
standard kernel, whose step is taken whole on the tokens the operation began with (R177, R214; log entry 40).
Log: DESIGN CHOICE 40, 197. -/

namespace Sys2Proof.Machine

/-- A token that says nothing, for an input that is missing. -/
def Token.silent (c : Word) : Token := ⟨c, false, true, []⟩

/-- The position source of a local axis is in mode 1, 2 or 3 (R536). -/
def State.fbInUse (s : State) (a : Nat) : Bool :=
  let k := s.fld Reg.pwmGrpCfgFb (lgBase (a - 256))
  s.fld Reg.fbCfgMode (fbBase k) ≠ 0

/-- One step of K_INNER for one axis on the machine: its output words by queue. -/
def State.innerAxis (s : State) (r : RunCtx) (a : Nat) : State × List (Nat × Option (List Word)) :=
  match s.axisCfg a with
  | none => (s, [])
  | some g =>
    let o := (s.axis a).inner
      { n := r.cycle, t := s.kT, smp := (r.tok g.srcQ).getD (Token.silent r.cycle), mode := r.tok g.modeMb
        cur := g.curMb.bind r.tok, ref := (r.tok g.refQ).getD (Token.silent r.cycle), latch := s.fox.latch
        energise := s.energise a, stop := s.stopTaken a, fbOk := a < 256 || s.fbInUse a, free := s.freeCtr }
    let s := { s.setAxis a o.x with freeCtr := s.freeCtr + o.draws }
    let s := o.raises.foldl (fun s c => s.raise (0x10 + c) 0 4 a) s
    (s, [(g.sinkQ, o.sink), (g.fbQ, some o.fb)])

/-- One step of K_OUTER for one axis on the machine. -/
def State.outerAxis (s : State) (r : RunCtx) (a : Nat) : State × List (Nat × Option (List Word)) :=
  match s.axisCfg a with
  | none => (s, [])
  | some g =>
    let o := (s.axis a).outer
      { n := r.cycle, t := s.kT, fb := (r.tok g.fbQ).getD (Token.silent r.cycle), tgt := g.tgtMb.bind r.tok }
    let s := s.setAxis a o.x
    (o.raises.foldl (fun s c => s.raise c 0 4 a) s, [(g.refQ, some o.ref)])

/-- The axes of an operation in turn. -/
def State.innerAxes (s : State) (r : RunCtx) : List Nat → State × List (Nat × Option (List Word))
  | [] => (s, [])
  | a :: rest =>
    let x := s.innerAxis r a
    let y := State.innerAxes x.1 r rest
    (y.1, x.2 ++ y.2)

/-- The output tokens of a standard kernel, through the output guard (R82, R136): a hold where the kernel wrote one (R180),
nothing where the operation is late (R140), free where the cell's outputs are undefined (R45). The second part tells whether the guard
replaced a word. -/
def State.kernelOut (s : State) (d : OpDesc) (ctx : RunCtx) (outs : List (Nat × Option (List Word))) (p : Nat × PortDesc) :
    State × Bool :=
  let q := p.2.queue
  let g := match (outs.find? (fun e => e.1 == q)).bind Prod.snd with
    | none => (none, false)
    | some ws => if p.2.raw then (some ws, false) else ((some (guardWords ws (s.holdWords q)).1), (guardWords ws (s.holdWords q)).2)
  let o := s.outOf d.cell (((s.qdesc q).map QDesc.words).getD 0) g.1
  (if ctx.late then s else o.1.pushOut d ctx.cycle q o.2 false, g.2)

/-- Every output port of a standard kernel. -/
def State.kernelOuts (s : State) (d : OpDesc) (ctx : RunCtx) (outs : List (Nat × Option (List Word))) :
    List (Nat × PortDesc) → State × Bool
  | [] => (s, false)
  | p :: r =>
    let x := s.kernelOut d ctx outs p
    let y := State.kernelOuts x.1 d ctx outs r
    (y.1, x.2 || y.2)

/-- A standard kernel's operation ends. -/
def endKernel (n k : Nat) (d : OpDesc) (ctx : RunCtx) (pc : Nat)
    (r : State × List (Nat × Option (List Word))) : State :=
  let x := r.1.kernelOuts d ctx r.2 d.outputs
  let s := if x.2 && !ctx.nonfinite then x.1.cellFault n 6 pc else x.1
  (((s.countLate ctx).retireInputs k d ctx.cycle).freeCell n).note

/-- A step of a standard kernel: single-bit errors of the words it reads are corrected and counted (R55), and a double-bit error abandons the
operation with ECC (R56, R88). -/
def State.kernelStep (s : State) (n k : Nat) (d : OpDesc) (ctx : RunCtx) (pc : Nat)
    (f : State → State × List (Nat × Option (List Word))) : State :=
  let ws := s.kernelWords d
  let s := s.correct ws
  if s.flip2.any (fun a => ws.contains a) then s.faultAt n 1 pc else endKernel n k d ctx pc (f s)

/-- The job of a cell ends at an END at `pc` (R49). -/
def State.endJob (s : State) (n pc : Nat) : State :=
  match (s.cell n).run with
  | none => s
  | some ctx =>
    match ctx.job with
    | .item w => (s.endItem n w ctx 0).note
    | .op k =>
      match s.opDesc k with
      | none => s.freeCell n
      | some d =>
        match d.kernel with
        | .custom => s.endCustom n k d ctx pc
        | .inner as => s.kernelStep n k d ctx pc (fun s => s.innerAxes ctx as)
        | .outer a => s.kernelStep n k d ctx pc (fun s => s.outerAxis ctx a)

/-- END (R111): the trig unit drains, the accesses take place, the job ends. -/
def execEndOp (i : FmtA) (s : State) : Host.Outcome State Fault Refusal :=
  let n := i.cell
  .next (match s.issues n with
    | none => s
    | some r =>
      let pc := (s.cell n).pc.toNat
      let s := (s.countIssue n r).correct (insWords n pc)
      let c := s.cell n
      match c.shadow with
      | some t => s.setCell n { c with shadow := none, pc := t }
      | none =>
        if c.suppressed i.stg.toNat then s.advance n pc .seq
        else if (insWords n pc).any (fun a => s.flip2.contains a) then s.faultAt n 1 pc
        else
          let spent := s.overBudget n r
          let s := s.drainTrig n
          let c := s.cell n
          let d := apply s n {} (access s n c .x i.xa) (access s n c .y i.ya)
          let code := lowest ((if spent then [5] else []) ++ d.faults)
          if code = 0 then d.s.endJob n pc else if spent then s.faultAt n code pc else d.s.faultAt n code pc)

end Sys2Proof.Machine
end

