-- ==== Sys2Proof/Machine/CellFloat.lean ====
section
/-! DEFINITION. The FP32 arithmetic, compares and selections (R113, R114, R120, R123 to R125). -/

namespace Sys2Proof.Machine

/-- ADD: d ← a + b (R113). -/
def execAdd (i : FmtA) (s : State) : Host.Outcome State Fault Refusal :=
  .next (issueA s i (fun _ c => .toF c i.d (Fp.add (c.rdF i.a) (c.rdF i.b))))

/-- SUB: d ← a − b (R113). -/
def execSub (i : FmtA) (s : State) : Host.Outcome State Fault Refusal :=
  .next (issueA s i (fun _ c => .toF c i.d (Fp.sub (c.rdF i.a) (c.rdF i.b))))

/-- MUL: d ← a × b (R113). -/
def execMul (i : FmtA) (s : State) : Host.Outcome State Fault Refusal :=
  .next (issueA s i (fun _ c => .toF c i.d (Fp.mul (c.rdF i.a) (c.rdF i.b))))

/-- FMAC: d ← fma(a, b, d) (R113). -/
def execFmac (i : FmtA) (s : State) : Host.Outcome State Fault Refusal :=
  .next (issueA s i (fun _ c => .toF c i.d (Fp.fma (c.rdF i.a) (c.rdF i.b) (c.rdF i.d))))

/-- FMSC: d ← fma(−a, b, d) (R113). -/
def execFmsc (i : FmtA) (s : State) : Host.Outcome State Fault Refusal :=
  .next (issueA s i (fun _ c => .toF c i.d (Fp.fnma (c.rdF i.a) (c.rdF i.b) (c.rdF i.d))))

/-- MIN: d ← the smaller of a and b (R113). -/
def execMinOp (i : FmtA) (s : State) : Host.Outcome State Fault Refusal :=
  .next (issueA s i (fun _ c => .toF c i.d (Fp.min (c.rdF i.a) (c.rdF i.b))))

/-- MAX: d ← the larger of a and b (R113). -/
def execMaxOp (i : FmtA) (s : State) : Host.Outcome State Fault Refusal :=
  .next (issueA s i (fun _ c => .toF c i.d (Fp.max (c.rdF i.a) (c.rdF i.b))))

/-- ABS: d ← a without its sign (R113). -/
def execAbsOp (i : FmtA) (s : State) : Host.Outcome State Fault Refusal :=
  .next (issueA s i (fun _ c => .toF c i.d (Fp.abs (c.rdF i.a))))

/-- NEG: d ← a with its sign turned (R113). -/
def execNeg (i : FmtA) (s : State) : Host.Outcome State Fault Refusal :=
  .next (issueA s i (fun _ c => .toF c i.d (Fp.neg (c.rdF i.a))))

/-- MOV: d ← a, raw bits (R113). -/
def execMov (i : FmtA) (s : State) : Host.Outcome State Fault Refusal :=
  .next (issueA s i (fun _ c => .toF c i.d (c.rdF i.a)))

/-- SAT: d ← min(max(a, −b), b) (R113). -/
def execSat (i : FmtA) (s : State) : Host.Outcome State Fault Refusal :=
  .next (issueA s i (fun _ c => .toF c i.d (aluSat (c.rdF i.a) (c.rdF i.b))))

/-- MULN: d ← −(a × b), rounded once (R113). -/
def execMuln (i : FmtA) (s : State) : Host.Outcome State Fault Refusal :=
  .next (issueA s i (fun _ c => .toF c i.d (Fp.mul (Fp.flip (c.rdF i.a)) (c.rdF i.b))))

/-- CVTFI: d ← a as a signed integer (R113, R81). -/
def execCvtfi (i : FmtA) (s : State) : Host.Outcome State Fault Refusal :=
  .next (issueA s i (fun _ c => .toF c i.d (Fp.cvtfi (c.rdF i.a))))

/-- CVTIF: d ← the signed integer a as FP32 (R113, R81). -/
def execCvtif (i : FmtA) (s : State) : Host.Outcome State Fault Refusal :=
  .next (issueA s i (fun _ c => .toF c i.d (Fp.cvtif (c.rdF i.a))))

/-- FMA: d ← fma(a, b, c) (R114). -/
def execFma (i : FmtF) (s : State) : Host.Outcome State Fault Refusal :=
  .next (issueF s i (fun c => .toF c i.d (Fp.fma (c.rdF i.a) (c.rdF i.b) (c.rdF i.c))))

/-- FMS: d ← fma(a, b, −c) (R114). -/
def execFms (i : FmtF) (s : State) : Host.Outcome State Fault Refusal :=
  .next (issueF s i (fun c => .toF c i.d (Fp.fma (c.rdF i.a) (c.rdF i.b) (Fp.flip (c.rdF i.c)))))

/-- FNMA: d ← fma(−a, b, c) (R114). -/
def execFnma (i : FmtF) (s : State) : Host.Outcome State Fault Refusal :=
  .next (issueF s i (fun c => .toF c i.d (Fp.fnma (c.rdF i.a) (c.rdF i.b) (c.rdF i.c))))

/-- FNMS: d ← fma(−a, b, −c) (R114). -/
def execFnms (i : FmtF) (s : State) : Host.Outcome State Fault Refusal :=
  .next (issueF s i (fun c => .toF c i.d (Fp.fnma (c.rdF i.a) (c.rdF i.b) (Fp.flip (c.rdF i.c)))))

/-- SELZ: d ← a when z = 1, otherwise b (R114). -/
def execSelz (i : FmtA) (s : State) : Host.Outcome State Fault Refusal :=
  .next (issueA s i (fun _ c => .toF c i.d (if c.cc.z then c.rdF i.a else c.rdF i.b)))

/-- SELN: d ← a when n = 1, otherwise b (R114). -/
def execSeln (i : FmtA) (s : State) : Host.Outcome State Fault Refusal :=
  .next (issueA s i (fun _ c => .toF c i.d (if c.cc.n then c.rdF i.a else c.rdF i.b)))

/-- CMP: Compares a with b (R114). -/
def execCmp (i : FmtA) (s : State) : Host.Outcome State Fault Refusal :=
  .next (issueA s i (fun _ c => { cc := some (c.cc.ofFp (c.rdF i.a) (c.rdF i.b)) }))

/-- CMPZ: Compares a with +0 (R114). -/
def execCmpz (i : FmtA) (s : State) : Host.Outcome State Fault Refusal :=
  .next (issueA s i (fun _ c => { cc := some (c.cc.ofFp (c.rdF i.a) 0#32) }))

/-- ICMP: Compares a with b as signed integers (R114). -/
def execIcmp (i : FmtA) (s : State) : Host.Outcome State Fault Refusal :=
  .next (issueA s i (fun _ c => { cc := some (c.cc.ofInt (c.rdF i.a) (c.rdF i.b)) }))

/-- PCMP: Compares the pointers a and b (R114). -/
def execPcmp (i : FmtA) (s : State) : Host.Outcome State Fault Refusal :=
  .next (issueA s i (fun _ c => { cc := some (c.cc.ofPtr (c.rdP (pIdx i.a)) (c.rdP (pIdx i.b))) }))

/-- RND: d ← a rounded to an integral value (R120). -/
def execRnd (i : FmtA) (s : State) : Host.Outcome State Fault Refusal :=
  .next (issueA s i (fun _ c => .toF c i.d (Fp.rnd (c.rdF i.a))))

/-- FRAC: d ← a − RND(a) (R120). -/
def execFrac (i : FmtA) (s : State) : Host.Outcome State Fault Refusal :=
  .next (issueA s i (fun _ c => .toF c i.d (Fp.frac (c.rdF i.a))))

/-- SIGN: d ← the sign of a as ±1.0 or +0 (R120). -/
def execSign (i : FmtA) (s : State) : Host.Outcome State Fault Refusal :=
  .next (issueA s i (fun _ c => .toF c i.d (Fp.sign (c.rdF i.a))))

/-- CPSGN: d ← the magnitude of a with the sign of b (R120). -/
def execCpsgn (i : FmtA) (s : State) : Host.Outcome State Fault Refusal :=
  .next (issueA s i (fun _ c => .toF c i.d (Fp.cpsgn (c.rdF i.a) (c.rdF i.b))))

/-- SCALE: d ← a × 2^k (R120). -/
def execScale (i : FmtA) (s : State) : Host.Outcome State Fault Refusal :=
  .next (issueA s i (fun _ c => .toF c i.d (Fp.scale (c.rdF i.a) (c.rdF i.b))))

/-- DEADZ: d ← a − min(max(a, −b), b) (R120). -/
def execDeadz (i : FmtA) (s : State) : Host.Outcome State Fault Refusal :=
  .next (issueA s i (fun _ c => .toF c i.d (deadzOf (c.rdF i.a) (c.rdF i.b))))

/-- LPF: d ← fma(b, a − d, d) (R120). -/
def execLpf (i : FmtA) (s : State) : Host.Outcome State Fault Refusal :=
  .next (issueA s i (fun _ c => .toF c i.d (lpfOf (c.rdF i.a) (c.rdF i.b) (c.rdF i.d))))

/-- DOT2: d ← the product sum of two pairs (R120). -/
def execDot2 (i : FmtA) (s : State) : Host.Outcome State Fault Refusal :=
  .next (issueA s i (fun _ c => .toF c i.d (dot2Of (c.rdEven i.a) (c.rdOdd i.a) (c.rdEven i.b) (c.rdOdd i.b))))

/-- CROSS2: d ← the cross product of two pairs (R120). -/
def execCross2 (i : FmtA) (s : State) : Host.Outcome State Fault Refusal :=
  .next (issueA s i (fun _ c => .toF c i.d (cross2Of (c.rdEven i.a) (c.rdOdd i.a) (c.rdEven i.b) (c.rdOdd i.b))))

/-- MAG2: d ← the squared magnitude of a pair (R120). -/
def execMag2 (i : FmtA) (s : State) : Host.Outcome State Fault Refusal :=
  .next (issueA s i (fun _ c => .toF c i.d (mag2Of (c.rdEven i.a) (c.rdOdd i.a))))

/-- ADDFI: d ← a + imm (R123). -/
def execAddfi (i : FmtI) (s : State) : Host.Outcome State Fault Refusal :=
  .next (issueI s i (fun c => .toF c i.d (Fp.add (c.rdF i.a) i.imm)))

/-- MULFI: d ← a × imm (R123). -/
def execMulfi (i : FmtI) (s : State) : Host.Outcome State Fault Refusal :=
  .next (issueI s i (fun c => .toF c i.d (Fp.mul (c.rdF i.a) i.imm)))

/-- FMACFI: d ← fma(a, imm, d) (R123). -/
def execFmacfi (i : FmtI) (s : State) : Host.Outcome State Fault Refusal :=
  .next (issueI s i (fun c => .toF c i.d (Fp.fma (c.rdF i.a) i.imm (c.rdF i.d))))

/-- MINFI: MIN with imm as b (R123). -/
def execMinfi (i : FmtI) (s : State) : Host.Outcome State Fault Refusal :=
  .next (issueI s i (fun c => .toF c i.d (Fp.min (c.rdF i.a) i.imm)))

/-- MAXFI: MAX with imm as b (R123). -/
def execMaxfi (i : FmtI) (s : State) : Host.Outcome State Fault Refusal :=
  .next (issueI s i (fun c => .toF c i.d (Fp.max (c.rdF i.a) i.imm)))

/-- SATFI: d ← min(max(a, −imm), imm) (R123). -/
def execSatfi (i : FmtI) (s : State) : Host.Outcome State Fault Refusal :=
  .next (issueI s i (fun c => .toF c i.d (aluSat (c.rdF i.a) i.imm)))

/-- CMPFI: CMP with imm as b (R123). -/
def execCmpfi (i : FmtI) (s : State) : Host.Outcome State Fault Refusal :=
  .next (issueI s i (fun c => { cc := some (c.cc.ofFp (c.rdF i.a) i.imm) }))

/-- DIFFW: d ← the signed difference a − b mod 2^32, as FP32 (R124). -/
def execDiffw (i : FmtA) (s : State) : Host.Outcome State Fault Refusal :=
  .next (issueA s i (fun _ c => .toF c i.d (diffwOf (c.rdF i.a) (c.rdF i.b))))

/-- UCVTF: d ← the unsigned integer a as FP32 (R124). -/
def execUcvtf (i : FmtA) (s : State) : Host.Outcome State Fault Refusal :=
  .next (issueA s i (fun _ c => .toF c i.d (Fp.ucvtf (c.rdF i.a))))

/-- CVTFU: d ← a as an unsigned integer (R124). -/
def execCvtfu (i : FmtA) (s : State) : Host.Outcome State Fault Refusal :=
  .next (issueA s i (fun _ c => .toF c i.d (Fp.cvtfu (c.rdF i.a))))

/-- INTS: d ← the limited sum of R125, with n. -/
def execInts (i : FmtF) (s : State) : Host.Outcome State Fault Refusal :=
  .next (issueF s i (fun c =>
    let r := intsOf (c.rdF i.a) (c.rdF i.b) (c.rdF i.d) (c.rdF i.c)
    { f := [(c.phys i.d.toNat, r.v)], cc := some (c.cc.limited r.cut) }))

/-- RLIM: d ← d moved toward a by at most b, with n (R125). -/
def execRlim (i : FmtA) (s : State) : Host.Outcome State Fault Refusal :=
  .next (issueA s i (fun _ c =>
    let r := rlimOf (c.rdF i.a) (c.rdF i.b) (c.rdF i.d)
    { f := [(c.phys i.d.toNat, r.v)], cc := some (c.cc.limited r.cut) }))

/-- MAXABS: d ← the larger magnitude of a and b (R125). -/
def execMaxabs (i : FmtA) (s : State) : Host.Outcome State Fault Refusal :=
  .next (issueA s i (fun _ c => .toF c i.d (Fp.maxabs (c.rdF i.a) (c.rdF i.b))))

/-- AVG: d ← (a + b) × 0.5 (R125). -/
def execAvg (i : FmtA) (s : State) : Host.Outcome State Fault Refusal :=
  .next (issueA s i (fun _ c => .toF c i.d (avgOf (c.rdF i.a) (c.rdF i.b))))

/-- SQDIF: d ← (a − b)², in two steps (R125). -/
def execSqdif (i : FmtA) (s : State) : Host.Outcome State Fault Refusal :=
  .next (issueA s i (fun _ c => .toF c i.d (sqdifOf (c.rdF i.a) (c.rdF i.b))))

end Sys2Proof.Machine
end

