-- ==== Sys2Proof/Machine/CellInt.lean ====
section
/-! DEFINITION. The integer and bit operations (R115, R122, R124). -/

namespace Sys2Proof.Machine

/-- IADD: d ← a + b modulo 2^32 (R115). -/
def execIadd (i : FmtA) (s : State) : Host.Outcome State Fault Refusal :=
  .next (issueA s i (fun _ c => .toF c i.d ((c.rdF i.a) + (c.rdF i.b))))

/-- ISUB: d ← a − b (R115). -/
def execIsub (i : FmtA) (s : State) : Host.Outcome State Fault Refusal :=
  .next (issueA s i (fun _ c => .toF c i.d ((c.rdF i.a) - (c.rdF i.b))))

/-- IMUL: d ← the low 32 bits of a × b (R115). -/
def execImul (i : FmtA) (s : State) : Host.Outcome State Fault Refusal :=
  .next (issueA s i (fun _ c => .toF c i.d ((c.rdF i.a) * (c.rdF i.b))))

/-- AND: d ← a AND b (R115). -/
def execAndOp (i : FmtA) (s : State) : Host.Outcome State Fault Refusal :=
  .next (issueA s i (fun _ c => .toF c i.d ((c.rdF i.a) &&& (c.rdF i.b))))

/-- OR: d ← a OR b (R115). -/
def execOrOp (i : FmtA) (s : State) : Host.Outcome State Fault Refusal :=
  .next (issueA s i (fun _ c => .toF c i.d ((c.rdF i.a) ||| (c.rdF i.b))))

/-- XOR: d ← a XOR b (R115). -/
def execXorOp (i : FmtA) (s : State) : Host.Outcome State Fault Refusal :=
  .next (issueA s i (fun _ c => .toF c i.d ((c.rdF i.a) ^^^ (c.rdF i.b))))

/-- SHL: d ← a shifted left by b[4:0] (R115). -/
def execShl (i : FmtA) (s : State) : Host.Outcome State Fault Refusal :=
  .next (issueA s i (fun _ c => .toF c i.d (shiftL (c.rdF i.a) (c.rdF i.b))))

/-- SHR: d ← a shifted right, filling with 0 (R115). -/
def execShr (i : FmtA) (s : State) : Host.Outcome State Fault Refusal :=
  .next (issueA s i (fun _ c => .toF c i.d (shiftR (c.rdF i.a) (c.rdF i.b))))

/-- SAR: d ← a shifted right, filling with a[31] (R115). -/
def execSar (i : FmtA) (s : State) : Host.Outcome State Fault Refusal :=
  .next (issueA s i (fun _ c => .toF c i.d (shiftA (c.rdF i.a) (c.rdF i.b))))

/-- IMIN: d ← the signed minimum (R115). -/
def execImin (i : FmtA) (s : State) : Host.Outcome State Fault Refusal :=
  .next (issueA s i (fun _ c => .toF c i.d (iMin (c.rdF i.a) (c.rdF i.b))))

/-- IMAX: d ← the signed maximum (R115). -/
def execImax (i : FmtA) (s : State) : Host.Outcome State Fault Refusal :=
  .next (issueA s i (fun _ c => .toF c i.d (iMax (c.rdF i.a) (c.rdF i.b))))

/-- ISATU: d ← min(max(a, 0), b), signed (R115). -/
def execIsatu (i : FmtA) (s : State) : Host.Outcome State Fault Refusal :=
  .next (issueA s i (fun _ c => .toF c i.d (iSatu (c.rdF i.a) (c.rdF i.b))))

/-- NOT: d ← a with every bit inverted (R115). -/
def execNotOp (i : FmtA) (s : State) : Host.Outcome State Fault Refusal :=
  .next (issueA s i (fun _ c => .toF c i.d (~~~(c.rdF i.a))))

/-- POPC: d ← the number of 1 bits of a (R122). -/
def execPopc (i : FmtA) (s : State) : Host.Outcome State Fault Refusal :=
  .next (issueA s i (fun _ c => .toF c i.d (popcOf (c.rdF i.a))))

/-- CLZ: d ← the leading zeros of a (R122). -/
def execClz (i : FmtA) (s : State) : Host.Outcome State Fault Refusal :=
  .next (issueA s i (fun _ c => .toF c i.d (clzOf (c.rdF i.a))))

/-- BEXT: d ← a field of a, zero-extended (R122). -/
def execBext (i : FmtI) (s : State) : Host.Outcome State Fault Refusal :=
  .next (issueI s i (fun c => .toF c i.d (bextOf (c.rdF i.a) i.imm)))

/-- BINS: A field of d ← the low bits of a (R122). -/
def execBins (i : FmtI) (s : State) : Host.Outcome State Fault Refusal :=
  .next (issueI s i (fun c => .toF c i.d (binsOf (c.rdF i.d) (c.rdF i.a) i.imm)))

/-- ANDI: d ← a AND imm (R122). -/
def execAndi (i : FmtI) (s : State) : Host.Outcome State Fault Refusal :=
  .next (issueI s i (fun c => .toF c i.d ((c.rdF i.a) &&& i.imm)))

/-- ORI: d ← a OR imm (R122). -/
def execOri (i : FmtI) (s : State) : Host.Outcome State Fault Refusal :=
  .next (issueI s i (fun c => .toF c i.d ((c.rdF i.a) ||| i.imm)))

/-- XORI: d ← a XOR imm (R122). -/
def execXori (i : FmtI) (s : State) : Host.Outcome State Fault Refusal :=
  .next (issueI s i (fun c => .toF c i.d ((c.rdF i.a) ^^^ i.imm)))

/-- IADDI: d ← a + imm modulo 2^32 (R122). -/
def execIaddi (i : FmtI) (s : State) : Host.Outcome State Fault Refusal :=
  .next (issueI s i (fun c => .toF c i.d ((c.rdF i.a) + i.imm)))

/-- ICMPI: ICMP with imm as b (R122). -/
def execIcmpi (i : FmtI) (s : State) : Host.Outcome State Fault Refusal :=
  .next (issueI s i (fun c => { cc := some (c.cc.ofInt (c.rdF i.a) i.imm) }))

/-- SHLI: SHL by imm[4:0] (R122). -/
def execShli (i : FmtI) (s : State) : Host.Outcome State Fault Refusal :=
  .next (issueI s i (fun c => .toF c i.d (shiftL (c.rdF i.a) i.imm)))

/-- SHRI: SHR by imm[4:0] (R122). -/
def execShri (i : FmtI) (s : State) : Host.Outcome State Fault Refusal :=
  .next (issueI s i (fun c => .toF c i.d (shiftR (c.rdF i.a) i.imm)))

/-- SARI: SAR by imm[4:0] (R122). -/
def execSari (i : FmtI) (s : State) : Host.Outcome State Fault Refusal :=
  .next (issueI s i (fun c => .toF c i.d (shiftA (c.rdF i.a) i.imm)))

/-- PACK16: d[31:16] ← b[15:0], d[15:0] ← a[15:0] (R124). -/
def execPack16 (i : FmtA) (s : State) : Host.Outcome State Fault Refusal :=
  .next (issueA s i (fun _ c => .toF c i.d (pack16Of (c.rdF i.a) (c.rdF i.b))))

/-- UNPKL: d ← a[15:0], sign-extended (R124). -/
def execUnpkl (i : FmtA) (s : State) : Host.Outcome State Fault Refusal :=
  .next (issueA s i (fun _ c => .toF c i.d (unpklOf (c.rdF i.a))))

/-- UNPKH: d ← a[31:16], sign-extended (R124). -/
def execUnpkh (i : FmtA) (s : State) : Host.Outcome State Fault Refusal :=
  .next (issueA s i (fun _ c => .toF c i.d (unpkhOf (c.rdF i.a))))

end Sys2Proof.Machine
end

