-- ==== Sys2Proof/Machine/CellMem.lean ====
section
/-! DEFINITION. The absolute loads and stores and the pointer operations (R101, R121). -/

namespace Sys2Proof.Machine

/-- The register of a Format M instruction loaded from a word. -/
def ldWord (s : State) (i : FmtM) (b : Bank) (c : CellSt) : AccRes :=
  let a := b.addr i.cell i.addr.toNat
  { loads := [(c.phys i.f.toNat, coreWord s c a)], reads := [a] }

/-- A word stored from the register of a Format M instruction. -/
def stWord (i : FmtM) (b : Bank) (c : CellSt) : AccRes :=
  { stores := [(b.addr i.cell i.addr.toNat, c.rdF i.f)] }

/-- The two words of a paired access, addressed as R60. -/
def pairLo (i : FmtM) (b : Bank) : Nat := b.addr i.cell (i.addr.toNat / 2 * 2)
def pairHi (i : FmtM) (b : Bank) : Nat := b.addr i.cell (i.addr.toNat / 2 * 2 + 1)

/-- A pair of registers loaded. -/
def ldPair (s : State) (i : FmtM) (b : Bank) (c : CellSt) : AccRes :=
  { loads := [(c.phys (evenOf i.f), coreWord s c (pairLo i b)), (c.phys (evenOf i.f + 1), coreWord s c (pairHi i b))]
    reads := [pairLo i b, pairHi i b] }

/-- A pair of registers stored. -/
def stPair (i : FmtM) (b : Bank) (c : CellSt) : AccRes :=
  { stores := [(pairLo i b, c.rdEven i.f), (pairHi i b, c.rdOdd i.f)] }

/-- LDX: f ← X[addr] (R121). -/
def execLdx (i : FmtM) (s : State) : Host.Outcome State Fault Refusal :=
  .next (issueM s i (fun s c => ldWord s i .x c))

/-- LDY: f ← Y[addr] (R121). -/
def execLdy (i : FmtM) (s : State) : Host.Outcome State Fault Refusal :=
  .next (issueM s i (fun s c => ldWord s i .y c))

/-- STX: X[addr] ← f (R121). -/
def execStx (i : FmtM) (s : State) : Host.Outcome State Fault Refusal :=
  .next (issueM s i (fun _ c => stWord i .x c))

/-- STY: Y[addr] ← f (R121). -/
def execSty (i : FmtM) (s : State) : Host.Outcome State Fault Refusal :=
  .next (issueM s i (fun _ c => stWord i .y c))

/-- LDXP: a pair ← two X words (R121, R60). -/
def execLdxp (i : FmtM) (s : State) : Host.Outcome State Fault Refusal :=
  .next (issueM s i (fun s c => ldPair s i .x c))

/-- LDYP: a pair ← two Y words (R121, R60). -/
def execLdyp (i : FmtM) (s : State) : Host.Outcome State Fault Refusal :=
  .next (issueM s i (fun s c => ldPair s i .y c))

/-- STXP: two X words ← a pair (R121, R60). -/
def execStxp (i : FmtM) (s : State) : Host.Outcome State Fault Refusal :=
  .next (issueM s i (fun _ c => stPair i .x c))

/-- STYP: two Y words ← a pair (R121, R60). -/
def execStyp (i : FmtM) (s : State) : Host.Outcome State Fault Refusal :=
  .next (issueM s i (fun _ c => stPair i .y c))

/-- MOVPP: pd ← pa (R121). -/
def execMovpp (i : FmtA) (s : State) : Host.Outcome State Fault Refusal :=
  .next (issueA s i (fun _ c => { p := [(pIdx i.d, c.rdP (pIdx i.a))] }))

/-- MOVMM: md ← ma (R121). -/
def execMovmm (i : FmtA) (s : State) : Host.Outcome State Fault Refusal :=
  .next (issueA s i (fun _ c => { m := [(pIdx i.d, c.rdM (pIdx i.a))] }))

/-- ADDPM: pd ← pa post-modified by mb (R121). -/
def execAddpm (i : FmtA) (s : State) : Host.Outcome State Fault Refusal :=
  .next (issueA s i (fun _ c => { p := [(pIdx i.d, postMod (c.rdP (pIdx i.a)) (c.rdM (pIdx i.b)))] }))

/-- ADDPI: pd ← (pa + imm[15:0]) mod 2^16 (R121). -/
def execAddpi (i : FmtI) (s : State) : Host.Outcome State Fault Refusal :=
  .next (issueI s i (fun c => { p := [(pIdx i.d, c.rdP (pIdx i.a) + i.imm.setWidth 16)] }))

/-- MOVPC: pd ← ca (R121). -/
def execMovpc (i : FmtA) (s : State) : Host.Outcome State Fault Refusal :=
  .next (issueA s i (fun _ c => { p := [(pIdx i.d, c.rdC (i.a.toNat % 8))] }))

end Sys2Proof.Machine
end

