-- ==== Sys2Proof/Machine/CellMove.lean ====
section
/-! DEFINITION. The moves and NOP (R111, R112). -/

namespace Sys2Proof.Machine

/-- NOP: No compute operation; both accesses take place (R111). -/
def execNop (i : FmtA) (s : State) : Host.Outcome State Fault Refusal :=
  .next (issueA s i (fun _ _ => {}))

/-- SETRRB: rrb takes imm[4:0] (R111). -/
def execSetrrb (i : FmtI) (s : State) : Host.Outcome State Fault Refusal :=
  .next (issueI s i (fun _ => { rrb := some (i.imm.setWidth 5) }))

/-- MOVFI: fd takes imm as raw bits (R112). -/
def execMovfi (i : FmtI) (s : State) : Host.Outcome State Fault Refusal :=
  .next (issueI s i (fun c => .toF c i.d (i.imm)))

/-- MOVPI: pd takes imm[15:0] (R112). -/
def execMovpi (i : FmtI) (s : State) : Host.Outcome State Fault Refusal :=
  .next (issueI s i (fun _ => { p := [(pIdx i.d, i.imm.setWidth 16)] }))

/-- MOVMI: md takes imm (R112). -/
def execMovmi (i : FmtI) (s : State) : Host.Outcome State Fault Refusal :=
  .next (issueI s i (fun _ => { m := [(pIdx i.d, i.imm)] }))

/-- MOVPF: pd takes fa[15:0] (R112). -/
def execMovpf (i : FmtA) (s : State) : Host.Outcome State Fault Refusal :=
  .next (issueA s i (fun _ c => { p := [(pIdx i.d, (c.rdF i.a).setWidth 16)] }))

/-- MOVFP: fd takes pa, zero-extended (R112). -/
def execMovfp (i : FmtA) (s : State) : Host.Outcome State Fault Refusal :=
  .next (issueA s i (fun _ c => .toF c i.d ((c.rdP (pIdx i.a)).setWidth 32)))

/-- MOVMF: md takes fa (R112). -/
def execMovmf (i : FmtA) (s : State) : Host.Outcome State Fault Refusal :=
  .next (issueA s i (fun _ c => { m := [(pIdx i.d, c.rdF i.a)] }))

/-- MOVFM: fd takes ma (R112). -/
def execMovfm (i : FmtA) (s : State) : Host.Outcome State Fault Refusal :=
  .next (issueA s i (fun _ c => .toF c i.d (c.rdM (pIdx i.a))))

/-- MOVFC: fd takes ca, zero-extended (R112). -/
def execMovfc (i : FmtA) (s : State) : Host.Outcome State Fault Refusal :=
  .next (issueA s i (fun _ c => .toF c i.d ((c.rdC (i.a.toNat % 8)).setWidth 32)))

/-- MOVFCC: fd[3:0] take t, u, n, z (R112). -/
def execMovfcc (i : FmtA) (s : State) : Host.Outcome State Fault Refusal :=
  .next (issueA s i (fun _ c => .toF c i.d (c.cc.word)))

/-- MOVRRB: fd takes rrb, zero-extended (R112). -/
def execMovrrb (i : FmtA) (s : State) : Host.Outcome State Fault Refusal :=
  .next (issueA s i (fun _ c => .toF c i.d (c.rrb.setWidth 32)))

end Sys2Proof.Machine
end

