-- ==== Sys2Proof/Machine/CellQueue.lean ====
section
/-! DEFINITION. Queue operations and check-value feeds (R83 to R86, R119, R129, R154).
Log: DESIGN CHOICE 26, 216. -/

namespace Sys2Proof.Machine

/-- The port a queue operation names: an input or output of the operation reached by queue operations, a mailbox port of
a work item, or none (BOUNDS). -/
inductive QPort where
  | input (q : Nat)
  | output (q : Nat)
  | mailbox (q : Nat)
  | none
deriving DecidableEq, Repr

/-- Port b[3:0] of the running job (R102, R119, R129, R144). -/
def portOf (s : State) (c : CellSt) (b : BitVec 6) : QPort :=
  match c.run with
  | none => .none
  | some r =>
    match r.job with
    | .op k =>
      match (s.opDesc k).bind (fun d => d.ports[b.toNat % 16]?) with
      | some p => if p.qop && p.dir == 1 then .input p.queue else if p.qop && p.dir == 2 then .output p.queue else .none
      | none => .none
    | .item w =>
      match (s.wic w.ch).bind (fun d => d.ports[b.toNat % 16]?) with
      | some q => .mailbox q
      | none => .none

/-- Words already written to an output port. -/
def CellSt.outWords (c : CellSt) (p : Nat) : List Word := ((c.run.map (fun r => Tab.get [] r.outs p)).getD [])

/-- A word written to an output port of the run. -/
def putOut (r : RunCtx) (p : Nat) (w : Word) : RunCtx := { r with outs := Tab.put [] r.outs p (Tab.get [] r.outs p ++ [w]) }

/-- A word of a mailbox post (R154). -/
def putPost (r : RunCtx) (p : Nat) (w : Word) : RunCtx := { r with post := Tab.put [] r.post p (Tab.get [] r.post p ++ [w]) }

/-- QGET (R119): the next word of an input port's token, the one the operation began with (R140). -/
def qget (s : State) (c : CellSt) (i : FmtA) : Eff :=
  match portOf s c i.b, c.run with
  | .input q, some r =>
    let ws := ((r.tok q).map Token.words).getD []
    let k := Tab.get 0 r.rd (pIdx i.b)
    match ws[k]? with
    | some w => { f := [(c.phys i.d.toNat, w)], run := some { r with rd := Tab.put 0 r.rd (pIdx i.b) (k + 1) } }
    | none => { faults := [4] }
  | _, _ => { faults := [4] }

/-- What a hold of a mailbox carries at a place of a post, whose first word is the apply cycle (R83, R154). -/
def State.heldPost (s : State) (q k : Nat) : Word := ((s.holdWords q)[k]?).getD 0#32

/-- QPUT and QPUTR (R83, R119): a word to an output port or of a mailbox post, an FP32 word through the guard. -/
def qput (s : State) (c : CellSt) (i : FmtA) (fp : Bool) : Eff :=
  let w := c.rdF i.a
  match portOf s c i.b, c.run with
  | .output q, some r =>
    let k := (Tab.get [] r.outs (pIdx i.b)).length
    if fp && Fp.nonFinite w then
      { run := some (putOut r (pIdx i.b) (((s.holdWords q)[k]?).getD 0#32)), faults := [6] }
    else { run := some (putOut r (pIdx i.b) w) }
  | .mailbox q, some r =>
    if fp && Fp.nonFinite w then
      { run := some (putPost r (pIdx i.b) (s.heldPost q (Tab.get [] r.post (pIdx i.b)).length)), faults := [6] }
    else { run := some (putPost r (pIdx i.b) w) }
  | _, _ => { faults := [4] }

/-- QHOLD (R119): the token of an output port becomes a hold. At a mailbox port or one of the other direction QHOLD, QGET and QISH raise BOUNDS
(log entry 216). -/
def qhold (s : State) (c : CellSt) (i : FmtA) : Eff :=
  match portOf s c i.b, c.run with
  | .output _, some r => { run := some { r with holds := pIdx i.b :: r.holds } }
  | _, _ => { faults := [4] }

/-- QISH (R119): z tells whether the token of an input port is a hold. -/
def qish (s : State) (c : CellSt) (i : FmtA) : Eff :=
  match portOf s c i.b, c.run with
  | .input q, some r => { cc := some (c.cc.ofHold (((r.tok q).map Token.hold).getD true)) }
  | _, _ => { faults := [4] }

/-- QCYC (R119): the cycle number of the operation's tokens; a work item has none, and the value is free (log entry 26). -/
def qcyc (s : State) (c : CellSt) (i : FmtA) : Eff :=
  let open_ : Eff := { f := [(c.phys i.d.toNat, s.freeW)], draws := 1 }
  match c.run with
  | none => open_
  | some r =>
    match r.job with
    | .op _ => { f := [(c.phys i.d.toNat, r.cycle)] }
    | .item _ => open_

/-- A mailbox post that has reached its length goes to the command processor (R154); its words are free where the cell's outputs are
undefined (R45). -/
def State.closePosts (s : State) (n : Nat) : State :=
  match (s.cell n).run with
  | none => s
  | some r =>
    match r.job with
    | .op _ => s
    | .item w =>
      r.post.foldl (fun s p =>
        let q := (((s.wic w.ch).bind (fun d => d.ports[p.1]?))).getD 0
        let len := ((s.qdesc q).map QDesc.words).getD 0
        if p.2.length < len then s
        else
          match p.2 with
          | [] => s
          | a :: ws =>
            let c := s.cell n
            let s := s.setCell n { c with run := c.run.map (fun r => { r with post := Tab.drop r.post p.1 }) }
            let a := if s.cellUndef n then s.freeW else a
            let ws := if s.cellUndef n then s.drew.freeWords ws.length else ws
            let s := if s.cellUndef n then s.drewN (ws.length + 1) else s
            let par := bytesLE 2 q ++ [0#8, BitVec.ofNat 8 ws.length] ++ wordsLE (ws.take 8)
            let cmd : CmdIn := { port := .workItem w.ch, opcode := 0x0D13, irq := false, chk := false, at_ := true,
                                 tag := BitVec.ofNat 16 w.tag, apply := a, checkOk := true, param := par }
            { s with host := { s.host with waiting :=
                s.host.waiting ++ [⟨68, cmd, some ⟨w.ch, w.tag, q, ⟨a, ws⟩⟩, s.time.s.toNat, s.time.ns.toNat⟩] } }) s

/-- The bytes a feed gives, least significant first (R84). -/
def feedBytes (w : Word) (wide : Bool) : List Byte := if wide then wordBytes w else [w.setWidth 8]

/-- A core feed of channel `ch` (R84, R85): dropped, with the conflict flag, when the channel is bound to the DMA port. -/
def feed (s : State) (c : CellSt) (i : FmtA) (ch : Nat) (wide : Bool) : Eff :=
  let j := 2 * i.cell + ch
  if s.bit Reg.crcChCfgBind (chBase j) then { conflict := some j }
  else
    let p := crcPoly (s.fld Reg.crcChCfgPoly (chBase j))
    let v := if ch = 0 then c.ch0 else c.ch1
    { ch := some (ch, BitVec.ofNat 64 (crcFeed p v.toNat (feedBytes (c.rdF i.a) wide))) }

/-- The running value of a channel into a pair (R119); the high word is 0 for polynomials of 32 bits or fewer. -/
def crcRead (c : CellSt) (i : FmtA) (ch : Nat) : Eff :=
  let v := if ch = 0 then c.ch0 else c.ch1
  .toPair c i.d (v.setWidth 32) (v.extractLsb' 32 32)

/-- QGET. -/
def execQget (i : FmtA) (s : State) : Host.Outcome State Fault Refusal := .next (issueA s i (fun s c => qget s c i))
/-- QPUT. -/
def execQput (i : FmtA) (s : State) : Host.Outcome State Fault Refusal :=
  .next ((issueA s i (fun s c => qput s c i true)).closePosts i.cell)
/-- QPUTR. -/
def execQputr (i : FmtA) (s : State) : Host.Outcome State Fault Refusal :=
  .next ((issueA s i (fun s c => qput s c i false)).closePosts i.cell)
/-- QHOLD. -/
def execQhold (i : FmtA) (s : State) : Host.Outcome State Fault Refusal := .next (issueA s i (fun s c => qhold s c i))
/-- QISH. -/
def execQish (i : FmtA) (s : State) : Host.Outcome State Fault Refusal := .next (issueA s i (fun s c => qish s c i))
/-- QCYC. -/
def execQcyc (i : FmtA) (s : State) : Host.Outcome State Fault Refusal := .next (issueA s i (fun s c => qcyc s c i))
/-- CRC8_0: fa[7:0] to channel 0. -/
def execCrc8_0 (i : FmtA) (s : State) : Host.Outcome State Fault Refusal :=
  .next (issueA s i (fun s c => feed s c i 0 false))
/-- CRC8_1: fa[7:0] to channel 1. -/
def execCrc8_1 (i : FmtA) (s : State) : Host.Outcome State Fault Refusal :=
  .next (issueA s i (fun s c => feed s c i 1 false))
/-- CRC32_0: fa[31:0] to channel 0. -/
def execCrc32_0 (i : FmtA) (s : State) : Host.Outcome State Fault Refusal :=
  .next (issueA s i (fun s c => feed s c i 0 true))
/-- CRC32_1: fa[31:0] to channel 1. -/
def execCrc32_1 (i : FmtA) (s : State) : Host.Outcome State Fault Refusal :=
  .next (issueA s i (fun s c => feed s c i 1 true))
/-- CRCRD_0. -/
def execCrcrd_0 (i : FmtA) (s : State) : Host.Outcome State Fault Refusal := .next (issueA s i (fun _ c => crcRead c i 0))
/-- CRCRD_1. -/
def execCrcrd_1 (i : FmtA) (s : State) : Host.Outcome State Fault Refusal := .next (issueA s i (fun _ c => crcRead c i 1))

end Sys2Proof.Machine
end

