-- ==== Sys2Proof/Machine/CellTrig.lean ====
section
/-! DEFINITION. The trig operations (R71, R72, R110, R118) and the end of one. -/

namespace Sys2Proof.Machine

/-- The registers or words a trig result goes to that a load of the same instruction also names (UB_02): free values. -/
def clashTrig (w : List (TrigDest × Word)) (loads : List (Nat × Word)) (ctr : Nat) : List (TrigDest × Word) × Nat :=
  w.foldl (fun a x =>
    let hit := match x.1 with
      | .reg k => loads.any (fun y => y.1 == k)
      | .mem _ => false
    if hit then (a.1 ++ [(x.1, Config.freeWord (ctr + a.2))], a.2 + 1) else (a.1 ++ [x], a.2)) ([], 0)

/-- The effect of a trig operation: its results are in flight, and cc.t is set (R73, R110). -/
def trigEff (s : State) (c : CellSt) (w : List (TrigDest × Word)) (loads : List (Nat × Word)) : Eff :=
  let r := clashTrig w loads s.freeCtr
  { trig := some ⟨r.1, false⟩, cc := some { c.cc with t := true }, draws := r.2 }

/-- A trig operation with a register destination (R118): `w` gives the results from the registers. -/
def issueTrig (s : State) (i : FmtA) (w : CellSt → List (TrigDest × Word)) : State :=
  issue s i.cell i.stg true (fun s =>
    let c := s.cell i.cell
    let xa := access s i.cell c .x i.xa
    let ya := access s i.cell c .y i.ya
    apply s i.cell (trigEff s c (w c) (xa.loads ++ ya.loads)) xa ya)

/-- One result to register d. -/
def trigReg (s : State) (i : FmtA) (v : CellSt → Word) : State :=
  issueTrig s i (fun c => [(.reg (c.phys i.d.toNat), v c)])

/-- The words a memory form writes from word address `w` of a bank: one, or an even word and the next. -/
def trigWords (b : Bank) (cell w : Nat) : List Word → List (TrigDest × Word)
  | [v] => [(.mem (b.addr cell w), v)]
  | lo :: hi :: _ => [(.mem (b.addr cell (w / 2 * 2)), lo), (.mem (b.addr cell (w / 2 * 2 + 1)), hi)]
  | [] => []

/-- A memory form (R118): the destination is the Y word at the pointer of ya, or with tm the X word at the pointer of xa;
the other access works normally. -/
def issueTrigMem (s : State) (i : FmtA) (v : CellSt → List Word) : State :=
  issue s i.cell i.stg true (fun s =>
    let c := s.cell i.cell
    let dst := destAccess c (if i.tm then i.xa else i.ya)
    let b : Bank := if i.tm then .x else .y
    let w := if dst.1 ≥ 16384 then [] else trigWords b i.cell dst.1 (v c)
    let xa := if i.tm then dst.2 else access s i.cell c .x i.xa
    let ya := if i.tm then access s i.cell c .y i.ya else dst.2
    apply s i.cell (trigEff s c w (xa.loads ++ ya.loads)) xa ya)

/-- SIN: the function of R71 to register d (R118). -/
def execSin (i : FmtA) (s : State) : Host.Outcome State Fault Refusal :=
  .next (trigReg s i (fun c => Fp.sin (c.rdF i.a)))

/-- COS: the function of R71 to register d (R118). -/
def execCos (i : FmtA) (s : State) : Host.Outcome State Fault Refusal :=
  .next (trigReg s i (fun c => Fp.cos (c.rdF i.a)))

/-- SINCOS: sin to the even register of d, cos to the next (R118). -/
def execSincos (i : FmtA) (s : State) : Host.Outcome State Fault Refusal :=
  .next (issueTrig s i (fun c =>
    [(.reg (c.phys (evenOf i.d)), Fp.sin (c.rdF i.a)), (.reg (c.phys (evenOf i.d + 1)), Fp.cos (c.rdF i.a))]))

/-- ATAN2: the function of R71 to register d (R118). -/
def execAtan2 (i : FmtA) (s : State) : Host.Outcome State Fault Refusal :=
  .next (trigReg s i (fun c => Fp.atan2 (c.rdF i.a) (c.rdF i.b)))

/-- SQRT: the function of R71 to register d (R118). -/
def execSqrt (i : FmtA) (s : State) : Host.Outcome State Fault Refusal :=
  .next (trigReg s i (fun c => Fp.sqrt (c.rdF i.a)))

/-- RSQRT: the function of R71 to register d (R118). -/
def execRsqrt (i : FmtA) (s : State) : Host.Outcome State Fault Refusal :=
  .next (trigReg s i (fun c => Fp.rsqrt (c.rdF i.a)))

/-- RECIP: the function of R71 to register d (R118). -/
def execRecip (i : FmtA) (s : State) : Host.Outcome State Fault Refusal :=
  .next (trigReg s i (fun c => Fp.recip (c.rdF i.a)))

/-- EXP2: the function of R71 to register d (R118). -/
def execExp2 (i : FmtA) (s : State) : Host.Outcome State Fault Refusal :=
  .next (trigReg s i (fun c => Fp.exp2 (c.rdF i.a)))

/-- LOG2: the function of R71 to register d (R118). -/
def execLog2 (i : FmtA) (s : State) : Host.Outcome State Fault Refusal :=
  .next (trigReg s i (fun c => Fp.log2 (c.rdF i.a)))

/-- SINM: the same to memory (R72, R118). -/
def execSinm (i : FmtA) (s : State) : Host.Outcome State Fault Refusal :=
  .next (issueTrigMem s i (fun c => [Fp.sin (c.rdF i.a)]))

/-- COSM: the same to memory (R72, R118). -/
def execCosm (i : FmtA) (s : State) : Host.Outcome State Fault Refusal :=
  .next (issueTrigMem s i (fun c => [Fp.cos (c.rdF i.a)]))

/-- SINCOSM: the same to memory (R72, R118). -/
def execSincosm (i : FmtA) (s : State) : Host.Outcome State Fault Refusal :=
  .next (issueTrigMem s i (fun c => [Fp.sin (c.rdF i.a), Fp.cos (c.rdF i.a)]))

/-- ATAN2M: the same to memory (R72, R118). -/
def execAtan2m (i : FmtA) (s : State) : Host.Outcome State Fault Refusal :=
  .next (issueTrigMem s i (fun c => [Fp.atan2 (c.rdF i.a) (c.rdF i.b)]))

/-- SQRTM: the same to memory (R72, R118). -/
def execSqrtm (i : FmtA) (s : State) : Host.Outcome State Fault Refusal :=
  .next (issueTrigMem s i (fun c => [Fp.sqrt (c.rdF i.a)]))

/-- RSQRTM: the same to memory (R72, R118). -/
def execRsqrtm (i : FmtA) (s : State) : Host.Outcome State Fault Refusal :=
  .next (issueTrigMem s i (fun c => [Fp.rsqrt (c.rdF i.a)]))

/-- RECIPM: the same to memory (R72, R118). -/
def execRecipm (i : FmtA) (s : State) : Host.Outcome State Fault Refusal :=
  .next (issueTrigMem s i (fun c => [Fp.recip (c.rdF i.a)]))

/-- EXP2M: the same to memory (R72, R118). -/
def execExp2m (i : FmtA) (s : State) : Host.Outcome State Fault Refusal :=
  .next (issueTrigMem s i (fun c => [Fp.exp2 (c.rdF i.a)]))

/-- LOG2M: the same to memory (R72, R118). -/
def execLog2m (i : FmtA) (s : State) : Host.Outcome State Fault Refusal :=
  .next (issueTrigMem s i (fun c => [Fp.log2 (c.rdF i.a)]))

/-- TRIG_WRITEBACK: the oldest trig operation in flight ends and its results are written (R72); a squashed one writes
nothing (R74). With none in flight nothing happens. -/
def execTrigWriteback (cell : Nat) (s : State) : Host.Outcome State Fault Refusal :=
  .next (if cell < s.cellCount then s.writeBack cell else s)

end Sys2Proof.Machine
end

