-- ==== Sys2Proof/Machine/Image.lean ====
section
/-! DEFINITION. An image file by its bytes (R503, R504, R540): header, section table, timing section, SHA-256, ECDSA over P-256.
Log: DEDUCED 203. -/

namespace Sys2Proof.Machine

/-! ### SHA-256 (step 3 and 4 of R503) -/

/-- The primes below a number of trials, by trial division. -/
def primesFrom : Nat → Nat → List Nat
  | 0, _ => []
  | fuel + 1, n => if (List.range (n - 2)).all (fun d => n % (d + 2) ≠ 0) then n :: primesFrom fuel (n + 1) else primesFrom fuel (n + 1)

/-- The first 64 primes. -/
def shaPrimes : List Nat := primesFrom 310 2

/-- The largest number whose power does not pass a bound, among those below `2 ^ k` above `lo`. -/
def rootBelow (e bound : Nat) : Nat → Nat → Nat
  | 0, lo => lo
  | k + 1, lo => rootBelow e bound k (if (lo + 2 ^ k) ^ e ≤ bound then lo + 2 ^ k else lo)

/-- The first 32 bits of the fractional parts of square roots and cube roots of the primes: the initial words, and the round words. -/
def shaInit : List Word := (shaPrimes.take 8).map (fun p => BitVec.ofNat 32 (rootBelow 2 (p * 2 ^ 64) 40 0))
def shaRound : List Word := shaPrimes.map (fun p => BitVec.ofNat 32 (rootBelow 3 (p * 2 ^ 96) 40 0))

/-- A message made up to whole blocks of 64 bytes: a one bit, zeros, its length in bits. -/
def shaPad (bs : List Byte) : List Byte :=
  bs ++ [0x80#8] ++ List.replicate ((119 - bs.length % 64) % 64) 0#8 ++ (bytesLE 8 (8 * bs.length)).reverse

/-- A big-endian word. -/
def wordBE (bs : List Byte) : Word := BitVec.ofNat 32 (natLE (bs.take 4).reverse)

/-- The 64 words of a block, from its 16 own: the newest first. -/
def shaSchedule : Nat → List Word → List Word
  | 0, ws => ws
  | k + 1, ws =>
    let at_ := fun i => (ws[i]?).getD 0#32
    let a := at_ 14
    let b := at_ 1
    let s0 := a.rotateRight 7 ^^^ a.rotateRight 18 ^^^ (a >>> 3)
    let s1 := b.rotateRight 17 ^^^ b.rotateRight 19 ^^^ (b >>> 10)
    shaSchedule k ((at_ 15 + s0 + at_ 6 + s1) :: ws)

/-- One round on the eight working words. -/
def shaStep (v : List Word) (kw : Word × Word) : List Word :=
  match v with
  | [a, b, c, d, e, f, g, h] =>
    let s1 := e.rotateRight 6 ^^^ e.rotateRight 11 ^^^ e.rotateRight 25
    let ch := (e &&& f) ^^^ (~~~e &&& g)
    let t1 := h + s1 + ch + kw.1 + kw.2
    let s0 := a.rotateRight 2 ^^^ a.rotateRight 13 ^^^ a.rotateRight 22
    let maj := (a &&& b) ^^^ (a &&& c) ^^^ (b &&& c)
    [t1 + (s0 + maj), a, b, c, d + t1, e, f, g]
  | _ => v

/-- One block of 64 bytes into the eight words. -/
def shaBlock (h : List Word) (blk : List Byte) : List Word :=
  let own := (List.range 16).map (fun i => wordBE (blk.drop (4 * i)))
  let ws := (shaSchedule 48 own.reverse).reverse
  (h.zip ((shaRound.zip ws).foldl shaStep h)).map (fun e => e.1 + e.2)

/-- The blocks of a message, so many of them. -/
def shaBlocks (h : List Word) : Nat → List Byte → List Word
  | 0, _ => h
  | n + 1, bs => shaBlocks (shaBlock h (bs.take 64)) n (bs.drop 64)

/-- SHA-256: the 32 bytes of the digest. -/
def sha256 (bs : List Byte) : List Byte :=
  let m := shaPad bs
  (shaBlocks shaInit (m.length / 64) m).flatMap (fun w => (bytesLE 4 w.toNat).reverse)

/-! ### ECDSA over P-256 (step 4 of R503) -/

/-- The field's prime, the order of the base point, the curve's constant, the base point. -/
def p256 : Nat := 2 ^ 256 - 2 ^ 224 + 2 ^ 192 + 2 ^ 96 - 1
def p256n : Nat := 0xFFFFFFFF00000000FFFFFFFFFFFFFFFFBCE6FAADA7179E84F3B9CAC2FC632551
def p256b : Nat := 0x5AC635D8AA3A93E7B3EBBD55769886BC651D06B0CC53B0F63BCE3C3E27D2604B
def p256g : Nat × Nat :=
  (0x6B17D1F2E12C4247F8BCE6E563A440F277037D812DEB33A0F4A13945D898C296, 0x4FE342E2FE1A7F9B8EE7EB4A7C0F9E162BCE33576B315ECECBB6406837BF51F5)

/-- A power modulo `m`, the exponent's bits from the highest of so many down. -/
def powMod (m a e : Nat) : Nat → Nat
  | 0 => 1 % m
  | k + 1 =>
    let r := powMod m a (e / 2) k
    let q := r * r % m
    if e % 2 = 1 then q * a % m else q

/-- The inverse modulo a prime. -/
def invMod (m a : Nat) : Nat := powMod m (a % m) (m - 2) 256

/-- A point of the curve; `none` is the point at infinity. -/
abbrev EcPoint := Option (Nat × Nat)

/-- The third point of the line of a slope through two points, mirrored. -/
def ecChord (l x1 y1 x2 : Nat) : Nat × Nat :=
  let x3 := (l * l + 2 * p256 - x1 - x2) % p256
  (x3, (l * (x1 + p256 - x3) + p256 - y1) % p256)

/-- The sum of two points. -/
def ecAdd : EcPoint → EcPoint → EcPoint
  | none, q => q
  | p, none => p
  | some (x1, y1), some (x2, y2) =>
    if x1 = x2 then
      if (y1 + y2) % p256 = 0 then none
      else some (ecChord ((3 * x1 * x1 + p256 - 3) * invMod p256 (2 * y1) % p256) x1 y1 x2)
    else some (ecChord ((y2 + p256 - y1) * invMod p256 (x2 + p256 - x1) % p256) x1 y1 x2)

/-- A multiple of a point, the factor's bits from the highest of so many down. -/
def ecMul (p : EcPoint) (k : Nat) : Nat → EcPoint
  | 0 => none
  | i + 1 =>
    let h := ecMul p (k / 2) i
    let d := ecAdd h h
    if k % 2 = 1 then ecAdd d p else d

/-- A point lies on the curve. -/
def ecOn (x y : Nat) : Bool := decide (x < p256 ∧ y < p256) && decide ((y * y) % p256 = (x * x * x + (p256 - 3) * x + p256b) % p256)

/-- ECDSA: a signature of a digest under a public key. -/
def ecdsaOk (x y r s : Nat) (digest : List Byte) : Bool :=
  ecOn x y && decide (1 ≤ r ∧ r < p256n ∧ 1 ≤ s ∧ s < p256n)
    && (let w := invMod p256n s
        let e := natLE digest.reverse
        match ecAdd (ecMul (some p256g) (e * w % p256n) 256) (ecMul (some (x, y)) (r * w % p256n) 256) with
        | some (v, _) => decide (v % p256n = r)
        | none => false)

end Sys2Proof.Machine

namespace Sys2Proof

/-! ### The header and the section table (R503, R504) -/

/-- A number of some bytes of the file. -/
def ImageFile.at_ (f : ImageFile) (i n : Nat) : Nat := Machine.fieldLE f.bytes i n

/-- The header: magic, format version, variants, total length, section count, check value, cycle rate. -/
def ImageFile.magic (f : ImageFile) : Nat := f.at_ 0 4
def ImageFile.version (f : ImageFile) : Nat := f.at_ 4 2
def ImageFile.variants (f : ImageFile) : Nat := f.at_ 6 2
def ImageFile.total (f : ImageFile) : Nat := f.at_ 8 4
def ImageFile.count (f : ImageFile) : Nat := f.at_ 12 4
def ImageFile.check (f : ImageFile) : BitVec 64 := BitVec.ofNat 64 (f.at_ 16 8)
def ImageFile.hz (f : ImageFile) : Nat := f.at_ 24 4

/-- A section: its kind, whether flag bit 1 stands, its target's index, its place in the image, its length, its place in the target. -/
structure ImgSection where
  kind : Nat
  mid : Bool
  target : Nat
  off : Nat
  len : Nat
  toff : Nat
deriving DecidableEq, Repr

/-- The section table. -/
def ImageFile.sections (f : ImageFile) : List ImgSection :=
  (List.range (min f.count 64)).map (fun i =>
    let b := 256 + 16 * i
    ⟨f.at_ b 1, f.at_ (b + 1) 1 / 2 % 2 == 1, f.at_ (b + 2) 2, f.at_ (b + 4) 4, f.at_ (b + 8) 4, f.at_ (b + 12) 4⟩)

/-- The bytes of a section. -/
def ImageFile.body (f : ImageFile) (x : ImgSection) : List Byte := (f.bytes.drop x.off).take x.len

/-- The size of the target of a memory section. -/
def memSize (kind : Nat) : Option Nat :=
  match kind with
  | 1 => some 0x20000
  | 2 => some 0x10000
  | 3 => some 0x10000
  | 4 => some 0x100000
  | 5 => some 0x200000
  | _ => none

/-- The lengths of an image (log entry 203): the total is that of the file, sections lie behind the table and within the file, memory sections
within their targets. -/
def ImageFile.lengthsOk (f : ImageFile) : Bool :=
  decide (f.total = f.bytes.length ∧ f.total ≤ 64 * 2 ^ 20 ∧ 1 ≤ f.count ∧ f.count ≤ 64 ∧ 256 + 16 * f.count ≤ f.total)
    && f.sections.all (fun x => decide (256 + 16 * f.count ≤ x.off ∧ x.off + x.len ≤ f.total)
      && ((memSize x.kind).map (fun n => decide (x.toff + x.len ≤ n))).getD true)

/-- The kinds of R504. -/
def ImageFile.kindsOk (f : ImageFile) : Bool := f.sections.all (fun x => decide (1 ≤ x.kind ∧ x.kind ≤ 11))

/-- The timing section, when there is exactly one and it has its length (R540). -/
def ImageFile.timing (f : ImageFile) : Option Timing :=
  match f.sections.filter (fun x => x.kind == 10) with
  | [x] => if x.len = 24 then
      let t := fun i => f.at_ (x.off + 4 * i) 4
      some ⟨t 0, t 1, t 2, t 3, t 4, t 5⟩ else none
  | _ => none

/-- A ring schedule for a midpoint position is there. -/
def ImageFile.midpoint (f : ImageFile) : Bool := f.sections.any (fun x => x.kind == 7 && x.mid)

/-- The public key's SHA-256, over its 64 bytes; the signature under ECDSA P-256; the check value (steps 3 to 5 of R503). -/
def ImageFile.keyHash (f : ImageFile) : List Byte := Machine.sha256 (Machine.takeBytes f.bytes 128 64)
def ImageFile.sigOk (f : ImageFile) : Bool :=
  Machine.ecdsaOk (f.at_ 128 32) (f.at_ 160 32) (f.at_ 192 32) (f.at_ 224 32) (Machine.sha256 (f.bytes.take 128 ++ f.bytes.drop 256))
def ImageFile.checkOk (f : ImageFile) : Bool := decide (f.check = BitVec.ofNat 64 (Machine.crc64 (f.bytes.drop 256)))

end Sys2Proof
end

