-- ==== Sys2Proof/Machine/Copy.lean ====
section
/-! DEFINITION. The state copy (R428), which the twin link and the snapshot carry (R165, R427): what the control fabric carries
from one cycle into the next, as bytes, and the state with such bytes loaded. The manual leaves the order to the image and the
layout of the standard kernels' state blocks open; the order and layout here are the model's (log entry 52).
Log: DESIGN CHOICE 52. -/

namespace Sys2Proof.Machine

/-! ### Tokens, mailboxes, pending commands -/

/-- A token of a queue of `n` words. -/
def cpTok (n : Nat) (t : Token) : List Word :=
  [1#32, t.cycle, cpN ((if t.poison then 2 else 0) + (if t.hold then 1 else 0))] ++ fitWords n t.words
def upTok (n : Nat) (ws : List Word) : Token :=
  ⟨wordAt ws 1, (wordAt ws 2).getLsbD 1, (wordAt ws 2).getLsbD 0, fitWords n (ws.drop 3)⟩

/-- A post or a delivered value. -/
def cpPost (n : Nat) (p : Post) : List Word := [1#32, p.apply] ++ fitWords n p.words
def upPost (n : Nat) (ws : List Word) : Option Post :=
  if upB (wordAt ws 0) then some ⟨wordAt ws 1, fitWords n (ws.drop 2)⟩ else none

/-- What a queue of tokens carries over for its holds: the last payload that was none (R133). -/
def copyGood (n : Nat) (ws : List Word) : List Word := cpB (!ws.isEmpty) :: fitWords n ws
def upGood (n : Nat) (ws : List Word) : List Word := if upB (wordAt ws 0) then fitWords n (ws.drop 1) else []

/-- What a queue carries over: the payload of its holds, its tokens when it has a lag, its value and its pending entries when it is a
mailbox. -/
def State.copyQueue (s : State) (d : QDesc) : List Word :=
  let x := s.queue d.id
  let good := if d.kind ≤ 3 then copyGood d.words x.lastGood else []
  let toks := if d.lag = 0 then [] else fitWords (d.depth * (3 + d.words)) (x.toks.flatMap (cpTok d.words))
  if d.kind = 3 then
    good ++ toks ++ fitWords (2 + d.words) ((x.lastVal.map (cpPost d.words)).getD [])
      ++ fitWords (8 * (2 + d.words)) (x.posts.flatMap (cpPost d.words))
  else good ++ toks

/-- The length of `copyQueue`. -/
def copyQueueLen (d : QDesc) : Nat :=
  (if d.kind ≤ 3 then 1 + d.words else 0) + (if d.lag = 0 then 0 else d.depth * (3 + d.words)) + (if d.kind = 3 then 9 * (2 + d.words) else 0)

/-- `k` pieces of `n` words. -/
def pieces (n : Nat) : Nat → List Word → List (List Word)
  | 0, _ => []
  | k + 1, ws => ws.take n :: pieces n k (ws.drop n)

/-- A queue with what it carries over loaded. -/
def State.loadQueue (s : State) (d : QDesc) (ws : List Word) : State :=
  let x := s.queue d.id
  let x := if d.kind ≤ 3 then { x with lastGood := upGood d.words ws } else x
  let ws := if d.kind ≤ 3 then ws.drop (1 + d.words) else ws
  let nt := if d.lag = 0 then 0 else d.depth
  let x := if d.lag = 0 then x
    else { x with toks := ((pieces (3 + d.words) nt ws).filter (fun p => upB (wordAt p 0))).map (upTok d.words) }
  let ws := ws.drop (nt * (3 + d.words))
  let x := if d.kind = 3 then
      { x with lastVal := upPost d.words ws, posts := (pieces (2 + d.words) 8 (ws.drop (2 + d.words))).filterMap (upPost d.words) }
    else x
  s.setQueue d.id x

/-- A pending cycle-fenced command in 14 words. -/
def cpFenced (f : Fenced) : List Word :=
  [1#32, f.cycle, cpN f.seq, cpN f.cmd.opcode] ++ fitWords 10 ((List.range 10).map (fun i => f.cmd.pw (4 * i)))
def upFenced (ws : List Word) : Option Fenced :=
  if upB (wordAt ws 0) then
    some { cycle := wordAt ws 1, seq := (wordAt ws 2).toNat
           cmd := { port := .workItem 0, opcode := (wordAt ws 3).toNat, irq := false, chk := false, at_ := true, tag := 0#16
                    apply := wordAt ws 1, checkOk := true, param := bytesOfWords (fitWords 10 (ws.drop 4)) } }
  else none

/-! ### The copy -/

/-- The state block of one operation: of a standard kernel, its axes' state; of a cell's own code, X from its state address on. -/
def State.copyOp (s : State) (d : OpDesc) : List Word :=
  match d.kernel with
  | .inner axes => axes.flatMap (fun a => (s.axis a).copyInner)
  | .outer a => (s.axis a).copyOuter
  | .custom => (s.stateAddrs d).map s.ramWord

/-- The copy reads the state blocks by the cells' DMA ports: single-bit errors are corrected and counted, and a double-bit error raises the
cell's ECC (R55, R56). -/
def State.readBlocks (s : State) : State :=
  s.ops.foldl (fun s d =>
    let ws := s.stateAddrs d
    let s := s.correct ws
    if s.flip2.any (fun a => ws.contains a) then s.cellFault d.cell 1 (s.cell d.cell).pc.toNat else s) s

/-- Words stored in X from a place on. -/
def State.putX (s : State) (cell at_ : Nat) : List Word → State
  | [] => s
  | w :: r => State.putX (s.ramSetWord (xAddr cell at_) w) cell (at_ + 1) r

/-- Axes loaded from consecutive state blocks. -/
def State.loadAxes (s : State) (ws : List Word) : List Nat → State
  | [] => s
  | a :: r => State.loadAxes (s.setAxis a ((s.axis a).loadInner ws)) (ws.drop innerLen) r

def State.loadOp (s : State) (d : OpDesc) (ws : List Word) : State :=
  match d.kernel with
  | .inner axes => s.loadAxes ws axes
  | .outer a => s.setAxis a ((s.axis a).loadOuter ws)
  | .custom => s.putX d.cell d.state (ws.take (s.stateLen d))

/-- The copy (R428). -/
def State.copyWords (s : State) : List Word :=
  s.ops.flatMap s.copyOp ++ s.qdescs.flatMap s.copyQueue ++ fitWords (256 * 14) (s.host.fenced.flatMap cpFenced)

/-- Its size in bytes, fixed by the image and the parameters. -/
def State.copySize (s : State) : Nat :=
  4 * ((s.ops.map s.stateLen).foldl (· + ·) 0 + (s.qdescs.map copyQueueLen).foldl (· + ·) 0 + 256 * 14)

def State.loadOps (s : State) (ws : List Word) : List OpDesc → State × List Word
  | [] => (s, ws)
  | d :: r => State.loadOps (s.loadOp d ws) (ws.drop (s.stateLen d)) r

def State.loadQueues (s : State) (ws : List Word) : List QDesc → State × List Word
  | [] => (s, ws)
  | d :: r => State.loadQueues (s.loadQueue d ws) (ws.drop (copyQueueLen d)) r

/-- The state with a copy of a cycle loaded: every next-cycle number is the cycle after it. -/
def State.loadCopy (s : State) (cycle : Word) (bs : List Byte) : State :=
  let ws := wordsOfBytes bs (bs.length / 4)
  let s : State := { s with mad := { s.mad with queues := s.mad.queues.map (fun (q : Nat × QueueSt) => (q.1, { q.2 with toks := [], wr := 0, done := none })) } }
  let a := s.loadOps ws s.ops
  let b := a.1.loadQueues a.2 a.1.qdescs
  let b := (b.1.qdescs.foldl (fun (s : State) d => s.layQueue d) b.1, b.2)
  let f := (pieces 14 256 b.2).filterMap upFenced
  let s : State := { b.1 with host := { b.1.host with fenced := f } }
  s.numberedOps.foldl (fun (s : State) (o : Nat × OpDesc) => s.setOp o.1 { s.op o.1 with next := cycle + 1#32, stamp := none }) s

end Sys2Proof.Machine
end

