-- ==== Sys2Proof/Machine/RingBase.lean ====
section
/-! DEFINITION. What the rows of a ring share (R239 to R263, R268, R539): slots, schedule entries, paths, states, evidence, loop
groups.
Log: DEDUCED 53, 142, 155, 157. DESIGN CHOICE 173. -/

namespace Sys2Proof.Machine

/-! ### Ports -/

/-- The port runs loops: INTACT or HEALED. -/
def State.xwRuns (s : State) (r : Nat) : Bool := decide (s.xw r = .intact ∨ s.xw r = .healed)

/-- Raising of a ring class (R285). -/
def State.ringRaise (s : State) (cls r : Nat) : State := s.raise cls 1 6 r

/-- The other side. -/
def flipSide : Side → Side
  | .east => .west | .west => .east

/-- The role of a physical side, and the physical side of a role: exchanged when the port has fixed a swap (R270). -/
def State.role (s : State) (r : Nat) (x : Side) : Side := if (s.ringSt r).exchanged then flipSide x else x

/-! ### Frames sent (R242 to R244) -/

/-- The fields of a header that its frame's type gives (R243): type, flags, node, cycle, sub-type, and whether the frame goes inbound. -/
structure TxHead where
  type : Nat
  node : Nat := 0
  cyc : Word
  flags : Nat := 0
  sub : Nat := 0
  inbound : Bool := false
deriving DecidableEq, Repr

/-- The 7 header bytes of a frame with a body of `len` blocks (R243). -/
def headBytes (r : Nat) (h : TxHead) (len : Nat) : List Byte :=
  [BitVec.ofNat 8 (h.type * 16), BitVec.ofNat 8 (bitN h.inbound * 128 + r % 8 * 16 + h.flags % 16), BitVec.ofNat 8 (h.node % 16)]
    ++ leBytes 2 (h.cyc.toNat % 65536) ++ leBytes 2 (h.sub % 16 * 4096 + len)

/-- A ring frame on the wire (R242, R243). -/
def frameOf (r : Nat) (h : TxHead) (body : List Byte) : List Byte :=
  framed (headBytes r h ((wholeBlocks body).length / 8)) (wholeBlocks body)

/-- A frame sent on the side of a role: in FAULT a CYCLE_START alone (R496); on a ring whose behaviour is undefined its body is free (R45). -/
def State.ringSend (s : State) (r : Nat) (x : Side) (h : TxHead) (body : List Byte) : State :=
  if s.mode = .fault ∧ h.type ≠ 1 then s
  else if s.ringUndef r then
    (s.drewN body.length).sendFrame (.ring r (s.role r x) (frameOf r h ((List.range body.length).map (fun i => Config.freeByte (s.freeCtr + i)))))
  else s.sendFrame (.ring r (s.role r x) (frameOf r h body))

/-- A TOPO frame of the present cycle (R253). -/
def State.sendTopo (s : State) (r : Nat) (x : Side) (sub node : Nat) (body : List Byte) : State :=
  s.ringSend r x { type := 6, node := node, cyc := s.cycle, sub := sub } body

/-- Block lock of a side. -/
def State.ringLock (s : State) (r : Nat) : Side → Bool
  | .east => s.bit Reg.xwStatLockE (ringBase r)
  | .west => s.bit Reg.xwStatLockW (ringBase r)
def State.setRingLock (s : State) (r : Nat) (x : Side) (b : Bool) : State :=
  match x with
  | .east => s.setBit Reg.xwStatLockE b (ringBase r)
  | .west => s.setBit Reg.xwStatLockW b (ringBase r)

/-- The loop-back node of a path, as XW_STAT shows it. -/
def State.lb (s : State) (r : Nat) : Side → Option Nat
  | .east => if s.bit Reg.xwStatLbEValid (ringBase r) then some (s.fld Reg.xwStatLbE (ringBase r)) else none
  | .west => if s.bit Reg.xwStatLbWValid (ringBase r) then some (s.fld Reg.xwStatLbW (ringBase r)) else none
/-- A check failure on a side (R245). -/
def State.ringCrcErr (s : State) (r : Nat) : Side → State
  | .east => s.incFld Reg.xwCrcErrCrcE (ringBase r)
  | .west => s.incFld Reg.xwCrcErrCrcW (ringBase r)
def State.ringForeign (s : State) (r : Nat) : State := s.incFld Reg.xwEvtOutOfWindow (ringBase r)
/-- A node's frame outside its windows is counted and discarded, and is UB_07: the ring is undefined (R45, R264). -/
def State.ringStray (s : State) (r : Nat) : State := (s.ringForeign r).undefine (.ring r)

/-- A received frame tested (R245): one whose check fails is counted on its side, one of a reserved type or of another ring number as
foreign; any other is taken. -/
def State.ringTake (s : State) (r : Nat) (x : Side) (h : RxHead) (f : State → State) : State :=
  if !h.crcOk then s.ringCrcErr r x
  else if !h.typeOk || decide (h.ringNo ≠ r) then s.ringForeign r
  else f s

/-- In PASS every frame goes on, by the side opposite to the one it came in by, whatever it carries (R268, R430). -/
def State.ringForward (s : State) (rs : RingSide) (f : RingFrame) : State :=
  if s.xw rs.ring = .pass then s.sendFrame (.ringForward rs.ring (flipSide rs.side) f) else s

/-! ### Slots and paths -/

/-- The word of a slot descriptor (R259). -/
def slotWord (d : SlotDesc) (k : Nat) : Word :=
  BitVec.ofNat 32 (match k with
    | 0 => (if d.spare then 2 ^ 27 else 0) + (if d.granted then 2 ^ 26 else 0) + (if d.present then 2 ^ 25 else 0)
        + (if d.side = .west then 2 ^ 24 else 0) + (d.hop - 1) % 16 * 2 ^ 20 + (d.axes - 1) % 8 * 2 ^ 16 + d.holdLimit % 256 * 256
        + d.firstAxis % 256
    | 1 => d.vendor.toNat * 65536 + d.model.toNat
    | 2 => d.serial.toNat
    | _ => d.csE % 65536 * 65536 + d.csW % 65536)

/-- The slot of a node. -/
def State.slot (s : State) (r n : Nat) : Option SlotDesc := (s.ringSt r).slots.find? (fun d => d.node == n)

/-- The slot takes part: configured in the image, or a spare that has been granted (R259, R260). -/
def slotUsed (d : SlotDesc) : Bool := if d.spare then d.granted else d.present

/-- The axes of a slot. -/
def slotAxes (d : SlotDesc) : List Nat := (List.range d.axes).map (fun k => d.firstAxis + k)

/-- Slots of a home side by rising hop. -/
def halfOf (l : List SlotDesc) (x : Side) : List SlotDesc :=
  (l.filter (fun d => decide (d.side = x))).mergeSort (fun a b => decide (a.hop ≤ b.hop))

/-- The slots in ring order as seen from the east side (R269). -/
def ringOrder (l : List SlotDesc) : List SlotDesc := halfOf l .east ++ (halfOf l .west).reverse

/-- The slots of a list up to a node and with it; before a node. -/
def uptoNode (n : Nat) : List SlotDesc → List SlotDesc
  | [] => []
  | d :: r => if d.node = n then [d] else d :: uptoNode n r
def beforeNode (n : Nat) : List SlotDesc → List SlotDesc
  | [] => []
  | d :: r => if d.node = n then [] else d :: beforeNode n r

/-- The path of a side, by rising hop: its half, or in HEALED the nodes up to the loop-back node that it reaches (R274). -/
def State.path (s : State) (r : Nat) (x : Side) : List SlotDesc :=
  let l := (s.ringSt r).slots
  if s.xw r ≠ .healed then halfOf l x
  else
    let o := match x with | .east => ringOrder l | .west => (ringOrder l).reverse
    match s.lb r x, s.lb r (flipSide x) with
    | some n, _ => uptoNode n o
    | none, some n => beforeNode n o
    | none, none => if s.ringLock r x then o else []

/-- The slots whose tokens a side gives: its path, and the nodes of its half that no path reaches (R277). -/
def State.lost (s : State) (r : Nat) (x : Side) : List SlotDesc :=
  let reached := (s.path r .east ++ s.path r .west).map SlotDesc.node
  (halfOf (s.ringSt r).slots x).filter (fun d => !reached.contains d.node)

/-! ### The schedule table (R256, R257) -/

/-- An entry as its two words, and back. -/
def schedWords (e : SchedEntry) : List Word :=
  let off := (e.offset % 2 ^ 27).toNat
  let x := e.kind % 16 * 2 ^ 60 + e.topo % 4 * 2 ^ 58 + e.rate % 4 * 2 ^ 56 + e.side % 4 * 2 ^ 54 + e.node % 16 * 2 ^ 50
    + e.per % 8 * 2 ^ 47 + e.phase % 64 * 2 ^ 41 + e.dur % 16384 * 2 ^ 27 + off
  [BitVec.ofNat 32 x, BitVec.ofNat 32 (x / 2 ^ 32)]
def schedOf (lo hi : Word) : SchedEntry :=
  let off := bitsOf lo.toNat 26 0
  { kind := bitsOf hi.toNat 31 28, topo := bitsOf hi.toNat 27 26, rate := bitsOf hi.toNat 25 24, side := bitsOf hi.toNat 23 22
    node := bitsOf hi.toNat 21 18, per := bitsOf hi.toNat 17 15, phase := bitsOf hi.toNat 14 9
    dur := bitsOf hi.toNat 8 0 * 32 + bitsOf lo.toNat 31 27
    offset := if off < 2 ^ 26 then (off : Int) else (off : Int) - 2 ^ 27 }

/-- The entries of a ring's table up to END. -/
def State.schedFrom (s : State) (off : Nat) : Nat → List SchedEntry
  | 0 => []
  | k + 1 =>
    let e := schedOf (s.reg off) (s.reg (off + 4))
    if e.kind = 0 then [] else e :: State.schedFrom s (off + 8) k
def State.sched (s : State) (r : Nat) : List SchedEntry := s.schedFrom (ringBase r + 0x8000) 2048

/-- The topology the port's entries go by: its own state, in PASS that of the CYCLE_STARTs that pass. -/
def State.topoNow (s : State) (r : Nat) : Nat :=
  match s.xw r with
  | .intact => 1
  | .healed => 2
  | .pass => if (s.ringSt r).csHealed then 2 else 1
  | _ => 4

/-- An entry applies in a cycle (R257), its side aside. -/
def State.entryApplies (s : State) (r : Nat) (topo : Nat) (cycle : Word) (e : SchedEntry) : Bool :=
  (e.topo == 0 || e.topo == topo) && (e.rate == 0 || e.rate == (if s.bit Reg.xwStatRate10 (ringBase r) then 2 else 1))
    && decide (e.per < 7) && decide (cycle.toNat % 2 ^ e.per = e.phase % 2 ^ e.per)

/-- An entry is for a side. -/
def entrySide (e : SchedEntry) (x : Side) : Bool := e.side == 2 || e.side == (match x with | .east => 0 | .west => 1)

/-- The entry of a kind for a side in the present cycle. -/
def State.entryNow (s : State) (r : Nat) (kind : Nat) (x : Side) : Option SchedEntry :=
  (s.sched r).find? (fun e => e.kind == kind && entrySide e x && s.entryApplies r (s.topoNow r) s.cycle e)

/-- The next window of a kind on a side in the present cycle that nothing has been sent in, by its place in the table (R257, R258); none in
FAULT (R496). -/
def State.windowNext (s : State) (r : Nat) (kind : Nat) (x : Side) : Option (Nat × SchedEntry) :=
  if s.mode = .fault then none
  else ((List.range (s.sched r).length).zip (s.sched r)).find? (fun e =>
    e.2.kind == kind && entrySide e.2 x && s.entryApplies r (s.topoNow r) s.cycle e.2 && !(s.ringSt r).used.contains (e.1, x))

/-- A window taken: its instant has come. -/
def State.openWindow (s : State) (r : Nat) (x : Side) (w : Nat × SchedEntry) : State :=
  let s := s.toInstant w.2.offset
  s.setRing r { s.ringSt r with used := (s.ringSt r).used ++ [(w.1, x)] }

/-- Bytes that fit into a window at the port's rate (R258). -/
def State.windowBytes (s : State) (r : Nat) (e : SchedEntry) : Nat :=
  if s.bit Reg.xwStatRate10 (ringBase r) then e.dur * 4 * 10 / 8 else e.dur * 4 * 25 / 8

/-- The bytes of a frame with a body (R242). -/
def frameBytes (body : Nat) : Nat := 16 + 8 * ((body + 7) / 8)

/-- The lengths of the trains of a path (R255). -/
def sampleTrainBytes (l : List SlotDesc) : Nat := (l.map (fun d => frameBytes (16 + 24 * d.axes))).sum
def commandTrainBytes (l : List SlotDesc) : Nat := (l.map (fun d => frameBytes (12 * d.axes))).sum

/-- The command launch instant of a side in the present cycle, in ns from edge E (R39, R539). -/
def State.cmdInstant (s : State) (r : Nat) (x : Side) : Option Int :=
  if s.xwRuns r then (s.entryNow r 2 x).map SchedEntry.offset else none

/-- The midpoint's t_cs_tw, the head's t_cs (R420). -/
def State.tCs (s : State) : Int := if s.lsp.pos then (s.timing.tCs : Int) - s.timing.tWatch else s.timing.tCs

/-! ### Evidence of a break (R274) -/

/-- The heal decision instant has passed. -/
def State.healLate (s : State) : Bool :=
  match s.instant (s.cycle + 1#32) (-(s.tCs + 200)) with
  | some x => decide (x ≤ s.now16)
  | none => false

/-- Evidence noted; it cancels a reclose whose CYCLE_START has not left yet (R276). A port in PASS notes it for a takeover (R439). -/
def State.healEvidence (s : State) (r : Nat) (x : Side) (node : Option Nat) : State :=
  if !s.xwRuns r && s.xw r ≠ .pass then s
  else
    let e : HealEv := ⟨s.healLate || s.xw r = .pass, x, node⟩
    let y := s.ringSt r
    if s.lb r x = node && s.xw r = .healed && node.isSome then s
    else if y.evid.any (fun v => decide (v.side = x ∧ v.node = node)) then s
    else s.setRing r { y with evid := y.evid ++ [e], reclosing := y.reclosing && y.verify, farRun := 0 }

/-- Evidence in force taken: the loop-back nodes, and HEALED (R274, R285). -/
def State.healApply (s : State) (r : Nat) : State :=
  let y := s.ringSt r
  let now := y.evid.filter (fun v => !v.late)
  let rest := (y.evid.filter HealEv.late).map (fun v => { v with late := false })
  let s := s.setRing r { y with evid := rest }
  if now.isEmpty || !s.xwRuns r then s
  else
    let s := now.foldl (fun s v => s.setLb r v.side v.node) s
    if s.xw r = .healed then s
    else (((s.setRing r { s.ringSt r with verify := false, echoes := [] }).setXw r .healed).incFld Reg.xwEvtHeals (ringBase r)).ringRaise 0x33 r

/-! ### Loop groups (R203, R204) -/

def State.loopGrp (s : State) (k : Nat) : LoopSt := Tab.get {} s.loops k
def State.setLoop (s : State) (k : Nat) (x : LoopSt) : State := { s with loops := Tab.put {} s.loops k x }

/-- The loop group of a ring half. -/
def halfGroup (r : Nat) : Side → Nat
  | .east => 2 * r
  | .west => 2 * r + 1

/-- An overrun of a loop group in the present cycle, counted once (R202, R203). -/
def State.overrun (s : State) (k : Nat) : State :=
  let x := s.loopGrp k
  if x.now then s
  else
    let n := satAdd x.consec 1 255
    let up := decide (x.inEffect ≤ n) && !x.raised
    let s := s.setLoop k { x with now := true, consec := n, overruns := satAdd x.overruns 1 65535, last := s.cycle, raised := x.raised || up }
    if up then s.raise 0x21 1 5 k else s

/-- A loop group at edge E: a cycle without overrun ends the count; a new threshold takes effect. -/
def LoopSt.edge (x : LoopSt) : LoopSt :=
  { x with inEffect := x.thresh, now := false, consec := if x.now then x.consec else 0, raised := x.now && x.raised }

/-! ### Source tokens of ring axes -/

/-- The positions that Woad's tap takes beside the SOURCE path (R403): those of the cycle whose edge E has opened a safety cycle. -/
def State.tapPos (s : State) (axis : Nat) (pos : Option Word) : State :=
  let w := s.woadAx axis
  if s.woad.openAt ≠ some s.cycle || w.tapped then s
  else { s with woad := { s.woad with axes := Tab.put {} s.woad.axes axis { w with tap := pos, tapped := true } } }

/-- A SOURCE queue of a standby in step that the mirror has brought nothing for in this cycle takes a hold (R433). -/
def State.mirrorHold (s : State) (axis q : Nat) : State :=
  if s.lsp.sync ≠ .inStep || s.mad.samples.any (fun r => r.queue == q && decide (r.tok.cycle = s.cycle)) then s
  else (s.tapPos axis none).pushHold q s.cycle

/-- The SOURCE token of an axis from its unit: its record, or a hold. A standby's own unit gives none, whatever it has: what the mirror has not
brought by then is a hold (R433). -/
def State.axisToken (s : State) (u : FabPort) (axis : Nat) (rec : Option (List Word)) : State :=
  match s.axisCfg axis with
  | some c =>
    if s.mode = .standby then s.mirrorHold axis c.srcQ
    else (s.tapPos axis (rec.map (fun ws => wordAt ws 2))).liveSource u c.srcQ s.cycle rec
  | none => s.tapPos axis (rec.map (fun ws => wordAt ws 2))

/-- Holds for the axes of the slots of a list whose node gave no sample in this cycle; each missing subframe is counted, the empty one of
an ungranted spare too (R261, log entry 53). -/
def State.sideHolds (s : State) (r : Nat) (fresh : List Nat) (count : Bool) : List SlotDesc → State
  | [] => s
  | d :: rest =>
    let s := if fresh.contains d.node then s
      else
        let s := if count then s.incFld Reg.xwMissSubMissing (ringBase r) else s
        (slotAxes d).foldl (fun s a => s.axisToken (s.ringPort r) a none) s
    State.sideHolds s r fresh count rest

/-- The holds of a side at its SAMPLE_DUE (R261, R277): of its path, and uncounted of the nodes of its half that no path reaches. -/
def State.dueSide (s : State) (r : Nat) (x : Side) (count : Bool) : State :=
  let fresh := (s.ringSt r).fresh
  (s.sideHolds r fresh count (s.path r x)).sideHolds r fresh false (s.lost r x)

/-- A side has given its tokens of the cycle. -/
def RingSt.due (x : RingSt) : Side → Bool
  | .east => x.dueE | .west => x.dueW
def RingSt.setDue (x : RingSt) : Side → RingSt
  | .east => { x with dueE := true } | .west => { x with dueW := true }
def RingSt.sent (x : RingSt) : Side → Bool
  | .east => x.sentE | .west => x.sentW
def RingSt.setSent (x : RingSt) : Side → RingSt
  | .east => { x with sentE := true } | .west => { x with sentW := true }

end Sys2Proof.Machine
end

