-- ==== Sys2Proof/Machine/RingPort.lean ====
section
/-! DEFINITION. The ring ports: start-up, CYCLE_STARTs, trains, healing, windows, late-comers (R241, R246 to R262, R268 to R285).
Log: DEDUCED 54, 62, 154, 155, 157, 169, 171, 192, 209. DESIGN CHOICE 55, 67, 156, 170, 172. -/

namespace Sys2Proof.Machine

/-- The ring ports send and receive: the part is awake and PFAIL handling has stopped nothing (R510). -/
def State.ringAwake (s : State) (r : Nat) : Bool := s.awake && !s.power.handling && decide (r < s.ringCount)

/-- A ring row acts only on a ring that is there and awake. -/
def State.onRing (s : State) (r : Nat) (f : State → State) : State := if s.ringAwake r then f s else s

/-! ### Start-up (R241, R268 to R272) -/

/-- The conditions that keep a ring's bypass switch closed (R283, R513). -/
def State.ringWantClosed (s : State) (r : Nat) : Bool :=
  !s.awake || !(s.ringSt r).started || s.bit Reg.xwCtrlBypass (ringBase r) || s.bypassSet.contains r || s.power.handling

/-- The ports run in the present mode: not in BOOT and CONFIGURE (R496). -/
def State.portsRun (s : State) : Bool :=
  match s.mode with
  | .off => false | .reset => false | .boot => false | .configure => false | _ => true

/-- The state a port takes when nothing else has put it into one: OFF, BYPASS, PASS in STANDBY, LINK. A port that goes to PASS keeps the rate
at which it has locked (R241). -/
def State.portRest (s : State) (r : Nat) : State :=
  let b := ringBase r
  if !s.portsRun || !s.bit Reg.xwCtrlEnable b then (s.setXw r .off).setBit Reg.xwStatInvE false b |>.setBit Reg.xwStatInvW false b
  else if s.bit Reg.xwStatBypassClosed b then s.setXw r .bypass
  else if s.mode = .standby then
    (if s.xw r = .pass then s
     else
       let fresh := decide (s.xw r = .off) || !(s.ringSt r).rateHeld
       let s := ((s.setXw r .pass).setLb r .east none).setLb r .west none
       let s := s.setRing r { s.ringSt r with returned := false, evid := [], csHealed := false, csLaunch := none }
       if fresh then s.seekRate r else s)
  else s.toLink r

/-- Edge E for a port in PASS: evidence of a loop that is older than a cycle goes when the CYCLE_STARTs of the active show none
(log entry 157). -/
def State.passEdge (s : State) (r : Nat) : State :=
  let y := s.ringSt r
  let evid := if y.returned && !y.csHealed then y.evid.filter HealEv.late else y.evid
  s.setRing r { y with returned := false, evid := evid.map (fun v => { v with late := false }) }

/-- Every port at entry to a mode by command: started when the image enables it (R513). -/
def State.portsEnter (s : State) : State :=
  (List.range s.ringCount).foldl (fun s r =>
    let s := if s.mode = .idle && s.bit Reg.xwCtrlEnable (ringBase r) then s.setRing r { s.ringSt r with started := true } else s
    s.portRest r) s

/-- A ring switch has moved (R283). -/
def State.ringSwitchDone (s : State) (r : Nat) : State :=
  let b := ringBase r
  let c := s.ringWantClosed r
  let s := s.setBit Reg.xwStatBypassClosed c b
  let s := (s.setRingLock r .east false).setRingLock r .west false
  s.portRest r

/-- BYPASS_SWITCH_COMPLETE (R283, R353, R516): a switch has come to the position its conditions ask for, and BYPASS_N shows it. -/
def execBypassSwitchComplete (sw : Nat) (s : State) : Host.Outcome State Fault Refusal :=
  .next ((if sw = 8 then s.bbSwitchDone
    else if sw < s.ringCount then s.ringSwitchDone sw
    else s).showBypass s)

/-- What a write of XW_CTRL does besides its fields: the bypass switch moves until BYPASS_SWITCH_COMPLETE; a port disabled is in
OFF. -/
def State.xwCtrl (s : State) (r : Nat) (data : Word) : State :=
  let s := s.storeReg (ringBase r) data
  if s.xw r ≠ .off && !s.bit Reg.xwCtrlEnable (ringBase r) then s.portRest r else s

/-- XW_CTRL_WRITE (R268, R283). -/
def execXwCtrlWrite (w : RegWrite) (s : State) : Host.Outcome State Fault Refusal :=
  .next (s.ownWrite w (decide (0x200000 ≤ w.off ∧ w.off < 0x280000 ∧ w.off % 0x10000 = 0))
    (fun s => s.xwCtrl ((w.off - 0x200000) / 0x10000) w.data))

/-- DISCOVER begun: a frame on both sides (R269), with one block of zeros, the least a TOPO frame has (R244; log entry 170). -/
def State.sendDiscover (s : State) (r : Nat) : State :=
  (s.sendTopo r .east 0 0 (List.replicate 8 0#8)).sendTopo r .west 0 0 (List.replicate 8 0#8)

/-- Entry into DISCOVER: the steps begin (R269). -/
def State.toDiscover (s : State) (r : Nat) : State :=
  let x := s.ringSt r
  ((s.setRing r { x with step := .discover, echoes := [], acks := [], descQ := [], waited := 0, sentRun := 0, discFor := 0
                         discFailed := false }).setXw r .discover).sendDiscover r

/-- RING_LOCK_CHANGE (R240, R241, R268, R274, R285). -/
def execRingLockChange (rs : RingSide) (lock : Bool) (s : State) : Host.Outcome State Fault Refusal :=
  .next (s.onRing rs.ring (fun s =>
    let r := rs.ring
    let x := s.role r rs.side
    if s.xw r = .off || s.xw r = .bypass || s.ringLock r x == lock then s
    else
      let s := s.setRingLock r x lock
      let s := if lock then s.setRing r { s.ringSt r with rateHeld := true } else s
      if lock || !s.xwRuns r then s
      else if !s.ringLock r (flipSide x) then (s.toLink r).ringRaise 0x34 r
      else s.healEvidence r x none))

/-- RING_RATE_TRY_EXPIRY (R241): with phy = 2, after 50 ms (25,000,000 ticks) without lock the other rate is tried, until a side has
locked; the counter runs on to the end of that time. -/
def execRingRateTryExpiry (ring : Nat) (s : State) : Host.Outcome State Fault Refusal :=
  .next (s.onRing ring (fun s =>
    let b := ringBase ring
    if (s.xw ring = .link || s.xw ring = .pass) && s.fld Reg.xwCtrlPhy b == 2 && !(s.ringSt ring).rateHeld then
      let s := s.runTo ((s.ringSt ring).rateAt + 25000000)
      (s.setRing ring { s.ringSt ring with rateAt := s.time.ran }).setBit Reg.xwStatRate10 (!s.bit Reg.xwStatRate10 b) b
    else s))

/-- RX_POLARITY_CORRECT (R271, R339): after block lock a receiver inverts its input. -/
def execRxPolarityCorrect (x : Receiver) (s : State) : Host.Outcome State Fault Refusal :=
  .next (match x with
    | .backbone p => if 2 ≤ p || !s.awake || !s.bit Reg.bbStatLock (bbBase p) then s else s.setBit Reg.bbStatInv true (bbBase p)
    | .ring rs => s.onRing rs.ring (fun s =>
      let x := s.role rs.ring rs.side
      if !s.ringLock rs.ring x then s
      else match x with
        | .east => s.setFld Reg.xwStatInvE 1 (ringBase rs.ring)
        | .west => s.setFld Reg.xwStatInvW 1 (ringBase rs.ring)))

/-- RING_LONE_ENTRY (R272). -/
def execRingLoneEntry (ring : Nat) (s : State) : Host.Outcome State Fault Refusal :=
  .next (s.onRing ring (fun s =>
    match s.xw ring with
    | .link | .discover | .intact | .healed =>
      if 16 ≤ (s.ringSt ring).sentRun then (s.setXw ring .lone).ringRaise 0x30 ring else s
    | _ => s))

/-- DISCOVER has failed: RING_TOPO, once in each run of its steps (R269). -/
def State.discFail (s : State) (r : Nat) : State :=
  let y := s.ringSt r
  if y.discFailed then s else (s.setRing r { y with discFailed := true }).ringRaise 0x31 r

/-- RING_DISCOVER_RETRY (R269): after 1,024 cycles steps that have not been completed are repeated; where nothing has come back at all,
that is the failure. -/
def execRingDiscoverRetry (ring : Nat) (s : State) : Host.Outcome State Fault Refusal :=
  .next (s.onRing ring (fun s =>
    let y := s.ringSt ring
    if s.xw ring = .discover && decide (y.step ≠ .done) && decide (1024 ≤ y.discFor) then (s.discFail ring).toDiscover ring else s))

/-! ### DISCOVER frames and ECHO (R269, R270) -/

/-- An entry fits a slot as seen by a frame that left on a side. -/
def discFits (left : Side) (d : SlotDesc) (e : DiscoverEntry) : Bool :=
  decide (e.hop = if d.side = left then d.hop else 0) && decide (e.vendor = d.vendor) && decide (e.model = d.model)
    && (decide (d.serial = 0#32) || decide (e.serial = d.serial)) && decide (e.axesM1 + 1 = d.axes)

/-- DISCOVER must find a node at the slot: a spare fits its position whether a node is there or not (R269). -/
def slotAsked (d : SlotDesc) : Bool := d.present && !d.spare

/-- Entries in ring order against slots, with the echo time of each node found (R269). -/
def discMatch (left : Side) : List SlotDesc → List DiscoverEntry → Option (List (Nat × Nat))
  | [], [] => some []
  | [], _ :: _ => none
  | d :: ds, [] => if slotAsked d then none else discMatch left ds []
  | d :: ds, e :: es =>
    match if discFits left d e then discMatch left ds es else none with
    | some l => some ((d.node, e.echoNs) :: l)
    | none => if slotAsked d then none else discMatch left ds (e :: es)

/-- The slots as a ring cabled with east and west exchanged shows them. -/
def mirrored (l : List SlotDesc) : List SlotDesc := l.map (fun d => { d with side := flipSide d.side })

/-- The order of the slots for a frame that left on a side. -/
def orderFrom (l : List SlotDesc) : Side → List SlotDesc
  | .east => ringOrder l
  | .west => (ringOrder l).reverse

/-- The nodes that DISCOVER measures and sends a descriptor: of every slot that takes part, but for a spare where it has found none. -/
def State.neededNodes (s : State) (r : Nat) : List Nat :=
  let y := s.ringSt r
  (y.slots.filter (fun d => slotUsed d && (!d.spare || decide (s.xw r ≠ .discover) || (Tab.find y.echoNs d.node).isSome))).map SlotDesc.node

/-- What the image gives the ring for the other position of a pair (R420, R440). -/
def State.otherCfg (s : State) (r : Nat) : Option RingCfg :=
  if s.lsp.role = .unpaired then none
  else ((s.image.map Image.rings).getD []).find? (fun d => d.ring == r && d.mid != s.lsp.pos)

/-- The hop of a pair's other part, seen from a side: it stands between the two halves of the ring. -/
def State.twinHop (s : State) (r : Nat) (x : Side) : Nat := (halfOf (s.ringSt r).slots x).length + 1

/-- The hop of a node, seen from a side: the nodes up to it, and the other part of a pair where it lies before it (R244, R253). -/
def State.hopFrom (s : State) (r n : Nat) (x : Side) : Nat :=
  let k := (uptoNode n (orderFrom (s.ringSt r).slots x)).length
  if (s.otherCfg r).isSome && decide (s.twinHop r x ≤ k) then k + 1 else k

/-- An ECHO sent on a side to a hop: the target's hop seen from there, and the side (R253). -/
def State.echoTo (s : State) (r : Nat) (x : Side) (node hop : Nat) : State :=
  s.sendTopo r x 1 node (leBytes 8 (hop % 16 + (match x with | .east => 0 | .west => 16)))

/-- An ECHO to a node from a side. -/
def State.sendEcho (s : State) (r : Nat) (e : Side × Nat) : State := s.echoTo r e.1 e.2 (s.hopFrom r e.2 e.1)

/-- On the ring of a pair the other part is called from both sides as well: it answers as a node does (R430, R440). It has no node address;
its hop names it (log entry 171). -/
def State.echoTwin (s : State) (r : Nat) : State :=
  if (s.otherCfg r).isSome then (s.echoTo r .east 0 (s.twinHop r .east)).echoTo r .west 0 (s.twinHop r .west) else s

/-- Every node that must be there, from both sides. -/
def State.echoList (s : State) (r : Nat) : List (Side × Nat) :=
  (s.neededNodes r).flatMap (fun n => [(Side.east, n), (Side.west, n)])

/-- ECHO sent to every node on both sides. -/
def State.sendEchoes (s : State) (r : Nat) : State :=
  let all := s.echoList r
  let s := s.setRing r { s.ringSt r with step := .echo, echoes := all, twinE := none, twinW := none }
  all.foldl (fun s e => s.sendEcho r e) (s.echoTwin r)

/-- The delays of a CYCLE_START of the pair's other part to a node, from the active's own to the node and to that part, each lane taken
equally long both ways (R440). Both parts count a side in the same sense along the ring: what lies before the other part, seen from a
side, lies on its opposite side. -/
def otherDelays (e w : Nat) (csE csW : Nat) : Nat × Nat :=
  (if e ≤ csE then csE - e else w + csE, if w ≤ csW then csW - w else e + csW)

/-- The DESC_WRITEs of a node: its own, and on a paired ring that of the other position (R440); where the other part has not answered ECHO
by then there is nothing to derive its delays from, and they are free values (log entry 171). -/
def State.descsOf (s : State) (r n : Nat) : State × List (Nat × Option (Nat × Nat)) :=
  match s.otherCfg r with
  | none => (s, [(n, none)])
  | some _ =>
    match (s.ringSt r).twinE, (s.ringSt r).twinW, s.slot r n with
    | some e, some w, some d => (s, [(n, none), (n, some (otherDelays e w d.csE d.csW))])
    | _, _, _ =>
      let d := s.freeWords 2
      (s.drewN 2, [(n, none), (n, some ((wordAt d 0).toNat % 65536, (wordAt d 1).toNat % 65536))])

/-- DESC_WRITEs of nodes queued. -/
def State.queueDescs (s : State) (r : Nat) (ns : List Nat) : State :=
  ns.foldl (fun s n =>
    let x := s.descsOf r n
    x.1.setRing r { x.1.ringSt r with descQ := (x.1.ringSt r).descQ ++ x.2 }) s

/-- DESC_WRITE of every node queued; the port waits for a DESC_ACK to each. -/
def State.sendDescs (s : State) (r : Nat) : State :=
  let ns := s.neededNodes r
  let s := (s.setRing r { s.ringSt r with descQ := [] }).queueDescs r ns
  s.setRing r { s.ringSt r with step := if ns.isEmpty then .done else .desc, acks := (s.ringSt r).descQ.map Prod.fst, waited := 0 }

/-- The roles of the two sides exchanged, with what XW_STAT shows of each (R270). -/
def State.exchange (s : State) (r : Nat) : State :=
  let b := ringBase r
  let e := s.bit Reg.xwStatInvE b
  let w := s.bit Reg.xwStatInvW b
  let le := s.ringLock r .east
  let lw := s.ringLock r .west
  let s := (s.setRing r { s.ringSt r with exchanged := !(s.ringSt r).exchanged }).setBit Reg.xwStatSwappedFixed true b
  (((s.setBit Reg.xwStatInvE w b).setBit Reg.xwStatInvW e b).setRingLock r .east lw).setRingLock r .west le

/-- A returned DISCOVER in DISCOVER (R269, R270), and after a reclose (R276, R285). -/
def State.discoverBack (s : State) (r : Nat) (x : Side) (f : DiscoverFrame) : State :=
  let y := s.ringSt r
  let found := discMatch x (orderFrom y.slots x) f.entries
  let fits := found.isSome
  let turned := discMatch x (orderFrom (mirrored y.slots) x) f.entries
  let learn := fun (s : State) (l : Option (List (Nat × Nat))) => s.setRing r { s.ringSt r with echoNs := l.getD [] }
  if s.xw r = .intact then
    (if !y.verify then s
     else let s := s.setRing r { y with verify := false }
       if fits then s else s.ringRaise 0x31 r)
  else if s.xw r ≠ .discover || y.step ≠ .discover then s
  else if fits then (learn s found).sendEchoes r
  else if turned.isSome then
    let s := s.setFld Reg.xwStatEwSwapped 1 (ringBase r)
    if s.bit Reg.xwCtrlSwapOk (ringBase r) then
      ((learn s turned).exchange r).sendEchoes r
    else s.ringRaise 0x32 r
  else s.discFail r

/-- RING_DISCOVER_RETURN (R245, R269, R270): the frame left on the side given. -/
def execRingDiscoverReturn (rs : RingSide) (f : DiscoverFrame) (s : State) : Host.Outcome State Fault Refusal :=
  .next (s.onRing rs.ring (fun s =>
    let x := s.role rs.ring rs.side
    (s.ringForward rs (.discover f)).ringTake rs.ring x f.toRxHead (fun s => s.discoverBack rs.ring x f)))

/-- The delay of a CYCLE_START to a node from a side, measured (R269): half the round trip less the node's echo time. -/
def State.measured (s : State) (r n : Nat) (x : Side) (delay : Nat) : State :=
  let y := s.ringSt r
  let slots := y.slots.map (fun d => if d.node = n then
    (match x with | .east => { d with csE := delay } | .west => { d with csW := delay }) else d)
  let rest := y.echoes.filter (fun e => !decide (e.1 = x ∧ e.2 = n))
  let s := s.setRing r { y with slots := slots, echoes := rest }
  if y.step = .echo && rest.isEmpty && s.xw r = .discover then s.sendDescs r else s

/-- The one-way delay that an ECHO's round trip gives: half of it less the node's echo time, in 1/16 ns (R269). -/
def State.oneWay (s : State) (r : Nat) (f : EchoFrame) : Nat := (f.rttSixteenths - 16 * (Tab.find (s.ringSt r).echoNs f.node).getD 0) / 2

/-- The delay to the pair's other part measured. It declares no echo time of its own: what its answer took is a free value (log entry
171). -/
def State.twinMeasured (s : State) (r : Nat) (x : Side) (f : EchoFrame) : State :=
  let d := (f.rttSixteenths - 16 * (s.freeW.toNat % 65536)) / 2
  s.drew.setRing r (match x with
    | .east => { s.ringSt r with twinE := some d }
    | .west => { s.ringSt r with twinW := some d })

/-- An ECHO that comes back to the port that sent it: from the other part of a pair, or from a node. -/
def State.echoBack (s : State) (r : Nat) (x : Side) (f : EchoFrame) : State :=
  if (s.otherCfg r).isSome && decide (f.hop = s.twinHop r x) then s.twinMeasured r x f else s.measured r f.node x (s.oneWay r f)

/-- An outbound ECHO that is called to this part: its hop is the pair's other part seen from where it comes (R253, R430). -/
def State.echoIsMine (s : State) (rs : RingSide) (f : EchoFrame) : Bool :=
  !f.returned && decide (f.hop = s.twinHop rs.ring (s.role rs.ring rs.side))

/-- RING_ECHO_RECEIVE (R253, R268, R269, R430): an ECHO of this port's own comes back; in PASS one whose hop is this part's is returned, its
body as it came, and every other goes on. -/
def execRingEchoReceive (rs : RingSide) (f : EchoFrame) (s : State) : Host.Outcome State Fault Refusal :=
  .next (s.onRing rs.ring (fun s =>
    let x := s.role rs.ring rs.side
    let mine := s.echoIsMine rs f
    (if mine then s else s.ringForward rs (.echo f)).ringTake rs.ring x f.toRxHead (fun s =>
      if s.xw rs.ring = .pass then
        (if mine then
          s.ringSend rs.ring x { type := 6, node := f.node, cyc := s.cycle, sub := 1, inbound := true } (leBytes 8 (f.hop % 16 + 16 * bitN f.west))
        else s)
      else if f.returned then s.echoBack rs.ring x f
      else s)))

/-! ### CYCLE_START (R246, R268, R272, R284) -/

/-- The port sends CYCLE_STARTs: in LINK once a side has locked (log entry 54). -/
def State.sendsCs (s : State) (r : Nat) : Bool :=
  match s.xw r with
  | .link => s.ringLock r .east || s.ringLock r .west
  | .lone | .discover | .intact | .healed => true
  | _ => false

/-- The node at the end of a path. -/
def State.launcher (s : State) (r : Nat) (x : Side) : Nat :=
  match ((s.path r x).filter slotUsed).getLast? with
  | some d => d.node
  | none => 0

/-- The pair's part that this one is (R246, R419). -/
def State.activeId (s : State) : Bool := s.lsp.pos && decide (s.lsp.role ≠ .unpaired)

/-- The body of a CYCLE_START as words (R246). -/
def csWords (cycle : Word) (edge : Int) (healed safeAll scStart activeId twinLaunch : Bool) (le lw : Nat)
    (grant : Option (Nat × BitVec 16)) : List Word :=
  let b18 := (if healed then 128 else 0) + (if safeAll then 64 else 0) + (if scStart then 32 else 0) + (if activeId then 16 else 0)
    + (if twinLaunch then 8 else 0)
  let nonce := (grant.map (fun g => g.2.toNat)).getD 0
  let b22 := match grant with | some g => 128 + g.1 % 16 | none => 0
  [cycle, BitVec.ofNat 32 (stampNs edge), BitVec.ofNat 32 (stampS edge), BitVec.ofNat 32 (stampS edge / 2 ^ 32),
    BitVec.ofNat 32 (stampSub edge + b18 * 65536 + (le % 16 * 16 + lw % 16) * 2 ^ 24), BitVec.ofNat 32 (nonce + b22 * 65536)]

/-- Every safe pattern is asked for: L3 until re-armed, and FAULT (R284, R496). -/
def State.safeAll (s : State) : Bool := s.fox.latch || decide (s.mode = .fault)

/-- Edge E of a cycle opens a safety cycle: every sc_div edges from the first after acceptance (R399). -/
def State.opensSafety (s : State) : Bool :=
  match s.image.bind Image.safety with
  | some p => s.woad.accepted && decide (0 < p.scDiv ∧ s.woad.edges % p.scDiv = 0)
  | none => false

/-- The result of a claim shown (XW_CLAIM). -/
def State.showClaim (s : State) (r : Nat) (nonce : BitVec 16) (node result : Nat) : State :=
  let b := ringBase r
  ((s.setFld Reg.xwClaimNonce nonce.toNat b).setFld Reg.xwClaimNode node b).setFld Reg.xwClaimResult result b

/-- A claim that has won, when its CYCLE_START is due: counted, or not granted after all, since the port enters HEALED or raises
safe_all (R279, R280). -/
def State.grantCheck (s : State) (r : Nat) : State :=
  match (s.ringSt r).grant with
  | none => s
  | some g =>
    if s.xw r = .intact && (s.ringSt r).evid.all HealEv.late && !s.safeAll then s.incFld Reg.xwEvtGrants (ringBase r)
    else
      let s := s.setRing r { s.ringSt r with grant := none }
      if s.fld Reg.xwClaimNonce (ringBase r) = g.2.toNat then s.setFld Reg.xwClaimResult 3 (ringBase r) else s

/-- The CYCLE_START of the next cycle leaves on both sides: HEALED as the evidence in force makes it, a reclose or a grant carried. -/
def State.sendCs (s : State) (r : Nat) (c : Word) (edge : Int) : State :=
  let s := s.grantCheck r
  let y := s.ringSt r
  let next := s.healApply r
  let healed := decide (next.xw r = .healed) && !(y.reclosing && decide (s.xw r = .healed))
  let paths := if y.reclosing && decide (s.xw r = .healed) then next.setXw r .intact else next
  let paths := match y.grant with
    | some g => paths.setRing r { y with slots := y.slots.map (fun (d : SlotDesc) => if d.node = g.1 then { d with granted := true } else d) }
    | none => paths
  let twin := decide (s.lsp.role = .active) && decide (s.lsp.hbMiss = some 0) && decide (s.lsp.hb.map TwinHeartbeat.mode = some 6#8) && !healed
  let ws := csWords c edge healed s.safeAll s.opensSafety s.activeId twin (paths.launcher r .east) (paths.launcher r .west) y.grant
  let s := if y.returned then s else s.setFld Reg.xwRttRtt 0 (ringBase r)
  let s := s.setRing r { s.ringSt r with csAt := some s.now16, returned := false, grant := none, csSent := true
                                         sentRun := if y.returned then 1 else y.sentRun + 1 }
  let s := match y.grant with
    | some g => (s.setRing r { s.ringSt r with slots := (s.ringSt r).slots.map (fun (d : SlotDesc) =>
        if d.node = g.1 then { d with granted := true } else d) }).queueDescs r [g.1]
    | none => s
  let s := if y.reclosing && decide (s.xw r = .healed) then s.setRing r { s.ringSt r with verify := true } else s
  (s.ringSend r .east { type := 1, cyc := c } (bytesOfWords ws)).ringSend r .west { type := 1, cyc := c } (bytesOfWords ws)

/-! ### Trains (R247, R248, R250, R261, R262) -/

/-- A record with stale, safe or enable put right: words 0 to 2 of R170 and R226. -/
def setRecBit (ws : List Word) (k : Nat) (b : Bool) : List Word :=
  let w := wordAt ws 2
  let m : Word := 1#32 <<< k
  [wordAt ws 0, wordAt ws 1, if b then w ||| m else w &&& ~~~m]

/-- The command tokens of a SINK queue that belong to cycles up to the present one leave it; the token of the present cycle, if any,
is answered (R39). -/
def State.takeSink (s : State) (u : FabPort) (q : Nat) : State × Option Token :=
  let s := s.sinkTurn u q (s.loopQueue q)
  let x := s.queue q
  let t := s.tokOf q s.cycle
  (s.setQueue q { x with toks := x.toks.filter (fun u => !cycGe s.cycle u.cycle), done := some s.cycle }, t)

/-- One axis's record for a train: the token's, or the previous one with stale = 1; the second part tells an overrun. -/
def State.axisRecord (s : State) (r axis : Nat) : State × List Word × Bool :=
  match s.axisCfg axis with
  | none => (s, [0#32, 0#32, if s.fox.latch then 0x400#32 else 0#32], false)
  | some c =>
    let t := s.takeSink (s.ringPort r) c.sinkQ
    let prev := Tab.get [0#32, 0#32, 0#32] (s.ringSt r).prev axis
    let good := match t.2 with | some k => !k.hold | none => false
    let rec_ := match t.2 with
      | some k => if k.hold then setRecBit prev 15 true else k.words
      | none => setRecBit prev 15 true
    let s := t.1
    let fresh := if good then rec_ else prev
    let s := s.setRing r { s.ringSt r with prev := Tab.put [0#32, 0#32, 0#32] (s.ringSt r).prev axis fresh }
    (s, if s.fox.latch then setRecBit rec_ 10 true else rec_, !good)

/-- The records of a list of axes, and whether one was late. -/
def State.axisRecords (s : State) (r : Nat) : List Nat → State × List Word × Bool
  | [] => (s, [], false)
  | a :: rest =>
    let x := s.axisRecord r a
    let y := State.axisRecords x.1 r rest
    (y.1, x.2.1 ++ y.2.1, x.2.2 || y.2.2)

/-- Records with enable = 0 sent for some axes: they are the previous ones of the cycle that follows (R202). -/
def State.restRecords (s : State) (r : Nat) (axes : List Nat) : State :=
  s.setRing r { s.ringSt r with prev := axes.foldl (fun t a => Tab.drop t a) (s.ringSt r).prev }

/-- The subframes of a COMMAND train, lowest hop first: the node, then its records (R250). Where no graph fires every record has
enable = 0 (R496). -/
def State.cmdSubframes (s : State) (r : Nat) (x : Side) : List SlotDesc → State
  | [] => s
  | d :: rest =>
    let idle := !slotUsed d || !s.graphsFire || s.mad.replay.running
    let y := if idle then (s.restRecords r (slotAxes d), (List.replicate d.axes [0#32, 0#32, if s.fox.latch then 0x400#32 else 0#32]).flatten, false)
      else s.axisRecords r (slotAxes d)
    let s := if y.2.2 then y.1.overrun (halfGroup r d.side) else y.1
    State.cmdSubframes (s.ringSend r x { type := 3, node := d.node, cyc := s.cycle } (bytesOfWords y.2.1)) r x rest

/-- The command launch of a side in the present cycle; tokens for nodes that no path reaches have no train to go by (R277). -/
def State.cmdLaunch (s : State) (r : Nat) (x : Side) : State :=
  if (s.ringSt r).sent x then s
  else match s.cmdInstant r x with
    | none => s
    | some ns =>
      let s := s.toInstant ns
      let s := s.setRing r ((s.ringSt r).setSent x)
      let s := ((s.lost r x).flatMap slotAxes).foldl (fun s a => match s.axisCfg a with
        | some c => (s.takeSink (s.ringPort r) c.sinkQ).1
        | none => s) s
      if s.mode = .fault then s else s.cmdSubframes r x (s.path r x)

/-- RING_CMD_LAUNCH (R39, R202, R250, R262). -/
def execRingCmdLaunch (rs : RingSide) (s : State) : Host.Outcome State Fault Refusal :=
  .next (s.onRing rs.ring (fun s => if s.edgesRun then s.cmdLaunch rs.ring (s.role rs.ring rs.side) else s))

/-- The SAMPLE_DUE of a side (R261); in PASS the standby's own deadline (R433). -/
def State.sampleDue (s : State) (r : Nat) (x : Side) : State :=
  let y := s.ringSt r
  if y.due x || !(s.xwRuns r || s.xw r = .pass) then s
  else match s.entryNow r 9 x with
    | none => s
    | some e =>
      let s := s.toInstant e.offset
      let s := s.setRing r ((s.ringSt r).setDue x)
      if s.xw r = .pass then s.sideHolds r [] false (halfOf y.slots x) else s.dueSide r x true

/-- RING_SAMPLE_DUE (R261, R433). -/
def execRingSampleDue (rs : RingSide) (s : State) : Host.Outcome State Fault Refusal :=
  .next (s.onRing rs.ring (fun s => (s.sampleDue rs.ring (s.role rs.ring rs.side)).note))

/-- The record of a sample, free words on a ring whose behaviour is undefined (R45). -/
def State.sampleRec (s : State) (r : Nat) (a : AxisSample) : State × List Word :=
  if s.ringUndef r then (s.drewN 4, s.freeWords 4) else (s, [a.w0, a.w1, a.w2, a.w3])

/-- A subframe of a SAMPLE train (R247, R248, R261, R274); one of an earlier cycle, or after SAMPLE_DUE, is late; what a slot that is not
granted carries is not used (R281). -/
def State.sampleIn (s : State) (r : Nat) (x : Side) (f : SampleSub) : State :=
  match (s.path r x).find? (fun d => d.node == f.node) with
  | none => s
  | some d =>
    let y := s.ringSt r
    let older := (s.cycle.setWidth 16 - f.cycle).toNat
    if y.due x || decide (0 < older ∧ older < 0x8000) then s.incFld Reg.xwMissSubLate (ringBase r)
    else if y.fresh.contains f.node || older ≠ 0 then s
    else if !f.filled || !slotUsed d then s
    else
      let aux : List Word := f.axes.flatMap (fun (a : AxisSample) => [a.auxPos, a.auxCode.setWidth 32 <<< 16])
      let s := s.setRing r { y with fresh := y.fresh ++ [f.node]
                                    blocks := Tab.ins (Tab.drop y.blocks f.node) f.node f.block
                                    aux := Tab.ins (Tab.drop y.aux f.node) f.node aux }
      let s := ((slotAxes d).zip f.axes).foldl (fun s e =>
        let k := s.sampleRec r e.2
        k.1.axisToken (k.1.ringPort r) e.1 (some k.2)) s
      if f.block.loop then s.healEvidence r x (some f.node) else s

/-- RING_SAMPLE_SUBFRAME_RECEIVE (R245, R247, R248). -/
def execRingSampleSubframeReceive (rs : RingSide) (f : SampleSub) (s : State) : Host.Outcome State Fault Refusal :=
  .next (s.onRing rs.ring (fun s =>
    let x := s.role rs.ring rs.side
    (s.ringForward rs (.sample f)).ringTake rs.ring x f.toRxHead (fun s =>
      if s.xwRuns rs.ring then (s.sampleIn rs.ring x f).note else s)))

/-- The launch of a twin's SAMPLE train on a side: E + t_s less the measured delay to the farthest node of the path, the first one that
the train meets (R247). -/
def State.launchAt (s : State) (r : Nat) (x : Side) : Option Int :=
  (s.instant s.cycle (s.fld Reg.xwTimingTS (ringBase r))).map (fun t =>
    t - 4096 * ((((halfOf (s.ringSt r).slots x).head?.map (fun (d : SlotDesc) => match x with | .east => d.csE | .west => d.csW)).getD 0 : Nat) : Int))

/-- SAMPLE_TRAIN_LAUNCH (R247, R430): in PASS, when the CYCLE_START of the cycle set twin_launch, the empty train of a path, once a cycle. -/
def execSampleTrainLaunch (rs : RingSide) (s : State) : Host.Outcome State Fault Refusal :=
  .next (s.onRing rs.ring (fun s =>
    let r := rs.ring
    let x := s.role r rs.side
    let y := s.ringSt r
    if s.xw r = .pass && y.csLaunch == some s.cycle && !y.launched.contains x then
      let s := match s.launchAt r x with | some t => s.advanceTo t | none => s
      let s := s.setRing r { s.ringSt r with launched := y.launched ++ [x] }
      (halfOf y.slots x).foldl (fun s d =>
        s.ringSend r x { type := 2, node := d.node, cyc := s.cycle, inbound := true } (List.replicate (16 + 24 * d.axes) 0#8)) s
    else s))

/-! ### Windows (R251 to R254, R257, R258) -/

/-- The body of a DESC_WRITE (R260): tag, index and length, descriptor, timing block, window entries, axis words. -/
def State.descBytes (s : State) (d : SlotDesc) (sched : List SchedEntry) (tCs tS tApply tApplyH : Nat) : List Byte :=
  let ws := sched.filter (fun e => (e.kind == 4 || e.kind == 6) && e.node == d.node && entrySide e d.side)
  let per := (2 * 16000000000 + s.rate) / (2 * Nat.max s.rate 1)
  let axis := fun a =>
    let p := s.axis a
    [Tab.get 0#32 p.params 0, Tab.get 0#32 p.params 16, Tab.get 0#32 p.params 45, Tab.get 0#32 p.params 46]
  let data := bytesOfWords ((List.range 4).map (slotWord d))
    ++ leBytes 2 tCs ++ leBytes 2 tS ++ leBytes 2 tApply ++ leBytes 2 tApplyH ++ leBytes 4 per ++ leBytes 4 (ws.length % 16)
    ++ bytesOfWords (ws.flatMap schedWords) ++ bytesOfWords ((slotAxes d).flatMap axis)
  leBytes 4 0 ++ leBytes 4 data.length ++ data

/-- t_cs of the pair's other position (R420). -/
def State.otherCs (s : State) : Nat := if s.lsp.pos then s.timing.tCs else s.timing.tCs - s.timing.tWatch

/-- A DESC_WRITE that waits: the port's own descriptor of a node, or with its CYCLE_START delays that of the other position; bit 0 of the
flags gives the position (R440). -/
def State.descMsg (s : State) (r : Nat) (e : Nat × Option (Nat × Nat)) : Option AsyncMsg :=
  let b := ringBase r
  match e.2, s.otherCfg r with
  | some k, some c => (c.slots.find? (fun d => d.node == e.1)).map (fun d =>
      { node := e.1, op := 5, flags := bitN c.mid
        body := s.descBytes { d with csE := k.1, csW := k.2 } c.sched s.otherCs c.tS (c.tApply.getD s.timing.tApply) c.tApplyH })
  | _, _ => (s.slot r e.1).map (fun d =>
      { node := e.1, op := 5, flags := bitN s.lsp.pos
        body := s.descBytes d (s.sched r) s.tCs.toNat (s.fld Reg.xwTimingTS b) (s.fld Reg.xwTimingTApply b) (s.fld Reg.xwTimingHTApplyH b) })

/-- The side that an ASYNC frame to a node leaves by: the one whose path holds the node; a node that no path holds is called on the side of
its half, and an address without a slot on the east side (log entry 172). -/
def State.asyncSide (s : State) (r n : Nat) : Side :=
  if (s.path r .east).any (fun d => d.node == n) then .east
  else if (s.path r .west).any (fun d => d.node == n) then .west
  else ((s.slot r n).map SlotDesc.side).getD .east

/-- The frames that wait for a side: DESC_WRITEs, then posted operations. -/
def State.asyncWaiting (s : State) (r : Nat) (x : Side) : List AsyncMsg :=
  let on := fun n => decide (s.asyncSide r n = x)
  ((s.ringSt r).descQ.filter (fun e => on e.1)).filterMap (s.descMsg r) ++ (s.ringSt r).asyncQ.filter (fun m => on m.node)

/-- The body of an ASYNC frame has 2 blocks at least (R244). -/
def asyncBody (m : AsyncMsg) : List Byte := m.body ++ List.replicate (16 - m.body.length) 0#8

/-- Frames that fit, in order. -/
def fitFrames (room : Nat) : List AsyncMsg → List AsyncMsg
  | [] => []
  | m :: r => let n := frameBytes (asyncBody m).length
    if n ≤ room then m :: fitFrames (room - n) r else []

/-- An ASYNC frame sent. -/
def State.sendAsync (s : State) (r : Nat) (x : Side) (m : AsyncMsg) : State :=
  let y := s.ringSt r
  let s := if m.op = 5 then s.setRing r { y with descQ := y.descQ.eraseP (fun e => e.1 == m.node && bitN (s.lsp.pos != e.2.isSome) == m.flags) }
    else s.setRing r { y with asyncQ := y.asyncQ.erase m }
  s.ringSend r x { type := 4, node := m.node, cyc := s.cycle, flags := m.flags, sub := m.op } (asyncBody m)

/-- RING_ASYNC_OUT_WINDOW (R251, R258, R269, R279): in DISCOVER only DESC_WRITE goes out, and without regard to the
window table; posted operations wait. -/
def execRingAsyncOutWindow (rs : RingSide) (s : State) : Host.Outcome State Fault Refusal :=
  .next (s.onRing rs.ring (fun s =>
    let r := rs.ring
    let x := s.role r rs.side
    let all := s.asyncWaiting r x
    match s.xw r with
    | .discover => if s.mode = .fault then s else (all.filter (fun m => m.op == 5)).foldl (fun s m => s.sendAsync r x m) s
    | .intact | .healed =>
      match s.windowNext r 3 x with
      | none => s
      | some w => (fitFrames (s.windowBytes r w.2) all).foldl (fun s m => s.sendAsync r x m) (s.openWindow r x w)
    | _ => s))

/-- The next ECHO of a verification that leaves by a side sent. -/
def State.verifyEcho (s : State) (r : Nat) (x : Side) : State :=
  match (s.ringSt r).echoes.find? (fun e => decide (e.1 = x)) with
  | none => s
  | some e => (s.setRing r { s.ringSt r with echoes := (s.ringSt r).echoes.erase e }).sendEcho r e

/-- The next TOPO window of a ring in the present cycle, and its side: the east one of two that open together comes first (log entry 170). -/
def State.topoNext (s : State) (r : Nat) : Option (Side × Nat × SchedEntry) :=
  match s.windowNext r 7 .east, s.windowNext r 7 .west with
  | some a, some b => if a.1 ≤ b.1 then some (.east, a) else some (.west, b)
  | some a, none => some (.east, a)
  | none, some b => some (.west, b)
  | none, none => none

/-- RING_TOPO_WINDOW (R257, R258, R276): after a reclose the port verifies by DISCOVER, then by ECHO, one frame a window, if it fits; otherwise
it has nothing to send. -/
def execRingTopoWindow (ring : Nat) (s : State) : Host.Outcome State Fault Refusal :=
  .next (s.onRing ring (fun s =>
    match s.topoNext ring with
    | none => s
    | some (x, w) =>
      let s := s.openWindow ring x w
      if s.xw ring ≠ .intact || s.windowBytes ring w.2 < frameBytes 8 then s
      else if (s.ringSt ring).verify then s.sendTopo ring x 0 0 (List.replicate 8 0#8)
      else s.verifyEcho ring x))

/-- The response buffer's registers (R287). -/
def State.showArsp (s : State) (r : Nat) : State := s.setFld Reg.xwArspStatCount (s.ringSt r).arsp.length (ringBase r)

/-- A reply for the response buffer: its header and body, as 8 and up to 248 bytes. -/
def State.asyncReply (s : State) (r : Nat) (f : AsyncFrame) : State :=
  let y := s.ringSt r
  if 16 ≤ y.arsp.length then s.incFld Reg.xwArspStatDropped (ringBase r)
  else
    let len := (f.body.length + 7) / 8
    let head := [0x40#8, BitVec.ofNat 8 (128 + 16 * r), BitVec.ofNat 8 f.node] ++ leBytes 2 f.cyc.toNat
      ++ leBytes 2 (len + 4096 * (f.sub % 16)) ++ [0#8]
    (s.setRing r { y with arsp := y.arsp ++ [(head ++ f.body).take 256] }).showArsp r

/-- A DESC_ACK: DISCOVER is complete when the last has come, unless the steps have failed (R269). -/
def State.descAck (s : State) (r n : Nat) : State :=
  let y := s.ringSt r
  if y.discFailed then s
  else
  let rest := y.acks.erase n
  s.setRing r { y with acks := rest, step := if y.step = .desc && rest.isEmpty then .done else y.step }

/-- RING_ASYNC_RECEIVE (R245, R251, R260). -/
def execRingAsyncReceive (rs : RingSide) (f : AsyncFrame) (s : State) : Host.Outcome State Fault Refusal :=
  .next (s.onRing rs.ring (fun s =>
    let r := rs.ring
    let x := s.role r rs.side
    (s.ringForward rs (.async f)).ringTake r x f.toRxHead (fun s =>
      if s.xw r = .pass then s
      else if !f.inWindow then s.ringStray r
      else match s.xw r with
        | .discover | .intact | .healed =>
          if f.sub = 6 then s.descAck r f.node
          else if f.sub = 2 || f.sub = 3 || f.sub = 4 || f.sub = 7 then s.asyncReply r f
          else s
        | _ => s)))

/-- The oldest reply freed. -/
def State.popArsp (s : State) (r : Nat) (data : Word) : State :=
  let y := s.ringSt r
  if !dataBit data 0 || y.arsp.isEmpty then s
  else
    let b := ringBase r
    ((s.setRing r { y with arsp := y.arsp.drop 1 }).setFld Reg.xwArspStatHead ((s.fld Reg.xwArspStatHead b + 1) % 16) b).showArsp r

/-- XW_ARSP_POP_WRITE (R287). -/
def execXwArspPopWrite (w : RegWrite) (s : State) : Host.Outcome State Fault Refusal :=
  .next (s.ownWrite w (decide (0x200000 ≤ w.off ∧ w.off < 0x280000 ∧ w.off % 0x10000 = 0x28))
    (fun s => s.popArsp ((w.off - 0x200000) / 0x10000) w.data))

/-- RING_TOPO_LOOP_RECEIVE (R253, R274). -/
def execRingTopoLoopReceive (rs : RingSide) (f : LoopFrame) (s : State) : Host.Outcome State Fault Refusal :=
  .next (s.onRing rs.ring (fun s =>
    let x := s.role rs.ring rs.side
    (s.ringForward rs (.loop f)).ringTake rs.ring x f.toRxHead (fun s => s.healEvidence rs.ring x (some f.addr))))

/-! ### Late-comers (R278 to R280) -/

/-- The slot a claim may have. -/
def State.claimSlot (s : State) (r : Nat) (f : ClaimFrame) : Option SlotDesc :=
  let ok := fun d : SlotDesc => d.spare && !d.granted && (f.any || d.node == f.addr) && decide (d.side = f.side) && d.hop == f.hop
    && decide (d.vendor = f.vendor) && decide (d.model = f.model) && (decide (d.serial = 0#32) || decide (d.serial = f.serial))
    && d.axes == f.axesM1 + 1
  (((s.ringSt r).slots.filter ok).mergeSort (fun a b => decide (a.node ≤ b.node))).head?

/-- A claim judged: the first of the cycle whose check value passes is the one that can win, and one that arrives while the port has
evidence of a break that takes effect at the next edge is lost (R278, R280). -/
def State.claim (s : State) (r : Nat) (f : ClaimFrame) : State :=
  let y := s.ringSt r
  let s := s.setRing r { y with claimed := true }
  let open_ := s.bit Reg.xwCtrlClaimEn (ringBase r) && s.xw r = .intact && !s.safeAll
  if y.claimed then s.showClaim r f.nonce f.addr 3
  else match if open_ then s.claimSlot r f else none with
    | none => s.showClaim r f.nonce f.addr 2
    | some d =>
      if y.evid.all HealEv.late then (s.setRing r { s.ringSt r with grant := some (d.node, f.nonce) }).showClaim r f.nonce d.node 1
      else s.showClaim r f.nonce f.addr 3

/-- RING_CLAIM_RECEIVE (R278, R280). -/
def execRingClaimReceive (rs : RingSide) (f : ClaimFrame) (s : State) : Host.Outcome State Fault Refusal :=
  .next (s.onRing rs.ring (fun s =>
    let x := s.role rs.ring rs.side
    (s.ringForward rs (.claim f)).ringTake rs.ring x f.toRxHead (fun s =>
      match s.xw rs.ring with
      | .pass | .off | .bypass => s
      | _ => if f.inWindow then s.claim rs.ring f else s.ringStray rs.ring)))

/-! ### Reclose (R276) -/

/-- Every loop-back end reports its dead port locked again. -/
def State.allFarLock (s : State) (r : Nat) : Bool :=
  let endOk := fun x : Side => match s.lb r x with
    | some n => (s.ringSt r).fresh.contains n && ((Tab.find (s.ringSt r).blocks n).map NodeBlock.farLock).getD false
    | none => s.ringLock r x
  endOk .east && endOk .west

/-- RING_RECLOSE_START (R276). -/
def execRingRecloseStart (ring : Nat) (s : State) : Host.Outcome State Fault Refusal :=
  .next (s.onRing ring (fun s =>
    let y := s.ringSt ring
    if s.xw ring = .healed && decide (256 ≤ y.farRun) && (s.bit Reg.xwCtrlAutoReclose (ringBase ring) || y.permit) && y.evid.isEmpty then
      s.setRing ring { y with reclosing := true }
    else s))

/-! ### Edge E at a port -/

/-- A port at edge E: evidence in force, a reclose whose CYCLE_START has left (`verify`), the end of DISCOVER, the far-lock count, and a fresh cycle (R269, R274, R276,
R279). -/
def State.ringEdge (s : State) (r : Nat) : State :=
  let far := s.xw r = .healed && s.allFarLock r
  let y := s.ringSt r
  let s := s.setRing r { y with farRun := if far then y.farRun + 1 else 0, fresh := [], dueE := false, dueW := false
                                sentE := false, sentW := false, claimed := false, used := [], launched := []
                                shown := y.blocks, shownAux := y.aux, blocks := [], aux := [], csSent := false
                                sentRun := if y.csSent then y.sentRun else 0
                                discFor := if s.xw r = .discover then y.discFor + 1 else 0
                                waited := if s.xw r = .discover && decide (y.step = .desc) then y.waited + 1 else 0 }
  let s := if y.reclosing && y.verify && s.xw r = .healed then
      (((s.setXw r .intact).setLb r .east none).setLb r .west none |>.incFld Reg.xwEvtRecloses (ringBase r)).setRing r
        { s.ringSt r with reclosing := false, permit := false, farRun := 0, verify := true, echoes := s.echoList r
                          evid := (s.ringSt r).evid.map (fun v => { v with late := false }) }
    else if s.xw r = .pass then s.passEdge r
    else s.healApply r
  if s.xw r = .discover then
    (if (s.ringSt r).step = .done then s.setXw r .intact
     else if (s.ringSt r).waited = 64 then s.discFail r
     else s)
  else s

/-! ### Commands (R287) -/

/-- Byte 0 names the ring; its other bits are reserved. -/
def CmdIn.ring (c : CmdIn) : Nat := c.p8 0 % 8
def ringAbsent (s : State) (c : CmdIn) : Bool := decide (s.ringCount ≤ c.ring)

/-- RING_STATUS_GET: XW_STAT, the node block, and the auxiliary words after it (log entry 55). -/
def nodeBlockBytes (b : NodeBlock) : List Byte :=
  leBytes 2 ((if b.loop then 32768 else 0) + (if b.farLock then 16384 else 0) + b.held.toNat) ++ leBytes 2 b.temp.toNat
    ++ wordBytes b.tErr ++ wordBytes b.cmdCycle ++ leBytes 2 b.lockLoss.toNat ++ leBytes 2 b.crcErr.toNat
def specRingStatusGet : CmdSpec :=
  { opcode := 0x0500, query := true, named := [(0, 2)], absent := ringAbsent
    bad := fun _ c => decide (8 ≤ c.p8 0 ∨ 16 ≤ c.p8 1)
    run := fun s c _ _ =>
      let y := s.ringSt c.ring
      let blk := match Tab.find y.shown (c.p8 1) with | some b => nodeBlockBytes b | none => List.replicate 16 0#8
      (s, .ofLong (wordBytes (s.reg (ringBase c.ring + 4)) ++ blk ++ bytesOfWords (Tab.get [] y.shownAux (c.p8 1)))) }

/-- RING_ASYNC_POST. -/
def specRingAsyncPost : CmdSpec :=
  { opcode := 0x0501, rank := 4, named := [(0, 40)], absent := ringAbsent
    bad := fun _ c => decide (8 ≤ c.p8 0) || !(c.p8 1 / 16 == 0 || c.p8 1 / 16 == 1 || c.p8 1 / 16 == 4) || decide (30 < c.p32 6)
    mode := fun s c => match s.xw c.ring with | .discover => false | .intact => false | .healed => false | _ => true
    busy := fun s c => decide (16 ≤ (s.ringSt c.ring).arsp.length)
    run := fun s c _ _ =>
      let y := s.ringSt c.ring
      let body := slice c.param 2 8 ++ slice c.param 10 (if c.p8 1 / 16 = 0 then 0 else c.p32 6)
      (s.setRing c.ring { y with asyncQ := y.asyncQ ++ [⟨c.p8 1 % 16, c.p8 1 / 16, 0, body⟩] }, {}) }

/-- RING_RESET_BCAST (R282). -/
def specRingResetBcast : CmdSpec :=
  { opcode := 0x0502, rank := 4, named := [(0, 2)], absent := ringAbsent
    bad := fun _ c => decide (8 ≤ c.p8 0 ∨ 4 ≤ c.p8 1)
    run := fun s c _ _ =>
      let body := leBytes 8 (c.p8 1)
      (match s.xw c.ring with
        | .discover | .intact | .healed => (s.sendTopo c.ring .east 3 0 body).sendTopo c.ring .west 3 0 body
        | _ => s, {}) }

/-- RING_CLAIM_SET. -/
def specRingClaimSet : CmdSpec :=
  { opcode := 0x0503, rank := 4, fenced := true, named := [(0, 2)], absent := ringAbsent
    bad := fun _ c => decide (8 ≤ c.p8 0 ∨ 2 ≤ c.p8 1)
    effect := fun s c _ => s.setFld Reg.xwCtrlClaimEn (c.p8 1 % 2) (ringBase c.ring) }

/-- RING_SLOT_RELEASE (R281). -/
def specRingSlotRelease : CmdSpec :=
  { opcode := 0x0504, rank := 4, fenced := true, named := [(0, 2)], absent := ringAbsent
    bad := fun s c => decide (8 ≤ c.p8 0 ∨ 16 ≤ c.p8 1) || !(((s.slot c.ring (c.p8 1)).map (fun d => d.spare && d.granted)).getD false)
    effect := fun s c _ =>
      let y := s.ringSt c.ring
      s.setRing c.ring { y with slots := y.slots.map (fun d => if d.node = c.p8 1 then { d with granted := false } else d) } }

/-- RING_RECLOSE (R276). -/
def specRingReclose : CmdSpec :=
  { opcode := 0x0505, rank := 2, named := [(0, 1)], absent := ringAbsent
    bad := fun _ c => decide (8 ≤ c.p8 0)
    mode := fun s c => decide (s.xw c.ring ≠ .healed)
    run := fun s c _ _ => (s.setRing c.ring { s.ringSt c.ring with permit := true }, {}) }

def execRingStatusGet (r : CmdReq) (s : State) : Host.Outcome State Fault Refusal := .next (s.command specRingStatusGet r)
def execRingAsyncPost (r : CmdReq) (s : State) : Host.Outcome State Fault Refusal := .next (s.command specRingAsyncPost r)
def execRingResetBcast (r : CmdReq) (s : State) : Host.Outcome State Fault Refusal := .next (s.command specRingResetBcast r)
def execRingClaimSet (r : CmdReq) (s : State) : Host.Outcome State Fault Refusal := .next (s.command specRingClaimSet r)
def execRingSlotRelease (r : CmdReq) (s : State) : Host.Outcome State Fault Refusal := .next (s.command specRingSlotRelease r)
def execRingReclose (r : CmdReq) (s : State) : Host.Outcome State Fault Refusal := .next (s.command specRingReclose r)

end Sys2Proof.Machine
end

