-- ==== Sys2Proof/Machine/Sched.lean ====
section
/-! DEFINITION. Madder's own rows (R137 to R154, R158 to R165): fences, dispatch, work items, delay lists, mailbox posts, the digest
latch, the replay controls, the SNAPSHOT command.
Log: DEDUCED 56, 57, 70, 71, 113. DESIGN CHOICE 58, 141, 184. -/

namespace Sys2Proof.Machine

/-! ### Fences (R139, R140) -/

/-- The instant of an operation's fence in the present cycle, in ns from edge E: the command launch instant of its loop group, and
else the cycle-end fence (R39, R139). -/
def State.fenceInstant (s : State) (d : OpDesc) : Int :=
  match if d.loop then d.group else none with
  | none => s.timing.tEnd
  | some g =>
    if g < 16 then (s.cmdInstant (g / 2) (if g % 2 = 0 then .east else .west)).getD s.timing.tEnd
    else s.timing.tCmd

/-- One cycle of an operation retired without running it (R139); the tokens of a cycle that still runs stay until its END (R140). -/
def State.retireCycle (s : State) (k : Nat) (d : OpDesc) (c : Word) : State :=
  let s := d.inputs.foldl (fun s p => s.popCycle p.2.queue c) s
  let s := d.outputs.foldl (fun s p => s.pushOut d c p.2.queue none false) s
  let s := s.setOp k { s.op k with next := c + 1#32, stamp := none }
  d.inputs.foldl (fun s p => s.trim p.2.queue) s

/-- Cycles from one on retired in turn. -/
def State.retireCycles (s : State) (k : Nat) (d : OpDesc) (c : Word) : Nat → State
  | 0 => s
  | n + 1 => State.retireCycles (s.retireCycle k d c) k d (c + 1#32) n

/-- An operation that has not started leaves the prefetch slot of its cell. -/
def State.unslot (s : State) (k : Nat) (d : OpDesc) : State :=
  if s.opSlotted k d then s.setCell d.cell { s.cell d.cell with slot := none } else s

/-- The running operation of a cell is late: holds go out for its cycle (R140). -/
def State.lateOp (s : State) (d : OpDesc) (r : RunCtx) : State :=
  let s := s.setCell d.cell { s.cell d.cell with run := some { r with late := true } }
  let s : State := { s with lsp := { s.lsp with lateOp := some r.cycle } }
  d.outputs.foldl (fun s p => s.pushOut d r.cycle p.2.queue none false) s

/-- The fence of a cycle passes for an operation (R139, R140). -/
def State.opFence (s : State) (c : Word) (e : Nat × OpDesc) : State :=
  let k := e.1
  let d := e.2
  let running := if s.opRuns k d then (s.cell d.cell).run else none
  let s := match running with
    | some r => if !r.late && cycGe c r.cycle then s.lateOp d r else s
    | none => s
  let o := (s.op k).next
  let first := match running with
    | some r => if cycLater o r.cycle then o else r.cycle + 1#32
    | none => o
  if cycGe c first then
    let s : State := { s with lsp := { s.lsp with lateOp := some c } }
    (s.unslot k d).retireCycles k d first ((c - first).toNat + 1)
  else s

/-- The fence of every operation. -/
def State.opFences (s : State) (c : Word) : State := (s.numberedOps.foldl (fun s e => s.opFence c e) s).note

/-- OPERATION_FENCE (R39, R139, R140). -/
def execOperationFence (op : Nat) (s : State) : Host.Outcome State Fault Refusal :=
  .next (if !s.graphsFire then s
    else if s.catchingUp && !s.lsp.loaded then s
    else match s.opDesc op with
      | none => s
      | some d =>
        let s := if s.liveGraphs then s.toInstant (s.fenceInstant d) else s
        (s.opFence s.madCycle (op, d)).note)

/-! ### Dispatch (R146 to R148) -/

/-- The cells of a pool. -/
def poolCells (d : WicDesc) : List Nat := (List.range 64).filter (fun k => d.pool.testBit k)

/-- A cell takes work. -/
def State.cellOpen (s : State) (n : Nat) : Bool := decide (n < s.cellCount) && !(s.cell n).inReset && !(s.cell n).halted

/-- The cell a ready work item goes to (R147). -/
def State.itemCell (s : State) (w : WorkItem) : Option Nat :=
  let pool := ((s.wic w.ch).map poolCells).getD []
  match pool.find? (fun n => s.cellOpen n && (s.cell n).run.isNone && (s.cell n).slot.isNone) with
  | some n => some n
  | none => pool.find? (fun n => s.cellOpen n && (s.cell n).slot.isNone)

/-- The place of a job in the order of R146: priority, then the order of becoming ready, then operations before items, then the
queue of its first input or its channel. -/
def State.jobKey (s : State) (r : Ready) : List Nat :=
  match r.job with
  | .op k => [r.prio, r.stamp, 0, (((s.opDesc k).bind (fun d => d.inputs.head?)).map (fun p => p.2.queue)).getD 0]
  | .item w => [r.prio, r.stamp, 1, w.ch]

/-- One list of numbers comes before another. -/
def lexLt : List Nat → List Nat → Bool
  | a :: r, b :: t => decide (a < b) || (decide (a = b) && lexLt r t)
  | _, _ => false

/-- The first of the jobs in the order of R146. -/
def State.firstJob (s : State) : List Ready → Option Ready
  | [] => none
  | r :: rest => match State.firstJob s rest with
    | some x => if lexLt (s.jobKey x) (s.jobKey r) then some x else some r
    | none => some r

/-- The jobs a cell may take: its ready operations, and the work items that R147 sends to it, or that find every slot of their pool
full and may displace a later one (log entry 57). -/
def State.jobsFor (s : State) (n : Nat) : List Ready :=
  let ops := s.numberedOps.filterMap (fun (e : Nat × OpDesc) =>
    match (s.op e.1).stamp with
    | some t => if e.2.cell = n && s.opReady e.1 e.2 then some ⟨.op e.1, e.2.prio, t⟩ else none
    | none => none)
  let items := s.mad.waiting.filter (fun r => match r.job with
    | .item w => (match s.itemCell w with
      | some c => c == n
      | none => ((s.wic w.ch).map (fun d => d.pool.testBit n)).getD false && (s.cell n).slot.isSome)
    | .op _ => false)
  ops ++ items

/-- A job taken from those that wait. -/
def State.takeJob (s : State) (r : Ready) : State := { s with mad := { s.mad with waiting := s.mad.waiting.erase r } }

/-- The job of a prefetch slot put back in its place. -/
def State.giveBack (s : State) (r : Ready) : State :=
  match r.job with
  | .op _ => s
  | .item _ => { s with mad := { s.mad with waiting := r :: s.mad.waiting } }

/-- A cell is served. -/
def State.dispatch (s : State) (n : Nat) : State :=
  match s.firstJob (s.jobsFor n) with
  | none => s
  | some r =>
    let c := s.cell n
    match c.run, c.slot with
    | none, none => ((s.takeJob r).start n r.job).note
    | _, none => ((s.takeJob r).setCell n { c with slot := some r }).note
    | _, some old =>
      if lexLt (s.jobKey r) (s.jobKey old) then (((s.takeJob r).giveBack old).setCell n { c with slot := some r }).note else s

/-- OPERATION_DISPATCH (R146 to R148). -/
def execOperationDispatch (cell : Nat) (s : State) : Host.Outcome State Fault Refusal :=
  .next (if s.awake && s.cellOpen cell then s.note.dispatch cell else s)

/-! ### Delay lists (R151) -/

/-- The first tick boundary of a region at or after a time in ns. -/
def State.tickAfter (s : State) (region : Nat) (ns : Nat) : Nat :=
  let tick := Nat.max 1 (s.fld Reg.madDlCfgTickNs (4 * region))
  let sec := ns / 1000000000
  let up := (ns % 1000000000 + tick - 1) / tick * tick
  if 1000000000 ≤ up then (sec + 1) * 1000000000 else sec * 1000000000 + up

/-- DELAY_LIST_EXPIRY (R151): the entries that expire at the next boundary at which one does. -/
def execDelayListExpiry (region : Nat) (s : State) : Host.Outcome State Fault Refusal :=
  .next (if !s.awake then s
    else match (s.delay region).ents with
      | [] => s
      | w :: _ =>
        let now := ((s.now16 + 65535) / 65536).toNat
        let t := s.tickAfter region (Nat.max w.expiry now)
        let s := s.advanceTo (ns16 t)
        let x := s.delay region
        let due := x.ents.takeWhile (fun w => decide (w.expiry ≤ t))
        due.foldl (fun s w => s.enqueue w) (s.setDelay region { x with ents := x.ents.drop due.length }))

/-! ### Work items (R143 to R149, R163) -/

/-- A work item of a channel. -/
def Ready.ofChan (r : Ready) (ch : Nat) : Bool := match r.job with | .item w => w.ch == ch | .op _ => false
def Ready.ofTag (r : Ready) (ch tag : Nat) : Bool := match r.job with | .item w => w.ch == ch && w.tag == tag | .op _ => false

/-- Items of a channel that wait, delay-list entries included; those that run or stand in prefetch slots. -/
def State.itemsWaiting (s : State) (ch : Nat) : Nat :=
  (s.mad.waiting.filter (fun r => r.ofChan ch)).length + ((s.delay (s.wicRegion ch)).ents.filter (fun w => w.ch == ch)).length
def State.itemsRunning (s : State) (ch : Nat) : Nat :=
  ((List.range s.cellCount).map (fun n =>
    let c := s.cell n
    let a := match c.run with | some r => (match r.job with | .item w => bitN (w.ch == ch) | .op _ => 0) | none => 0
    let b := match c.slot with | some r => bitN (r.ofChan ch) | none => 0
    a + b)).foldl (· + ·) 0

/-- Jobs of prefetch slots that satisfy a test leave them; the second part lists them. -/
def State.clearSlots (s : State) (f : Ready → Bool) : List Nat → State × List Ready
  | [] => (s, [])
  | n :: rest =>
    let c := s.cell n
    match c.slot with
    | some r =>
      if f r then
        let y := State.clearSlots (s.setCell n { c with slot := none }) f rest
        (y.1, r :: y.2)
      else State.clearSlots s f rest
    | none => State.clearSlots s f rest

/-- Jobs in rising order of their stamps. -/
def byStamp (l : List Ready) : List Ready := l.mergeSort (fun a b => decide (a.stamp ≤ b.stamp))

/-- A channel's priority written (R149): its waiting items go to the tail of the new level. -/
def State.setPrio (s : State) (ch prio : Nat) : State :=
  if (s.chan ch).prio = prio then s
  else
    let s := s.setChan ch { s.chan ch with prio := prio }
    let x := s.clearSlots (fun r => r.ofChan ch) (List.range s.cellCount)
    let moved := byStamp (s.mad.waiting.filter (fun r => r.ofChan ch) ++ x.2)
    let keep := s.mad.waiting.filter (fun r => !r.ofChan ch)
    let s := x.1
    let fresh := ((List.range moved.length).zip moved).map (fun (e : Nat × Ready) => { e.2 with prio := prio, stamp := s.mad.stamp + e.1 })
    { s with mad := { s.mad with waiting := keep ++ fresh, stamp := s.mad.stamp + moved.length } }

/-- The owner of a channel is the host. -/
def State.hostOwned (s : State) (ch : Nat) : Bool := ((s.wic ch).map (fun d => d.owner == 3)).getD false

/-- MAD_WIC_PRIO_WRITE (R149). -/
def execMadWicPrioWrite (w : RegWrite) (s : State) : Host.Outcome State Fault Refusal :=
  .next (s.ownWrite w (w.off == 0x100034) (fun s =>
    let ch := s.fld Reg.madWicSelChannel
    if s.hostOwned ch then s.setPrio ch (bitsOf w.data.toNat 10 8) else s))

/-- Every item of a channel with a tag cancelled (R149): those that wait, in a list, a slot or a delay list, retire with CANCELLED; a
running one completes. The result of the cancel is kept. -/
def State.cancel (s : State) (ch tag : Nat) : State :=
  let region := s.wicRegion ch
  let mine := fun w : WorkItem => w.ch == ch && w.tag == tag
  let waits := (s.mad.waiting.filter (fun r => r.ofTag ch tag)).length
  let delays := ((s.delay region).ents.filter mine).length
  let x := s.clearSlots (fun r => r.ofTag ch tag) (List.range s.cellCount)
  let runs := (List.range s.cellCount).any (fun n => match (s.cell n).run with
    | some r => (match r.job with | .item w => mine w | .op _ => false)
    | none => false)
  let n := waits + delays + x.2.length
  let s := x.1
  let s : State := { s with mad := { s.mad with waiting := s.mad.waiting.filter (fun r => !r.ofTag ch tag) } }
  let s := s.setDelay region { s.delay region with ents := (s.delay region).ents.filter (fun w => !mine w) }
  let c := s.chan ch
  let rec_ : ComplRec := ⟨tag, 0, 8, 0#32, s.nowNs, 0⟩
  let k := if s.recordsDown ch then 0 else n
  (s.setChan ch { c with compl := c.compl ++ List.replicate k rec_, lastCancel := if 0 < n then 0 else if runs then 1 else 2 }).layCompl ch k

/-- MAD_WIC_CANCEL_WRITE (R149). -/
def execMadWicCancelWrite (w : RegWrite) (s : State) : Host.Outcome State Fault Refusal :=
  .next (s.ownWrite w (w.off == 0x100044) (fun s => s.cancel (bitsOf w.data.toNat 21 16) (bitsOf w.data.toNat 15 0)))

/-- The work item of a descriptor (R144). -/
def itemOf (ch : Nat) (bs : List Byte) (expiry : Nat) : WorkItem :=
  { ch := ch, tag := numAt bs 2 2, entry := numAt bs 0 2 % 16384, p0 := BitVec.ofNat 16 (numAt bs 4 2), p1 := BitVec.ofNat 16 (numAt bs 6 2)
    p2 := BitVec.ofNat 16 (numAt bs 8 2), p3 := BitVec.ofNat 16 (numAt bs 10 2), period := numAt bs 20 8, expiry := expiry }

/-- The time value in whole nanoseconds. -/
def State.nowTotalNs (s : State) : Nat := s.time.s.toNat * 1000000000 + s.time.ns.toNat

/-- The descriptor of WORK_SUBMIT. -/
def CmdIn.desc (c : CmdIn) : List Byte := slice c.param 4 32

/-- A descriptor placed in the next slot of its channel's WORK queue (R130, R144). -/
def State.layWork (s : State) (ch : Nat) (bs : List Byte) : State :=
  let c := s.chan ch
  let s := s.setChan ch { c with workWr := c.workWr + 1 }
  match (s.wic ch).bind (fun w => w.workQ.map (fun q => (q, w.depth))) with
  | none => s
  | some (q, depth) => match s.qdesc q with
    | some d => if s.blockDown (blockOfQueue q) then s else s.fillSlot { d with depth := depth } c.workWr bs
    | none => s

/-- A work item submitted (R130, R151, R163); the instant of submission counts as the expiry of one without a delay (log entry 184). -/
def State.submit (s : State) (ch : Nat) (bs : List Byte) : State :=
  let delay := numAt bs 12 8
  let w := itemOf ch bs (s.nowTotalNs + delay)
  let s := s.layWork ch bs
  if delay = 0 then s.enqueue w else (s.delayInsert w).1

/-- WORK_SUBMIT (R163). A channel's submission slots are held by the items that wait (log entry 56). -/
def specWorkSubmit : CmdSpec :=
  { opcode := 0x0D10, rank := 2, named := [(0, 1), (4, 32)]
    bad := fun s c => !s.hostOwned (c.p8 0) || decide (numAt c.desc 0 2 / 16384 ≠ 0) || decide (numAt c.desc 28 4 ≠ 0)
    mode := fun s _ => decide (s.mode = .configure ∨ s.mode = .boot ∨ s.mode = .fault)
    busy := fun s c =>
      decide (((s.wic (c.p8 0)).map WicDesc.depth).getD 0 ≤ s.itemsWaiting (c.p8 0))
        || (decide (numAt c.desc 12 8 ≠ 0) && decide (1024 ≤ (s.delay (s.wicRegion (c.p8 0))).ents.length))
    run := fun s c _ _ => (s.submit (c.p8 0) c.desc, {}) }

/-- WORK_CANCEL (R163). -/
def specWorkCancel : CmdSpec :=
  { opcode := 0x0D11, rank := 2, named := [(0, 1), (2, 2)]
    bad := fun s c => !s.hostOwned (c.p8 0)
    run := fun s c _ _ =>
      let s := s.cancel (c.p8 0) (c.p16 2)
      (s, { data := [BitVec.ofNat 8 (s.chan (c.p8 0)).lastCancel] }) }

/-- WORK_COMPL_READ (R163). -/
def specWorkComplRead : CmdSpec :=
  { opcode := 0x0D12, rank := 2, query := true, named := [(0, 2)]
    bad := fun s c => !s.hostOwned (c.p8 0) || decide (c.p8 1 = 0 ∨ 16 < c.p8 1)
    run := fun s c _ _ =>
      let x := s.chan (c.p8 0)
      let rest := x.compl.drop (c.p8 1)
      (s.setChan (c.p8 0) { x with compl := rest }, { long := (x.compl.take (c.p8 1)).flatMap ComplRec.bytes, data := leBytes 2 rest.length }) }

def execWorkSubmit (r : CmdReq) (s : State) : Host.Outcome State Fault Refusal := .next (s.command specWorkSubmit r)
def execWorkCancel (r : CmdReq) (s : State) : Host.Outcome State Fault Refusal := .next (s.command specWorkCancel r)
def execWorkComplRead (r : CmdReq) (s : State) : Host.Outcome State Fault Refusal := .next (s.command specWorkComplRead r)

/-! ### Mailboxes (R152, R153, R164) -/

/-- Words of a mailbox's value. -/
def State.mailLen (s : State) (q : Nat) : Nat := ((s.qdesc q).map (fun d => d.words - 1)).getD 0

/-- The value a post starts from (R164). -/
def State.mailBase (s : State) (q : Nat) (a : Word) : List Word :=
  let x := s.queue q
  match (x.posts.filter (fun (p : Post) => decide (p.apply = a))).getLast? with
  | some p => p.words
  | none => (x.lastVal.map Post.words).getD (List.replicate (s.mailLen q) 0#32)

/-- Words replaced from a place on. -/
def putWords (base : List Word) (at_ : Nat) (ws : List Word) : List Word :=
  base.take at_ ++ ws ++ base.drop (at_ + ws.length)

/-- A post placed among the pending entries; while no edges run it is in effect at once (R376). A block held in reset discards it
(R29). -/
def State.post (s : State) (q : Nat) (a : Word) (ws : List Word) : State :=
  if s.blockDown (blockOfQueue q) then s
  else if s.edgesRun then s.setQueue q { s.queue q with posts := (s.queue q).posts ++ [⟨a, ws⟩] }
  else s.setQueue q { s.queue q with lastVal := some ⟨a, ws⟩ }

/-- The pending entries are all in use. -/
def State.mailFull (s : State) (q : Nat) : Bool := decide (8 ≤ (s.queue q).posts.length)

/-- A post turned away, counted (R142, R153). -/
def State.postRefused (s : State) (q : Nat) (status : Nat) : State :=
  let x := s.queue q
  if status = 0x0B then s.setQueue q { x with mbLate := satAdd x.mbLate 1 255 }
  else if status = 1 && s.mailFull q then s.setQueue q { x with refused := satAdd x.refused 1 255 }
  else s

/-- A mailbox that the image declares host-postable. -/
def State.postable (s : State) (q : Nat) : Bool := ((s.qdesc q).map (fun d => d.kind == 3 && d.hostPost)).getD false

/-- MAILBOX_POST (R163, R164). -/
def specMailboxPost : CmdSpec :=
  { opcode := 0x0D13, rank := 2, fenced := true, post := true, named := [(0, 36)]
    absent := fun s c => decide (s.queueCount ≤ c.p16 0 ∧ c.p16 0 < 8192)
    bad := fun s c => decide (8192 ≤ c.p16 0) || !s.postable (c.p16 0) || decide (15 < c.p8 2) || decide (c.p8 3 = 0 ∨ 8 < c.p8 3)
      || decide (s.mailLen (c.p16 0) < c.p8 2 + c.p8 3)
    mode := fun s _ => !s.graphsFire
    busy := fun s c => s.mailFull (c.p16 0)
    effect := fun s c a => s.post (c.p16 0) a (putWords (s.mailBase (c.p16 0) a) (c.p8 2) (wordsOfBytes (slice c.param 4 (4 * c.p8 3)) (c.p8 3)))
    turned := fun s c st => s.postRefused (c.p16 0) st }

def execMailboxPost (r : CmdReq) (s : State) : Host.Outcome State Fault Refusal := .next (s.command specMailboxPost r)

/-- The failure of a work item's post, in its run or in the record of its end (R145, R154; log entry 58). -/
def State.postFailed (s : State) (p : ItemPost) (status : Nat) : State :=
  let mine := fun (r : RunCtx) => match r.job with | .item w => w.ch == p.ch && w.tag == p.tag | .op _ => false
  match (List.range s.cellCount).find? (fun n => ((s.cell n).run.map mine).getD false) with
  | some n =>
    let c := s.cell n
    s.setCell n { c with run := c.run.map (fun (r : RunCtx) => if r.status = 0 then { r with status := status } else r) }
  | none =>
    let x := s.chan p.ch
    let rev := x.compl.reverse
    let old := rev.takeWhile (fun r => r.tag != p.tag)
    match rev.drop old.length with
    | [] => s
    | r :: rest =>
      (s.setChan p.ch { x with compl := (old ++ (if r.status = 0 then { r with status := status } else r) :: rest).reverse }).layCompl p.ch 0

/-- The entries of a work item's post, each a MAILBOX_POST of at most 8 words at the same cycle: under R164 they form the whole value
(log entry 71). -/
def postCmds (w : Waiting) (p : ItemPost) : List CmdIn :=
  (List.range ((p.post.words.length + 7) / 8)).map (fun i =>
    let ws := (p.post.words.drop (8 * i)).take 8
    { w.cmd with param := leBytes 2 p.queue ++ [BitVec.ofNat 8 (8 * i), BitVec.ofNat 8 ws.length] ++ bytesOfWords ws })

/-- A work item's post taken by the command processor (R153, R154); a standby takes none of its own (R431), which is a refusal of the
post (R145). -/
def State.takeItemPost (s : State) (w : Waiting) (p : ItemPost) : State :=
  let status := if s.mode = .standby then 1 else if s.lateFor p.post.apply then 0x0B
    else if s.mailFull p.queue || s.lagBusy || !s.jnlOpen then 1 else 0
  if status ≠ 0 then (s.postRefused p.queue status).postFailed p status
  else ((postCmds w p).foldl (fun s c => s.journalCmd c p.post.apply) s).post p.queue p.post.apply p.post.words

/-! ### The digest latch (R158) -/

/-- MAD_DIGEST_CYCLE_READ: the words of the same digest are latched until both have been read. -/
def execMadDigestCycleRead (r : RegRead) (s : State) : Host.Outcome State Fault Refusal :=
  .next (if !s.awake || r.off ≠ 0x100090 then s
    else
      let t := { s with mad := { s.mad with digLatch := some s.mad.digest, digReadLo := false, digReadHi := false } }
      let y := t.unsure r.off t.mad.digestCycle
      y.1.emit (.readData r.fn r.off y.2))

/-! ### Replay controls (R159, R160) -/

/-- What a write of MAD_REPLAY_CTRL does in COMMISSION. -/
def State.replayCtrl (s : State) (data : Word) : State :=
  if s.mode ≠ .commission then s
  else
    let s := s.storeReg 0x1000A0 data
    let s : State := if dataBit data 4 && s.mad.replay.running then
        { s with mad := { s.mad with replay := { s.mad.replay with abort := true } } } else s
    let begin_ := fun (s : State) (step : Bool) =>
      ({ s with mad := { s.mad with replay := { running := true, stepping := step, go := step } } }.setFld Reg.madReplayStatState 1).setFld
        Reg.madReplayStatBufError 0
    if dataBit data 0 then begin_ s false
    else if dataBit data 1 then
      (if s.mad.replay.running then { s with mad := { s.mad with replay := { s.mad.replay with stepping := true, go := true } } }
       else begin_ s true)
    else s

/-- REPLAY_START, REPLAY_STEP, REPLAY_ABORT (R159, R160): a write of MAD_REPLAY_CTRL with the row's bit set. -/
def execReplayStart (w : RegWrite) (s : State) : Host.Outcome State Fault Refusal :=
  .next (s.ownWrite w (w.off == 0x1000A0 && dataBit w.data 0) (fun s => s.replayCtrl w.data))
def execReplayStep (w : RegWrite) (s : State) : Host.Outcome State Fault Refusal :=
  .next (s.ownWrite w (w.off == 0x1000A0 && dataBit w.data 1) (fun s => s.replayCtrl w.data))
def execReplayAbort (w : RegWrite) (s : State) : Host.Outcome State Fault Refusal :=
  .next (s.ownWrite w (w.off == 0x1000A0 && dataBit w.data 4) (fun s => s.replayCtrl w.data))

/-! ### SNAPSHOT (R40, R163, R165) -/

/-- The size of a snapshot, fixed by the image. -/
def State.snapSize (s : State) : Nat :=
  72 + s.copySize + ((s.qdescs.filter (fun d => d.kind == 1)).map (fun d => 16 + 4 * d.words)).foldl (· + ·) 0

/-- Its bytes as the fence of its cycle leaves them. -/
def State.snapBytes (s : State) (x : SnapSt) : List Byte :=
  let part := bytesOfWords s.copyWords
  let recs := (s.mad.samples.filter (fun (r : TokenRec) => decide (r.tok.cycle = x.cycle))).mergeSort (fun a b => decide (a.queue ≤ b.queue))
  let samples := recs.flatMap (fun (r : TokenRec) => recBytes r.queue r.tok)
  let head := leBytes 4 0x72565350 ++ wordBytes x.cycle ++ leBytes 8 ((s.image.map Image.check).getD 0#64).toNat ++ leBytes 4 part.length
    ++ leBytes 4 samples.length ++ leBytes 8 x.seq ++ List.replicate 28 0#8
  head ++ leBytes 4 (crc32c head) ++ part ++ samples ++ leBytes 8 (crc64 (part ++ samples))

/-- The snapshot under way. -/
def State.setSnap (s : State) (x : Option SnapSt) : State := { s with mad := { s.mad with snap := x } }

/-- SNAPSHOT. -/
def specSnapshot : CmdSpec :=
  { opcode := 0x0D14, rank := 4, fenced := true, later := true, named := [(0, 12)]
    bad := fun s c => decide (c.p64 0 % 64 ≠ 0) || decide (c.p32 8 < s.snapSize)
    mode := fun s _ => !s.graphsFire
    busy := fun s _ => s.mad.snap.isSome || s.host.fenced.any (fun f => f.cmd.opcode == 0x0D14)
    effect := fun s c a => s.setSnap (some { seq := ((s.resultOf 0x0D14).map Prod.fst).getD 0, cycle := a, addr := c.p64 0 })
    why := fun s c st => if st = 3 && (decide (c.p64 0 % 64 ≠ 0) || decide (c.p32 8 < s.snapSize)) then leBytes 4 s.snapSize else [] }

def execSnapshot (r : CmdReq) (s : State) : Host.Outcome State Fault Refusal := .next (s.command specSnapshot r)

/-- SNAPSHOT_COMPLETE (R163, R165): written, or TIMEOUT. -/
def execSnapshotComplete (ok : Bool) (s : State) : Host.Outcome State Fault Refusal :=
  .next (match s.mad.snap, s.resultOf 0x0D14 with
    | some x, some c =>
      (match x.bytes with
        | none => s
        | some bs =>
          let s := s.setSnap none
          if ok then (s.emit (.hostWrite x.addr bs)).finish c 0 {} else s.finish c 9 {})
    | _, _ => s)

end Sys2Proof.Machine
end

