-- ==== Sys2Proof/Machine/Drive.lean ====
section
/-! DEFINITION. The axis and motion commands (R205 to R207, R235 to R237) and the ranges of the parameter words (R537).
Log: DEDUCED 59, 60. DESIGN CHOICE 221. -/

namespace Sys2Proof.Machine

/-! ### Parameter blocks (R207, R235, R537) -/

/-- The parameter words of an axis as proposed, for a control period. -/
structure ParamBlock where
  t : Word
  words : List (Nat × Word)
deriving DecidableEq, Repr

namespace ParamBlock
def raw (b : ParamBlock) (k : Nat) : Nat := (Tab.get 0#32 b.words k).toNat
def fp (b : ParamBlock) (k : Nat) : Word := Fp.canon (Tab.get 0#32 b.words k)
/-- A raw word within bounds. -/
def rawIn (b : ParamBlock) (k lo hi : Nat) : Bool := decide (lo ≤ b.raw k ∧ b.raw k ≤ hi)
/-- An FP32 word within bounds; above 0. -/
def within (b : ParamBlock) (k : Nat) (lo hi : Word) : Bool := Fp.le lo (b.fp k) && Fp.le (b.fp k) hi
def above0 (b : ParamBlock) (k : Nat) : Bool := Fp.lt 0#32 (b.fp k)
/-- One word below another, or not above it. -/
def lt (b : ParamBlock) (j k : Nat) : Bool := Fp.lt (b.fp j) (b.fp k)
def le (b : ParamBlock) (j k : Nat) : Bool := Fp.le (b.fp j) (b.fp k)
def stepper (b : ParamBlock) : Bool := bitsOf (b.raw 0) 1 0 == 2
/-- k_c of the block (R212). -/
def kc (b : ParamBlock) : Word :=
  Fp.mul (Fp.ofInt ((if b.stepper then 256 * b.raw 88 else b.raw 2 : Nat) : Int)) Fp.kInv2Pi
end ParamBlock

/-- A range or ordering of the parameter words, with the words it names. -/
structure ParamRule where
  names : List Nat
  ok : ParamBlock → Bool

/-- A decimal bound (R537). -/
def dec0 : Word := 0#32
def dec1e4 : Word := Fp.dec 10000 1

/-- The ranges and orderings of words 0 to 28 (R207). -/
def paramRules1 : List ParamRule :=
  [ ⟨[0], fun b => decide (b.raw 0 < 128) && decide (bitsOf (b.raw 0) 1 0 ≠ 3) && decide (bitsOf (b.raw 0) 3 2 ≠ 3)⟩,
    ⟨[1], fun b => b.rawIn 1 1 64⟩,
    ⟨[2], fun b => b.rawIn 2 4 (2 ^ 31)⟩,
    ⟨[3], fun b => b.within 3 (Fp.flip Fp.kPi) Fp.kPi⟩,
    ⟨[4], fun b => b.above0 4⟩,
    ⟨[5], fun b => b.within 5 (Fp.dec (-32768) 1) (Fp.dec 32767 1)⟩,
    ⟨[6], fun b => b.within 6 (Fp.dec (-32768) 1) (Fp.dec 32767 1)⟩,
    ⟨[7], fun b => b.within 7 (Fp.dec (-32768) 1) (Fp.dec 32767 1)⟩,
    ⟨[8], fun b => b.above0 8⟩,
    ⟨[9], fun b => b.within 9 dec0 (Fp.dec 100 1)⟩,
    ⟨[10], fun b => b.within 10 (Fp.dec 1 1000000) Fp.one⟩,
    ⟨[11], fun b => b.within 11 (Fp.dec 1 1000000) Fp.one⟩,
    ⟨[12], fun b => b.within 12 dec0 (Fp.dec 10 1)⟩,
    ⟨[13], fun b => b.within 13 dec0 dec1e4⟩,
    ⟨[14], fun b => b.within 14 dec0 dec1e4⟩,
    ⟨[15], fun b => b.within 15 Fp.half Fp.one⟩,
    ⟨[16], fun b => b.within 16 (Fp.dec 16 1) Fp.k65535⟩,
    ⟨[17], fun b => b.within 17 dec0 (Fp.mul Fp.two b.t)⟩,
    ⟨[18], fun b => b.above0 18⟩,
    ⟨[18, 19], fun b => b.le 18 19⟩,
    ⟨[20], fun b => b.within 20 dec0 (Fp.dec 10 1)⟩,
    ⟨[19, 21], fun b => b.lt 19 21⟩,
    ⟨[22, 24], fun b => b.lt 22 24⟩,
    ⟨[24, 25], fun b => b.lt 24 25⟩,
    ⟨[25, 23], fun b => b.le 25 23⟩,
    ⟨[28, 26], fun b => b.lt 28 26⟩,
    ⟨[26, 27], fun b => b.lt 26 27⟩,
    ⟨[27, 23], fun b => b.le 27 23⟩ ]

/-- Of words 29 to 50 (R207). -/
def paramRules2 : List ParamRule :=
  [ ⟨[29], fun b => b.above0 29⟩,
    ⟨[30], fun b => b.above0 30⟩,
    ⟨[31], fun b => b.above0 31⟩,
    ⟨[32], fun b => b.rawIn 32 16 65535⟩,
    ⟨[33, 22], fun b => b.within 33 dec0 (Fp.div (Fp.mul (b.fp 22) Fp.kR3) Fp.two)⟩,
    ⟨[34], fun b => Fp.le dec0 (b.fp 34)⟩,
    ⟨[34, 35], fun b => b.lt 34 35⟩,
    ⟨[36], fun b => b.within 36 (Fp.dec 10 1) (Fp.div (Fp.mul (Fp.dec 2 10) Fp.k2Pi) b.t)⟩,
    ⟨[37, 18], fun b => b.within 37 dec0 (b.fp 18)⟩,
    ⟨[38], fun b => b.rawIn 38 1 65535⟩,
    ⟨[39], fun b => b.above0 39⟩,
    ⟨[39, 40], fun b => b.le 39 40⟩,
    ⟨[41], fun b => b.above0 41⟩,
    ⟨[42], fun b => b.within 42 (Fp.dec 5 100) Fp.one⟩,
    ⟨[43], fun b => b.above0 43⟩,
    ⟨[44], fun b => b.rawIn 44 2 64⟩,
    ⟨[45, 16], fun b => b.within 45 Fp.two (Fp.div (b.fp 16) (Fp.dec 4 1))⟩,
    ⟨[46, 45], fun b => b.within 46 Fp.one (Fp.sub (b.fp 45) Fp.one)⟩,
    ⟨[47], fun b => b.within 47 dec0 b.t⟩,
    ⟨[48], fun b => b.rawIn 48 1 255⟩,
    ⟨[49], fun b => decide (b.raw 49 < 8)⟩,
    ⟨[50], fun b => b.within 50 dec0 Fp.one⟩ ]

/-- Of words 64 to 91 (R227, R235). -/
def paramRules3 : List ParamRule :=
  [ ⟨[64], fun b => decide (b.raw 64 < 64) && decide (bitsOf (b.raw 64) 4 3 ≠ 3)
      && !(b.stepper && (bitsOf (b.raw 64) 1 1 == 1 || bitsOf (b.raw 64) 5 5 == 1))⟩,
    ⟨[65], fun b => b.within 65 dec0 dec1e4⟩,
    ⟨[66], fun b => b.within 66 dec0 dec1e4⟩,
    ⟨[67], fun b => b.within 67 dec0 (Fp.dec 10 1)⟩,
    ⟨[68], fun b => b.within 68 dec0 dec1e4⟩,
    ⟨[69, 18], fun b => b.within 69 (Fp.flip (b.fp 18)) dec0⟩,
    ⟨[70], fun b => b.above0 70⟩,
    ⟨[70, 88], fun b => !b.stepper || Fp.le (Fp.mul (Fp.mul (b.fp 70) b.kc) b.t) (Fp.dec 128 1)⟩,
    ⟨[71], fun b => b.above0 71⟩,
    ⟨[72], fun b => b.above0 72⟩,
    ⟨[73], fun b => b.above0 73⟩,
    ⟨[74], fun b => b.rawIn 74 0 65535⟩,
    ⟨[75], fun b => b.rawIn 75 2 4096⟩,
    ⟨[76, 75], fun b => decide (b.raw 76 < b.raw 75)⟩,
    ⟨[77], fun b => b.within 77 dec0 dec1e4⟩,
    ⟨[78], fun b => b.within 78 (Fp.dec 9 10) Fp.one⟩,
    ⟨[79, 18], fun b => b.within 79 dec0 (b.fp 18)⟩,
    ⟨[80], fun b => b.above0 80⟩,
    ⟨[81], fun b => b.above0 81⟩,
    ⟨[82], fun b => Fp.le dec0 (b.fp 82)⟩,
    ⟨[83], fun b => b.within 83 dec0 Fp.one⟩,
    ⟨[84], fun b => b.above0 84⟩,
    ⟨[84, 85], fun b => b.lt 84 85⟩,
    ⟨[86], fun b => b.rawIn 86 1 65535⟩,
    ⟨[87], fun b => b.rawIn 87 1 2147483647⟩,
    ⟨[88], fun b => b.rawIn 88 4 65535⟩,
    ⟨[89, 18], fun b => b.within 89 dec0 (b.fp 18)⟩,
    ⟨[90, 89], fun b => b.within 90 dec0 (b.fp 89)⟩,
    ⟨[91], fun b => b.rawIn 91 1 65535⟩ ]

/-- Every rule that names a word holds of a block, those of other words that it bounds among them (log entry 221). -/
def ParamBlock.okFor (b : ParamBlock) (k : Nat) : Bool :=
  (paramRules1 ++ paramRules2 ++ paramRules3).all (fun r => !r.names.contains k || r.ok b)

/-- The locked words (R207, R235). -/
def lockedWord (k : Nat) : Bool := [0, 1, 2, 16, 45, 46, 49, 75, 88].contains k

/-! ### Axes in commands -/

/-- The axis a command names (R205), and the presence of its axis (R167). -/
def CmdIn.axis (c : CmdIn) : Nat := c.p16 0 % 512
def axisAbsent (s : State) (c : CmdIn) : Bool := decide (c.axis < 256 ∧ 32 * s.ringCount ≤ c.axis)

/-- Reserved bits, or an axis that the image does not configure. -/
def axisBad (s : State) (c : CmdIn) : Bool := decide (512 ≤ c.p16 0) || (s.axisCfg c.axis).isNone

/-- An axis as the last cycle-end fence left it; as it stands while no edges run. -/
def State.shown (s : State) (a : Nat) : AxisSt := if s.edgesRun then Tab.get {} s.axShown a else s.axis a
def State.shownCycle (s : State) : Word := if s.edgesRun then s.axCycle else s.cycle

/-- The cycle-fenced parameter writes of an axis that wait, in the order in which they will apply. -/
def State.pendingParams (s : State) (a : Nat) : List (Nat × Word) :=
  ((s.host.fenced.filter (fun (f : Fenced) => (f.cmd.opcode == 0x0301 || f.cmd.opcode == 0x0401) && f.cmd.axis == a)).mergeSort
    (fun f g => decide ((f.cycle - s.cycle).toNat ≤ (g.cycle - s.cycle).toNat))).map (fun f => (f.cmd.p16 2, f.cmd.pw 4))

/-- The block that a value is judged against, the value in it (R205, R537). -/
def State.proposed (s : State) (a k : Nat) (v : Word) : ParamBlock :=
  let ws := (s.pendingParams a).foldl (fun t e => Tab.put 0#32 t e.1 e.2) (s.axis a).params
  ⟨s.kT, Tab.put 0#32 ws k v⟩

/-- A parameter write is bad: its word, its value, or the bridge field of word 0. -/
def paramBad (s : State) (c : CmdIn) (lo hi : Nat) : Bool :=
  axisBad s c || decide (c.p16 2 < lo ∨ hi < c.p16 2) || !(s.proposed c.axis (c.p16 2) (c.pw 4)).okFor (c.p16 2)
    || (c.p16 2 == 0 && decide (bitsOf (c.pw 4).toNat 1 0
        ≠ bitsOf (wordAt (((s.axisCfg c.axis).map AxisCfg.params).getD []) 0).toNat 1 0))

/-- Locked words are written in CONFIGURE and COMMISSION alone (R207; log entry 59). -/
def paramLocked (s : State) (c : CmdIn) : Bool := lockedWord (c.p16 2) && decide (s.mode ≠ .configure ∧ s.mode ≠ .commission)

/-- A parameter word written. -/
def AxisSt.setParam (x : AxisSt) (k : Nat) (v : Word) : AxisSt := { x with params := Tab.put 0#32 x.params k v }
def State.writeParam (s : State) (c : CmdIn) : State := s.setAxis c.axis ((s.axis c.axis).setParam (c.p16 2) (c.pw 4))

/-! ### Axis commands (R205) -/

/-- The mode can be asked of the axis's kind. -/
def modeFits (x : AxisSt) (m : Nat) : Bool := if x.stepper then m == 0 || m == 6 else m != 6

/-- AXIS_MODE_SET. -/
def specAxisModeSet : CmdSpec :=
  { opcode := 0x0300, rank := 2, fenced := true, post := true, named := [(0, 4)], absent := axisAbsent
    bad := fun s c => axisBad s c || decide (6 < c.p8 2) || (if c.p8 2 = 1 then decide (c.p8 3 < 2 ∨ 4 < c.p8 3) else c.p8 3 != 0)
      || !modeFits (s.axis c.axis) (c.p8 2)
    busy := fun s c => s.mailFull (((s.axisCfg c.axis).map AxisCfg.modeMb).getD 0)
    effect := fun s c a => match s.axisCfg c.axis with
      | some g => s.post g.modeMb a [BitVec.ofNat 32 (c.p8 2), BitVec.ofNat 32 (c.p8 3)]
      | none => s
    turned := fun s c st => match s.axisCfg c.axis with
      | some g => s.postRefused g.modeMb st
      | none => s }

/-- AXIS_PARAM_SET. -/
def specAxisParamSet : CmdSpec :=
  { opcode := 0x0301, rank := 4, fenced := true, named := [(0, 8)], absent := axisAbsent
    bad := fun s c => paramBad s c 0 50
    mode := paramLocked
    effect := fun s c _ => s.writeParam c }

/-- AXIS_PARAM_GET. -/
def specAxisParamGet : CmdSpec :=
  { opcode := 0x0302, query := true, named := [(0, 4)], absent := axisAbsent
    bad := fun s c => axisBad s c || decide (50 < c.p16 2)
    cyc := State.shownCycle
    run := fun s c _ _ => (s, .of (wordBytes (Tab.get 0#32 (s.shown c.axis).params (c.p16 2)))) }

/-- AXIS_STATUS_GET: the record of R206, 16 bytes. -/
def specAxisStatusGet : CmdSpec :=
  { opcode := 0x0303, query := true, named := [(0, 2)], absent := axisAbsent, bad := axisBad
    cyc := State.shownCycle
    run := fun s c _ _ => (s, .of (bytesOfWords (s.shown c.axis).statusRec)) }

/-- AXIS_RESET (R176, R205). -/
def specAxisReset : CmdSpec :=
  { opcode := 0x0304, rank := 2, fenced := true, named := [(0, 2)], absent := axisAbsent, bad := axisBad
    mode := fun s _ => decide (s.mode = .safeHold ∨ s.mode = .fault)
    effect := fun s c a => s.setAxis c.axis ((s.axis c.axis).reset a) }

/-- AXIS_CUR_REF. -/
def specAxisCurRef : CmdSpec :=
  { opcode := 0x0305, rank := 2, fenced := true, post := true, named := [(0, 2), (4, 8)], absent := axisAbsent
    bad := fun s c => axisBad s c || ((s.axisCfg c.axis).bind AxisCfg.curMb).isNone
    busy := fun s c => ((((s.axisCfg c.axis).bind AxisCfg.curMb).map s.mailFull).getD false)
    effect := fun s c a => match (s.axisCfg c.axis).bind AxisCfg.curMb with
      | some q => s.post q a [c.pw 4, c.pw 8]
      | none => s
    turned := fun s c st => match (s.axisCfg c.axis).bind AxisCfg.curMb with
      | some q => s.postRefused q st
      | none => s }

/-! ### Motion commands (R236) -/

/-- MOTION_TARGET. -/
def specMotionTarget : CmdSpec :=
  { opcode := 0x0400, rank := 2, fenced := true, post := true, named := [(0, 3), (4, 12)], absent := axisAbsent
    bad := fun s c => axisBad s c || decide (2 < c.p8 2) || (c.p8 2 == 2 && c.p32 8 != 0)
      || ((s.axisCfg c.axis).bind AxisCfg.tgtMb).isNone || !(Fp.le 0#32 (Fp.canon (c.pw 12)) && Fp.le (Fp.canon (c.pw 12)) Fp.one)
    busy := fun s c => ((((s.axisCfg c.axis).bind AxisCfg.tgtMb).map s.mailFull).getD false)
    effect := fun s c a => match (s.axisCfg c.axis).bind AxisCfg.tgtMb with
      | some q => s.post q a [BitVec.ofNat 32 (c.p8 2), c.pw 4, c.pw 8, c.pw 12]
      | none => s
    turned := fun s c st => match (s.axisCfg c.axis).bind AxisCfg.tgtMb with
      | some q => s.postRefused q st
      | none => s }

/-- MOTION_PARAM_SET. -/
def specMotionParamSet : CmdSpec :=
  { opcode := 0x0401, rank := 4, fenced := true, named := [(0, 8)], absent := axisAbsent
    bad := fun s c => paramBad s c 64 91
    mode := paramLocked
    effect := fun s c _ => s.writeParam c }

/-- MOTION_PARAM_GET. -/
def specMotionParamGet : CmdSpec :=
  { opcode := 0x0402, query := true, named := [(0, 4)], absent := axisAbsent
    bad := fun s c => axisBad s c || decide (c.p16 2 < 64 ∨ 91 < c.p16 2)
    cyc := State.shownCycle
    run := fun s c _ _ => (s, .of (wordBytes (Tab.get 0#32 (s.shown c.axis).params (c.p16 2)))) }

/-- MOTION_STATUS_GET: the record of R237, 16 bytes. -/
def specMotionStatusGet : CmdSpec :=
  { opcode := 0x0403, query := true, named := [(0, 2)], absent := axisAbsent, bad := axisBad
    cyc := State.shownCycle
    run := fun s c _ _ => (s, .of (bytesOfWords (s.shown c.axis).motionRec)) }

/-- MOTION_POS_GET: P and the stored target, 16 bytes. On a stepper axis P is the profile position (R213). -/
def specMotionPosGet : CmdSpec :=
  { opcode := 0x0404, query := true, named := [(0, 2)], absent := axisAbsent, bad := axisBad
    cyc := State.shownCycle
    run := fun s c _ _ =>
      let x := s.shown c.axis
      let p := if x.stepper then x.o.prof.pInt else x.o.p
      (s, .of (leBytes 8 p.toNat ++ leBytes 8 x.o.prof.tgt.toNat)) }

/-- The repetitive controller frozen, learning or cleared (R228 to R230): a new learning starts its sums afresh, and learning does not
leave DIVERGED (log entry 60). -/
def AxRc.ctrl (x : AxRc) (k : Nat) (a : Word) : AxRc :=
  match k with
  | 0 => { x with st := .frozen }
  | 1 => if x.st = .frozen then { x with st := .learn, sum := 0#32, last := none, grow := 0 } else x
  | _ => { n0 := a, kLast := x.kLast }

/-- RC_CTRL. -/
def specRcCtrl : CmdSpec :=
  { opcode := 0x0405, rank := 2, fenced := true, named := [(0, 3)], absent := axisAbsent
    bad := fun s c => axisBad s c || decide (2 < c.p8 2) || (s.axis c.axis).stepper
    effect := fun s c a =>
      let x := s.axis c.axis
      s.setAxis c.axis { x with o := { x.o with rc := x.o.rc.ctrl (c.p8 2) a } } }

/-- Eight entries of the microstep table written; one equal to its default is not listed. -/
def AxisSt.setMs (x : AxisSt) (k : Nat) : List (BitVec 16) → AxisSt
  | [] => x
  | v :: r =>
    let t := Tab.drop x.ms k
    AxisSt.setMs { x with ms := if v = msDefault k then t else Tab.ins t k v } (k + 1) r

/-- MICROSTEP_TABLE_SET. -/
def specMicrostepTableSet : CmdSpec :=
  { opcode := 0x0406, rank := 4, fenced := true, named := [(0, 3), (4, 16)], absent := axisAbsent
    bad := fun s c => axisBad s c || decide (c.p8 2 % 8 ≠ 0) || !(s.axis c.axis).stepper
    mode := fun s _ => decide (s.mode = .armed ∨ s.mode = .run ∨ s.mode = .degraded)
    effect := fun s c _ => s.setAxis c.axis ((s.axis c.axis).setMs (c.p8 2) ((List.range 8).map (fun i => BitVec.ofNat 16 (c.p16 (4 + 2 * i))))) }

def execAxisModeSet (r : CmdReq) (s : State) : Host.Outcome State Fault Refusal := .next (s.command specAxisModeSet r)
def execAxisParamSet (r : CmdReq) (s : State) : Host.Outcome State Fault Refusal := .next (s.command specAxisParamSet r)
def execAxisParamGet (r : CmdReq) (s : State) : Host.Outcome State Fault Refusal := .next (s.command specAxisParamGet r)
def execAxisStatusGet (r : CmdReq) (s : State) : Host.Outcome State Fault Refusal := .next (s.command specAxisStatusGet r)
def execAxisReset (r : CmdReq) (s : State) : Host.Outcome State Fault Refusal := .next (s.command specAxisReset r)
def execAxisCurRef (r : CmdReq) (s : State) : Host.Outcome State Fault Refusal := .next (s.command specAxisCurRef r)
def execMotionTarget (r : CmdReq) (s : State) : Host.Outcome State Fault Refusal := .next (s.command specMotionTarget r)
def execMotionParamSet (r : CmdReq) (s : State) : Host.Outcome State Fault Refusal := .next (s.command specMotionParamSet r)
def execMotionParamGet (r : CmdReq) (s : State) : Host.Outcome State Fault Refusal := .next (s.command specMotionParamGet r)
def execMotionStatusGet (r : CmdReq) (s : State) : Host.Outcome State Fault Refusal := .next (s.command specMotionStatusGet r)
def execMotionPosGet (r : CmdReq) (s : State) : Host.Outcome State Fault Refusal := .next (s.command specMotionPosGet r)
def execRcCtrl (r : CmdReq) (s : State) : Host.Outcome State Fault Refusal := .next (s.command specRcCtrl r)
def execMicrostepTableSet (r : CmdReq) (s : State) : Host.Outcome State Fault Refusal := .next (s.command specMicrostepTableSet r)

end Sys2Proof.Machine
end

