-- ==== Sys2Proof/Machine/LocalWave.lean ====
section
/-! DEFINITION. The local drive groups (R289 to R308): carrier periods, waveforms, the output mask, the stepper choppers. Places within a period are in taps of 125 ps, 32 to a count of 4 ns.
Log: DEDUCED 82, 83, 90, 175, 176. DESIGN CHOICE 79, 80, 81, 174. -/

namespace Sys2Proof.Machine

/-- A place on the grid: whole counts, halves upward, while dly_err holds (R294). -/
def State.onGrid (s : State) (x : Int) : Int := if s.bit Reg.pwmDlyStatDlyErr then (x + 16) / 32 * 32 else x

/-- The apply instant of a cycle, in taps. -/
def State.applyTap (s : State) (n : Word) : Option Int := (s.instant n s.timing.tApply).map (fun x => s.onGrid (tapOf x))

/-- Counts of a carrier period. -/
def State.lgPer (s : State) (k : Nat) : Nat := s.fld Reg.pwmGrpCfgTPer (lgBase k)

/-! ### The command record in a group (R170, R226) -/

def recFloat (ws : List Word) (p : Nat) : Bool := recBit ws (6 + p)
def recRise (ws : List Word) (p : Nat) : Nat := bitsOf (wordAt ws 2).toNat (2 * p + 1) (2 * p)
def recStep (ws : List Word) : Nat := bitsOf (wordAt ws 2).toNat 14 12
def recOn (ws : List Word) (p : Nat) : Nat :=
  match p with
  | 0 => (loHalf (wordAt ws 0)).toNat
  | 1 => (hiHalf (wordAt ws 0)).toNat
  | _ => (loHalf (wordAt ws 1)).toNat
def recChop (ws : List Word) : Nat := bitsOf (wordAt ws 1).toNat 27 16
/-- Negative order of the steps, forced mode (R300). -/
def recNeg (ws : List Word) : Bool := recBit ws 0
def recForced (ws : List Word) : Bool := recOn ws 1 == 65535

/-! ### Status -/

/-- PWM_GRP_STAT.state. -/
def lgStateCode : Nat → Nat
  | 1 => 4 | 2 => 5 | 3 => 3 | 4 => 0 | 5 => 2 | _ => 1

/-- PWM_GRP_STAT as a read shows it. -/
def State.lgStat (s : State) (k : Nat) : Word :=
  BitVec.ofNat 32 (withBits (withBits (s.reg (lgBase k + 0x18)).toNat 31 29 (lgStateCode (s.lgOrder k))) 27 27
    (bitN (decide (s.lgOrder k = 7))))

/-! ### A channel in a period (R296, R298) -/

/-- What one channel does in a period: its carry into the next, the transitions of its waveform, pulses removed or stretched. -/
structure ChanOut where
  carry : ChanCarry
  trans : List (Nat × Bool) := []
  filtered : Nat := 0
deriving DecidableEq, Repr

/-- The settings of the pulse check: dead time and minimum in taps, stretching, length of this period, whether low pulses are
checked (a channel with a lower output). -/
structure PulseCfg where
  dt : Nat
  tmin : Nat
  stretch : Bool
  per : Nat
  lower : Bool

/-- A pulse of a length is short. -/
def PulseCfg.short (c : PulseCfg) (len : Nat) : Bool := decide (c.tmin ≠ 0 ∧ len < c.dt + c.tmin)

/-- The fall that ends a high interval at `e`, given the next period's interval. -/
def chanFall (c : PulseCfg) (nx : Option (Nat × Nat)) (e : Nat) (o : ChanOut) : ChanOut :=
  if e ≥ c.per then { o with carry := { o.carry with high := true, hold := false, rise := 0 } }
  else
    let fall : ChanOut := { o with carry := { o.carry with high := false, hold := false, rise := 0 }, trans := o.trans ++ [(e, false)] }
    match nx with
    | none => fall
    | some (a, b) =>
      if !c.lower || !c.short (c.per + a - e) then fall
      else
        let r := e + c.tmin + c.dt
        if c.stretch && r < c.per + b && r < 2 * c.per then
          { fall with carry := { fall.carry with rise := r - c.per }, filtered := o.filtered + 1 }
        else { o with carry := { o.carry with high := true, hold := true, rise := 0 }, filtered := o.filtered + 1 }

/-- A rise at `r` of the interval that ends at `e`, under the check of its upper pulse; an interval that goes on into the next period is judged
whole here, and the carry tells that period what became of it. -/
def chanRise (c : PulseCfg) (nx : Option (Nat × Nat)) (r e : Nat) (o : ChanOut) : ChanOut :=
  let joined := e == c.per && (match nx with | some (a, _) => a == 0 | none => false)
  let len := (match nx with | some (_, b) => if joined then c.per + b else e | none => e) - r
  if !c.short len then chanFall c nx e { o with trans := o.trans ++ [(r, true)] }
  else
    let o := { o with filtered := o.filtered + 1 }
    let e' := r + c.tmin + c.dt
    if joined then
      (if c.stretch && e' ≤ 2 * c.per then
        { o with trans := o.trans ++ [(r, true)], carry := { o.carry with high := true, hold := false, rise := 0, fall := e' - c.per } }
      else { o with carry := { o.carry with high := false, hold := false, rise := 0, cut := true } })
    else if c.stretch && e' ≤ c.per then chanFall c nx e' { o with trans := o.trans ++ [(r, true)] }
    else { o with carry := { o.carry with high := false, hold := false, rise := 0 } }

/-- One period of a channel: its high interval in this period and in the next. -/
def chanPeriod (c : PulseCfg) (k : ChanCarry) (iv nx : Option (Nat × Nat)) : ChanOut :=
  let iv := match iv with
    | some (0, b) => if k.cut then none else some (0, if k.high then max b k.fall else b)
    | v => v
  let o : ChanOut := { carry := { k with driven := true, fall := 0, cut := false } }
  match k.high, iv with
  | true, none => { o with carry := { driven := true }, trans := [(0, false)] }
  | true, some (a, b) =>
    if a = 0 || k.hold then chanFall c nx b o
    else if !c.lower || !c.short a then chanRise c nx a b { o with trans := [(0, false)] }
    else
      let r := c.tmin + c.dt
      if c.stretch && r < b then chanRise c nx r b { o with trans := [(0, false)], filtered := 1 }
      else chanFall c nx b { o with filtered := 1 }
  | false, none => { o with carry := { driven := true } }
  | false, some (a, b) =>
    let r := max a k.rise
    if r < b then chanRise c nx r b o else { o with carry := { driven := true } }

/-- Gate edges of a pair from its transitions (R297): an output turns on the dead time later, unless the phase has turned back by
then. -/
def pairEdges (dt up lo : Nat) : List (Nat × Bool) → List GateEdge
  | [] => []
  | (t, h) :: rest =>
    let off := if h then lo else up
    let on := if h then up else lo
    let back := match rest with | (u, _) :: _ => decide (u ≤ t + dt) | [] => false
    ⟨t, off, false⟩ :: (if back then [] else [⟨t + dt, on, true⟩]) ++ pairEdges dt up lo rest

/-! ### The period of a three-phase group -/

/-- The high interval of a phase in a period, in taps: reserved rise code 3 starts at an open count. -/
def State.phaseIv (s : State) (k : Nat) (ws : List Word) (p : Nat) (per : Nat) : Option (Nat × Nat) :=
  let t := s.lgPer k
  let r := recRise ws p
  let a := if r = 3 then (Config.riseOpen (wordAt ws 2)).toNat % (t + 1) else r * s.fld Reg.pwmGrpOutSsTmin (lgBase k)
  let on := recOn ws p
  let b := if t ≤ a + on then per else min (32 * (a + on)) per
  if recFloat ws p || on = 0 || b ≤ 32 * a then none else some (32 * a, b)

/-- The brake chopper's interval (R299). -/
def State.chopIv (s : State) (k : Nat) (ws : List Word) (per : Nat) : Option (Nat × Nat) :=
  let chop := recChop ws
  let on := chop * s.lgPer k / 4096
  if chop = 4095 then some (0, per) else if on = 0 then none else some (0, min (32 * on) per)

def State.pulseCfg (s : State) (k per : Nat) (lower : Bool) : PulseCfg :=
  { dt := if lower then s.fld Reg.pwmGrpDtDt (lgBase k) else 0, tmin := s.fld Reg.pwmGrpDtTmin (lgBase k)
    stretch := s.bit Reg.pwmGrpCfgMpMode (lgBase k), per := per, lower := lower }

/-- The high interval of the upper switch that a mask step drives, from a place of the period on (R300, R304). -/
def State.upperIv (s : State) (k : Nat) (ws : List Word) (per from_ : Nat) : Option (Nat × Nat) :=
  let on := recOn ws 0
  let b := if s.lgPer k ≤ on then per else min (32 * on) per
  if on = 0 || b ≤ from_ then none else some (from_, b)

/-- An edge as the line places it. -/
def State.placed (s : State) (e : GateEdge) : GateEdge := { e with at_ := (s.onGrid e.at_).toNat }

/-- The phases of a step: driven upper, lower on, floating, and whether the expected zero-cross rises (R189). -/
def sixStep : Nat → Nat × Nat × Nat × Bool
  | 0 => (0, 1, 2, false) | 1 => (0, 2, 1, true) | 2 => (1, 2, 0, false)
  | 3 => (1, 0, 2, true) | 4 => (2, 0, 1, false) | _ => (2, 1, 0, true)

/-- The step that the mask drives. -/
def State.maskAt (s : State) (k : Nat) : Nat := s.fld Reg.pwmGrpStatMaskStep (lgBase k)

/-- The step under a record that comes into effect (R301). -/
def State.stepUnder (s : State) (k : Nat) (ws : List Word) : Nat :=
  if (recForced ws || !(s.lg k).masked) && decide (recStep ws < 6) then recStep ws else s.maskAt k

/-- The high interval of a channel (phase 0 to 2, chopper 3) in a whole period under a record. -/
def State.nextIv (s : State) (k : Nat) (ws : List Word) (ch : Nat) : Option (Nat × Nat) :=
  let per := 32 * s.lgPer k
  if recSafe ws || !recEnable ws then none
  else if ch = 3 then s.chopIv k ws per
  else if recMask ws then (if (sixStep (s.stepUnder k ws)).1 = ch then s.upperIv k ws per 0 else none)
  else s.phaseIv k ws ch per

/-- What a channel does in the present period, with `ws` the record of the period after it; none for a phase that floats or that the
mask holds (R296 to R300). -/
def State.chanOut (s : State) (k : Nat) (ws : List Word) (ch : Nat) : Option ChanOut :=
  let x := s.lg k
  let go := fun (lower : Bool) iv => some (chanPeriod (s.pulseCfg k x.len lower) (Tab.get {} x.was ch) iv (s.nextIv k ws ch))
  if ch = 3 then go false (s.chopIv k x.rec_ x.len)
  else if s.waveOrder k = 7 then
    (if (sixStep (s.maskAt k)).1 = ch then go true (s.upperIv k x.rec_ x.len x.from_) else none)
  else if recFloat x.rec_ ch then none
  else go true (s.phaseIv k x.rec_ ch x.len)

/-- The edges of a channel. A phase that was not driven before turns its lower output on first, unless it rises within the dead time. -/
def State.chanEdges (s : State) (k ch : Nat) (o : ChanOut) : List GateEdge :=
  if ch = 3 then o.trans.map (fun t => s.placed ⟨t.1, 6, t.2⟩)
  else
    let x := s.lg k
    let dt := s.fld Reg.pwmGrpDtDt (lgBase k)
    let on := x.from_ + dt
    let first := !(Tab.get {} x.was ch).driven && (match o.trans with | (r, _) :: _ => decide (on < r) | [] => true)
    ((if first then [GateEdge.mk on (2 * ch + 1) true] else []) ++ pairEdges dt (2 * ch) (2 * ch + 1) o.trans).map s.placed

/-- A channel's edges, carry and count of filtered pulses added. -/
def State.addChan (s : State) (k : Nat) (ws : List Word) (ch : Nat) : State :=
  match s.chanOut k ws ch with
  | none => s
  | some o =>
    let x := s.lg k
    let s := s.setLg k { x with edges := x.edges ++ s.chanEdges k ch o, carry := Tab.put {} x.carry ch o.carry }
    if o.filtered = 0 then s else s.addFld Reg.pwmGrpCntFiltered o.filtered (lgBase k)

/-- Both switches of a phase off at a place. -/
def phaseOff (place p : Nat) : List GateEdge := [⟨place, 2 * p, false⟩, ⟨place, 2 * p + 1, false⟩]

/-- The first edge of a phase's pair after a place. -/
def LgSt.pairNext (x : LgSt) (place p : Nat) : Option GateEdge :=
  match x.edges.filter (fun e => e.out / 2 == p && decide (place < e.at_)) with
  | [] => none
  | e :: rest => some (rest.foldl (fun a b => if a.at_ ≤ b.at_ then a else b) e)

/-- The place at which a lower switch comes on that is held on from a place (R297, R300): at once, the dead time later where the phase is
high, and where its dead time still runs at the end of that; `x` is the group before. -/
def State.lowerAt (s : State) (x : LgSt) (k place p : Nat) : Nat :=
  let after := if x.levelAt place (2 * p) then place + s.fld Reg.pwmGrpDtDt (lgBase k) else place
  match x.pairNext place p with
  | some e => if !e.high then after else if e.out = 2 * p + 1 then e.at_ else place + s.fld Reg.pwmGrpDtDt (lgBase k)
  | none => after

/-- A lower switch held on from a place. -/
def State.lowerOn (s : State) (x : LgSt) (k place p : Nat) : List GateEdge :=
  [⟨place, 2 * p, false⟩, s.placed ⟨s.lowerAt x k place p, 2 * p + 1, true⟩]

/-- The switches that the pattern of a period holds: floating phases off, and in mask mode the lower switch on (R296, R300). -/
def State.heldEdges (s : State) (x : LgSt) (k : Nat) : List GateEdge :=
  if s.waveOrder k = 7 then
    let st := sixStep (s.maskAt k)
    phaseOff 0 st.2.2.1 ++ s.lowerOn x k 0 st.2.1
  else ([0, 1, 2].filter (recFloat (s.lg k).rec_)).flatMap (phaseOff 0)

/-- The present period ended at a place: the levels there, the edges still to come, and the carry with which the next begins. -/
def LgSt.turn (x : LgSt) (start len : Int) : LgSt :=
  let n := (start - x.start).toNat
  { x with base := pinBits 7 (x.levelAt ((n : Int) - 1)), was := x.carry, from_ := 0, start := start, len := len.toNat
           edges := (x.edges.filter (fun e => decide (n ≤ e.at_))).map (fun e => { e with at_ := e.at_ - n }) }

/-- The record of the period after the present one, as far as it is known. -/
def LgSt.nextRec (x : LgSt) : List Word := if x.left = 0 then x.next.getD x.rec_ else x.rec_

/-- A carrier period that starts at a place and lasts `len` taps (R293 to R300). A turn-on that the last period left for later is
dropped where the phase turns back by then (R297). -/
def State.periodStart (s : State) (k : Nat) (start len : Int) : State :=
  let x := (s.lg k).turn start len
  if s.bit Reg.pwmGrpCfgKind (lgBase k) || s.waveOrder k < 7 then s.setLg k { x with base := 0, edges := [], carry := [], was := [] }
  else
    let s := s.setLg k { x with edges := [] }
    let s := s.setLg k { s.lg k with edges := s.heldEdges x k, carry := [] }
    let s := [0, 1, 2, 3].foldl (fun s ch => s.addChan k x.nextRec ch) s
    let y := s.lg k
    let stays := x.edges.filter (fun c => !y.edges.any (fun e => e.out == c.out && !e.high && decide (e.at_ ≤ c.at_)))
    s.setLg k { y with edges := stays ++ y.edges }

/-- The transitions up to a place. -/
def ChanOut.gone (o : ChanOut) (place : Int) : List (Nat × Bool) := o.trans.filter (fun t => decide ((t.1 : Int) ≤ place))

/-- A channel of the last period before an apply instant judged again with the record just taken for it (R298): a transition that has
gone stands (log entry 174). -/
def State.rejudge (s : State) (k : Nat) (old new : List Word) (ch : Nat) : State :=
  match s.chanOut k old ch, s.chanOut k new ch with
  | some a, some b =>
    let x := s.lg k
    let place := s.now16 / 8192 - x.start
    if a = b || a.gone place ≠ b.gone place then s
    else
      let es := s.chanEdges k ch a
      let n := s.fld Reg.pwmGrpCntFiltered (lgBase k) - a.filtered
      ((s.setFld Reg.pwmGrpCntFiltered n (lgBase k)).addFld Reg.pwmGrpCntFiltered b.filtered (lgBase k)).setLg k
        { x with edges := x.edges.filter (fun e => !es.contains e) ++ s.chanEdges k ch b, carry := Tab.put {} x.carry ch b.carry }
  | _, _ => s

/-- The record taken for the next apply instant seen in the present period, when that is the last. -/
def State.seeNext (s : State) (k : Nat) (old new : List Word) : State :=
  if (s.lg k).left ≠ 0 || s.bit Reg.pwmGrpCfgKind (lgBase k) || decide (s.waveOrder k < 7) then s
  else [0, 1, 2, 3].foldl (fun s ch => s.rejudge k old new ch) s

/-! ### Choppers (R305 to R307) -/

/-- The direction a reference asks for. -/
def coilDir (ref z : Int) : Bool := decide (z ≤ ref)
/-- A quantity in the direction of a coil. -/
def along (pos : Bool) (x : Int) : Int := if pos then x else -x
/-- The larger and the smaller of two. -/
def optMax (o : Option Int) (x : Int) : Option Int := some (match o with | some y => max x y | none => x)
def optMin (o : Option Int) (x : Int) : Option Int := some (match o with | some y => min x y | none => x)

/-- The settings of a group's choppers: decay, h in codes, the minimum times and the fast part of mixed decay in 2^−16 ns. -/
structure ChopCfg where
  decay : Nat
  h : Int
  tOn : Int
  tOff : Int
  tMix : Int

def State.chopCfg (s : State) (k : Nat) : ChopCfg :=
  { decay := s.fld Reg.pwmGrpChopDecay (lgBase k), h := s.fld Reg.pwmGrpChopHyst (lgBase k), tOn := ns16 (16 * s.fld Reg.pwmGrpChopTOn (lgBase k))
    tOff := ns16 (16 * s.fld Reg.pwmGrpChopTOff (lgBase k)), tMix := ns16 (64 * s.fld Reg.pwmGrpChopTMix (lgBase k)) }

/-- A coil passes to DECAY. -/
def CoilSt.toDecay (c : CoilSt) (g : ChopCfg) (now : Int) : CoilSt :=
  match g.decay with
  | 0 => { c with ph := .slow, since := now, mixEnd := none, paired := true }
  | 1 => { c with ph := .fast, since := now, mixEnd := none, paired := true }
  | _ => { c with ph := .fast, since := now, mixEnd := some (now + g.tMix), paired := true }

/-- DRIVE begins: where it ends a chop period, the offset moves toward the reference (R306). `r` is the reference in the coil's
direction. -/
def CoilSt.toDrive (c : CoilSt) (g : ChopCfg) (now r : Int) : CoilSt :=
  let o := match c.paired, c.hi, c.lo with
    | true, some hi, some lo => c.o + (8 * r - 4 * (hi + lo)) / 8
    | _, _, _ => c.o
  { c with ph := .drive, since := now, mixEnd := none, paired := false, hi := none, lo := none, o := max (-8 * g.h) (min (8 * g.h) o) }

/-- A result fed to a coil's chopper (R305 to R307). -/
def CoilSt.feed (c : CoilSt) (g : ChopCfg) (now ref z x : Int) (ovr : Bool) : CoilSt :=
  if c.turning then
    let m := along c.pos (x - z)
    if ovr || 0 < m then c
    else { c with turning := false, pos := coilDir ref z, ph := if ref = z then .slow else .drive, since := now, mixEnd := none
                  paired := false, hi := none, lo := none }
  else
    let m := along c.pos (x - z)
    let r := along c.pos (ref - z)
    let c := { c with hi := optMax c.hi m, lo := optMin c.lo m }
    let c : CoilSt := match c.ph with
      | .fast => if m ≤ 0 && !ovr then { c with ph := .slow, mixEnd := none } else c
      | _ => c
    if ref = z then { c with ph := .slow, since := if c.ph = .drive then now else c.since, mixEnd := none, paired := c.paired || c.ph == .drive }
    else
      match c.ph with
      | .drive => if (ovr || 8 * r + c.o + 4 * g.h ≤ 8 * m) && g.tOn ≤ now - c.since then c.toDecay g now else c
      | _ => if !ovr && 8 * m ≤ 8 * r + c.o - 4 * g.h && g.tOff ≤ now - c.since then c.toDrive g now r else c

/-- A reference at an apply instant: a change of direction enters fast decay in the old direction (R307). -/
def CoilSt.refer (c : CoilSt) (now ref z : Int) : CoilSt :=
  if ref = z || coilDir ref z = c.pos then c
  else if c.turning then c
  else { c with turning := true, ph := .fast, since := now, mixEnd := none }

/-- References and zero codes of a group's coils. -/
def State.coilRef (s : State) (k : Nat) (b : Bool) : Int :=
  let w := wordAt (s.lg k).rec_ 0
  if b then (hiHalf w).toInt else (loHalf w).toInt
def State.coilZero (s : State) (k : Nat) (b : Bool) : Int :=
  if b then s.fld Reg.pwmGrpZeroZB (lgBase k) else s.fld Reg.pwmGrpZeroZA (lgBase k)

/-- A coil, and a coil given; its legs keep the dead time, and its offset shows in PWM_GRP_OFS. -/
def LgSt.coil (x : LgSt) (b : Bool) : CoilSt := if b then x.coilB else x.coilA
def State.setCoil (s : State) (k : Nat) (b : Bool) (c : CoilSt) : State :=
  let x := s.lg k
  let c := (x.coil b).become c (ofTap (s.onGrid (tapOf s.now16)))
  (s.setLg k (if b then { x with coilB := c } else { x with coilA := c })).setFld (if b then Reg.pwmGrpOfsOB else Reg.pwmGrpOfsOA)
    (BitVec.ofInt 16 c.o).toNat (lgBase k)

/-- A result with chop = 1 reaches a stepper group whose record drives it: STO, the latch and an output fault only cover its outputs. -/
def State.feedCoil (s : State) (k : Nat) (b : Bool) (code : Nat) (ovr : Bool) : State :=
  if s.bit Reg.pwmGrpCfgKind (lgBase k) && s.waveOrder k == 8 then
    s.setCoil k b (((s.lg k).coil b).feed (s.chopCfg k) s.now16 (s.coilRef k b) (s.coilZero k b) code ovr)
  else s

/-- MIXED_DECAY_END (R307). -/
def execMixedDecayEnd (group : Nat) (coilB : Bool) (s : State) : Host.Outcome State Fault Refusal :=
  .next (if 8 ≤ group || !s.awake then s
    else
      let c := (s.lg group).coil coilB
      match c.ph, c.mixEnd with
      | .fast, some t => (s.advanceTo t).setCoil group coilB { c with ph := .slow, mixEnd := none }
      | _, _ => s)

/-! ### Launch and apply (R293, R295) -/

/-- The held count and the stale bit of a group's status. -/
def State.lgHeld (s : State) (k n : Nat) (stale : Bool) : State :=
  (s.setFld Reg.pwmGrpStatHeld n (lgBase k)).setBit Reg.pwmGrpStatStale stale (lgBase k)

/-- A group's command token, or none, at the launch instant (R295). -/
def State.lgTake (s : State) (k : Nat) (t : Option Token) : State :=
  let b := lgBase k
  let x := s.lg k
  let fresh := match t with
    | some t => tokFresh t
    | none => !s.graphsFire
  if fresh then
    let ws := (t.map Token.words).getD [0#32, 0#32, 0#32]
    ((s.seeNext k x.rec_ ws).setLg k { (s.seeNext k x.rec_ ws).lg k with next := some ws, heldOut := false }).lgHeld k 0 false
  else
    let n := s.fld Reg.pwmGrpStatHeld b + 1
    let out := decide (s.fld Reg.pwmGrpCfgHoldLimit b < n)
    let s := (s.setLg k { x with next := none, heldOut := x.heldOut || out }).lgHeld k (min n 255) true
    let s := if out && !x.heldOut then s.raise 0x41 1 7 k else s
    s.overrun (16 + k)

/-- One group at the launch: the token of its axis leaves the SINK queue; a group that is not enabled, and a standby, discard it. -/
def State.lgLaunch (s : State) (k : Nat) : State :=
  if (s.lg k).taken then s
  else
    let s := s.setLg k { s.lg k with taken := true }
    match s.axisCfg (256 + k) with
    | none => s
    | some c =>
      let y := if s.graphsFire && !s.mad.replay.running then s.takeSink drivePort c.sinkQ else (s, none)
      if !s.bit Reg.pwmGrpCfgEn (lgBase k) || decide (s.mode = .standby) then y.1
      else if s.mad.replay.running then y.1.lgTake k (some ⟨s.cycle, false, false, [0#32, 0#32, 0#32]⟩)
      else y.1.lgTake k y.2

/-- LOCAL_CMD_LAUNCH (R39, R295). -/
def execLocalCmdLaunch (s : State) : Host.Outcome State Fault Refusal :=
  .next (if !s.edgesRun || !s.awake || (List.range 8).all (fun k => (s.lg k).taken) then s
    else ((List.range 8).foldl State.lgLaunch (s.toInstant s.timing.tCmd)).note)

/-- The mask at an apply instant (R301), given whether it was in mask mode under the record before. -/
def State.maskTake (s : State) (k : Nat) (was : Bool) : State :=
  let x := s.lg k
  let on := recMask x.rec_ && recEnable x.rec_ && !recSafe x.rec_ && !s.bit Reg.pwmGrpCfgKind (lgBase k)
  let s := s.setLg k { x with masked := on, delay := if on && was && !recForced x.rec_ then x.delay else none }
  if on && (recForced x.rec_ || !was) then
    let old := s.fld Reg.pwmGrpStatMaskStep (lgBase k)
    let s := if recStep x.rec_ < 6 then s.setFld Reg.pwmGrpStatMaskStep (recStep x.rec_) (lgBase k)
      else (s.setFld Reg.pwmGrpStatMaskStep (s.freeW.toNat % 6) (lgBase k)).drew
    if was && s.fld Reg.pwmGrpStatMaskStep (lgBase k) = old then s else s.setLg k { s.lg k with stepAt := some s.now16 }
  else s

/-- The step after the present one (R301). -/
def State.nextStep (s : State) (k : Nat) : Nat :=
  let st := s.maskAt k
  if recNeg (s.lg k).rec_ then (st + 5) % 6 else (st + 1) % 6

/-- The mask steps at an instant (R301, R304): what the old step had still to do is dropped, but for a switch that both steps drive. An
order that overrides the mask keeps the step. -/
def State.maskStep (s : State) (k : Nat) (t : Int) : State :=
  let x := s.lg k
  if s.lgOrder k ≠ 7 then s.setLg k { x with delay := none }
  else
    let old := sixStep (s.maskAt k)
    let place := (s.onGrid (tapOf t) - x.start).toNat
    let s := (s.setFld Reg.pwmGrpStatMaskStep (s.nextStep k) (lgBase k)).setLg k { x with delay := none, stepAt := some t, ev := (x.ev + 1) % 256 }
    let new := sixStep (s.maskAt k)
    let both := fun p => (p == old.1 && p == new.1) || (p == old.2.1 && p == new.2.1)
    let held := phaseOff place new.2.2.1 ++ (if new.2.1 = old.2.1 then [] else s.lowerOn x k place new.2.1)
    let s := s.setLg k { s.lg k with edges := x.edges.filter (fun e => decide (e.at_ ≤ place ∨ 6 ≤ e.out) || both (e.out / 2)) ++ held }
    if new.1 = old.1 then s
    else
      (s.setLg k { s.lg k with was := Tab.put {} x.was new.1 {}, from_ := place, carry := Tab.put {} [] 3 (Tab.get {} x.carry 3) }).addChan k
        x.nextRec new.1

/-- A group at its apply instant (R293, R295, R300, R307), in taps with the next one; a mask step that has come due is taken first
(R304). -/
def State.lgApply (s : State) (k : Nat) (now next : Int) : State :=
  let b := lgBase k
  if !s.bit Reg.pwmGrpCfgEn b then s
  else
    let s := match (s.lg k).delay with
      | some t => if t ≤ ofTap now && (s.lg k).masked then s.maskStep k t else s
      | none => s
    let x := s.lg k
    let was := x.masked
    let per := 32 * (s.lgPer k : Int)
    let m := max 1 ((2 * (next - now) + per) / (2 * per))
    let off := next - now - m * per
    let rec_ := x.next.getD x.rec_
    let leaves := x.next.isSome && !recSafe rec_ && !recEnable rec_
    let s := s.setLg k { x with rec_ := rec_, next := none, started := true, left := (m - 1).toNat, until_ := next
                                safe5 := recSafe rec_ || x.heldOut || (x.safe5 && !leaves) }
    let s := s.maskTake k was
    let s := if 32 < off || off < -32 then s.incFld Reg.pwmGrpCntRealign b else s
    let s := if s.bit Reg.pwmGrpCfgKind b then
        [false, true].foldl (fun s c => s.setCoil k c (((s.lg k).coil c).refer (ofTap now) (s.coilRef k c) (s.coilZero k c))) s
      else s
    s.periodStart k now (if m = 1 then next - now else per)

/-- LOCAL_APPLY_INSTANT (R293): the apply instant of the present cycle. -/
def execLocalApplyInstant (s : State) : Host.Outcome State Fault Refusal :=
  .next (if !s.awake then s
    else match s.applyTap s.cycle, s.applyTap (s.cycle + 1#32) with
      | some now, some next =>
        if (List.range 8).any (fun k => (s.lg k).started && decide (next ≤ (s.lg k).until_ + 32 ∧ (s.lg k).until_ ≤ next + 32)) then s
        else (s.toInstant s.timing.tApply).gated (fun s => (List.range 8).foldl (fun s k => s.lgApply k now next) s)
      | _, _ => s)

/-- CARRIER_PERIOD_START (R293): the counter has reached t_per − 1. The last period before an apply instant ends there. -/
def execCarrierPeriodStart (group : Nat) (s : State) : Host.Outcome State Fault Refusal :=
  .next (
    let x := s.lg group
    if 8 ≤ group || !s.awake || !x.started || x.left = 0 || !s.bit Reg.pwmGrpCfgEn (lgBase group) then s
    else
      let per := 32 * (s.lgPer group : Int)
      let start := s.onGrid (x.start + per)
      let left := x.left - 1
      ((s.advanceTo (ofTap start)).setLg group { x with left := left }).periodStart group start (if left = 0 then s.onGrid x.until_ - start else per))

/-! ### Mask events (R301 to R304) -/

/-- ev_count of a group, one more. -/
def State.lgEvent (s : State) (k : Nat) : State := s.setLg k { s.lg k with ev := ((s.lg k).ev + 1) % 256 }

/-- Entry `e` of a Hall map (R324, FB_HALL). -/
def State.hallEntry (s : State) (fb e : Nat) : Nat := s.fld Reg.fbHallMap (fbBase fb) / 8 ^ e % 8

/-- A group's event is qualified (R302). -/
def State.qualified (s : State) (k : Nat) (e : MaskEdge) : Bool :=
  let b := lgBase k
  match e with
  | .zc p rising =>
    let st := sixStep (s.fld Reg.pwmGrpStatMaskStep b)
    !s.bit Reg.pwmGrpMaskSrc b && p == st.2.2.1 && rising == (st.2.2.2 != recNeg (s.lg k).rec_)
  | .hall h =>
    s.bit Reg.pwmGrpMaskSrc b
      && h.toNat == s.hallEntry (s.fld Reg.pwmGrpCfgFb b) ((s.nextStep k + s.fld Reg.pwmGrpMaskHallOfs b) % 6)

/-- PWM_GRP_MASK.blank counts have passed since the last change of step (R302). -/
def State.blanked (s : State) (k : Nat) : Bool :=
  match (s.lg k).stepAt with
  | some t => decide (t + ns16 (4 * s.fld Reg.pwmGrpMaskBlank (lgBase k)) ≤ s.now16)
  | none => true

/-- A group's event (R302, R303). -/
def State.maskEvent (s : State) (k : Nat) (e : MaskEdge) : State :=
  let x := s.lg k
  if !s.bit Reg.pwmGrpCfgEn (lgBase k) then s
  else if !x.masked then
    (match e with
      | .zc _ _ => if s.bit Reg.pwmGrpMaskSrc (lgBase k) then s else s.lgEvent k
      | .hall _ => s)
  else if !s.qualified k e then s
  else
    let s := if recForced x.rec_ then s.lgEvent k else s
    if s.blanked k && x.delay.isNone then
      (if recForced x.rec_ then s
       else s.setLg k { s.lg k with delay := some (s.now16 + ns16 (4 * recOn x.rec_ 1)) })
    else s.incFld Reg.pwmGrpCntEvMissed (lgBase k)

/-- MASK_STEP (R301, R303, R304): the commutation delay ends. -/
def execMaskStep (group : Nat) (s : State) : Host.Outcome State Fault Refusal :=
  .next (match (s.lg group).delay with
    | none => s
    | some t =>
      if 8 ≤ group || !s.awake || !(s.lg group).masked then s
      else (s.advanceTo t).maskStep group t)

/-! ### The delay line, shorts (R294, R308) -/

/-- DELAY_LINE_CALIBRATION (R294): the span of 32 taps less 4 ns, as measured with the trim that stands. A trim that is at the limit towards
which the difference asks for a step stays there. -/
def execDelayLineCalibration (errPs : Int) (s : State) : Host.Outcome State Fault Refusal :=
  .next (if !s.awake then s
    else
      let trim := s.fld Reg.pwmDlyStatTrim
      let next := if 0 < errPs then trim - 1 else if errPs < 0 then min 63 (trim + 1) else trim
      let big := decide (62 < errPs ∨ errPs < -62)
      let was := s.bit Reg.pwmDlyStatDlyErr
      let err := big && (was || next == trim)
      let s := ((s.setFld Reg.pwmDlyStatTrim next).setFld Reg.pwmDlyStatErrPs (BitVec.ofInt 8 (max (-128) (min 127 errPs))).toNat).setBit
        Reg.pwmDlyStatDlyErr err
      if err && !was then s.raise 0x42 1 10 102 else s)

/-- GATE_SHORT_DETECT (R308). -/
def execGateShortDetect (group : Nat) (out : Nat) (s : State) : Host.Outcome State Fault Refusal :=
  .next (if 8 ≤ group || 8 ≤ out || !s.awake then s
    else
      let b := lgBase group
      let x := s.lg group
      let s := (s.setFld Reg.pwmGrpStatShort (Nat.lor (s.fld Reg.pwmGrpStatShort b) (2 ^ out)) b).setLg group { x with fault := true, edges := [] }
      if x.fault then s else s.raise 0x40 1 7 group)

end Sys2Proof.Machine
end

