-- ==== Sys2Proof/Machine/LocalIo.lean ====
section
/-! DEFINITION. The ADC unit (R309 to R317), the feedback unit (R318 to R325), node flags (R326, R327) and the local I/O commands
(R328).
Log: DEDUCED 84, 85, 86, 88, 89, 177, 192, 201. DESIGN CHOICE 87. -/

namespace Sys2Proof.Machine

/-! ### Units by number -/

def State.conv (s : State) (j : Nat) : AdcSt := Tab.get {} s.adcs j
def State.setConv (s : State) (j : Nat) (x : AdcSt) : State := { s with adcs := Tab.put {} s.adcs j x }
def State.fb (s : State) (k : Nat) : FbSt := Tab.get {} s.fbs k
def State.setFb (s : State) (k : Nat) (x : FbSt) : State := { s with fbs := Tab.put {} s.fbs k x }

/-! ### Sequence tables (R310, R311) -/

/-- The offset of entry `i` of ADC_j from the first entry of the window. -/
def seqOff (j i : Nat) : Nat := 0x100 * j + 4 * i
def State.seqKind (s : State) (j i : Nat) : Nat := s.fld Reg.adcSeqKind (seqOff j i)
def State.seqUrg (s : State) (j i : Nat) : Bool := s.bit Reg.adcSeqUrg (seqOff j i)
/-- The input an entry converts. -/
def State.seqChan (s : State) (j i : Nat) : Nat := 3 * j + s.fld Reg.adcSeqMux (seqOff j i)
def State.seqSample (s : State) (j i : Nat) : Int := 5 * s.fld Reg.adcSeqOffset (seqOff j i)

/-- The entries a table comes to in a cycle: to its end, or once through its loop. -/
def State.seqReach (s : State) (j : Nat) : Nat → Nat → List Nat → List Nat
  | 0, _, acc => acc
  | fuel + 1, i, acc =>
    if 64 ≤ i || acc.contains i then acc
    else match s.seqKind j i with
      | 3 => acc
      | 2 => State.seqReach s j fuel (s.fld Reg.adcSeqOffset (seqOff j i) % 64) (acc ++ [i])
      | _ => State.seqReach s j fuel (i + 1) (acc ++ [i])

/-- A conversion started now. -/
def State.convStart (s : State) (j entry chan : Nat) (urgent rst early : Bool) : State :=
  s.setConv j { s.conv j with run := some { entry := entry, chan := chan, urgent := urgent, rst := rst, early := early, start := s.now16 } }

/-- A table that comes to an entry: the entry itself, or where loops lead from it, past urgent ones already served; 64 at an end. -/
def State.seqAt (s : State) (j : Nat) : Nat → Nat → Nat
  | 0, _ => 64
  | fuel + 1, i =>
    if 64 ≤ i then 64
    else match s.seqKind j i with
      | 2 => State.seqAt s j fuel (s.fld Reg.adcSeqOffset (seqOff j i) % 64)
      | 3 => 64
      | _ => if (s.conv j).took.contains i then State.seqAt s j fuel (i + 1) else i

/-- A table goes on at entry `i` on a free converter: an entry of kind 1, or a timed one that has come due, starts at once, another
timed one waits for its instant; outside the guard the converter waits for edge E. -/
def State.seqGo (s : State) (j : Nat) (guardOpen : Bool) (i : Nat) : State :=
  let i := s.seqAt j 65 i
  let x := s.conv j
  let starts := decide (i < 64) && (s.seqKind j i == 1 || x.due)
  if starts && guardOpen then (s.setConv j { x with idx := i + 1, due := false }).convStart j i (s.seqChan j i) (s.seqUrg j i) false false
  else s.setConv j { x with idx := if starts then 64 else i, due := false }

/-- A conversion that starts at an instant ends not later than 30 ns before the next edge E (R311). -/
def State.convFits (s : State) (t : Int) : Bool :=
  match s.edgeAt (s.cycle + 1#32) with
  | some e => decide (t + ns16 230 ≤ e)
  | none => true

/-- A table goes on when a conversion has ended: a timed entry whose start has gone by meanwhile found the converter busy, so it is due and
counted late (R311). -/
def State.seqNext (s : State) (j : Nat) (guardOpen : Bool) (i : Nat) : State :=
  let e := s.seqAt j 65 i
  let gone := match s.instant s.cycle (s.seqSample j e - 30) with | some t => decide (t < s.now16) | none => false
  if decide (e < 64) && s.seqKind j e == 0 && !(s.conv j).due && gone && guardOpen then
    ((s.incFld Reg.adcStatLate).setConv j { s.conv j with due := true }).seqGo j guardOpen i
  else s.seqGo j guardOpen i

/-- A running non-urgent conversion makes way for urgent work: fewer than 7 of its decisions are complete (R312). -/
def State.mayAbort (s : State) (r : Conv) : Bool := !r.urgent && decide (s.now16 - r.start < ns16 100)

/-- The restart of a table at edge E (R311, R312): a conversion that began early for this cycle goes on, unless an urgent request that had to
wait for the edge takes its place; an aborted entry that has not restarted is dropped. -/
def State.convEdge (s : State) (j : Nat) : State :=
  let x := s.conv j
  let s := if x.aborted.isSome then s.incFld Reg.adcStatDropped else s
  let x : AdcSt := { x with aborted := none, due := false, idx := 0, took := [], urgent := x.urgent.filter (fun u => u.1 == 64) }
  match x.run, x.urgent with
  | some r, (e, ch) :: rest =>
    let x : AdcSt := { x with idx := bitN r.early }
    if s.mayAbort r then
      ((s.incFld Reg.adcStatAborts).setConv j { x with urgent := rest, aborted := if r.entry < 64 then some r.entry else none }).convStart j e ch
        true false false
    else s.setConv j { x with run := some { r with early := false } }
  | some r, [] => s.setConv j { x with idx := bitN r.early, run := some { r with early := false } }
  | none, (e, ch) :: rest => (s.setConv j { x with urgent := rest }).convStart j e ch true false false
  | none, [] => (s.setConv j x).seqGo j true 0

/-- An urgent request of an entry for a channel (R312); one that would end too late waits for edge E (R311). -/
def State.urgentReq (s : State) (j entry chan : Nat) : State :=
  let x := s.conv j
  match x.run with
  | none => if s.convFits s.now16 then s.convStart j entry chan true false false else s.setConv j { x with urgent := x.urgent ++ [(entry, chan)] }
  | some r =>
    if s.mayAbort r && s.convFits s.now16 then
      ((s.incFld Reg.adcStatAborts).setConv j { x with aborted := if r.entry < 64 then some r.entry else x.aborted }).convStart j entry chan
        true false false
    else s.setConv j { x with urgent := x.urgent ++ [(entry, chan)] }

/-- The first urgent timed entry that stands behind the one the table has come to: its request does not wait for that one (R312). -/
def State.urgentAhead (s : State) (j : Nat) : Option Nat :=
  let x := s.conv j
  let i := s.seqAt j 65 x.idx
  (s.seqReach j 65 i []).find? (fun e => decide (i < e) && s.seqKind j e == 0 && s.seqUrg j e && !x.took.contains e
    && (match s.instant s.cycle (s.seqSample j e - 30) with | some t => s.convFits (max t s.now16) | none => true))

/-- The timed entry that comes next on a converter, with the cycle it belongs to: the entry the table has come to, unless it has come
due or can no longer end in time; an urgent one behind it; or entry 0 of the coming cycle where that starts before edge E. -/
def State.timedNext (s : State) (j : Nat) : Option (Nat × Bool) :=
  let x := s.conv j
  let i := s.seqAt j 65 x.idx
  let fits := match s.instant s.cycle (s.seqSample j i - 30) with
    | some t => s.convFits (max t s.now16)
    | none => true
  if i < 64 && s.seqKind j i == 0 && !x.due && fits then some (i, false)
  else if let some e := s.urgentAhead j then some (e, false)
  else if s.seqKind j 0 == 0 && decide (s.seqSample j 0 < 30) && x.run.isNone then some (0, true)
  else none

/-- A timed entry taken: the table goes on behind it, or will pass it over. -/
def State.seqTake (s : State) (j i : Nat) : State :=
  let x := s.conv j
  s.setConv j (if s.seqAt j 65 x.idx = i then { x with idx := i + 1 } else { x with took := x.took ++ [i] })

/-- ADC_TIMED_START (R311, R312): on a busy converter the entry waits, counted late, or, urgent, makes its request. -/
def execAdcTimedStart (conv : Nat) (s : State) : Host.Outcome State Fault Refusal :=
  .next (if 16 ≤ conv || !s.bit Reg.adcCtrlRunning || !s.awake then s
    else match s.timedNext conv with
      | none => s
      | some (i, early) =>
        let s := match s.instant (if early then s.cycle + 1#32 else s.cycle) (s.seqSample conv i - 30) with
          | some t => s.advanceTo t
          | none => s
        let x := s.conv conv
        let go := fun s : State => if early then s else s.seqTake conv i
        if x.run.isNone then (go s).convStart conv i (s.seqChan conv i) (s.seqUrg conv i) false early
        else
          let urg := s.seqUrg conv i
          let s := if urg && (match x.run with | some r => s.mayAbort r | none => false) then s else s.incFld Reg.adcStatLate
          if urg then (go s).urgentReq conv i (s.seqChan conv i) else s.setConv conv { x with idx := i, due := true })

/-- ADC_URG_WRITE (R312). -/
def execAdcUrgWrite (w : RegWrite) (s : State) : Host.Outcome State Fault Refusal :=
  .next (s.ownWrite w (w.off == 0x340008) (fun s =>
    let ch := bitsOf w.data.toNat 5 0
    if 48 ≤ ch then s.setBit Reg.adcCtrlCfgWarn true else s.urgentReq (ch / 3) 64 ch))

/-! ### Results (R313, R314, R316) -/

/-- A 20-bit offset as a signed number. -/
def signed20 (n : Nat) : Int := if n < 2 ^ 19 then n else (n : Int) - 2 ^ 20

/-- The calibrated code of a raw code (R314). -/
def State.calibrated (s : State) (ch raw : Nat) : Nat :=
  let g := (s.fld Reg.adcGainGain (4 * ch) : Int)
  let o := signed20 (s.fld Reg.adcOffOff (4 * ch))
  (max 0 (min 16383 (((raw : Int) * g + o * 4096 + 32768) / 65536))).toNat

/-- ADC_OVR and the raising of ADC_OVR for a channel. -/
def State.noteOvr (s : State) (ch : Nat) (was : Bool) : State :=
  let s := if ch < 32 then s.setReg 0x340010 (s.reg 0x340010 ||| BitVec.ofNat 32 (2 ^ ch))
    else s.setReg 0x340014 (s.reg 0x340014 ||| BitVec.ofNat 32 (2 ^ (ch - 32)))
  if was then s else s.raise 0x43 1 8 ch

/-- A result of a selected input goes to the cycle of its sample instant (R463, R464). -/
def State.indResult (s : State) (ch : Nat) (word : Word) (sample : Int) : State :=
  let sel := if ch < 32 then (s.reg 0x600030).getLsbD ch else (s.reg 0x600034).getLsbD (ch - 32)
  if !s.isA || !sel then s
  else
    let before := match s.edgeAt s.cycle with | some e => decide (sample < e) | none => false
    let b := if before then s.ind.prev else s.ind.cur
    let b := { b with adc := b.adc ++ [(ch, word)] }
    { s with ind := if before then { s.ind with prev := b } else { s.ind with cur := b } }

/-- A result taken for a record field: nb and ovr of the entry's earlier conversions of the cycle stay in force (R317). -/
def State.dstWith (s : State) (key : Nat) (r : DstRes) : DstRes :=
  match s.adc.dst.find? (fun e => decide (e.1 = key)) with
  | some e => { r with nb := r.nb || e.2.nb, ovr := r.ovr || e.2.ovr }
  | none => r

/-- ADC_CONVERSION_COMPLETE (R309, R311 to R313, R316, R317). -/
def execAdcConversionComplete (conv : Nat) (r : AdcRaw) (s : State) : Host.Outcome State Fault Refusal :=
  .next (match (s.conv conv).run with
    | none => s
    | some c =>
      if 16 ≤ conv || !s.awake then s
      else
        let s := s.advanceTo (c.start + ns16 200)
        let x := s.conv conv
        let ovr := r.above || r.below
        let code := if r.below then 0 else if r.above then 16383 else s.calibrated c.chan r.code.toNat
        let nb := match x.lastOvr with | some n => n != c.chan | none => false
        let was := (s.reg (0x340100 + 4 * c.chan)).getLsbD 31
        let word := bitN ovr * 2 ^ 31 + bitN nb * 2 ^ 30 + bitN c.rst * 2 ^ 29 + (if c.entry = 64 then 63 else c.entry) * 65536 + code
        let s := s.setReg (0x340100 + 4 * c.chan) (BitVec.ofNat 32 word)
        let s := if ovr then s.noteOvr c.chan was else s
        let o := seqOff conv c.entry
        let seq := decide (c.entry < 64)
        let s := if seq && s.bit Reg.adcSeqChop o then s.feedCoil (s.fld Reg.adcSeqGrp o) (s.bit Reg.adcSeqCoil o) code ovr else s
        let key := 64 * conv + c.entry
        let s : State := if seq && s.fld Reg.adcSeqDst o ≠ 0 then
            { s with adc := { s.adc with dst := s.adc.dst.filter (fun e => !decide (e.1 = key)) ++ [(key, s.dstWith key ⟨code, nb, ovr⟩)] } } else s
        let s := s.indResult c.chan (BitVec.ofNat 32 word) (c.start + ns16 30)
        let x : AdcSt := { x with run := none, lastOvr := if ovr then some c.chan else none }
        let open_ := s.convFits s.now16
        match x.urgent, x.aborted with
        | (e, ch) :: rest, _ =>
          if open_ then (s.setConv conv { x with urgent := rest }).convStart conv e ch true false false
          else s.setConv conv { x with idx := 64 }
        | [], some e =>
          if open_ then (s.setConv conv { x with aborted := none }).convStart conv e (s.seqChan conv e) false true false
          else s.setConv conv x
        | [], none => (s.setConv conv x).seqNext conv open_ x.idx)

/-! ### Calibration (R314, R315) -/

/-- G and O as the reply's data. -/
def State.calData (s : State) (ch : Nat) : List Byte :=
  leBytes 4 (s.fld Reg.adcGainGain (4 * ch)) ++ leBytes 4 (s.fld Reg.adcOffOff (4 * ch))

/-- G of two points, each a sum of 64 raw codes and a target, halves upward. -/
def calGain (p0 p1 : Nat × Nat) : Int :=
  let d := (p1.1 : Int) - p0.1
  (2 * 65536 * 64 * ((p1.2 : Int) - p0.2) + d) / (2 * d)

/-- O of the first point and G. -/
def calOffset (p0 : Nat × Nat) (g : Int) : Int := (16 * (p0.2 : Int) * 65536 * 64 - 16 * p0.1 * g + 32768 * 64) / (65536 * 64)

/-- ADC_CAL_POINT. -/
def specAdcCalPoint : CmdSpec :=
  { opcode := 0x0C02, rank := 4, later := true, named := [(0, 4)]
    bad := fun _ c => decide (48 ≤ c.p8 0) || decide (1 < c.p8 1) || decide (16383 < c.p16 2)
    mode := fun s _ => decide (s.mode ≠ .configure ∧ s.mode ≠ .commission)
    busy := fun s _ => s.adc.cal.isSome
    run := fun s c seq _ => ({ s with adc := { s.adc with cal := some (seq, c.p8 0, c.p8 1, c.p16 2), calAt := s.time.ran } }, { wait := true }) }

def execAdcCalPoint (r : CmdReq) (s : State) : Host.Outcome State Fault Refusal := .next (s.command specAdcCalPoint r)

/-- The command of the calibration under way. -/
def State.calCmd (s : State) : Option ((Nat × CmdIn) × Nat × Nat × Nat) :=
  match s.adc.cal, s.resultOf 0x0C02 with
  | some (_, ch, pt, tgt), some x => some (x, ch, pt, tgt)
  | _, _ => none

def State.calDone (s : State) : State := { s with adc := { s.adc with cal := none } }

/-- ADC_CAL_COMPLETE (R314, R315): the sum of the 64 raw codes, and whether one was out of range. -/
def execAdcCalComplete (sum : Nat) (ovr : Bool) (s : State) : Host.Outcome State Fault Refusal :=
  .next (match s.calCmd with
    | none => s
    | some (x, ch, pt, tgt) =>
      let s := s.calDone
      if ovr then s.finish x 0x0A {}
      else if pt = 0 then
        let s : State := { s with adc := { s.adc with points := Tab.ins (Tab.drop s.adc.points ch) ch (sum, tgt) } }
        s.finish x 0 { data := s.calData ch }
      else match Tab.find s.adc.points ch with
        | none => s.finish x 0x0A {}
        | some p0 =>
          let g := calGain p0 (sum, tgt)
          if sum < p0.1 + 65536 || g < 0x8000 || 0x1FFFF < g then s.finish x 0x0A {}
          else
            let s := (s.setFld Reg.adcGainGain g.toNat (4 * ch)).setFld Reg.adcOffOff (BitVec.ofInt 20 (calOffset p0 g)).toNat (4 * ch)
            s.finish x 0 { data := s.calData ch })

/-- ADC_CAL_TIMEOUT (R315): the counter runs on to 10 ms, 5,000,000 ticks, after the command. -/
def execAdcCalTimeout (s : State) : Host.Outcome State Fault Refusal :=
  .next (match s.calCmd with
    | none => s
    | some (x, _) => (s.runTo (s.adc.calAt + 5000000)).calDone.finish x 9 {})

/-! ### Faults and warnings of an interface (R325 to R327) -/

def State.fbMode (s : State) (k : Nat) : Nat := s.fld Reg.fbCfgMode (fbBase k)

/-- The warning condition of an interface: bit 4 of R326, with a qerr of this cycle or the last (log entry 177), and the loss of Z
(R325). -/
def State.fbWarns (s : State) (k : Nat) : Bool :=
  let b := fbBase k
  s.bit Reg.fbStatSwapDet b || s.bit Reg.fbStatZerr b || s.bit Reg.fbStatHallErr b || s.bit Reg.fbStatWarn b || (s.fb k).qerr || (s.fb k).qerrOld
    || (s.fbMode k == 1 && (s.fld Reg.fbStatLost b) % 2 == 1)

/-- FB_WARN raised on the rising edge of the condition. -/
def State.fbNote (s : State) (k : Nat) : State :=
  let w := s.fbWarns k
  let x := s.fb k
  let s := if w && !x.warned then s.raise 0x45 1 9 k else s
  s.setFb k { s.fb k with warned := w }

/-- The fault of an interface latched (R325). -/
def State.fbFault (s : State) (k : Nat) : State :=
  if s.bit Reg.fbStatFault (fbBase k) then s else (s.setBit Reg.fbStatFault true (fbBase k)).raise 0x44 1 9 k

/-! ### Counting (R319 to R321) -/

/-- Counts per revolution. -/
def State.cpr (s : State) (k : Nat) : Nat :=
  let c := s.fld Reg.fbCprCpr (fbBase k)
  if c = 0 then 2 ^ 32 else c

/-- The time value in units of 2.5 ns, modulo 2^32. -/
def stamp25 (x : Int) : Word := BitVec.ofInt 32 (x / 163840)

/-- The counts per revolution by which Woad B counts the inputs of an interface: those of the local axis whose group has it (R403). -/
def State.shadowCpr (s : State) (k : Nat) : Nat :=
  match (((s.image.bind Image.safety).map SafetySet.axes).getD []).find? (fun a => decide (256 ≤ a.axis) && s.fld Reg.pwmGrpCfgFb (lgBase (a.axis - 256)) == k) with
  | some a => if a.cpr = 0 then 2 ^ 32 else a.cpr
  | none => 2 ^ 32

/-- Woad B's own counter of the A and B inputs of an interface (R403): presets, the zeroing at Z and a corrected swap of the control side do
not touch it (R398; log entry 201). -/
def State.shadowStep (s : State) (k : Nat) (down : Bool) : State :=
  let n := s.shadowCpr k
  let pos := (Tab.get 0#32 s.woad.shadow k).toNat
  let pos := if down then (if pos = 0 then n - 1 else pos - 1) else if n ≤ pos + 1 then 0 else pos + 1
  { s with woad := { s.woad with shadow := Tab.put 0#32 s.woad.shadow k (BitVec.ofNat 32 pos) } }

/-- An edge of the inputs as Woad B's receivers see it, in whatever mode the part is; in the serial modes the pins carry no edges. -/
def State.shadowEdge (s : State) (k : Nat) (e : QuadEdge) : State :=
  if 2 ≤ s.fbMode k then s
  else match e with
    | .up => s.shadowStep k false
    | .down => s.shadowStep k true
    | .both => s

/-- One counted edge. -/
def State.countEdge (s : State) (k : Nat) (down : Bool) : State :=
  let b := fbBase k
  let pos := s.fld Reg.fbPos b
  let n := s.cpr k
  let pos := if down then (if pos = 0 then n - 1 else pos - 1) else if n ≤ pos + 1 then 0 else pos + 1
  let x := s.fb k
  let dt := match x.stamp, x.down with
    | some t, some d => if d == down then stamp25 s.now16 - stamp25 t else 0#32
    | _, _ => 0#32
  let s := ((s.setFld Reg.fbPos pos b).setFld Reg.fbDt dt.toNat b).setBit Reg.fbStatDir down b
  s.setFb k { x with stamp := some s.now16, down := some down, moved := x.moved + (if down then -1 else 1) }

/-- FB_QUAD_EDGE (R319, R321, R403). -/
def execFbQuadEdge (fb : Nat) (e : QuadEdge) (s : State) : Host.Outcome State Fault Refusal :=
  .next (if 8 ≤ fb || !s.woadOn then s
    else
      let s := s.shadowEdge fb e
      if !s.awake || s.fbMode fb ≠ 1 then s
      else
      let swap := s.bit Reg.fbStatSwapFixed (fbBase fb)
      match e with
      | .both => ((s.incFld Reg.fbStatQerr (fbBase fb)).setFb fb { s.fb fb with qerr := true }).fbNote fb
      | .up => s.countEdge fb swap
      | .down => s.countEdge fb (!swap))

/-- The distance of two counts on a circle of `n`. -/
def circDist (n a b : Nat) : Nat := min ((a + n - b % n) % n) ((b + n - a % n) % n)

/-- FB_Z_EDGE (R320). -/
def execFbZEdge (fb : Nat) (s : State) : Host.Outcome State Fault Refusal :=
  .next (
    let b := fbBase fb
    let z := s.fld Reg.fbCfgZMode b
    if 8 ≤ fb || !s.awake || s.fbMode fb ≠ 1 || z = 0 then s
    else
      let pos := s.fld Reg.fbPos b
      let s := s.setFld Reg.fbZlatch pos b
      let x := s.fb fb
      match z with
      | 2 => if x.zeroed then s else (s.setFld Reg.fbPos 0 b).setFb fb { x with zeroed := true }
      | 3 =>
        (match x.firstZ with
          | none => s.setFb fb { x with firstZ := some (BitVec.ofNat 32 pos) }
          | some f => if s.fld Reg.fbCfgZTol b < circDist (s.cpr fb) pos f.toNat then (s.setBit Reg.fbStatZerr true b).fbNote fb else s)
      | _ => s)

/-! ### Hall inputs (R324, R325) -/

/-- The place of a Hall state in the map. -/
def State.hallPlace (s : State) (fb h : Nat) : Option Nat := (List.range 6).find? (fun e => s.hallEntry fb e == h)

/-- The swap test on one valid transition (R325): the direction of the Hall inputs against the sign of the count. -/
def State.swapTest (s : State) (fb : Nat) (positive : Bool) : State :=
  let x := s.fb fb
  if s.fbMode fb ≠ 1 || x.moved = 0 then s
  else if decide (0 < x.moved) == positive then s.setFb fb { x with bad := 0 }
  else
    let n := x.bad + 1
    let s := s.setFb fb { x with bad := n }
    if n < 6 then s
    else
      let s := s.setBit Reg.fbStatSwapDet true (fbBase fb)
      let fix := s.bit Reg.fbCfgSwapFix (fbBase fb) && !s.bit Reg.fbStatSwapFixed (fbBase fb)
      s.setFb fb { s.fb fb with swapNext := (s.fb fb).swapNext || fix }

/-- The groups that count Hall transitions of an interface (R303): mask = 0, source Hall. -/
def State.hallGroups (s : State) (fb : Nat) : List Nat :=
  (List.range 8).filter (fun k => s.fld Reg.pwmGrpCfgFb (lgBase k) == fb && s.bit Reg.pwmGrpMaskSrc (lgBase k) && !(s.lg k).masked
    && s.bit Reg.pwmGrpCfgEn (lgBase k))

/-- The groups whose mask takes its events from the Hall inputs of an interface (R302). -/
def State.hallMasks (s : State) (fb : Nat) : List Nat :=
  (List.range 8).filter (fun k => s.fld Reg.pwmGrpCfgFb (lgBase k) == fb && s.bit Reg.pwmGrpMaskSrc (lgBase k) && (s.lg k).masked)

/-- A Hall state of an interface whose Hall inputs are read, the first one read or a new one (R302, R303, R324, R325). -/
def State.hallChange (s : State) (fb : Nat) (hall : BitVec 3) : State :=
  let h := hall.toNat
  let x := { s.fb fb with hallPin := some h }
  let s := s.setFb fb x
  if !s.bit Reg.fbCfgHallEn (fbBase fb) || (x.hallRead && h == x.hall) then s
  else
    let s := s.setFb fb { x with hall := h, hallRead := true }
    if h = 0 || h = 7 then (s.setBit Reg.fbStatHallErr true (fbBase fb)).fbNote fb
    else
      let s := match x.valid.bind (s.hallPlace fb), s.hallPlace fb h with
        | some a, some b =>
          if b = (a + 1) % 6 then (s.hallGroups fb).foldl State.lgEvent (s.swapTest fb true)
          else if a = (b + 1) % 6 then (s.hallGroups fb).foldl State.lgEvent (s.swapTest fb false)
          else s
        | _, _ => s
      let s := (s.hallMasks fb).foldl (fun s k => s.maskEvent k (.hall hall)) s
      (s.setFb fb { s.fb fb with valid := some h, moved := 0 }).fbNote fb

/-- The Hall inputs of an interface come to be read: what stands at them is its first state (R324). -/
def State.hallStart (s : State) (fb : Nat) : State :=
  let x := s.fb fb
  let s := s.setFb fb { x with hallRead := false, valid := none, moved := 0 }
  match x.hallPin with
  | some h => s.hallChange fb (BitVec.ofNat 3 h)
  | none => s

/-- FB_HALL_CHANGE. -/
def execFbHallChange (fb : Nat) (hall : BitVec 3) (s : State) : Host.Outcome State Fault Refusal :=
  .next (if 8 ≤ fb || !s.awake then s else s.hallChange fb hall)

/-- MASK_EVENT (R302, R303): an edge of a ZC input of the group, or a change of the Hall state of its interface where that is its
source. -/
def execMaskEvent (group : Nat) (e : MaskEdge) (s : State) : Host.Outcome State Fault Refusal :=
  .next (if 8 ≤ group || !s.awake then s
    else match e with
      | .zc _ _ => s.maskEvent group e
      | .hall h =>
        if s.bit Reg.pwmGrpMaskSrc (lgBase group) then s.hallChange (s.fld Reg.pwmGrpCfgFb (lgBase group)) h else s)

/-! ### Serial sensors (R323) -/

/-- Gray code decoded. -/
def grayDecode (g : Nat) : Nat → Nat
  | 0 => 0
  | n + 1 => Nat.xor g (grayDecode (g / 2) n)

/-- The position field of a frame. -/
def State.serField (s : State) (k data : Nat) : Nat :=
  let b := fbBase k
  let w := s.fld Reg.fbSerPosWidth b
  let f := data / 2 ^ s.fld Reg.fbSerPosLsb b % 2 ^ w
  (if s.bit Reg.fbSerGray b then grayDecode f w else f) % s.cpr k

/-- The bits of a number, most significant first. -/
def bitsMsb (n v : Nat) : List Nat := (List.range n).map (fun i => v / 2 ^ (n - 1 - i) % 2)

/-- A framed serial frame passes its checks. -/
def State.frameGood (s : State) (k : Nat) (f : SerialFrame) : Bool :=
  s.fbMode k != 3
    || (f.startOk && f.guardOk && !f.err
      && crc6Bits (bitsMsb (s.fld Reg.fbSerLen (fbBase k)) f.data ++ [bitN f.err, bitN f.warn]) == f.check.toNat)

/-- The extended token of an interface (R322): position, stamp and interval, or a hold where no serial position has come (R141). -/
def State.fbExt (s : State) (k : Nat) (good : Bool) : State :=
  let b := fbBase k
  if !s.bit Reg.fbCfgExt b then s
  else match ((s.image.map Image.fbExt).getD []).find? (fun e => e.1 == k) with
    | some (_, q) => s.liveSource fbPort q s.cycle (if good then some [s.reg (b + 0x18), s.reg (b + 0x1C), s.reg (b + 0x20)] else none)
    | none => s

/-- A failed frame: the consecutive failures, and the fault at the third. -/
def State.serFail (s : State) (k : Nat) : State :=
  let b := fbBase k
  let x := s.fb k
  let s := ((s.incFld Reg.fbStatSerFail b).setBit Reg.fbStatSerErr true b).setFb k { x with waits := false, passed := false, good := false, prev := none }
  let s := if x.passed then s.fbExt k false else s
  if 3 ≤ s.fld Reg.fbStatSerFail b then s.fbFault k else s

/-- The wrap-corrected signed difference of two positions. -/
def wrapDiff (n : Nat) (a b : Int) : Int :=
  let d := (a - b) % (n : Int)
  if (n : Int) < 2 * d then d - n else d

/-- FB_SERIAL_REQUEST: at E − lead of the coming cycle. -/
def execFbSerialRequest (fb : Nat) (s : State) : Host.Outcome State Fault Refusal :=
  .next (if 8 ≤ fb || !s.awake || s.fbMode fb < 2 || (s.fb fb).waits || !s.edgesRun then s
    else
      let s := match s.instant (s.cycle + 1#32) (-(s.fld Reg.fbLeadLead (fbBase fb) : Int)) with
        | some t => s.advanceTo t
        | none => s
      (s.setFb fb { s.fb fb with waits := true, good := false }).emit (.serialRequest fb))

/-- FB_SERIAL_FRAME. -/
def execFbSerialFrame (fb : Nat) (f : SerialFrame) (s : State) : Host.Outcome State Fault Refusal :=
  .next (if 8 ≤ fb || !s.awake || !(s.fb fb).waits || s.fbMode fb < 2 then s
    else
      let b := fbBase fb
      if !s.frameGood fb f then (s.serFail fb).fbNote fb
      else
        let x := s.fb fb
        let p := s.serField fb f.data
        let n := s.cpr fb
        let lead := (s.fld Reg.fbLeadLead b : Int)
        let rate := (s.rate : Int)
        let pos := match x.prev with
          | some q =>
            if s.bit Reg.fbCfgExtrap b then
              (((p : Int) + (2 * wrapDiff n p q.toNat * lead * rate + 1000000000) / 2000000000) % (n : Int)).toNat
            else p
          | none => p
        let s := ((s.setFld Reg.fbStatSerFail 0 b).setBit Reg.fbStatSerErr false b).setBit Reg.fbStatWarn (f.warn && s.fbMode fb == 3) b
        let s := s.setFld Reg.fbPos pos b
        let s := (s.setFb fb { x with waits := false, passed := false, good := true, prev := some (BitVec.ofNat 32 p) }).fbNote fb
        if x.passed then (s.setFld Reg.fbLatchPos pos b).fbExt fb true else s)

/-- FB_SERIAL_DEADLINE: E + 170 ns. -/
def execFbSerialDeadline (fb : Nat) (s : State) : Host.Outcome State Fault Refusal :=
  .next (if 8 ≤ fb || !s.awake || !(s.fb fb).waits || !(s.fb fb).passed || s.fbMode fb < 2 then s
    else ((s.toInstant 170).serFail fb).fbNote fb)

/-- FB_PAIR_LOSS (R325): what the detector of a used pair shows, pair 0 A, 1 B, 2 Z. The lost bits are live; the loss of A, B or the
data pair latches fault. -/
def execFbPairLoss (fb : Nat) (pair : Nat) (x : PairShow) (s : State) : Host.Outcome State Fault Refusal :=
  .next (
    let b := fbBase fb
    let used := match s.fbMode fb with | 0 => false | 1 => decide (pair < 3) | _ => pair == 1
    let mask := 2 ^ (2 - pair)
    let lost := s.fld Reg.fbStatLost b
    if 8 ≤ fb || !s.awake || !used then s
    else match x with
      | .good =>
        let s := s.setFld Reg.fbStatLost (Nat.land lost (7 - mask)) b
        (if s.fld Reg.fbStatLost b = 0 then s.setBit Reg.fbStatShorted false b else s).fbNote fb
      | _ =>
        let s := (s.setFld Reg.fbStatLost (Nat.lor lost mask) b).setBit Reg.fbStatShorted (x == .shorted) b
        (if pair = 2 then s else s.fbFault fb).fbNote fb)

/-! ### Edge E (R322, R325) -/

/-- The latches of edge E: counter or serial position, stamp, interval, Hall inputs; the exchange of A and B; the extended token, which
in modes 2 and 3 waits for a frame under way. -/
def State.fbEdge (s : State) (k : Nat) : State :=
  let b := fbBase k
  let x := s.fb k
  let s := if x.swapNext then s.setBit Reg.fbStatSwapFixed true b else s
  let s := match s.fbMode k with
    | 0 => (s.setFld Reg.fbPos 0 b).setFld Reg.fbLatchPos 0 b
    | 1 => s.setFld Reg.fbLatchPos (s.fld Reg.fbPos b) b
    | _ => if x.good then s.setFld Reg.fbLatchPos (s.fld Reg.fbPos b) b else s
  let s := match x.stamp with
    | some t => s.setFld Reg.fbLatchT (stamp25 t).toNat b
    | none => s
  let hall := if s.bit Reg.fbCfgHallEn b then x.hall else 0
  let wait := x.waits && decide (2 ≤ s.fbMode k)
  let s := (s.setFb k { s.fb k with swapNext := false, qerr := false, qerrOld := x.qerr, hallLat := hall, bad := if x.swapNext then 0 else x.bad, passed := wait }).fbNote k
  if wait then s else s.fbExt k (decide (s.fbMode k < 2) || x.good)

/-! ### Records (R317, R326) -/

/-- Converter entries that fill the record of a group, with the field they fill. -/
def State.dstEntries (s : State) (k : Nat) : List (Nat × Nat) :=
  (List.range 16).flatMap (fun j => (s.seqReach j 65 0 []).filterMap (fun i =>
    let o := seqOff j i
    if s.seqKind j i < 2 && s.fld Reg.adcSeqGrp o == k && s.fld Reg.adcSeqDst o != 0 then some (64 * j + i, s.fld Reg.adcSeqDst o) else none))

/-- The results for a group, oldest first, by field. -/
def State.dstResults (s : State) (k : Nat) : List (Nat × DstRes) :=
  let es := s.dstEntries k
  s.adc.dst.filterMap (fun r => (es.find? (fun e => e.1 == r.1)).map (fun e => (e.2, r.2)))

/-- A field of the record: its latest result, 0 without an entry. -/
def dstField (rs : List (Nat × DstRes)) (f : Nat) : Nat :=
  (((rs.filter (fun r => r.1 == f)).getLast?).map (fun (r : Nat × DstRes) => r.2.code)).getD 0

/-- node_flags of a local axis (R326). -/
def State.localFlags (s : State) (k : Nat) (ovr : Bool) : Nat :=
  let fb := s.fld Reg.pwmGrpCfgFb (lgBase k)
  let o := s.lgOrder k
  bitN (s.lg k).fault + 2 * bitN (s.bit Reg.fbStatFault (fbBase fb) && s.fbMode fb != 0) + 4 * bitN ovr
    + 8 * bitN (o == 1 || o == 2 || o == 5) + 16 * bitN (s.fbWarns fb) + 32 * bitN (s.bit Reg.pwmDlyStatDlyErr)
    + 64 * bitN (s.bit Reg.pwmGrpStatStale (lgBase k))

/-- The sample record of a group for the present cycle; none where the token is a hold. -/
def State.localRecord (s : State) (k : Nat) : State × Option (List Word) :=
  if !s.bit Reg.pwmGrpCfgEn (lgBase k) then (s, none)
  else
    let fb := s.fld Reg.pwmGrpCfgFb (lgBase k)
    let done := (s.dstEntries k).all (fun e => s.adc.dst.any (fun r => r.1 == e.1))
    let rs := s.dstResults k
    let bad := !done || rs.any (fun (r : Nat × DstRes) => r.2.nb)
    let serBad := decide (2 ≤ s.fbMode fb) && !(s.fb fb).good
    let flags := s.localFlags k (rs.any (fun (r : Nat × DstRes) => r.2.ovr))
    let w (hi lo : Nat) : Word := BitVec.ofNat 32 (hi * 65536 + lo)
    if bad then (s.incFld Reg.adcStatHolds, none)
    else if serBad then (s, none)
    else (s, some [w (dstField rs 2) (dstField rs 1), w (dstField rs 4) (dstField rs 3), s.reg (fbBase fb + 0x18),
      BitVec.ofNat 32 ((s.lg k).ev * 65536 + (s.fb fb).hallLat * 8192 + flags)])

/-- ADC_RECORD_DUE (R317). -/
def execAdcRecordDue (s : State) : Host.Outcome State Fault Refusal :=
  .next (if !s.edgesRun || !s.awake || s.adc.sent then s
    else
      let s := s.toInstant (s.fld Reg.adcDueDue)
      let s : State := { s with adc := { s.adc with sent := true } }
      ((List.range 8).foldl (fun s k =>
        if (s.axisCfg (256 + k)).isNone then s
        else
          let y := s.localRecord k
          y.1.axisToken adcPort (256 + k) y.2) s).note)

/-- The local units at edge E: tables restart, results of the last cycle are gone, positions are latched. -/
def State.localEdge (s : State) : State :=
  let s := s.setBit Reg.adcCtrlRunning true
  let s : State := { s with adc := { s.adc with sent := false, dst := [] } }
  let s := (List.range 16).foldl State.convEdge s
  let s := (List.range 8).foldl State.fbEdge s
  (List.range 8).foldl (fun s k => s.setLg k { s.lg k with taken := false }) s

/-! ### Commands (R328) -/

/-- A group or interface byte above 7. -/
def groupBad (c : CmdIn) : Bool := decide (7 < c.p8 0)

/-- LG_STATUS_GET. -/
def specLgStatusGet : CmdSpec :=
  { opcode := 0x0C00, query := true, named := [(0, 1)]
    bad := fun _ c => groupBad c
    run := fun s c _ _ =>
      let k := c.p8 0
      (s, .of (bytesOfWords [s.lgStat k, s.reg (lgBase k + 0x1C), s.reg (fbBase (s.fld Reg.pwmGrpCfgFb (lgBase k)) + 0x28)])) }

/-- Output fault of a group and the latched fault of its interface cleared; the group resumes at the next apply instant (R308, R325). -/
def State.lgClear (s : State) (k : Nat) : State :=
  let b := lgBase k
  let fb := s.fld Reg.pwmGrpCfgFb b
  let x := s.lg k
  let s := (s.setFld Reg.pwmGrpStatShort 0 b).setBit Reg.fbStatFault false (fbBase fb)
  if x.fault then s.setLg k { x with fault := false, started := false, base := 0, carry := [], edges := [] } else s

/-- LG_FAULT_CLEAR. -/
def specLgFaultClear : CmdSpec :=
  { opcode := 0x0C01, rank := 2, fenced := true, named := [(0, 1)]
    bad := fun _ c => groupBad c
    effect := fun s c _ => s.lgClear (c.p8 0) }

/-- An interface serves an axis that is not in OFF. -/
def State.fbServes (s : State) (fb : Nat) : Bool :=
  (List.range 8).any (fun k => s.fld Reg.pwmGrpCfgFb (lgBase k) == fb && (s.axisCfg (256 + k)).isSome
    && decide ((s.axis (256 + k)).mode ≠ .off))

/-- FB_POS_SET. -/
def specFbPosSet : CmdSpec :=
  { opcode := 0x0C03, rank := 4, fenced := true, named := [(0, 1), (4, 4)]
    bad := fun s c => groupBad c || decide (2 ≤ s.fbMode (c.p8 0)) || decide (s.cpr (c.p8 0) ≤ c.p32 4)
    mode := fun s c => decide (s.mode = .run) && s.fbServes (c.p8 0)
    effect := fun s c _ => s.setFld Reg.fbPos (c.p32 4) (fbBase (c.p8 0)) }

def execLgStatusGet (r : CmdReq) (s : State) : Host.Outcome State Fault Refusal := .next (s.command specLgStatusGet r)
def execLgFaultClear (r : CmdReq) (s : State) : Host.Outcome State Fault Refusal := .next (s.command specLgFaultClear r)
def execFbPosSet (r : CmdReq) (s : State) : Host.Outcome State Fault Refusal := .next (s.command specFbPosSet r)

end Sys2Proof.Machine
end

