-- ==== Sys2Proof/Machine/MemPort.lean ====
section
/-! DEFINITION. Accesses to cell, block and region memory from outside the cores (R50 to R56, R481, R482): the windows, error correction,
poison, host-writable ranges.
Log: DEDUCED 93. DESIGN CHOICE 182. -/

namespace Sys2Proof.Machine

/-- A whole range lies in one window. -/
def inOneUnit (a n : Nat) : Bool := (memUnit a).isSome && memUnit a == memUnit (a + n - 1)

/-- The unit whose memory holds an offset is held in reset (R29). -/
def State.unitDown (s : State) (a : Nat) : Bool :=
  match memUnit a with
  | none => false
  | some u =>
    if u % 32 = 0 then s.regionDown (u / 32)
    else if u % 32 ≤ 4 then s.blockDown (4 * (u / 32) + u % 32 - 1)
    else s.cellDown (16 * (u / 32) + u % 32 - 5)

/-- A write from outside the cores; a unit held in reset discards it (R29), and descriptors take it in CONFIGURE alone (R126). -/
def State.portWrite (s : State) (a : Nat) (bs : List Byte) : State := if s.unitDown a then s else (s.descWrite a bs).blockWrite a bs

/-- A read from outside the cores: the bytes, and whether a word was poisoned; then a cell raises ECC (R56). A unit held in reset gives
zeros, poisoned (R29). The ECC it raises is no fault of the operation that runs (log entry 182). -/
def State.portRead (s : State) (a n : Nat) : State × List Byte × Bool :=
  if s.unitDown a then (s, List.replicate n 0#8, true)
  else
  let ws := eccWords a n
  let bs := s.memBytes a n
  let s := s.correct ws
  let bad := s.flip2.any (fun x => ws.contains x)
  let s := if bad then (match memCell a with
      | some c => s.cellFault c 1 (s.cell c).pc.toNat
      | none => s) else s
  (s, bs, bad)

/-- The host-writable ranges of a region (R482): start within the window, and length. -/
def State.hwRanges (s : State) (region : Nat) : List (Nat × Nat) :=
  (((s.image.map Image.hwr).getD []).filter (fun h => h.1 == region)).map (fun (h : Nat × Nat × Nat × Nat) => (h.2.2.1, h.2.2.2))

/-- Some ranges, each a start and a length, cover the bytes from `a` up to `e`, one after the other. -/
def covered (rs : List (Nat × Nat)) : Nat → Nat → Nat → Bool
  | 0, a, e => decide (e ≤ a)
  | k + 1, a, e =>
    let next := ((rs.filter (fun h => decide (h.1 ≤ a))).map (fun h => h.1 + h.2)).foldl max a
    decide (e ≤ a) || (decide (a < next) && covered rs k next e)

/-- A write from outside is UB_04 (R482). -/
def State.ub04 (s : State) (a n : Nat) : Bool :=
  let r := (a - 0x04000000) / 0x1000000
  let rel := (a - 0x04000000) % 0x1000000
  decide (s.mode = .armed ∨ s.mode = .run ∨ s.mode = .degraded)
    && !covered (s.hwRanges r) (s.hwRanges r).length rel (rel + n)

/-- A write from outside is UB_01: it meets the instruction that a running cell is about to issue. -/
def State.ub01 (s : State) (a n c : Nat) : Bool :=
  let i := insAddr c (s.cell c).pc.toNat
  !inXY a && (s.cell c).run.isSome && decide (a < i + 8 ∧ i < a + n)

/-- The cases of undefined behaviour that a write from outside meets: UB_04 reaches the outputs of the region, UB_01 those of the cell
(R45). -/
def State.markWrite (s : State) (a n : Nat) : State :=
  let s := if s.ub04 a n then s.undefine (.region ((a - 0x04000000) / 0x1000000)) else s
  match memCell a with
  | some c => if s.ub01 a n c then s.undefine (.cell c) else s
  | none => s

/-- Bytes written by the host through a window, or by a DMA engine. -/
def State.outsideWrite (s : State) (a : Nat) (bs : List Byte) : State := (s.markWrite a bs.length).portWrite a bs

/-- Words of a range left poisoned (R490). -/
def State.poison (s : State) (a n : Nat) : State := { s with flip2 := s.flip2 ++ (eccWords a n).filter (fun x => !s.flip2.contains x) }

/-- The bytes of a range that a word in error holds, by their place in the range: the word has 32 bits in X and Y, else 64. -/
def wordPart (x a n : Nat) : Nat × Nat :=
  let lo := max a (if inXY x then x else x - x % 8)
  let hi := min (a + n) (if inXY x then x + 4 else x - x % 8 + 8)
  (lo - a, hi - lo)

/-- The region of a memory offset is present. -/
def State.memPresent (s : State) (a : Nat) : Bool := decide ((a - 0x04000000) / 0x1000000 < s.regions)

end Sys2Proof.Machine
end

