-- ==== Sys2Proof/Machine/Dma.lean ====
section
/-! DEFINITION. The memory and DMA unit (R480 to R494): scrubber, engines, scan engines, the check-value channels' registers.
Log: DEDUCED 95, 145, 162, 192. DESIGN CHOICE 94. -/

namespace Sys2Proof.Machine

/-! ### Descriptors (R488, R489) -/

/-- The fields of a descriptor. -/
structure DescFields where
  src : Nat
  dst : Nat
  lenRaw : Nat
  flags : Nat
  ch : Nat
  bytes : List Byte

def DescFields.of (bs : List Byte) : DescFields :=
  { src := numAt bs 0 8, dst := numAt bs 8 8, lenRaw := numAt bs 16 4, flags := numAt bs 20 1, ch := numAt bs 21 1, bytes := bs }
def DescFields.len (d : DescFields) : Nat := if d.lenRaw = 0 then 16777216 else d.lenRaw
def DescFields.srcHost (d : DescFields) : Bool := d.flags % 2 == 1
def DescFields.dstHost (d : DescFields) : Bool := d.flags / 2 % 2 == 1
def DescFields.restart (d : DescFields) : Bool := d.flags / 4 % 2 == 1
def DescFields.crcEn (d : DescFields) : Bool := d.flags / 8 % 2 == 1
def DescFields.crcOnly (d : DescFields) : Bool := d.flags / 16 % 2 == 1

/-- The bytes feed the channel: crc_en, and crc_only by its own words (R488). -/
def DescFields.feeds (d : DescFields) : Bool := d.crcEn || d.crcOnly

/-- The BAR0 ranges a descriptor names. -/
def DescFields.onChip (d : DescFields) : List Nat :=
  (if d.srcHost then [] else [d.src]) ++ (if d.dstHost || d.crcOnly then [] else [d.dst])

/-- Reserved fields of a descriptor are 0 and its length is no reserved value (R488). -/
def DescFields.formOk (d : DescFields) : Bool :=
  decide (d.lenRaw ≤ 16777216) && decide (d.flags < 32) && decide (d.ch < 128) && decide (numAt d.bytes 23 1 % 128 = 0)
    && decide (numAt d.bytes 24 8 = 0)

/-- The units of a chip-level control window that a range addresses: where their registers begin (UB_06). -/
def controlUnits (a n : Nat) : List Nat :=
  units.flatMap (fun u => ((List.range u.count).map (fun k => u.base + k * u.stride)).filter (fun b =>
    decide (b < 0x04000000 ∧ a < b + u.size ∧ b < a + n)))

/-- The status of the checks of R489 on some BAR0 ranges of a length. -/
def State.rangeStatus (s : State) (n : Nat) (as : List Nat) : Nat :=
  if as.any (fun a => !inOneUnit a n) then 3 else if as.any (fun a => !s.memPresent a) then 6 else 0

/-- The status of R489 for a descriptor; 0 when it passes. -/
def State.descStatus (s : State) (d : DescFields) : Nat :=
  if !d.formOk then 3
  else
    let r := s.rangeStatus d.len d.onChip
    if r ≠ 0 then r
    else if d.crcEn && !s.bit Reg.crcChCfgBind (chBase d.ch) then 3
    else 0

/-! ### Check-value channels (R484 to R486) -/

/-- The running value of channel j = 2 × n + c. -/
def State.chVal (s : State) (j : Nat) : BitVec 64 := if j % 2 = 0 then (s.cell (j / 2)).ch0 else (s.cell (j / 2)).ch1
/-- Its running value set; bits at and above the width are 0. A cell held in reset takes none (R29). -/
def State.setChVal (s : State) (j : Nat) (v : Nat) : State :=
  if s.cellDown (j / 2) then s else
  let w := BitVec.ofNat 64 (v % 2 ^ (crcPoly (s.fld Reg.crcChCfgPoly (chBase j))).width)
  let c := s.cell (j / 2)
  s.setCell (j / 2) (if j % 2 = 0 then { c with ch0 := w } else { c with ch1 := w })
/-- A restart. -/
def State.chRestart (s : State) (j : Nat) : State := s.setChVal j (crcPoly (s.fld Reg.crcChCfgPoly (chBase j))).init
/-- Bytes fed. -/
def State.chFeed (s : State) (j : Nat) (bs : List Byte) : State :=
  s.setChVal j (crcFeed (crcPoly (s.fld Reg.crcChCfgPoly (chBase j))) (s.chVal j).toNat bs)

/-- The channel is bound to the DMA port; a transfer's bytes for one bound to the core are dropped, with the conflict flag (R84, R85). -/
def State.dmaBound (s : State) (j : Nat) : Bool := s.bit Reg.crcChCfgBind (chBase j)
def State.dmaFeed (s : State) (j : Nat) (bs : List Byte) : State :=
  if s.dmaBound j then s.chFeed j bs else s.setBit Reg.crcChCfgConflict true (chBase j)

/-- The channel whose register lies at an offset, and its place within. -/
def chanAt (off : Nat) : Option (Nat × Nat) :=
  if 0x808000 ≤ off && off < 0x808800 then some ((off - 0x808000) / 16, (off - 0x808000) % 16) else none
def isChan (off place : Nat) : Bool := match chanAt off with | some (_, p) => p == place | none => false
/-- The channel belongs to a cell that the variant has (R485). -/
def State.chanHere (s : State) (off : Nat) : Bool := match chanAt off with | some (j, _) => decide (j < 2 * s.cellCount) | none => false

/-- CRC_CH_CFG_WRITE (R486). -/
def execCrcChCfgWrite (w : RegWrite) (s : State) : Host.Outcome State Fault Refusal :=
  .next (s.ownWrite w (isChan w.off 0 && s.chanHere w.off) (fun s =>
    let j := (w.off - 0x808000) / 16
    let old := s.fld Reg.crcChCfgPoly (chBase j)
    let s := s.storeReg w.off w.data
    if dataBit w.data 4 || s.fld Reg.crcChCfgPoly (chBase j) ≠ old then s.chRestart j else s))

/-- A write of CRC_CH_VAL_LO: kept for the commit. -/
def State.chLoWrite (s : State) (off : Nat) (data : Word) : State :=
  { s with dma := { s.dma with lo := Tab.put 0#32 s.dma.lo ((off - 0x808000) / 16) data } }

/-- CRC_CH_VAL_HI_WRITE (R486). -/
def execCrcChValHiWrite (w : RegWrite) (s : State) : Host.Outcome State Fault Refusal :=
  .next (s.ownWrite w (isChan w.off 8 && s.chanHere w.off) (fun s =>
    let j := (w.off - 0x808000) / 16
    s.setChVal j (w.data.toNat * 2 ^ 32 + (Tab.get 0#32 s.dma.lo j).toNat)))

/-- A high word latched by the read of its low word. -/
def State.latch (s : State) (hiOff : Nat) (v : Word) : State :=
  { s with host := { s.host with latched := Tab.put 0#32 s.host.latched hiOff v } }

/-- CRC_CH_VAL_LO_READ (R486). -/
def execCrcChValLoRead (r : RegRead) (s : State) : Host.Outcome State Fault Refusal :=
  .next (if !s.awake || !isChan r.off 4 then s
    else
      let j := (r.off - 0x808000) / 16
      let v := if s.chanHere r.off && !s.cellDown (j / 2) then s.chVal j else 0#64
      let y := (s.latch (r.off + 4) (v.extractLsb' 32 32)).unsure r.off (v.setWidth 32)
      y.1.emit (if s.chanHere r.off && s.cellDown (j / 2) then .readPoisoned r.fn r.off y.2 else .readData r.fn r.off y.2))

/-! ### Engines (R487, R490) -/

/-- The engine whose register lies at an offset, and its place within. -/
def engineAt (off : Nat) : Option (Nat × Nat) :=
  if 0x801000 ≤ off && off < 0x801200 then some ((off - 0x801000) / 0x40, (off - 0x801000) % 0x40) else none
def isEngine (off place : Nat) : Bool := match engineAt off with | some (_, p) => p == place | none => false

/-- The host address of descriptor `i` of a ring. -/
def State.dmaAddr (s : State) (e i : Nat) : Nat :=
  (s.reg (dmaBase e + 0x08)).toNat + 2 ^ 32 * (s.reg (dmaBase e + 0x0C)).toNat + 32 * i

/-- A descriptor ends with a status (R490). -/
def State.dmaDone (s : State) (e addr status : Nat) : State :=
  let b := dmaBase e
  let len := max 1 (s.fld Reg.dmaECtrlLen b)
  let s := s.emit (.hostWrite (addr + 22) [BitVec.ofNat 8 status, 0x80#8])
  let s := ((s.setFld Reg.dmaEStatBusy 0 b).setFld Reg.dmaEStatLastStatus status b).incFld Reg.dmaEStatDone b
  let s : State := { s with dma := { s.dma with runs := s.dma.runs.filter (fun r => !decide (r.1 = e)) } }
  s.setFld Reg.dmaEHeadHead ((s.fld Reg.dmaEHeadHead b + 1) % len) b

/-- An engine runs a descriptor. -/
def State.addRun (s : State) (e : Nat) (r : DmaRun) : State :=
  { s with dma := { s.dma with runs := s.dma.runs.filter (fun (x : Nat × DmaRun) => !decide (x.1 = e)) ++ [(e, r)] } }

/-- DMA_E_TAIL_WRITE (R487). -/
def execDmaETailWrite (w : RegWrite) (s : State) : Host.Outcome State Fault Refusal :=
  .next (s.ownWrite w (isEngine w.off 0x10) (fun s => s.storeReg w.off w.data))

/-- UB_06: the units that a descriptor addresses in a control window are undefined from then on (R45). -/
def State.markControl (s : State) (f : DescFields) : State :=
  (if f.formOk then f.onChip.flatMap (fun a => controlUnits a f.len) else []).foldl (fun s b => s.undefine (.unit b)) s

/-- A descriptor waits for an engine that is enabled and runs none. -/
def State.dmaWaits (s : State) (e : Nat) : Bool :=
  let b := dmaBase e
  decide (e < 8) && s.awake && s.bit Reg.dmaECtrlEn b && !s.bit Reg.dmaEStatBusy b
    && !decide (s.fld Reg.dmaEHeadHead b = s.fld Reg.dmaETailTail b % max 1 (s.fld Reg.dmaECtrlLen b))

/-- DMA_DESCRIPTOR_START (R487, R489): the engine takes the descriptor at its head. -/
def execDmaDescriptorStart (e : Nat) (d : DmaDesc) (s : State) : Host.Outcome State Fault Refusal :=
  let b := dmaBase e
  if !s.dmaWaits e then .next s
  else
    let f := DescFields.of d.bytes
    let addr := s.dmaAddr e (s.fld Reg.dmaEHeadHead b)
    let s := s.markControl f
    let st := s.descStatus f
    if st ≠ 0 then .next (s.dmaDone e addr st)
    else
      let s := if f.restart then s.chRestart f.ch else s
      .next ((s.addRun e ⟨addr, d.bytes⟩).setFld Reg.dmaEStatBusy 1 b)

/-- Bytes whose values are open. -/
def State.freeBytes (s : State) (n : Nat) : List Byte × State :=
  ((List.range n).map (fun i => Config.freeByte (s.freeCtr + i)), { s with freeCtr := s.freeCtr + n })

/-- The first `n` bytes of a transfer, moved and fed; the second part tells whether a word was poisoned. Overlapping ranges leave the
destination open (UB_05). -/
def State.dmaMove (s : State) (f : DescFields) (hostData : List Byte) (n : Nat) : State × Bool :=
  let y := if f.srcHost then (s, slice hostData 0 n, false) else (s.routed 106 f.src).portRead f.src n
  let s := y.1
  let s := if f.feeds then s.dmaFeed f.ch y.2.1 else s
  if f.crcOnly || n = 0 then (s, y.2.2)
  else if f.dstHost then (s.emit (.hostWrite f.dst y.2.1), y.2.2)
  else
    let overlap := !f.srcHost && decide (f.src < f.dst + f.len ∧ f.dst < f.src + f.len)
    let z := if overlap then s.freeBytes n else (y.2.1, s)
    let bad := if f.srcHost || s.unitDown f.dst then []
      else if s.unitDown f.src then [(0, n)]
      else (s.flip2.filter (fun x => (eccWords f.src n).contains x)).map (fun x => wordPart x f.src n)
    (bad.foldl (fun s p => s.poison (f.dst + p.1) p.2) ((z.2.routed 106 f.dst).outsideWrite f.dst z.1), y.2.2)

/-- An open number of whole 64-byte blocks of a transfer. -/
def State.freeBlocks (s : State) (len : Nat) : Nat := 64 * (s.freeW.toNat % (len / 64 + 1))

/-- What poison does besides (R490). -/
def State.dmaPoison (s : State) : State := s.raise 0xA1 1 10 106

/-- A host access of an engine failed: the descriptor ends with TIMEOUT and the engine stops (R490). -/
def State.dmaHost (s : State) (e addr : Nat) : State := ((s.dmaDone e addr 9).setFld Reg.dmaECtrlEn 0 (dmaBase e)).raise 0xA0 1 10 106

/-- DMA_DESCRIPTOR_END (R490). A host access that failed moved an open number of blocks where the transfer itself is to or from the host; of
another transfer it is the write of the status, and where no descriptor runs the fetch of the next. -/
def execDmaDescriptorEnd (e : Nat) (x : DmaEnd) (s : State) : Host.Outcome State Fault Refusal :=
  match s.dma.runs.find? (fun r => r.1 == e) with
  | none => .next (if x.hostFailed && s.dmaWaits e then s.dmaHost e (s.dmaAddr e (s.fld Reg.dmaEHeadHead (dmaBase e))) else s)
  | some (_, r) =>
    let f := DescFields.of r.bytes
    if x.hostFailed then
      let y := if f.srcHost || (f.dstHost && !f.crcOnly) then s.drew.dmaMove f x.hostData (s.freeBlocks f.len) else s.dmaMove f x.hostData f.len
      .next (y.1.dmaHost e r.addr)
    else
      let y := s.dmaMove f x.hostData f.len
      .next (if y.2 then (y.1.dmaDone e r.addr 0x0A).dmaPoison else y.1.dmaDone e r.addr 0)

/-- DMA_E_CTRL_WRITE (R490): an engine enabled, or its descriptor cancelled. What an interrupted transfer from the host has brought is
open. -/
def execDmaECtrlWrite (w : RegWrite) (s : State) : Host.Outcome State Fault Refusal :=
  let e := (w.off - 0x801000) / 0x40
  let own := isEngine w.off 0
  let f := (s.dma.runs.find? (fun r => r.1 == e)).map (fun r => (r.2.addr, DescFields.of r.2.bytes))
  let stops := own && s.awake && mayWrite w.fn w.off && !dataBit w.data 31 && s.bit Reg.dmaECtrlEn (dmaBase e)
  match (if stops then f else none) with
  | some (addr, f) =>
    let n := s.freeBlocks f.len
    let y := s.drew.freeBytes (if f.srcHost then n else 0)
    .next (s.ownWrite w own (fun _ => (((y.2.dmaMove f y.1 n).1.dmaDone e addr 8).storeReg w.off w.data)))
  | none =>
    .next (s.ownWrite w own (fun s =>
      let s := s.storeReg w.off w.data
      if dataBit w.data 31 then (s.setFld Reg.dmaEHeadHead 0 (dmaBase e)).setFld Reg.dmaETailTail 0 (dmaBase e) else s))

/-! ### Scans (R491) -/

/-- The check value of a range: also whether a word was poisoned. -/
def State.scan (s : State) (start n poly : Nat) : State × Nat × Bool :=
  let y := (s.routed 106 start).portRead start n
  (y.1, crcOf poly y.2.1, y.2.2)

/-- The status with which a scan is turned away. -/
def State.scanStatus (s : State) (start n : Nat) : Nat := if n = 0 || 2 ^ 25 ≤ n then 3 else s.rangeStatus n [start]

/-- What a write of CRC_SCAN_CTRL does. -/
def State.scanCtrl (s : State) (data : Word) : State :=
  if s.bit Reg.crcScanCtrlBusy then
    (if dataBit data 0 then (s.storeReg 0x800100 data).setBit Reg.dmaCtrlCfgWarn true else s.storeReg 0x800100 data)
  else
    let s := s.storeReg 0x800100 data
    if !dataBit data 0 then s
    else
      let start := s.fld Reg.crcScanStart
      let n := s.fld Reg.crcScanLen
      let s := s.setFld Reg.crcScanCtrlMismatch 0
      let st := s.scanStatus start n
      if st ≠ 0 then s.setFld Reg.crcScanCtrlStatus st
      else { s with dma := { s.dma with scan := some (start, n, s.fld Reg.crcScanCtrlPoly) } }.setFld Reg.crcScanCtrlBusy 1

/-- CRC_SCAN_GO: a write of CRC_SCAN_CTRL with go = 1. -/
def execCrcScanGo (w : RegWrite) (s : State) : Host.Outcome State Fault Refusal :=
  .next (s.ownWrite w (w.off == 0x800100 && dataBit w.data 0) (fun s => s.scanCtrl w.data))

/-- MEM_CHECK (R494). -/
def specMemCheck : CmdSpec :=
  { opcode := 0x0D01, later := true, named := [(0, 9)]
    absent := fun s c => decide (c.p8 8 ≤ 5) && s.scanStatus (c.p32 0) (c.p32 4) == 6
    bad := fun s c => decide (5 < c.p8 8) || s.scanStatus (c.p32 0) (c.p32 4) == 3
    busy := fun s _ => !s.dma.scan2.isEmpty
    run := fun s c seq _ => ({ s with dma := { s.dma with scan2 := [(seq, c.p32 0, c.p32 4, c.p8 8)] } }, { wait := true }) }

def execMemCheck (r : CmdReq) (s : State) : Host.Outcome State Fault Refusal := .next (s.command specMemCheck r)

/-- SCAN_COMPLETE (R491, R494). -/
def execScanComplete (second : Bool) (s : State) : Host.Outcome State Fault Refusal :=
  .next (
    if second then
      (match s.dma.scan2, s.resultOf 0x0D01 with
        | (_, start, n, poly) :: _, some x =>
          let y := s.scan start n poly
          let s : State := { y.1 with dma := { y.1.dma with scan2 := [] } }
          if y.2.2 then s.dmaPoison.finish x 0x0A {} else s.finish x 0 { data := leBytes 8 y.2.1 }
        | _, _ => s)
    else
      match s.dma.scan with
      | none => s
      | some (start, n, poly) =>
        let y := s.scan start n poly
        let v := BitVec.ofNat 64 y.2.1
        let s : State := { y.1 with dma := { y.1.dma with scan := none } }
        let s := ((s.setReg 0x800114 (v.setWidth 32)).setReg 0x800118 (v.extractLsb' 32 32)).setFld Reg.crcScanCtrlBusy 0
        let s := s.setFld Reg.crcScanCtrlStatus (if y.2.2 then 0x0A else 0)
        let s := if y.2.2 then s.dmaPoison else s
        let exp := (s.reg 0x800110) ++ (s.reg 0x80010C)
        if s.bit Reg.crcScanCtrlCmp && decide (exp ≠ v) then (s.setFld Reg.crcScanCtrlMismatch 1).raise 0xA2 1 10 106 else s)

/-! ### The scrubber (R481) -/

/-- A word of block or region memory. -/
def scrubbed (a : Nat) : Bool := (memUnit a).isSome && (memCell a).isNone

/-- BLOCK_ECC or REGION_ECC of a word. -/
def State.scrubRaise (s : State) (a : Nat) : State :=
  match memUnit a with
  | some u => if u % 32 = 0 then s.raise 0xE1 2 3 (u / 32) else s.raise 0xE0 1 2 (4 * (u / 32) + u % 32 - 1)
  | none => s

/-- The scrubber's period ended: the counter runs on to its end, period_ms milliseconds of ticks after the last one's (log entry 192). -/
def State.scrubTurn (s : State) : State :=
  let s := s.runTo (s.dma.scrubAt + 500000 * s.fld Reg.dmaScrubPeriodMs)
  { s with dma := { s.dma with scrubAt := s.time.ran } }

/-- SCRUB_PERIOD: the words found with one bit in error, and with two. -/
def execScrubPeriod (single double : List Nat) (s : State) : Host.Outcome State Fault Refusal :=
  .next (if !s.awake then s
    else
      let s := s.scrubTurn
      let word := fun a : Nat => a - a % 8
      let ones := ((single.filter scrubbed).map word).eraseDups
      let twos := ((double.filter scrubbed).map word).eraseDups
      let s : State := { s with flip1 := s.flip1 ++ ones.filter (fun a => !s.flip1.contains a)
                                flip2 := s.flip2 ++ twos.filter (fun a => !s.flip2.contains a) }
      let s := s.correct (s.flip1.filter scrubbed)
      (((s.flip2.filter scrubbed).map word).eraseDups).foldl State.scrubRaise s)

/-! ### DMA_STATUS_GET (R494) -/

/-- DMA_STATUS_GET. -/
def specDmaStatusGet : CmdSpec :=
  { opcode := 0x0D00, query := true
    run := fun s _ _ _ => (s, .of (bytesOfWords (s.reg 0x800008 :: (List.range 8).map (fun e => s.reg (dmaBase e + 4))))) }

def execDmaStatusGet (r : CmdReq) (s : State) : Host.Outcome State Fault Refusal := .next (s.command specDmaStatusGet r)

end Sys2Proof.Machine
end

