-- ==== Sys2Proof/Machine/Woad.lean ====
section
/-! DEFINITION. Woad (R396 to R417): safe inputs, positions, safety functions of the two channels, safe outputs, telegrams, the parameter
set and its commands. Both channels evaluate every function from the same parameters, channel A on pos_1, channel B on pos_2.
Log: DEDUCED 39, 98, 99, 101, 102, 103, 158, 202, 208. DESIGN CHOICE 96, 97, 100, 149, 207. -/

namespace Sys2Proof.Machine

/-! ### The set and the units -/

/-- The safety parameter set that Woad has accepted. -/
def State.sfSet (s : State) : Option SafetySet := if s.woad.accepted then s.woad.set else none

def State.si (s : State) (k : Nat) : SiSt := Tab.get {} s.woad.si k
def State.setSi (s : State) (k : Nat) (x : SiSt) : State := { s with woad := { s.woad with si := Tab.put {} s.woad.si k x } }
def State.conn (s : State) (k : Nat) : ConnSt := Tab.get {} s.woad.conns k
def State.setConnSt (s : State) (k : Nat) (x : ConnSt) : State := { s with woad := { s.woad with conns := Tab.put {} s.woad.conns k x } }
def State.setWoadAx (s : State) (a : Nat) (x : WoadAx) : State := { s with woad := { s.woad with axes := Tab.put {} s.woad.axes a x } }

/-- The lasting fault of R397: every output goes off, and WOAD_INTERNAL is raised once. -/
def State.woadInternal (s : State) : State :=
  let was := s.woad.internal
  let s : State := { s with woad := { s.woad with internal := true, so := 0#8 } }
  if was then s else s.raise 0x75 3 10 100

/-- The check value of the set as each channel computes it (R414). -/
def setCrcA (p : SafetySet) : Word := BitVec.ofNat 32 (crc32c p.bytesA)
def setCrcB (p : SafetySet) : Word := BitVec.ofNat 32 (crc32c p.bytesB)

/-- No set is left: no permission stands, and the outputs are off (R405, R408, R415). -/
def WoadSt.dropSet (w : WoadSt) : WoadSt :=
  { w with set := none, accepted := false, locked := false, axes := [], conns := [], due := false, edges := 0, openAt := none, so := 0#8, shown := [] }

/-- The set of a newly loaded image (R414, R415): accepted when the two check values agree; at a boot it is locked when the value equals
the stored one, and a load by command leaves it unlocked. Faults of outputs and the lasting fault stay. A Woad that a LEVEL_RESET of the chip has
kept goes on when the boot loads the same set (R506). -/
def State.woadLoad (s : State) (boot : Bool) : State :=
  match s.image.bind Image.safety with
  | none => s.gated (fun s => { s with woad := s.woad.dropSet })
  | some p =>
    let ok := decide (setCrcA p = setCrcB p)
    let locked := ok && boot && decide (s.flash.confirm.map Prod.fst = some (setCrcA p))
    if boot && s.woad.accepted && decide (s.woad.set = some p) then { s with woad := { s.woad with locked := locked } }
    else
    let w : WoadSt := { set := some p, accepted := ok, locked := locked, si := s.woad.si, soFault := s.woad.soFault
                        shadow := s.woad.shadow, internal := s.woad.internal, pfail := s.woad.pfail, refused := s.woad.refused }
    let s := s.gated (fun s => { s with woad := w })
    if ok then s else s.woadInternal

/-! ### Safe inputs (R400 to R402) -/

/-- One channel after a sample (R400): a level counts once it has held for `filt` samples. -/
def InCh.sample (c : InCh) (filt : Nat) (v : Bool) : InCh :=
  let run := if v == c.cand then c.run + 1 else 1
  if filt ≤ run then { level := v, cand := v, run := filt } else { c with cand := v, run := run }

/-- The state of a fault after the filtered channels (R401). -/
def InFault.after (f : InFault) (a b : Bool) : InFault :=
  match f with
  | .awaitDemand => if !a && !b then .awaitActive else .awaitDemand
  | .awaitActive => if a && b then .none else .awaitActive
  | .none => .none

/-- The settings of an input. -/
def State.siCfg (s : State) (k : Nat) : Option SfInput := s.sfSet.bind (fun p => p.inputs[k]?)

/-- An input is active (R400): both channels high, and no fault. -/
def State.siActive (s : State) (k : Nat) : Bool :=
  let x := s.si k
  x.a.level && x.b.level && decide (x.fault = .none)

/-- One input in a sample; a channel on which a test pulse runs is not sampled (R402). -/
def State.siSample (s : State) (pins : SafePins) (k : Nat) : State :=
  match s.siCfg k with
  | none => s
  | some g =>
    let x := s.si k
    let pulsed := fun (b : Bool) => g.test && (match s.woad.pulse with | some (ch, _) => ch == b | none => false)
    let rev := pins.revA.getLsbD k || pins.revB.getLsbD k
    let va := pins.a.getLsbD k && !pins.revA.getLsbD k
    let vb := (pins.b.getLsbD k && !pins.revB.getLsbD k) != g.antivalent
    let a := if pulsed false then x.a else x.a.sample g.filt va
    let b := if pulsed true then x.b else x.b.sample g.filt vb
    let apart := if a.level == b.level then none else some (x.apart.getD s.now16)
    s.setSi k { a := a, b := b, apart := apart, rev := rev, fault := x.fault.after a.level b.level }

/-- The name of a test output. -/
def tpName (b : Bool) : String := if b then "TP_B" else "TP_A"

/-- SAFE_INPUT_SAMPLE (R400, R402): every 50 µs. A pulse of 300 µs covers six samples. -/
def execSafeInputSample (pins : SafePins) (s : State) : Host.Outcome State Fault Refusal :=
  .next (if !s.woadOn then s
    else
      let s := (List.range 16).foldl (fun s k => s.siSample pins k) s
      match s.woad.pulse with
      | none => s
      | some (ch, n) =>
        if n ≤ 1 then { s with woad := { s.woad with pulse := none } }.emit (.pin (tpName ch) true)
        else { s with woad := { s.woad with pulse := some (ch, n - 1) } })

/-- An input faults (R401). -/
def State.siFault (s : State) (k : Nat) : State :=
  let x := s.si k
  if x.fault = .none then (s.setSi k { x with fault := .awaitDemand }).raise 0x71 1 12 k
  else s.setSi k { x with fault := .awaitDemand }

/-- SAFE_INPUT_DISCREPANCY (R401): the filtered channels disagree, and do so for longer than disc; the counter runs on to the end of
that time. -/
def execSafeInputDiscrepancy (k : Nat) (s : State) : Host.Outcome State Fault Refusal :=
  .next (if 16 ≤ k || !s.woadOn then s
    else match s.siCfg k, (s.si k).apart with
      | some g, some t => (s.advanceTo (t + ns16 (g.disc * 1000000))).siFault k
      | _, _ => s)

/-- TEST_PULSE (R402): `ch` is TP_B. -/
def execTestPulse (ch : Bool) (s : State) : Host.Outcome State Fault Refusal :=
  .next (if !s.woadOn then s else { s with woad := { s.woad with pulse := some (ch, 6) } }.emit (.pin (tpName ch) false))

/-- TEST_PULSE_CHECK (R402). -/
def execTestPulseCheck (k : Nat) (ch : Bool) (followed : Bool) (s : State) : Host.Outcome State Fault Refusal :=
  .next (if 16 ≤ k || !s.woadOn || followed || !((s.siCfg k).map SfInput.test).getD false
        || !(match s.woad.pulse with | some (c, _) => c == ch | none => false) then s
    else s.siFault k)

/-! ### Telegrams in (R410, R411) -/

/-- The check of a telegram: CRC-32C over the seed and the bytes before it. -/
def telCheck (seed : Word) (body : List Byte) : List Byte := leBytes 4 (crc32c (wordBytes seed ++ body))

/-- A telegram's bytes hold together under a seed. -/
def telOk (seed : Word) (bs : List Byte) : Bool :=
  let plen := numAt bs 10 1
  decide (bs.length = 16 + plen) && decide (4 ≤ plen ∧ plen ≤ 32 ∧ plen % 4 = 0)
    && decide (slice bs (12 + plen) 4 = telCheck seed (slice bs 0 (12 + plen)))

/-- The type of a telegram; only a STATE telegram carries bit 7 of an unlocked set (R415). -/
def telKind (bs : List Byte) : Nat := if numAt bs 8 1 = 0x81 then 1 else numAt bs 8 1

/-- The connection a telegram belongs to. -/
def connOf (p : SafetySet) (bs : List Byte) : Option Nat :=
  (List.range p.conns.length).find? (fun i => match p.conns[i]? with
    | some c => c.src == numAt bs 0 2 && c.dst == numAt bs 2 2 && c.kind == telKind bs
    | none => false)

/-- A copy of a telegram that a path has brought: kept until the safety cycle judges it, when its check value holds and its count is above
the last accepted. A standby follows the active's own counts (R413). -/
def State.telegramIn (s : State) (line : Bool) (bs : List Byte) : State :=
  match s.sfSet with
  | none => s
  | some p =>
    if !telOk (setCrcA p) bs then s
    else match connOf p bs with
      | none => s
      | some i =>
        let x := s.conn i
        let n := numAt bs 4 4
        if n ≤ x.count then s
        else if telKind bs = 1 then
          (if s.lsp.role = .standby then s.setConnSt i { x with count := n } else s)
        else s.setConnSt i (if line then { x with line := some bs } else { x with ring := some bs })

/-- WOAD_TELEGRAM_RECEIVE (R411). -/
def execWoadTelegramReceive (line : Bool) (t : Telegram) (s : State) : Host.Outcome State Fault Refusal :=
  .next (if !s.woadOn then s else s.telegramIn line t.bytes)

/-- The copies of a connection judged at a safety cycle (R411). -/
def State.judgeConn (s : State) (i : Nat) : State :=
  let x := s.conn i
  let accept := fun (s : State) (bs : List Byte) (both : Bool) =>
    s.setConnSt i { x with count := numAt bs 4 4, ring := none, line := none, payload := slice bs 12 (numAt bs 10 1), fresh := true, miss := 0
                           expired := false, wdRaised := false, pathRaised := x.pathRaised && !both }
  let missed := fun (s : State) => s.setConnSt i { x with ring := none, line := none, fresh := false, miss := x.miss + 1 }
  let one := fun (bs : List Byte) =>
    let s := (accept s bs false).incFld Reg.woadCntSingle
    if x.pathRaised then s else (s.setConnSt i { s.conn i with pathRaised := true }).raise 0x73 1 14 i
  match x.ring, x.line with
  | some a, some b => if a = b then accept s a true else missed (s.incFld Reg.woadCntMismatch)
  | some a, none => one a
  | none, some b => one b
  | none, none => missed s

/-- WOAD_WATCHDOG_EXPIRY (R411, R417): no telegram accepted for wd safety cycles, be it since the set was accepted; raised once. -/
def execWoadWatchdogExpiry (conn : Nat) (s : State) : Host.Outcome State Fault Refusal :=
  .next (match s.sfSet.bind (fun p => p.conns[conn]?) with
    | none => s
    | some c =>
      let x := s.conn conn
      if c.kind = 1 || x.wdRaised || x.miss < c.wd then s
      else (s.setConnSt conn { x with expired := true, wdRaised := true }).raise 0x74 1 14 conn)

/-! ### Requests and positions (R403, R405) -/

/-- A bit of the request telegrams, 32 to a connection in the order of the set; an expired connection demands all (R411). -/
def State.requestBit (s : State) (p : SafetySet) (k : Nat) : Bool :=
  match ((List.range p.conns.length).filter (fun i => ((p.conns[i]?).map SfConn.kind) == some 3))[k / 32]? with
  | some i => (s.conn i).expired || numAt (s.conn i).payload 0 4 / 2 ^ (k % 32) % 2 == 1
  | none => false

/-- A function's request. -/
def State.requested (s : State) (p : SafetySet) : SfReq → Bool
  | .never => false
  | .input k => !s.siActive k
  | .bit k => s.requestBit p k

/-- The nine requests of an axis. -/
def State.requests (s : State) (p : SafetySet) (a : SfAxis) : List Bool :=
  (List.range 9).map (fun i => s.requested p ((a.req[i]?).getD .never))

/-- Position 2 of an axis: its node's status telegram of the cycle, or the shadow counter of its interface as edge E found it. -/
def State.pos2 (s : State) (p : SafetySet) (axis : Nat) : Option Nat :=
  if 256 ≤ axis then
    some (Tab.get 0#32 s.woad.shadowAt (s.fld Reg.pwmGrpCfgFb (lgBase (axis - 256)))).toNat
  else
    (List.range p.conns.length).findSome? (fun i => match p.conns[i]? with
      | some c =>
        (match c.kind == 2, c.axes.idxOf? axis with
          | true, some j => if (s.conn i).fresh && !(s.conn i).expired then some (numAt (s.conn i).payload (4 * j) 4) else none
          | _, _ => none)
      | none => none)

/-- A count as a position: signed when the count wraps at 2^32, else as it stands. -/
def posOf (cpr n : Nat) : Int := if cpr = 2 ^ 32 then (BitVec.ofNat 32 n).toInt else n

/-- The wrap count of an axis. -/
def sfWrap (p : SfAxis) : Nat := if p.cpr = 0 then 2 ^ 32 else p.cpr

/-! ### The functions of one channel (R404 to R407) -/

/-- The number format of a channel (R396): A computes in FP32, whose results on whole numbers are whole numbers rounded to 24 significant
bits, halves to even (R76 to R81); B in fixed point. -/
def chanRound (fp : Bool) (x : Int) : Int :=
  if !fp then x
  else
    let n := x.natAbs
    let k := 2 ^ (n.log2 + 1 - 24)
    let q := n / k
    let r := 2 * (n % k)
    let m : Int := ((if k < r || (r == k && q % 2 == 1) then q + 1 else q) * k : Nat)
    if x < 0 then -m else m

/-- The request of a function by its place: STO 0, SS1 1, SS2 2, SOS 3, SLS 4, SLP 5, SDI 6, SSM 7, SBC 8. -/
def reqAt (rs : List Bool) (k : Nat) : Bool := (rs[k]?).getD false

/-- A decelerating stop after one cycle: v_0 and the cycles since. -/
def stopRun (on : Bool) (x : Option (Nat × Nat)) (v : Int) : Option (Nat × Nat) :=
  match on, x with
  | false, _ => none
  | true, none => some (v.natAbs, 0)
  | true, some (v0, k) => some (v0, k + 1)

/-- The speed breaks the ramp of a stop (R404). -/
def rampBroken (fp : Bool) (p : SfAxis) (v : Int) : Option (Nat × Nat) → Bool
  | none => false
  | some (v0, k) =>
    let rd := chanRound fp
    let ramp := max 0 (rd (v0 - rd (rd p.dec * rd k)))
    decide (rd (ramp + rd p.vTol) < v.natAbs)

/-- A stop has come to its end. -/
def stopDone (fp : Bool) (p : SfAxis) (v : Int) : Option (Nat × Nat) → Bool
  | none => false
  | some (_, k) => decide ((v.natAbs : Int) ≤ chanRound fp p.vStop) || decide (p.tSs1 ≤ k)

/-- One channel after a safety cycle, up to its latches: position, requests, and whether a reaction STO comes from the positions. The
second part tells whether a violation condition holds. Functions whose request ends in this cycle are still judged; a reaction SS1 begins in
the cycle of its violation; STO, requested or a reaction of this very cycle, overrides SS1, SS2 and SOS (R406). -/
def SfCh.eval (c : SfCh) (fp : Bool) (p : SfAxis) (rs : List Bool) (pos : Option Nat) (posBad : Bool) : SfCh × Bool :=
  let rd := chanRound fp
  let n := pos.map (posOf (sfWrap p))
  let v := match n, c.pos with
    | some x, some y => rd (wrapDiff (sfWrap p) x y)
    | _, _ => c.v
  let sto := reqAt rs 0 || c.stoLatch
  let ss2On := reqAt rs 2 && !sto
  let ss2 := stopRun (ss2On || c.ss2.isSome) c.ss2 v
  let ended2 := c.ss2End || stopDone fp p v ss2
  let sosOn := (reqAt rs 3 || (ss2On && ended2)) && !sto
  let sos := match c.sos, n with
    | some x, _ => some x
    | none, some x => if sosOn then some x else none
    | none, none => none
  let sls := if reqAt rs 4 || c.sls.isSome then some (match c.sls with | some k => k + 1 | none => 0) else none
  let sdi := if reqAt rs 6 || c.sdi.isSome then some (match c.sdi with | some d => (if n.isSome then rd (d + v) else d) | none => 0) else none
  let sosBad := !sto && (match sos, n with
    | some x, some y => decide (rd p.sosWin < (rd (wrapDiff (sfWrap p) y x)).natAbs)
    | _, _ => false)
  let slsBad := match sls with | some k => decide (p.tSls ≤ k) && decide (rd p.slsLim < v.natAbs) | none => false
  let slpBad := (reqAt rs 5 || c.slp) && (match n with | some x => decide (rd x < rd p.slpMin ∨ rd p.slpMax < rd x) | none => false)
  let sdiBad := match sdi with | some d => decide (rd p.sdiTol < (if p.sdiPositive then d else -d)) | none => false
  let reactBad := sosBad || slsBad || slpBad || sdiBad
  let ss1Latch := c.ss1Latch || (reactBad && p.react)
  let ss1On := (reqAt rs 1 || ss1Latch) && !sto
  let ss1 := stopRun (ss1On || c.ss1.isSome) c.ss1 v
  let stopBad := !sto && ((!c.ss1End && rampBroken fp p v ss1) || (!c.ss2End && rampBroken fp p v ss2))
  let stoLatch := c.stoLatch || stopBad || posBad || (reactBad && !p.react)
  let go := !reqAt rs 0 && !stoLatch
  ({ c with pos := n.or c.pos, v := v
            ss1 := if ss1On && go then ss1 else none, ss1End := ss1On && go && (c.ss1End || stopDone fp p v ss1)
            ss2 := if ss2On && go then ss2 else none, ss2End := ss2On && go && ended2, sos := if sosOn && go then sos else none
            sls := if reqAt rs 4 then sls else none, slp := reqAt rs 5, sdi := if reqAt rs 6 then sdi else none
            stoLatch := stoLatch, ss1Latch := ss1Latch, sto := reqAt rs 0, stoWas := c.sto
            hold := c.hold || (reqAt rs 0 && !p.restart) }, stopBad || posBad || reactBad)

/-- The permissions and the bits of a channel (R404, R405, R407). After the end of an STO request that needs no reset the permission returns in
the next safety cycle (R406). -/
def SfCh.decide_ (c : SfCh) (fp : Bool) (p : SfAxis) (rs : List Bool) (permit : Bool) : SfCh :=
  let sto := reqAt rs 0 || c.stoLatch
  let en := permit && !sto && !c.stoWas && !c.hold && !c.ss1End
  { c with active := BitVec.ofNat 9 ((List.range 9).foldl (fun a k => a + bitN (reqAt rs k) * 2 ^ k) 0)
           energise := en, brake := permit && (en || !reqAt rs 8)
           ssm := reqAt rs 7 && decide ((c.v.natAbs : Int) < chanRound fp p.ssmLim)
           stop := !sto && (c.ss1.isSome || c.ss2.isSome || c.ss1Latch) }

/-- What the channels exchange of an axis (R397). -/
def SfCh.decisions (c : SfCh) : List Bool × BitVec 9 :=
  ([c.energise, c.brake, c.ssm, c.stop, c.stoLatch, c.ss1Latch, c.hold, c.ss1End, c.ss1.isSome, c.ss2.isSome, c.ss2End], c.active)

/-- The latches of a channel cleared (R406); a reaction SS1 goes with its latch. -/
def SfCh.cleared (c : SfCh) (rs : List Bool) : SfCh :=
  let c := { c with stoLatch := false, ss1Latch := false, hold := false }
  if reqAt rs 1 then c else { c with ss1 := none, ss1End := false }

/-- A violation or a feedback fault is latched on an axis. -/
def WoadAx.latched (x : WoadAx) : Bool := x.a.stoLatch || x.a.ss1Latch || x.b.stoLatch || x.b.ss1Latch || x.fbFault

/-- The positions of an axis call for the reaction of R403. -/
def posBreak (p : SfAxis) (miss : Nat) (p1 p2 : Option Nat) : Bool :=
  decide (2 ≤ miss) || (match p1, p2 with
    | some a, some b => decide (p.posTol < (wrapDiff (sfWrap p) (posOf (sfWrap p) a) (posOf (sfWrap p) b)).natAbs)
    | _, _ => false)

/-- One axis in a safety cycle. -/
def State.sfAxis (s : State) (p : SafetySet) (a : SfAxis) : State :=
  let x := s.woadAx a.axis
  let rs := s.requests p a
  let p1 := x.tap.map BitVec.toNat
  let p2 := s.pos2 p a.axis
  let miss1 := if p1.isNone then x.miss1 + 1 else 0
  let miss2 := if p2.isNone then x.miss2 + 1 else 0
  let bad := posBreak a (max miss1 miss2) p1 p2
  let ea := x.a.eval true a rs p1 bad
  let eb := x.b.eval false a rs p2 bad
  let asked := s.woad.resets.contains a.axis || s.woad.resets.contains 0xFFFF
  let holds := ea.2 || eb.2 || reqAt rs 0
  let clears := asked && !holds
  let s : State := if asked && holds then { s with woad := { s.woad with refused := satAdd s.woad.refused 1 255 } } else s
  let ca := if clears then ea.1.cleared rs else ea.1
  let cb := if clears then eb.1.cleared rs else eb.1
  let permit := s.sfPermit && !s.woad.internal
  let y : WoadAx := { x with a := ca.decide_ true a rs permit, b := cb.decide_ false a rs permit, miss1 := miss1, miss2 := miss2, fbFault := !clears && (x.fbFault || bad) }
  let s := s.setWoadAx a.axis y
  if y.latched && !x.latched then s.raise 0x70 1 4 a.axis else s

/-! ### Outputs and outgoing telegrams (R408, R410) -/

/-- The brake-release permission of an axis. -/
def State.brakeFree (s : State) (a : Nat) : Bool :=
  let w := s.woadAx a
  w.a.brake && w.b.brake && !s.woad.internal && s.sfPermit
/-- ssm of an axis. -/
def State.ssmOf (s : State) (a : Nat) : Bool := (s.woadAx a).a.ssm && (s.woadAx a).b.ssm

/-- An output's use calls for it to be energised. -/
def State.wantsOut (s : State) (k : Nat) : SfOutput → Bool
  | .unused => false
  | .sto => s.energise (256 + k)
  | .brake a => s.brakeFree a
  | .ssm a => s.ssmOf a

/-- The outputs after a safety cycle. -/
def State.setOutputs (s : State) (p : SafetySet) : State :=
  let v := (List.range 8).foldl (fun acc k =>
    acc + (if s.wantsOut k ((p.outputs[k]?).getD .unused) && !s.woad.soFault.getLsbD k then 2 ^ k else 0)) 0
  s.gated (fun s => { s with woad := { s.woad with so := if s.woad.internal || s.woad.pfail then 0#8 else BitVec.ofNat 8 v } })

/-- A STATE telegram (R410, R415). No message tells Woad which axes have STO confirmed, so that byte is open. -/
def State.stateTelegram (s : State) (p : SafetySet) (c : SfConn) (count : Nat) : List Byte :=
  let perm := c.axes.map (fun a => BitVec.ofNat 8 (bitN (s.energise a) + 2 * bitN (s.brakeFree a)))
  let plen := max 4 ((perm.length + 3) / 4 * 4)
  let body := leBytes 2 c.src ++ leBytes 2 c.dst ++ leBytes 4 count ++ [BitVec.ofNat 8 (if s.woad.locked then 1 else 0x81)]
    ++ [BitVec.ofNat 8 (s.freeW.toNat % 2 ^ c.axes.length), BitVec.ofNat 8 plen, 0#8] ++ slice perm 0 plen
  body ++ telCheck (setCrcA p) body

/-- The STATE telegram of a connection built for this safety cycle; a standby sends none (R413). -/
def State.buildTelegram (s : State) (p : SafetySet) (i : Nat) (c : SfConn) : State :=
  if c.kind ≠ 1 || decide (s.lsp.role = .standby) then s
  else
    let x := s.conn i
    let n := (x.count + 1) % 2 ^ 32
    (s.setConnSt i { x with count := n, out := s.stateTelegram p c n, sentRing := false, sentLine := false }).drew

/-! ### Views (R416) -/

/-- WOAD_STAT, WOAD_SI, WOAD_SO and an axis's WOAD_AXIS_STAT. -/
def State.woadStat (s : State) : Word :=
  BitVec.ofNat 32 (bitN s.woad.internal * 2 ^ 31 + bitN s.woad.locked * 2 ^ 30 + bitN (s.woad.accepted && decide (s.lsp.role ≠ .standby)) * 2 ^ 29
    + s.woad.refused * 65536 + ((s.sfSet.map SafetySet.scDiv).getD 0) % 65536)
def State.woadSi (s : State) : Word :=
  BitVec.ofNat 32 ((List.range 16).foldl (fun a k =>
    a + bitN (s.siActive k) * 2 ^ k + bitN ((s.si k).rev || decide ((s.si k).fault ≠ .none)) * 2 ^ (16 + k)) 0)
def State.woadSo (s : State) : Word := BitVec.ofNat 32 (s.woad.soFault.toNat * 256 + s.woad.so.toNat)
def State.woadAxisStat (s : State) (a : Nat) : Word :=
  let x := s.woadAx a
  BitVec.ofNat 32 (bitN (s.stopReq a) * 2 ^ 22 + bitN x.latched * 2 ^ 21 + bitN (s.ssmOf a) * 2 ^ 20 + bitN (s.brakeFree a) * 2 ^ 19
    + bitN (s.energise a) * 2 ^ 18 + x.a.active.toNat * 512)

/-- The status words as a safety cycle leaves them: the axes under their numbers, then WOAD_STAT, WOAD_SI and WOAD_SO (R416). -/
def State.woadWords (s : State) (p : SafetySet) : List (Nat × Word) :=
  p.axes.map (fun a => (a.axis, s.woadAxisStat a.axis)) ++ [(512, s.woadStat), (513, s.woadSi), (514, s.woadSo)]
/-- One of them as at the last safety cycle; the present one before any (log entry 149). -/
def State.woadSeen (s : State) (k : Nat) (now : Word) : Word :=
  match Tab.find s.woad.shown k with
  | some w => w
  | none => now

/-! ### The safety cycle (R397, R399) -/

/-- The two channels agree on every axis. -/
def State.channelsAgree (s : State) (p : SafetySet) : Bool :=
  p.axes.all (fun a => decide ((s.woadAx a.axis).a.decisions = (s.woadAx a.axis).b.decisions))

/-- A safety cycle. -/
def State.safetyCycle (s : State) (p : SafetySet) (x : WoadInputs) : State :=
  let ids := (List.range p.conns.length).zip p.conns
  let s := ids.foldl (fun s (e : Nat × SfConn) => if e.2.kind = 1 then s else s.judgeConn e.1) s
  let s := p.axes.foldl (fun s a => s.sfAxis p a) s
  let s : State := { s with woad := { s.woad with due := false, resets := [] } }
  let s := if x.differ || x.memError || x.supplyBad || x.missed || !s.channelsAgree p then s.woadInternal else s
  let s := s.setOutputs p
  let s := ids.foldl (fun s (e : Nat × SfConn) => s.buildTelegram p e.1 e.2) s
  { s with woad := { s.woad with shown := s.woadWords p } }

/-- The SOURCE token of a monitored axis is still to come in the cycle that opened the safety cycle (R403). -/
def State.tapWaits (s : State) (p : SafetySet) : Bool :=
  s.woad.openAt == some s.cycle && p.axes.any (fun a => !(s.woadAx a.axis).tapped)

/-- SAFETY_CYCLE_START (R399): its inputs are complete when the tokens of its first network cycle have passed the tap (log entry 202). -/
def execSafetyCycleStart (x : WoadInputs) (s : State) : Host.Outcome State Fault Refusal :=
  .next (match s.sfSet with
    | some p => if s.woad.due && s.woadOn && !s.tapWaits p then s.safetyCycle p x else s
    | none => s)

/-- SAFE_OUTPUT_TEST (R409). -/
def execSafeOutputTest (k : Nat) (t : OutTest) (s : State) : Host.Outcome State Fault Refusal :=
  .next (if 8 ≤ k || !s.woadOn || !s.woad.so.getLsbD k || !(t.offReadsOn || t.onReadsOff) then s
    else
      let m := BitVec.ofNat 8 (2 ^ k)
      { s with woad := { s.woad with so := s.woad.so &&& ~~~m, soFault := s.woad.soFault ||| m } }.raise 0x72 1 13 k)

/-! ### Ring windows (R252, R411) -/

/-- A connection's slot lies on a ring's path. -/
def State.connOn (s : State) (r : Nat) (x : Side) (c : SfConn) : Bool :=
  (s.path r x).any (fun d => c.axes.any (fun a => (slotAxes d).contains a))

/-- The node of a connection on a ring's path. -/
def State.connNode (s : State) (r : Nat) (x : Side) (c : SfConn) : Nat :=
  (((s.path r x).find? (fun d => c.axes.any (fun a => (slotAxes d).contains a))).map SlotDesc.node).getD 0

/-- A connection's STATE telegram sent in a window, if it has not been sent, belongs to this side and fits into the `room` bytes left. -/
def State.safetyOut (s : State) (r : Nat) (side : Side) (e : Nat × SfConn) (room : Nat) : State × Nat :=
  let x := s.conn e.1
  let n := frameBytes x.out.length
  if e.2.kind = 1 && !x.sentRing && !x.out.isEmpty && s.connOn r side e.2 && decide (n ≤ room) then
    ((s.setConnSt e.1 { x with sentRing := true }).ringSend r side { type := 5, node := s.connNode r side e.2, cyc := s.cycle } x.out, room - n)
  else (s, room)

/-- RING_SAFETY_OUT_WINDOW (R257, R258): the STATE telegrams of the safety cycle not yet sent on this side. -/
def execRingSafetyOutWindow (rs : RingSide) (s : State) : Host.Outcome State Fault Refusal :=
  .next (s.onRing rs.ring (fun s =>
    let side := s.role rs.ring rs.side
    match s.sfSet with
    | none => s
    | some p =>
      if !s.xwRuns rs.ring || decide (s.lsp.role = .standby) then s
      else match s.windowNext rs.ring 5 side with
        | none => s
        | some w => (((List.range p.conns.length).zip p.conns).foldl (fun (t : State × Nat) e => t.1.safetyOut rs.ring side e t.2)
            (s.openWindow rs.ring side w, s.windowBytes rs.ring w.2)).1))

/-- RING_SAFETY_RECEIVE (R252): handed to Woad unchanged. -/
def execRingSafetyReceive (rs : RingSide) (f : SafetyFrame) (s : State) : Host.Outcome State Fault Refusal :=
  .next (s.onRing rs.ring (fun s =>
    (s.ringForward rs (.safety f)).ringTake rs.ring (s.role rs.ring rs.side) f.toRxHead (fun s =>
      if !f.inWindow then s.ringStray rs.ring else s.telegramIn false f.body)))

/-! ### Commands (R416) -/

/-- The check values of the two channels. -/
def State.woadCrc (s : State) : Word × Word :=
  match s.image.bind Image.safety with
  | some p => (setCrcA p, setCrcB p)
  | none => (0#32, 0#32)

/-- SAFETY_STATUS_GET. -/
def specSafetyStatusGet : CmdSpec :=
  { opcode := 0x0B00, query := true, named := [(0, 2)], absent := axisAbsent
    bad := fun _ c => decide (263 < c.p16 0)
    run := fun s c _ _ => (s, .of (bytesOfWords [s.woadSeen 512 s.woadStat, s.woadSeen 513 s.woadSi, s.woadSeen 514 s.woadSo,
      s.woadSeen c.axis (s.woadAxisStat c.axis)])) }

/-- SAFETY_CRC_GET. -/
def specSafetyCrcGet : CmdSpec :=
  { opcode := 0x0B01, query := true
    run := fun s _ _ _ => (s, .of (bytesOfWords [s.woadCrc.1, s.woadCrc.2, BitVec.ofNat 32 (bitN s.woad.locked)])) }

/-- The value differs from either channel's. -/
def crcDiffers (s : State) (c : CmdIn) : Bool := !s.woad.accepted || decide (c.pw 0 ≠ s.woadCrc.1) || decide (c.pw 0 ≠ s.woadCrc.2)

/-- SAFETY_CONFIRM (R415). -/
def specSafetyConfirm : CmdSpec :=
  { opcode := 0x0B02, rank := 4, named := [(0, 4)]
    mode := fun s _ => decide (s.mode ≠ .commission)
    run := fun s c seq _ =>
      if crcDiffers s c then (s, { status := 0x0A })
      else
        ({ s with woad := { s.woad with locked := true }, flash := { s.flash with confirm := some (c.pw 0, seq) } }.emit
          (.flash 0x00300000 (wordBytes (c.pw 0) ++ leBytes 8 seq)), {}) }

/-- SAFETY_RESET (R406). -/
def specSafetyReset : CmdSpec :=
  { opcode := 0x0B03, rank := 2, safety := true, named := [(0, 2)]
    absent := fun s c => decide (c.p16 0 ≠ 0xFFFF) && axisAbsent s c
    bad := fun _ c => decide (c.p16 0 ≠ 0xFFFF ∧ 263 < c.p16 0)
    run := fun s c _ _ => ({ s with woad := { s.woad with resets := s.woad.resets ++ [c.p16 0] } }, {}) }

/-- SAFETY_UNLOCK (R416). -/
def specSafetyUnlock : CmdSpec :=
  { opcode := 0x0B04, rank := 4, named := [(0, 4)]
    mode := fun s _ => decide (s.mode ≠ .commission)
    run := fun s c _ _ =>
      if crcDiffers s c then (s, { status := 0x0A })
      else ({ s with woad := { s.woad with locked := false }, flash := { s.flash with confirm := none } }.emit
        (.flash 0x00300000 (List.replicate 12 0xFF#8)), {}) }

def execSafetyStatusGet (r : CmdReq) (s : State) : Host.Outcome State Fault Refusal := .next (s.command specSafetyStatusGet r)
def execSafetyCrcGet (r : CmdReq) (s : State) : Host.Outcome State Fault Refusal := .next (s.command specSafetyCrcGet r)
def execSafetyConfirm (r : CmdReq) (s : State) : Host.Outcome State Fault Refusal := .next (s.command specSafetyConfirm r)
def execSafetyReset (r : CmdReq) (s : State) : Host.Outcome State Fault Refusal := .next (s.command specSafetyReset r)
def execSafetyUnlock (r : CmdReq) (s : State) : Host.Outcome State Fault Refusal := .next (s.command specSafetyUnlock r)

/-- A safety cycle opens at the present edge E: the taps wait for this cycle's tokens, and the shadow counters are latched (R403). -/
def WoadSt.opened (w : WoadSt) (cycle : Word) : WoadSt :=
  { w with due := true, openAt := some cycle, shadowAt := w.shadow
           axes := Tab.mapVals {} (fun (x : WoadAx) => { x with tap := none, tapped := false }) w.axes }

/-- An edge E counted by Woad (R399): it opens a safety cycle at every sc_div-th from the origin; a standby takes the mark of the
active, and counts on from the last where one has not come. The stop requests of the cycle before are now K_INNER's (R407). -/
def State.woadEdge (s : State) : State :=
  match s.sfSet with
  | none => s
  | some p =>
    let w : WoadSt := { s.woad with lineUsed := [], axes := Tab.mapVals {} (fun (x : WoadAx) => { x with stopAsked := x.a.stop || x.b.stop }) s.woad.axes }
    let marked := decide (s.lsp.role = .standby ∧ w.mark = some s.cycle)
    let follows := decide (s.lsp.role = .standby ∧ w.edges = 0)
    let opens := marked || (!follows && decide (0 < p.scDiv ∧ w.edges % p.scDiv = 0))
    let edges := if marked then 1 else if follows then 0 else w.edges + 1
    { s with woad := if opens then { (w.opened s.cycle) with edges := edges, mark := none } else { w with edges := edges } }

end Sys2Proof.Machine
end

