-- ==== Sys2Proof/Machine/Larkspur.lean ====
section
/-! DEFINITION. Larkspur (R419 to R443): heartbeats, synchronisation, comparisons, the takeover decision, the twin commands; the CYCLE_START
and COMMAND trains as an active and a standby see them; the Woad line's slots and frames (R412, R426).
Log: DEDUCED 104, 106, 108, 109, 110, 111, 150, 157, 193, 194. DESIGN CHOICE 105, 107, 206, 222. -/

namespace Sys2Proof.Machine

/-- Larkspur's own state given. -/
def State.setLsp (s : State) (x : LspSt) : State := { s with lsp := x }
/-- A raising of Larkspur. -/
def State.lspRaise (s : State) (cls : Nat) : State := s.raise cls 1 10 95

/-! ### Roles (R419, R430, R438) -/

/-- The part is paired: the conditions of R419 as the partner's heartbeats show them. -/
def State.pairs (s : State) (h : TwinHeartbeat) : Bool := s.lsp.linkUp && s.lsp.imageOk && h.pos != s.lsp.pos

/-- A request for synchronisation (R435): everything gathered before is dropped; Indigo's capture is suspended. -/
def State.startSync (s : State) : State :=
  let x := s.lsp
  let s := s.setLsp { x with sync := .syncing, ready := false, loaded := false, copy := [], copySize := 0, heldToks := [], heldJnl := []
                             caught := 0, catching := false, matchRun := 0, digestIn := none, own := none, copyIn := none, bad := false
                             cmdSeen := [], cmdBad := false, cmdOk := false }
  let s : State := { s with ind := { s.ind with suspended := true } }
  if x.linkUp then s.sendTwin 7 s.cycle [] else s

/-- STANDBY entered: ports pass frames through, and synchronisation starts when auto_sync is set (R430, R434, R442). -/
def State.enterStandby (s : State) (c : Cause) : State :=
  let s := s.setMode .standby c
  let s := s.setLsp { s.lsp with role := .standby, sync := .none, ready := false, matchRun := 0, tookOver := false, resign := false, switchAt := none
                                 silentCs := 0, downRun := 0, wPrev := {}, wNow := {} }
  let s := s.portsEnter
  if s.bit Reg.lspCtrlAutoSync then s.startSync else s

/-! ### Heartbeats (R425 to R427) -/

/-- A HEARTBEAT's body. -/
def State.heartbeatBody (s : State) : List Byte :=
  let x := s.lsp
  wordBytes s.time.ns ++ leBytes 2 (s.time.frac.toNat / 2 ^ 24)
    ++ [BitVec.ofNat 8 s.mode.code, BitVec.ofNat 8 (bitN (s.bit Reg.lspCtrlInhibit) * 8 + bitN x.tookOver * 4 + bitN x.resign * 2 + bitN x.ready)]
    ++ leBytes 8 s.jnl.head

/-- The HEARTBEAT of a cycle sent on the twin link. -/
def State.sendHeartbeat (s : State) (c : Word) : State := if s.lsp.linkUp then s.sendTwin 1 c s.heartbeatBody else s

/-- A body as its bytes: the partner's last heartbeat. -/
def hbBytes (h : TwinHeartbeat) : List Byte :=
  wordBytes h.tNs ++ leBytes 2 h.tSub.toNat
    ++ [h.mode, BitVec.ofNat 8 (bitN h.inhibit * 8 + bitN h.tookOver * 4 + bitN h.resign * 2 + bitN h.ready)] ++ leBytes 8 h.head

/-- The standby's cycle number takes the active's: cycle `j` is the next (R432). The instants of its edges stay. -/
def State.alignCycle (s : State) (j : Word) : State :=
  if s.cycle + 1#32 = j then s
  else
    let d := j - (s.cycle + 1#32)
    { s with cycle := s.cycle + d, time := { s.time with n0 := s.time.n0 + d } }

/-- How far the active's counter is ahead of this part's, in 2^−16 ns, from what it shows now; within half a second. -/
def State.aheadOf (s : State) (t : Int) : Int := (t - s.now16 + ns16 500000000) % ns16 1000000000 - ns16 500000000

/-- The increment target that takes up an offset of `d`·2^−16 ns in one cycle, off by less than would move an edge by 20 ns, kept within the
limits of R331 (R432). -/
def steerTarget (rate : Nat) (d : Int) (rest : Nat) : Nat :=
  let ticks : Int := max 1 (500000000 / max rate 1 : Nat)
  let slack : Int := 20 * 2 ^ 40 / ticks
  (max 0x01FF7CED9168 (min 0x020083126E98 (0x020000000000 + d * 2 ^ 24 / ticks + (rest % (2 * slack + 1) - slack)))).toNat

/-- The time unit steered towards the active's (R432): a target under R333 is committed. What it leaves of the 20 ns is open (log entry
104). -/
def State.steer (s : State) (t : Int) : State :=
  let v := (Config.freeWord s.freeCtr).toNat * 2 ^ 32 + (Config.freeWord (s.freeCtr + 1)).toNat
  s.drew.drew.commitTarget (steerTarget s.rate (s.aheadOf t) v)

/-- A witness of the coming cycle (R436, R437); one that comes after W of that cycle is none. -/
def State.witness (s : State) (f : Witness → Witness) : State :=
  if s.lsp.watched then s else s.setLsp { s.lsp with wNow := f s.lsp.wNow }

/-- TWIN_HEARTBEAT_RECEIVE. To a standby the partner is the active unless it tells that it is in STANDBY itself (R436). -/
def execTwinHeartbeatReceive (h : TwinHeartbeat) (s : State) : Host.Outcome State Fault Refusal :=
  .next (if !s.isA || !s.awake || !s.lsp.linkUp || !h.crcOk then s
    else
      let same := match s.image with | some i => decide (i.check = h.checkValue) | none => false
      let s := s.setLsp { s.lsp with hb := some h, hbNow := true, hbMiss := some 0, imageOk := same, partnerReady := h.ready, lostRaised := false }
      if s.mode = .standby && h.mode == BitVec.ofNat 8 Mode.standby.code then s
      else if s.mode = .standby then
        let s := (s.alignCycle h.cycle).steer (h.tNs.toNat * 65536 + h.tSub.toNat + s.lsp.linkDelay)
        if h.cycle = s.cycle + 1#32 then s.witness (fun w => { w with twin := true, resign := w.resign || h.resign }) else s
      else if s.pairs h && decide (s.lsp.role = .unpaired) then s.setLsp { s.lsp with role := .active }
      else s)

/-- A Woad line heartbeat from the partner. -/
def State.lineHeartbeat (s : State) (cycle : BitVec 16) (pos active resign ready : Bool) : State :=
  if !s.isA || pos == s.lsp.pos then s
  else
    let s := s.setLsp { s.lsp with lineMiss := some 0, lostRaised := false, partnerReady := if active then s.lsp.partnerReady else ready }
    if s.mode = .standby && active && cycle = (s.cycle + 1#32).setWidth 16 then
      s.witness (fun w => { w with line := true, resign := w.resign || resign })
    else s

/-! ### The Woad line (R412, R426) -/

/-- A frame's kind and body. -/
def wlBytes : WlFrame → Nat × List Byte
  | .telegram t => (1, t.bytes)
  | .command p => (2, p.bytes)
  | .reply b => (3, b)
  | .heartbeat b => (4, b)
  | .other k b => (k.toNat, b)

/-- The body of a heartbeat (R426). -/
def lineBeat (cycle : BitVec 16) (pos active resign ready : Bool) : List Byte :=
  let body := leBytes 2 cycle.toNat ++ [BitVec.ofNat 8 (bitN pos + 2 * bitN active + 4 * bitN resign + 8 * bitN ready), 0#8]
  body ++ leBytes 4 (crc32c body)

/-- A received heartbeat taken, when its check value holds (R426). -/
def State.beatIn (s : State) (b : List Byte) : State :=
  let bits := numAt b 2 1
  if b.length = 8 && slice b 4 4 == leBytes 4 (crc32c (slice b 0 4)) then
    s.lineHeartbeat (BitVec.ofNat 16 (numAt b 0 2)) (bits.testBit 0) (bits.testBit 1) (bits.testBit 2) (bits.testBit 3)
  else s

/-- WOAD_LINE_FRAME_RECEIVE: repeated out of the other port as it came, then taken by its kind. -/
def execWoadLineFrameReceive (port : Nat) (f : WlFrame) (s : State) : Host.Outcome State Fault Refusal :=
  .next (if !s.woadOn then s
    else
      let s := s.emit (.woadLine (if port = 0 then 2 else 1) (wlBytes f).1 (wlBytes f).2)
      match f with
      | .telegram t => s.telegramIn true t.bytes
      | .command p => if s.awake then s.wait (CmdIn.ofPacket .woadLine p.bytes none) else s
      | .heartbeat b => if s.awake then s.beatIn b else s
      | .reply _ => s
      | .other _ _ => s)

/-- The slot of the Woad line schedule that opens next for a use in the present cycle, by its place in the schedule (R412): it stands in the
present network cycle of the safety cycle, belongs to this part's role, and nothing has been sent in it. -/
def State.lineSlot (s : State) (w : WlSlot) : Option (Nat × LineSlot) :=
  match s.sfSet with
  | none => none
  | some p =>
    let k := (s.woad.edges - 1) % Nat.max p.scDiv 1
    ((List.range p.line.length).zip p.line).find? (fun e =>
      decide (e.2.slot = w) && (decide (w ≠ .heartbeat) || e.2.active == decide (s.lsp.role = .active))
        && decide (k % e.2.per = e.2.phase) && !s.woad.lineUsed.contains e.1)

/-- A slot taken: its instant has come. -/
def State.openLine (s : State) (e : Nat × LineSlot) : State :=
  let s := s.toInstant e.2.offset
  { s with woad := { s.woad with lineUsed := e.1 :: s.woad.lineUsed } }

/-- The frame that a slot is for: the telegram of a connection once in a safety cycle, the reply owed, the part's heartbeat. -/
def State.lineSend (s : State) (slot : WlSlot) : State :=
  match slot with
  | .telegram i =>
    let x := s.conn i
    if ((s.sfSet.bind (fun p => p.conns[i]?)).map SfConn.kind) == some 1 && !x.out.isEmpty && !x.sentLine && decide (s.lsp.role ≠ .standby) then
      (s.setConnSt i { x with sentLine := true }).emit (.woadLine 3 1 x.out) else s
  | .reply =>
    (match s.woad.reply with
      | some b => { s with woad := { s.woad with reply := none } }.emit (.woadReply b)
      | none => s)
  | .heartbeat =>
    if s.lsp.role = .unpaired then s
    else
      let x := s.lsp
      s.emit (.woadLine 3 4 (lineBeat ((s.cycle + 1#32).setWidth 16) x.pos (decide (x.role = .active)) x.resign x.ready))

/-- WOAD_LINE_SLOT (R412, R426): a slot of this part's own, as the schedule of the safety parameter set has it. -/
def execWoadLineSlot (slot : WlSlot) (s : State) : Host.Outcome State Fault Refusal :=
  .next (if !s.woadOn then s
    else match s.lineSlot slot with
      | some e => (s.openLine e).lineSend slot
      | none => s)

/-! ### Comparisons (R433, R434) -/

/-- A mismatch (R434): kinds 1 command, 2 digest, 3 state. -/
def State.mismatch (s : State) (kind : Nat) (cycle : Word) : State :=
  let s := s.setLsp { s.lsp with ready := false, mmKind := kind, matchRun := 0, bad := s.lsp.bad || kind != 1, cmdBad := s.lsp.cmdBad || kind == 1 }
  let s := ((s.setReg 0x680014 cycle).incFld Reg.lspCntMismatches).lspRaise 0x83
  if s.bit Reg.lspCtrlAutoSync then s.startSync else s

/-- The digests of a cycle compared, once both are there. -/
def State.digestTest (s : State) : State :=
  match s.lsp.digestIn with
  | some (c, d) =>
    if s.mad.digestCycle ≠ c || s.lsp.sync ≠ .inStep then s
    else
      let s := s.setLsp { s.lsp with digestIn := none }
      if d = s.mad.digest then s.setLsp { s.lsp with digOk := true } else s.mismatch 2 c
  | none => s

/-- The check values of the two copies of a cycle compared, once both are there. -/
def State.copyTest (s : State) : State :=
  match s.lsp.own, s.lsp.copyIn with
  | some (c, a), some (c', b) =>
    if c ≠ c' || s.lsp.sync ≠ .inStep then s
    else
      let s := s.setLsp { s.lsp with copyIn := none }
      if a = b then s.setLsp { s.lsp with copyOk := true } else s.mismatch 3 c
  | _, _ => s

/-- TWIN_DIGEST_RECEIVE. -/
def execTwinDigestReceive (cycle : Word) (d : BitVec 64) (s : State) : Host.Outcome State Fault Refusal :=
  .next (if s.mode ≠ .standby || !s.lsp.linkUp then s else (s.setLsp { s.lsp with digestIn := some (cycle, d) }).digestTest)

/-- Records of a train's subframe differ from the standby's own (R433). -/
def State.trainDiffers (s : State) (r : Nat) : List CmdSub → State × Bool
  | [] => (s, false)
  | f :: rest =>
    match s.slot r f.node with
    | none => State.trainDiffers s r rest
    | some d =>
      let y := if slotUsed d then s.axisRecords r (slotAxes d) else (s, (List.replicate d.axes [0#32, 0#32, 0#32]).flatten, false)
      let z := State.trainDiffers y.1 r rest
      (z.1, z.2 || decide (y.2.1 ≠ f.words.take y.2.1.length))

/-- A subframe of a train is whole and the ring's own. -/
def subGood (f : CmdSub) (r : Nat) : Bool := f.crcOk && f.typeOk && f.ringNo == r

/-- RING_COMMAND_TRAIN_RECEIVE (R245, R433): each subframe is tested for itself, and one that fails is not compared. -/
def execRingCommandTrainReceive (rs : RingSide) (f : CmdTrain) (s : State) : Host.Outcome State Fault Refusal :=
  .next (s.onRing rs.ring (fun s =>
    let x := s.role rs.ring rs.side
    let s := f.subs.foldl (fun s k => s.ringTake rs.ring x k.toRxHead id) (s.ringForward rs (.command f))
    if s.xw rs.ring ≠ .pass || s.lsp.sync ≠ .inStep || f.cycle ≠ s.cycle then s
    else
      let subs := f.subs.filter (fun k => subGood k rs.ring)
      let y := s.trainDiffers rs.ring subs
      let y := if subs.isEmpty then y else (y.1.setLsp { y.1.lsp with cmdSeen := rs.ring :: y.1.lsp.cmdSeen }, y.2)
      if y.2 then y.1.mismatch 1 f.cycle else y.1))

/-- A COMMAND train of the active passes a ring's port in the present cycle, by the active's schedule (R539). -/
def State.cmdPasses (s : State) (r : Nat) : Bool :=
  s.xw r = .pass && ((s.otherCfg r).map (fun c => c.sched.any (fun e => e.kind == 2 && s.entryApplies r (s.topoNow r) s.cycle e))).getD false

/-- The records of every such train of the present cycle have been compared, and none differed. -/
def State.cmdsMatch (s : State) : Bool :=
  !s.lsp.cmdBad && (List.range s.ringCount).all (fun r => !s.cmdPasses r || s.lsp.cmdSeen.contains r)

/-- The standby's judgement at the cycle-end fence (R433, R434): the cycle before counts as matching when nothing differed, no operation
was late and all three comparisons of it were made; that of the commands fell into the cycle itself. -/
def State.judgeCycle (s : State) : State :=
  let x := s.lsp
  if s.mode ≠ .standby || x.sync ≠ .inStep then s
  else
    let run := if x.bad || !x.digOk || !x.copyOk || !x.cmdOk then 0 else satAdd x.matchRun 1 255
    let s := s.setLsp { x with matchRun := run, ready := decide (64 ≤ run), bad := false, digOk := false, copyOk := false, lateOp := none
                               cmdOk := s.cmdsMatch, cmdSeen := [], cmdBad := false }
    match x.lateOp with
    | some c => s.mismatch 2 c
    | none => s

/-! ### The copy (R424, R428, R435) -/

/-- The data of a copy, once every byte of it has come; what the last frame carries beyond the copy's size is no part of it. -/
def copyBytes (size : Nat) (parts : List (Nat × List Byte)) : Option (List Byte) :=
  let bs := (parts.mergeSort (fun a b => decide (a.1 ≤ b.1))).flatMap (fun (p : Nat × List Byte) => p.2)
  let placed := ((parts.mergeSort (fun a b => decide (a.1 ≤ b.1))).foldl (fun (n : Option Nat) p => match n with
    | some k => if p.1 = k then some (k + p.2.length) else none
    | none => none) (some 0))
  if (placed.map (fun n => decide (size ≤ n))).getD false && size ≠ 0 then some (bs.take size) else none

/-- TWIN_COPY_RECEIVE (R424, R433, R435). -/
def execTwinCopyReceive (c : TwinCopy) (s : State) : Host.Outcome State Fault Refusal :=
  .next (if s.mode ≠ .standby || !s.lsp.linkUp then s
    else if !c.crcOk then s.mismatch 3 c.cycle
    else if s.lsp.sync = .syncing && s.lsp.loaded then s
    else
      let x := s.lsp
      let parts := if x.copyCycle = c.cycle && x.copySize = c.size then x.copy.filter (fun p => !decide (p.1 = c.offset)) else []
      let parts := parts ++ [(c.offset, c.data)]
      let s := s.setLsp { x with copyCycle := c.cycle, copySize := c.size, copy := parts }
      match copyBytes c.size parts with
      | none => s
      | some bs =>
        let s := s.setLsp { s.lsp with copy := [] }
        match x.sync with
        | .syncing =>
          let s := s.loadCopy c.cycle bs
          s.setLsp { s.lsp with loaded := true, caught := 0, catching := false
                                heldToks := s.lsp.heldToks.filter (fun t => cycLater t.tok.cycle c.cycle) }
        | .inStep => (s.setLsp { s.lsp with copyIn := some (c.cycle, BitVec.ofNat 64 (crc64 bs)) }).copyTest
        | .none => s)

/-- TWIN_MIRROR_RECEIVE (R433, R435): in step the token enters its queue unless a hold has taken its place; while synchronising it is
kept. Woad's tap of the path takes its position. -/
def execTwinMirrorReceive (t : TokenRec) (s : State) : Host.Outcome State Fault Refusal :=
  .next (if s.mode ≠ .standby || !s.lsp.linkUp then s
    else
      let axis := (((s.image.map Image.axes).getD []).find? (fun c => c.srcQ == t.queue)).map AxisCfg.axis
      let s := match (if t.tok.cycle = s.cycle then axis else none) with
        | some a => s.tapPos a (if t.tok.hold then none else some (wordAt t.tok.words 2))
        | none => s
      match s.lsp.sync with
      | .inStep =>
        if s.mad.samples.any (fun r => r.queue == t.queue && decide (r.tok.cycle = t.tok.cycle)) || t.tok.cycle ≠ s.cycle then s
        else (s.push t.queue t.tok).note
      | .syncing => s.setLsp { s.lsp with heldToks := s.lsp.heldToks ++ [t] }
      | .none => s)

/-- TWIN_SYNC_RECEIVE (R435): the active sends a copy in every cycle; a partner that asks for one is not ready. -/
def execTwinSyncReceive (cycle : Word) (s : State) : Host.Outcome State Fault Refusal :=
  .next (if s.lsp.role ≠ .active || !s.lsp.linkUp || cycLater cycle (s.cycle + 1#32) then s
    else s.setLsp { s.lsp with partnerReady := false })

/-- Replies that wait for an acknowledgement sent, as far as a test lets them (R427). -/
def State.releaseAcks (s : State) (f : Nat → Bool) : State :=
  let go := s.host.awaitAck.filter (fun a => f a.1)
  let s : State := { s with host := { s.host with awaitAck := s.host.awaitAck.filter (fun a => !f a.1) } }
  go.foldl (fun s (a : Nat × CmdIn × Reply) => s.deliver a.2.1 a.2.2) s

/-- TWIN_ACK_RECEIVE (R427). -/
def execTwinAckReceive (seq : Nat) (s : State) : Host.Outcome State Fault Refusal :=
  .next (if s.lsp.role ≠ .active || !s.lsp.linkUp then s
    else (s.setLsp { s.lsp with acked := max s.lsp.acked seq }).releaseAcks (fun n => decide (n ≤ max s.lsp.acked seq)))

/-- TWIN_LINK_UP (R422, R432): the delay measured then is a free value (log entry 222). -/
def execTwinLinkUp (s : State) : Host.Outcome State Fault Refusal :=
  .next (if !s.isA || !s.awake then s else s.drew.setLsp { s.lsp with linkUp := true, linkDelay := s.freeW.toNat })

/-- TWIN_LINK_DOWN (R422): the frames under way are lost; no standby is ready for the active. -/
def execTwinLinkDown (s : State) : Host.Outcome State Fault Refusal :=
  .next (if !s.isA || !s.awake then s
    else (s.setLsp { s.lsp with linkUp := false, copy := [], partnerReady := false }).releaseAcks (fun _ => true))

/-- SYNC_GIVE_UP (R435): 128 cycles have been recomputed. -/
def execSyncGiveUp (s : State) : Host.Outcome State Fault Refusal :=
  .next (if s.mode ≠ .standby || s.lsp.sync ≠ .syncing || !s.lsp.loaded || s.lsp.caught < 128 then s
    else (s.setLsp { s.lsp with loaded := false, caught := 0, catching := false, heldToks := [], heldJnl := [] }).lspRaise 0x84)

/-! ### The takeover decision (R436, R437, R439) -/

/-- The takeover at W(j): Woad's telegrams begin with the next safety cycle (R413); with the HEARTBEAT of cycle j beside its CYCLE_STARTs (R427). A port is HEALED when a broken lane, a TOPO LOOP or the active's own CYCLE_STARTs have shown it a loop
(log entry 157). -/
def State.takeover (s : State) (j : Word) : State :=
  let s := (s.setMode .run .takeover).journal 6#3 0 false (s.freeW.toNat % 65536) s.cycle []
  let s := s.drew
  let s := s.setLsp { s.lsp with role := .active, tookOver := true, ready := false, sync := .none, resign := false, silentCs := 0, downRun := 0
                                 csSent := true, hbNow := false }
  let s := ((s.incFld Reg.lspCntTakeovers).setReg 0x680010 j).lspRaise 0x86
  let edge := (s.edgeAt j).getD s.now16
  let s : State := { s with woad := { s.woad with conns := Tab.mapVals {} (fun (x : ConnSt) => { x with out := [] }) s.woad.conns } }
  let s := s.sendHeartbeat j
  let s := if s.regionL2 then s.setMode .degraded .fault else s
  (List.range s.ringCount).foldl (fun s r =>
    if s.xw r ≠ .pass then s
    else if !s.ringLock r .east && !s.ringLock r .west then (s.toLink r).ringRaise 0x34 r
    else
      let y := s.ringSt r
      let dark := ([Side.east, Side.west].filter (fun x => !s.ringLock r x)).map (fun x => (⟨false, x, none⟩ : HealEv))
      let ev := y.evid ++ dark
      let s := ev.foldl (fun s v => s.setLb r v.side v.node) s
      let s := s.setRing r { s.ringSt r with sentRun := 0, returned := false, csAt := none, evid := [], verify := false, echoes := [] }
      let s := if y.csHealed || !ev.isEmpty then ((s.setXw r .healed).incFld Reg.xwEvtHeals (ringBase r)).ringRaise 0x33 r else s.setXw r .intact
      s.sendCs r j edge) s

/-- A condition of a path raised on its onset, bit `k` of what has been raised. -/
def State.pathNote (s : State) (k : Nat) (bad : Bool) (f : State → State) : State :=
  let was := s.lsp.pathRaised.testBit k
  if bad && !was then f (s.setLsp { s.lsp with pathRaised := s.lsp.pathRaised + 2 ^ k })
  else if !bad && was then s.setLsp { s.lsp with pathRaised := s.lsp.pathRaised - 2 ^ k }
  else s

/-- TAKEOVER_WATCH: W(j) of the coming cycle (R436, R437), once a cycle. -/
def execTakeoverWatch (s : State) : Host.Outcome State Fault Refusal :=
  .next (if s.mode ≠ .standby || !s.edgesRun || s.lsp.watched then s
    else
      let j := s.cycle + 1#32
      let s := match s.instant j (-((s.timing.tCs : Int) - s.timing.tWatch)) with
        | some t => s.advanceTo t
        | none => s
      let a := s.lsp.wPrev
      let b := s.lsp.wNow
      let ready := s.lsp.ready && !s.bit Reg.lspCtrlInhibit
      let silent := fun (w : Witness) => !w.twin && !w.line && !w.cs
      let s := s.setLsp { s.lsp with wPrev := b, wNow := {}, watched := true, csSeen := b.cs }
      if ready && (b.resign || (silent a && silent b)) then s.takeover j
      else if silent a && silent b then
        (if s.lsp.lostRaised then s else (s.setLsp { s.lsp with lostRaised := true }).lspRaise 0x82)
      else
        let s := s.setLsp { s.lsp with lostRaised := false }
        let noTwin := !a.twin && !b.twin
        let noLine := !a.line && !b.line
        let alone := noTwin && noLine
        let s := s.pathNote 2 alone (fun s => s.lspRaise 0x81)
        let s := if alone then s.setLsp { s.lsp with ready := false, matchRun := 0 } else s
        let s := s.pathNote 0 (noTwin && !alone) (fun s => (s.incFld Reg.lspCntTwinLosses).lspRaise 0x80)
        s.pathNote 1 (noLine && !alone) (fun s => (s.incFld Reg.lspCntWoadLosses).lspRaise 0x80))

/-! ### CYCLE_STARTs (R246, R257, R274, R430, R438) -/

/-- RING_CS_INSTANT (R257, R427, R442): the CYCLE_START of the next cycle, and with the first of its cycle the heartbeat. -/
def execRingCsInstant (ring : Nat) (s : State) : Host.Outcome State Fault Refusal :=
  .next (s.onRing ring (fun s =>
    let c := s.cycle + 1#32
    match (s.sched ring).find? (fun e => e.kind == 1 && s.entryApplies ring (s.topoNow ring) c e), s.edgeAt c with
    | some e, some edge =>
      if s.mode = .standby then s
      else
        let s := s.advanceTo (edge + ns16 e.offset)
        let s := if !s.lsp.csSent && !s.lsp.csMissed then s.sendHeartbeat c else s
        let leaves := match s.lsp.switchAt with | some a => decide (c = a + 1#32) | none => false
        if (s.ringSt ring).csSent then s
        else if leaves || !s.sendsCs ring then s.setLsp { s.lsp with csMissed := true }
        else (s.setLsp { s.lsp with csSent := true }).sendCs ring c edge
    | _, _ => s))

/-- A CYCLE_START passes a standby's port. While the twin link is down it steers the time unit (R432): it left the active t_cs before the edge
it carries; how long it took on the ring is a free value (log entry 104). -/
def State.csPass (s : State) (r : Nat) (f : CsFrame) : State :=
  let y := s.ringSt r
  let slots := match f.grant with
    | some (_, n) => y.slots.map (fun (d : SlotDesc) => if d.node = n then { d with granted := true } else d)
    | none => y.slots
  let s := s.setRing r { y with returned := true, csHealed := f.healed, csLaunch := if f.twinLaunch then some f.cycle else none, slots := slots }
  if f.activeId == s.lsp.pos then s
  else
    let s := if s.lsp.linkUp then s
      else
        let t := sec16 f.edgeS.toNat + ns16 f.edgeNs.toNat + f.edgeSub.toNat - ns16 s.otherCs + (s.freeW.toNat % 2 ^ 32 : Nat)
        (s.drew.alignCycle f.cycle).steer t
    let s : State := if f.scStart then { s with woad := { s.woad with mark := some f.cycle } } else s
    if f.cycle = s.cycle + 1#32 then s.witness (fun w => { w with cs := true }) else s

/-- A CYCLE_START of this part comes back: the round trip, evidence of a loop, the way out of LINK and LONE (R269, R272, R274). -/
def State.csBack (s : State) (r : Nat) (x : Side) (f : CsFrame) : State :=
  let y := s.ringSt r
  let s := s.setRing r { y with returned := true, sentRun := 0 }
  let s := match y.csAt, x with
    | some t, .west => if f.looped then s else s.setFld Reg.xwRttRtt (min 65535 ((s.now16 - t) / 65536).toNat) (ringBase r)
    | _, _ => s
  let s := if f.looped then s.healEvidence r x (some f.node) else s
  match s.xw r with
  | .link | .lone => s.toDiscover r
  | _ => s

/-- RING_CYCLE_START_RECEIVE. An active that hears its partner's CYCLE_START stands back, unless it took over (R438); unpaired parts on one
ring are UB_09, which reaches that ring. -/
def execRingCycleStartReceive (rs : RingSide) (f : CsFrame) (s : State) : Host.Outcome State Fault Refusal :=
  .next (s.onRing rs.ring (fun s =>
    let r := rs.ring
    let x := s.role r rs.side
    (s.ringForward rs (.cs f)).ringTake r x f.toRxHead (fun s =>
      match s.xw r with
      | .off | .bypass => s
      | .pass => s.csPass r f
      | _ =>
        if f.activeId == s.activeId then s.csBack r x f
        else if s.lsp.role = .unpaired then s.undefine (.ring r)
        else if s.lsp.tookOver then s
        else if s.mode = .run || s.mode = .degraded then (s.enterStandby .fault).lspRaise 0x85
        else s)))

/-! ### Edge E -/

/-- The former active after a planned switch: in STANDBY, where it synchronises whatever auto_sync says (R442). -/
def State.switched (s : State) : State :=
  let t := s.enterStandby .command
  if t.lsp.sync = .syncing then t else t.startSync

/-- The consecutive CS instants without a CYCLE_START, with the one of the last cycle (R438). -/
def LspSt.silentNow (x : LspSt) : Nat := if x.csSent then 0 else if x.csMissed then x.silentCs + 1 else x.silentCs

/-- An active part resigns at edge E of the present cycle: by the planned switch, or for its silent instants (R438, R442). It does so before
the commands of the cycle change the mode (R499). -/
def State.lspLeaves (s : State) : State :=
  if !s.isA || decide (s.lsp.role ≠ .active) || decide (s.mode ≠ .run ∧ s.mode ≠ .degraded) then s
  else
    match s.lsp.switchAt with
    | some a => if s.cycle = a + 1#32 then s.switched else s
    | none => if 2 ≤ s.lsp.silentNow then s.enterStandby .fault else s

/-- Larkspur at edge E of the present cycle: the counts of R437 and R438, the heartbeat of a part that has had no CS instant for this
cycle (R424). -/
def State.lspEdge (s : State) : State :=
  if !s.isA then s
  else
    let x := s.lsp
    let runs := (List.range s.ringCount).any s.xwRuns
    let running := decide (s.mode = .run ∨ s.mode = .degraded)
    let silent := if x.role = .active then x.silentNow else 0
    let down := if running && decide (x.role = .active) && !runs then x.downRun + 1 else 0
    let hbMiss := if x.hbNow then some 0 else x.hbMiss.map (· + 1)
    let lineMiss := x.lineMiss.map (· + 1)
    let switch := x.switchAt
    let s := s.setLsp { x with csSent := false, csMissed := false, watched := false, silentCs := silent, downRun := down, hbNow := false, hbMiss := hbMiss
                               lineMiss := lineMiss, resign := switch.isSome || decide (2 ≤ down) }
    let gone := match hbMiss, lineMiss with
      | some a, some b => decide (2 ≤ a ∧ 16 ≤ b)
      | none, some b => decide (16 ≤ b)
      | some a, none => decide (2 ≤ a)
      | none, none => false
    let s := if decide (x.role = .active) && gone && !s.lsp.lostRaised then (s.setLsp { s.lsp with lostRaised := true }).lspRaise 0x82 else s
    if x.csSent || x.csMissed then s else s.sendHeartbeat s.cycle

/-! ### Registers and commands (R443) -/

/-- LSP_STAT. -/
def State.lspStat (s : State) : Word :=
  let x := s.lsp
  let role := match x.role with | .unpaired => 0 | .active => 1 | .standby => 2
  let sync := match x.sync with | .none => 0 | .syncing => 1 | .inStep => 2
  let line := match x.lineMiss with | some n => decide (n ≤ (if x.role = .standby then 1 else 8)) | none => false
  BitVec.ofNat 32 (role * 2 ^ 30 + sync * 2 ^ 28 + bitN x.ready * 2 ^ 27 + bitN x.pos * 2 ^ 26 + bitN x.linkUp * 2 ^ 25
    + bitN (decide (x.hbMiss = some 0)) * 2 ^ 24 + bitN line * 2 ^ 23 + bitN (x.csSeen && decide (x.role = .standby)) * 2 ^ 22
    + bitN x.partnerReady * 2 ^ 21 + bitN x.imageOk * 2 ^ 20 + x.mmKind * 2 ^ 18 + x.matchRun)

/-- Larkspur is absent (R443). -/
def lspAbsent (s : State) (_ : CmdIn) : Bool := !s.isA

/-- TWIN_STATUS_GET. -/
def specTwinStatusGet : CmdSpec :=
  { opcode := 0x0A00, query := true, absent := lspAbsent
    run := fun s _ _ _ => (s, .of (bytesOfWords [s.lspStat, s.reg 0x68000C] ++ slice ((s.lsp.hb.map hbBytes).getD []) 0 16)) }

/-- Every local axis is in OFF. -/
def State.localsOff (s : State) : Bool :=
  ((s.image.map Image.axes).getD []).all (fun c => decide (c.axis < 256) || decide ((s.axis c.axis).mode = .off))

/-- TWIN_SWITCH (R442). -/
def specTwinSwitch : CmdSpec :=
  { opcode := 0x0A01, rank := 4, fenced := true, absent := lspAbsent
    mode := fun s _ => !(decide (s.lsp.role = .active) && s.lsp.partnerReady && s.localsOff)
    effect := fun s _ a => if s.lsp.role = .active then s.setLsp { s.lsp with switchAt := some a, resign := true } else s }

/-- TWIN_SYNC. -/
def specTwinSync : CmdSpec :=
  { opcode := 0x0A02, rank := 4, absent := lspAbsent
    mode := fun s _ => decide (s.mode ≠ .standby)
    run := fun s _ _ _ => (s.startSync, {}) }

/-- TWIN_INHIBIT. -/
def specTwinInhibit : CmdSpec :=
  { opcode := 0x0A03, rank := 4, named := [(0, 1)], absent := lspAbsent
    bad := fun _ c => decide (1 < c.p8 0)
    run := fun s c _ _ => (s.setFld Reg.lspCtrlInhibit (c.p8 0), {}) }

def execTwinStatusGet (r : CmdReq) (s : State) : Host.Outcome State Fault Refusal := .next (s.command specTwinStatusGet r)
def execTwinSwitch (r : CmdReq) (s : State) : Host.Outcome State Fault Refusal := .next (s.command specTwinSwitch r)
def execTwinSync (r : CmdReq) (s : State) : Host.Outcome State Fault Refusal := .next (s.command specTwinSync r)
def execTwinInhibit (r : CmdReq) (s : State) : Host.Outcome State Fault Refusal := .next (s.command specTwinInhibit r)

end Sys2Proof.Machine
end

