-- ==== Sys2Proof/Machine/Indigo.lean ====
section
/-! DEFINITION. Indigo (R461 to R479): admission, the sequencer, mask tests, groups, capture, the trigger net and the commands.
Log: DEDUCED 117, 119, 120, 121, 122, 123, 124. DESIGN CHOICE 118. -/

namespace Sys2Proof.Machine

/-! ### Rates (R468 to R470) -/

/-- IND_BPC: the declared bytes per cycle; 0 while no rate stands. -/
def State.indBpc (s : State) : Nat :=
  if s.rate = 0 then 0
  else
    let taps := (s.qdescs.filter (fun d => decide (d.kind ≤ 3) && s.tapped d.id)).map (fun d => 16 + 4 * d.words)
    let sel := (s.reg 0x600030).toNat + (s.reg 0x600034).toNat * 2 ^ 32
    let chans := ((List.range 48).filter (fun n => sel.testBit n)).length
    16 + taps.foldl (· + ·) 0 + chans * (16 + 4 * ((5000000 + s.rate - 1) / s.rate)) + 384

/-- The declared rate in bytes per second, and IND_DECL in MB/s. -/
def State.indRate (s : State) : Nat := s.indBpc * s.rate
def State.indDecl (s : State) : Nat := (s.indRate + 999999) / 1000000

/-- The guaranteed rate in MB/s of a trained link: lanes, and the rate as a PCIe generation, 1 for 2.5 GT/s to 4 for 16 GT/s. -/
def linkRate (lanes gen : Nat) : Nat :=
  lanes * (match gen with | 1 => 171 | 2 => 343 | 3 => 687 | 4 => 1375 | _ => 0)

def State.indGuar (s : State) : Nat := (s.reg 0x600024).toNat

/-- Capture runs. -/
def State.capturing (s : State) : Bool := decide (s.ind.st = .run ∨ s.ind.st = .stopping)

def State.setInd (s : State) (x : IndSt) : State := { s with ind := x }
def State.indRaise (s : State) (cls : Nat) : State := s.raise cls 1 10 99

/-- PCIE_LINK_RETRAIN (R359, R470): the link trains to some lanes and a rate. -/
def execPcieLinkRetrain (lanes gen : Nat) (s : State) : Host.Outcome State Fault Refusal :=
  .next (if !s.awake || !s.isA || !(lanes == 1 || lanes == 2 || lanes == 4) || linkRate lanes gen = 0 then s
    else
      let s := s.setReg 0x600024 (BitVec.ofNat 32 (linkRate lanes gen))
      let low := decide (s.indGuar * 1000000 < s.indRate)
      if !low then s.setInd { s.ind with below := false }
      else if s.capturing then (s.setInd { s.ind with below := true }).indRaise 0x90
      else s)

/-- Capture stops at once with host_err (R475). -/
def State.indHostStop (s : State) : State :=
  if s.isA && s.capturing then (s.setInd { s.ind with st := .stopped, hostErr := true, staged := [] }).indRaise 0x91 else s

/-! ### The sequencer (R471 to R473) -/

/-- The sequencer evaluates a cycle: a part that follows TRIG_ARM from its rise on, any part from its last arming on. -/
def State.indEvaluates (s : State) (n : Word) : Bool :=
  (!s.bit Reg.indCtrlMulti || s.ind.armHigh) && (match s.ind.armFrom with | some a => cycGe n a | none => true)

/-- The sequencer as an arming leaves it: S0, counters at 0, timers stopped, evaluating from a cycle on. -/
def State.seqArm (s : State) (a : Word) : State :=
  let s := (List.range 4).foldl (fun s k => (s.setFld Reg.indCntValue 0 (4 * k)).setFld Reg.indTmrValue 0 (4 * k)) s
  s.setInd { s.ind with seq := 0, running := [], expired := [], armFrom := some a }

/-- The word of a queue's token of a cycle, when there is one and it is no hold. -/
def State.indWord (s : State) (q w : Nat) (n : Word) : Option Word :=
  match s.ind.toks.find? (fun (r : TokenRec) => r.queue == q && decide (r.tok.cycle = n)) with
  | some r => if r.tok.hold then none else r.tok.words[w]?
  | none => none

/-- An order on words, as FP32 or as signed integers. -/
def wordLt (fp : Bool) (a b : Word) : Bool := if fp then Fp.lt a b else decide (a.toInt < b.toInt)
def wordEq (fp : Bool) (a b : Word) : Bool := if fp then Fp.eq a b else decide (a = b)
def wordGe (fp : Bool) (a b : Word) : Bool := if fp then Fp.ge a b else decide (b.toInt ≤ a.toInt)

/-- The operators of R472. Without a previous word an operator that needs one gives false. -/
def cmpHolds (op : Nat) (fp : Bool) (prev : Option Word) (x v : Word) : Bool :=
  match op with
  | 0 => wordEq fp x v
  | 1 => !wordEq fp x v
  | 2 => wordLt fp x v
  | 3 => wordGe fp x v
  | 4 => (match prev with | some p => wordLt fp p v && wordGe fp x v | none => false)
  | 5 => (match prev with | some p => wordGe fp p v && wordLt fp x v | none => false)
  | 6 => decide (x &&& v ≠ 0#32)
  | _ => false

/-- A comparator in a cycle. -/
def State.cmpNow (s : State) (k : Nat) (n : Word) : Bool :=
  let b := 8 * k
  let q := s.fld Reg.indCmpQueue b
  let w := s.fld Reg.indCmpWord b
  s.bit Reg.indCmpEn b && (match s.indWord q w n with
    | some x =>
      let prev := (Tab.find s.ind.prevX q).bind (fun ws => ws[w]?)
      cmpHolds (s.fld Reg.indCmpOp b) (s.bit Reg.indCmpFp b) prev x (s.reg (0x600204 + b))
    | none => false)

/-- The tokens of a cycle that are no holds become the last ones of their queues. -/
def State.cmpKeep (s : State) (n : Word) : State :=
  let ts := s.ind.toks.filter (fun (r : TokenRec) => decide (r.tok.cycle = n) && !r.tok.hold)
  s.setInd { s.ind with prevX := ts.foldl (fun t (r : TokenRec) => Tab.ins (Tab.drop t r.queue) r.queue r.tok.words) s.ind.prevX }

/-- A condition of R472 in a cycle, whose bucket is given. -/
def State.condNow (s : State) (code : Nat) (n : Word) (b : IndBucket) : Bool :=
  if code < 8 then s.cmpNow code n
  else if code < 12 then decide (s.fld Reg.indCntLimit (4 * (code - 8)) ≤ s.fld Reg.indCntValue (4 * (code - 8)))
  else if code < 16 then s.ind.expired.contains (code - 12)
  else if code = 16 then b.fire
  else if code = 17 then b.high
  else decide (code = 18)

/-- A running timer whose count has reached its limit expires and stops (R473). -/
def State.timerTest (s : State) (k : Nat) : State :=
  if s.ind.running.contains k && decide (s.fld Reg.indTmrLimit (4 * k) ≤ s.fld Reg.indTmrValue (4 * k)) then
    s.setInd { s.ind with running := s.ind.running.erase k, expired := s.ind.expired.filter (fun x => x != k) ++ [k] }
  else s

/-- The timers count one more cycle, whether the sequencer evaluates it or not. -/
def State.timersCount (s : State) : State :=
  s.ind.running.foldl (fun s k => (s.incFld Reg.indTmrValue (4 * k)).timerTest k) s

/-- SEQUENCER_TIMER_EXPIRY (R473). -/
def execSequencerTimerExpiry (k : Nat) (s : State) : Host.Outcome State Fault Refusal :=
  .next (if !s.awake || !s.isA then s else s.timerTest k)

/-- Capture enters STOPPING (R475); a cause met in STOPPING changes nothing. -/
def State.indStopping (s : State) : State :=
  if s.ind.st = .run then s.setInd { s.ind with st := .stopping, post := s.fld Reg.indCfgPost } else s

/-- The header of a record (R466). -/
def recHead (cycle : Word) (kind item a b : Nat) : List Byte :=
  wordBytes cycle ++ leBytes 4 (kind * 2 ^ 29 + item) ++ leBytes 4 a ++ leBytes 4 b

/-- Nanoseconds within the second of the close instant of a cycle, and of its edge E. -/
def State.indEdgeNs (s : State) (n : Word) (ns : Nat) : Nat :=
  match s.edgeAt n with
  | some e => ((e / 65536 + ns) % 1000000000).toNat
  | none => 0

/-- The actions of a taken transition in bit order (R473), with the TRIGGER record they write. -/
def State.seqActions (s : State) (n : Word) (t off : Nat) : State × List Byte :=
  let acts := s.fld Reg.indSeqActions off
  let cnt := 4 * s.fld Reg.indSeqCnt off
  let tmr := s.fld Reg.indSeqTmr off
  let next := s.fld Reg.indSeqNext off
  let mark := acts.testBit 0
  let fire := acts.testBit 1
  let trigs := s.ind.trigs + bitN (mark || fire)
  let r := if mark || fire then
      recHead n 3 (next + 8 * s.ind.seq + 64 * t + 128 * bitN fire) (s.indEdgeNs (n + 1#32) 100) trigs else []
  let s := s.setInd { s.ind with trigs := trigs, nT := if mark then some n else s.ind.nT }
  let s := if fire then (s.setInd { s.ind with firing := true }).emit (.pin "TRIG_FIRE" false) else s
  let s := if acts.testBit 2 then s.indStopping else s
  let s := if acts.testBit 3 then s.incFld Reg.indCntValue cnt else s
  let s := if acts.testBit 4 then s.setFld Reg.indCntValue 0 cnt else s
  let s := if acts.testBit 5 then
      ((s.setFld Reg.indTmrValue 0 (4 * tmr)).setInd { s.ind with
        running := s.ind.running.filter (fun x => x != tmr) ++ [tmr], expired := s.ind.expired.filter (fun x => x != tmr) }).timerTest tmr
    else s
  (s.setInd { s.ind with seq := next }, r)

/-- The first enabled transition whose condition holds is taken (R471). -/
def State.seqStep1 (s : State) (n : Word) (b : IndBucket) : State × List Byte :=
  let off := fun t : Nat => 8 * s.ind.seq + 4 * t
  let on := fun t : Nat => s.bit Reg.indSeqEn (off t) && s.condNow (s.fld Reg.indSeqCond (off t)) n b
  if on 0 then s.seqActions n 0 (off 0) else if on 1 then s.seqActions n 1 (off 1) else (s, [])

/-! ### Mask tests (R474) -/

/-- A word outside its pair. -/
def maskBroken (fp : Bool) (x lo hi : Word) : Bool :=
  (fp && Fp.isNan x) || wordLt fp x lo || wordLt fp hi x

/-- One mask test in a cycle, with the MASK record of a violation. -/
def State.maskTest (s : State) (n : Word) (m : Nat) : State × List Byte :=
  let b := 4 * m
  if !s.bit Reg.indMaskEn b then (s, [])
  else
    match s.indWord (s.fld Reg.indMaskQueue b) (s.fld Reg.indMaskWord b) n with
    | none => (s, [])
    | some x =>
      let k := min (n - s.ind.nT.getD s.ind.first).toNat (s.fld Reg.indMaskLenM1 b)
      let e := 0x608000 + 0x1000 * m + 8 * k
      if !maskBroken (s.bit Reg.indMaskFp b) x (s.reg e) (s.reg (e + 4)) then (s, [])
      else
        let s := s.indRaise 0x92
        (if s.bit Reg.indMaskStop b then s.indStopping else s, recHead n 4 m x.toNat k)

/-- Every mask test, in ascending number. -/
def State.maskTests (s : State) (n : Word) : State × List Byte :=
  (List.range 8).foldl (fun a m => let y := a.1.maskTest n m; (y.1, a.2 ++ y.2)) (s, [])

/-! ### Groups (R464 to R467, R475, R476) -/

/-- The TOKEN records of a cycle. -/
def State.tokenRecs (s : State) (n : Word) : List Byte :=
  let rs := s.ind.toks.filter (fun (r : TokenRec) => decide (r.tok.cycle = n) && s.tapped r.queue
    && ((s.qdesc r.queue).map (fun d => decide (d.kind ≤ 3))).getD false)
  (rs.mergeSort (fun a b => decide (a.queue ≤ b.queue))).flatMap (fun (r : TokenRec) => recBytes r.queue r.tok)

/-- The ADC records of a cycle: one for each selected input. -/
def State.adcRecs (s : State) (n : Word) (b : IndBucket) : List Byte :=
  let sel := (s.reg 0x600030).toNat + (s.reg 0x600034).toNat * 2 ^ 32
  ((List.range 48).filter (fun c => sel.testBit c)).flatMap (fun c =>
    let ws := (b.adc.filter (fun e => e.1 == c)).map Prod.snd
    recHead n 2 c ws.length 0 ++ bytesOfWords ws)

/-- The user marks of a cycle. The states entered and left have no meaning in them: free bits. -/
def State.userMarks (s : State) (n : Word) : State × List Byte :=
  (s.ind.marks.filter (fun e => decide (e.1 = n))).foldl (fun a e =>
    let s := a.1
    let trigs := s.ind.trigs + 1
    ((s.setInd { s.ind with trigs := trigs }).drew, a.2 ++ recHead n 3 (256 + s.freeW.toNat % 64) e.2.toNat trigs)) (s, [])

/-- A cycle of capture is lost, for a cause. -/
def State.indLose (s : State) (cause : Nat) : State :=
  (s.setInd { s.ind with lost := s.ind.lost + 1, lostCause := cause }).incFld Reg.indLost

/-- A whole group staged, or its cycle lost when the staging memory of 2 MiB would overflow (R470). -/
def State.indStage (s : State) (n : Word) (loss : Bool) (rest : List Byte) : State :=
  let lossRec := if loss then recHead n 7 s.ind.lostCause s.ind.lost 0 else []
  let len := 16 + lossRec.length + rest.length
  let held := (s.ind.staged.map (fun (g : IndGroup) => g.bytes.length)).foldl (· + ·) 0
  if 2097152 < held + len then s.indLose (if s.ind.below then 1 else 3)
  else
    let bytes := recHead n 1 0 (s.indEdgeNs n 0) len ++ lossRec ++ rest
    let s := s.setInd { s.ind with staged := s.ind.staged ++ [⟨s.ind.next.toNat, bytes⟩], next := s.ind.next + BitVec.ofNat 54 len
                                   lost := 0 }
    if loss then s.indRaise 0x93 else s

/-- The group of a cycle is to be written. -/
def State.indWrites (s : State) (n : Word) : Bool :=
  s.capturing && (s.ind.begun || cycGe n s.ind.first) && (match s.ind.last with | some l => cycGe l n | none => true)

/-- What follows a group: STOPPED after the last one, one cycle less of STOPPING. `began` tells whether STOPPING began in it. -/
def State.indAfter (s : State) (n : Word) (was : CapState) : State :=
  let ended := (match s.ind.last with | some l => cycGe n l | none => false)
  if ended then s.setInd { s.ind with st := .stopped }
  else if s.ind.st = .stopping then
    let left := if was = .stopping then s.ind.post - 1 else s.ind.post
    s.setInd { s.ind with post := left, st := if left = 0 then .stopped else .stopping }
  else s

/-- What a close makes of the cycles set for capture and for an arming once they have come. -/
def State.indCome (s : State) (n : Word) : State :=
  s.setInd { s.ind with begun := s.ind.begun || (s.capturing && cycGe n s.ind.first)
                        armFrom := match s.ind.armFrom with | some a => if cycGe n a then none else some a | none => none }

/-- The close of a cycle (R464). -/
def State.indClose (s : State) (n : Word) : State :=
  let b := s.ind.prev
  let s := (s.indCome n).timersCount
  let s := if !s.indWrites n then s.cmpKeep n
    else if s.ind.suspended then ((s.cmpKeep n).indLose 2).indAfter n s.ind.st
    else
      let was := s.ind.st
      let lost := decide (0 < s.ind.lost)
      let user := s.userMarks n
      let on := user.1.indEvaluates n
      let mask := if on then user.1.maskTests n else (user.1, [])
      let seq := if on then mask.1.seqStep1 n b else (mask.1, [])
      let s := seq.1.cmpKeep n
      let gap := if b.gap = 0 then [] else recHead n 6 0 b.gap 0
      let faults := b.fox.flatMap (fun (r : FoxRec) => recHead n 5 0 0 0 ++ r.bytes)
      (s.indStage n lost (s.tokenRecs n ++ s.adcRecs n b ++ user.2 ++ seq.2 ++ mask.2 ++ faults ++ gap)).indAfter n was
  s.setInd { s.ind with shut := true, toks := s.ind.toks.filter (fun (r : TokenRec) => cycLater r.tok.cycle n)
                        marks := s.ind.marks.filter (fun e => cycLater e.1 n) }

/-- INDIGO_GROUP_CLOSE (R464): 100 ns after the edge E that ends the cycle, once for each cycle. -/
def execIndigoGroupClose (s : State) : Host.Outcome State Fault Refusal :=
  .next (if !s.awake || !s.isA || !s.edgesRun || s.ind.shut then s else (s.toInstant 100).indClose (s.cycle - 1#32))

/-- The base of the region in host memory, and its size (R461). -/
def State.indBase (s : State) : Nat := (s.reg 0x600010).toNat + (s.reg 0x600014).toNat * 2 ^ 32
def State.indSize (s : State) : Nat := 2 ^ s.fld Reg.indCfgSizeLog2

/-- Bytes of the stream written from an offset on: what crosses the end of the region goes on at its base (R461). -/
def State.indWrite (s : State) (off : Nat) (bs : List Byte) : State :=
  let room := s.indSize - off % s.indSize
  let s := s.emit (.hostWrite (s.indBase + off % s.indSize) (bs.take room))
  if bs.length ≤ room then s else s.emit (.hostWrite s.indBase (bs.drop room))

/-- INDIGO_GROUP_WRITTEN (R461, R462): the oldest group staged is in host memory. -/
def execIndigoGroupWritten (s : State) : Host.Outcome State Fault Refusal :=
  .next (match s.ind.staged with
    | [] => s
    | g :: rest =>
      (s.setInd { s.ind with staged := rest, wr := BitVec.ofNat 54 (g.off + g.bytes.length) }).indWrite g.off g.bytes)

/-- What an edge E does: a bucket for the new cycle, and tokens whose cycle has gone by without a close forgotten. -/
def State.indEdge (s : State) : State :=
  s.setInd { s.ind with prev := s.ind.cur, cur := {}, shut := false
                        toks := s.ind.toks.filter (fun (r : TokenRec) => cycGe r.tok.cycle (s.cycle - 1#32)) }

/-! ### The trigger net (R473, R477) -/

/-- TRIG_FIRE_RELEASE (R473): 40 ns after the close instant. -/
def execTrigFireRelease (s : State) : Host.Outcome State Fault Refusal :=
  .next (if s.ind.firing then ((s.toInstant 140).setInd { s.ind with firing := false }).emit (.pin "TRIG_FIRE" true) else s)

/-- TRIG_FIRE_EDGE (R477). -/
def execTrigFireEdge (s : State) : Host.Outcome State Fault Refusal :=
  .next (if !s.awake || !s.isA then s else s.setInd { s.ind with cur := { s.ind.cur with fire := true } })

/-- The level of TRIG_ARM changes. -/
def State.trigArm (s : State) (high : Bool) : State :=
  if s.ind.armHigh = high then s
  else
    let s := s.setInd { s.ind with armHigh := high }
    if !s.bit Reg.indCtrlMulti then s
    else if high then s.seqArm s.cycle
    else s.setInd { s.ind with seq := 0 }

/-- TRIG_ARM_CHANGE (R477). -/
def execTrigArmChange (high : Bool) (s : State) : Host.Outcome State Fault Refusal :=
  .next (if !s.awake || !s.isA then s else s.trigArm high)

/-! ### Commands and views (R478) -/

/-- IND_STAT as it reads. -/
def State.indStat (s : State) : Word :=
  BitVec.ofNat 32 (s.ind.st.code * 2 ^ 30 + bitN s.ind.hostErr * 2 ^ 29 + bitN s.ind.below * 2 ^ 28
    + bitN (s.capturing && s.indEvaluates s.cycle) * 2 ^ 27 + s.ind.seq * 2 ^ 24)

def indAbsent (s : State) (_ : CmdIn) : Bool := !s.isA

/-- IND_STATUS_GET. -/
def specIndStatusGet : CmdSpec :=
  { opcode := 0x0900, query := true, absent := indAbsent
    run := fun s _ _ _ => (s, .ofLong (wordBytes s.indStat ++ leBytes 8 s.ind.wr.toNat ++ leBytes 4 s.indDecl ++ leBytes 4 s.indGuar)) }

/-- IND_START (R469, R475). -/
def specIndStart : CmdSpec :=
  { opcode := 0x0901, rank := 4, fenced := true, absent := indAbsent
    mode := fun s _ => s.capturing || decide (s.rate = 0)
    busy := fun s _ => decide (s.indGuar * 1000000 < s.indRate ∨ 262144 < s.indBpc)
    effect := fun s _ a => if s.capturing then s
      else s.setInd { s.ind with st := .run, first := a, begun := false, last := none, post := 0, next := 0#54, wr := 0#54, staged := [], lost := 0
                                 hostErr := false, below := false, trigs := 0, nT := none }
    why := fun s _ st => if st = 1 then leBytes 4 s.indDecl ++ leBytes 4 s.indGuar else [] }

/-- IND_STOP (R475): group `a` is the last; a later one changes nothing. -/
def specIndStop : CmdSpec :=
  { opcode := 0x0902, rank := 2, fenced := true, absent := indAbsent
    mode := fun s _ => !s.capturing
    effect := fun s _ a => if s.capturing then s.setInd { s.ind with last := some (s.ind.last.getD a) } else s }

/-- IND_ARM (R477). -/
def specIndArm : CmdSpec :=
  { opcode := 0x0903, rank := 2, fenced := true, absent := indAbsent, named := [(0, 1)]
    bad := fun _ c => decide (1 < c.p8 0)
    mode := fun s _ => !s.bit Reg.indCtrlMaster
    effect := fun s c a =>
      let high := c.p8 0 == 1
      let s := (s.trigArm high).emit (.pin "TRIG_ARM" high)
      if high then s.seqArm a else s }

/-- IND_MARK. -/
def specIndMark : CmdSpec :=
  { opcode := 0x0904, rank := 2, fenced := true, absent := indAbsent, named := [(0, 4)]
    effect := fun s c a => s.setInd { s.ind with marks := s.ind.marks ++ [(a, c.pw 0)] } }

def execIndStatusGet (r : CmdReq) (s : State) : Host.Outcome State Fault Refusal := .next (s.command specIndStatusGet r)
def execIndStart (r : CmdReq) (s : State) : Host.Outcome State Fault Refusal := .next (s.command specIndStart r)
def execIndStop (r : CmdReq) (s : State) : Host.Outcome State Fault Refusal := .next (s.command specIndStop r)
def execIndArm (r : CmdReq) (s : State) : Host.Outcome State Fault Refusal := .next (s.command specIndArm r)
def execIndMark (r : CmdReq) (s : State) : Host.Outcome State Fault Refusal := .next (s.command specIndMark r)

end Sys2Proof.Machine
end

