-- ==== Sys2Proof/Machine/Host.lean ====
section
/-! DEFINITION. Queue pairs, keeper windows, the SPI management port, the mirror, and the always-available commands (R361 to R394,
R452, R453, R459).
Log: DEDUCED 69, 114, 115, 145, 210. DESIGN CHOICE 116, 204. -/

namespace Sys2Proof.Machine

/-! ### The PCIe endpoint (R359) -/

/-- What a function shows of itself in its configuration space. -/
structure PcieFn where
  vendor : BitVec 16
  device : BitVec 16
  class_ : BitVec 24
  barBits : Nat
  barPrefetch : Bool
  barBytes : Nat
  vectors : Nat
  maxPayload : Nat
  maxReadReq : Nat
  aer : Bool
  sriov : Bool
  ats : Bool
deriving DecidableEq, Repr

/-- The two functions: BAR0 alone, a vector for each pair of the function and one for its keeper window. -/
def pcieFn (fn : Nat) : Option PcieFn :=
  if 2 ≤ fn then none
  else some { vendor := 0x1CF7#16, device := if fn = 0 then 0x7256#16 else 0x7257#16, class_ := 0x088000#24, barBits := 64
              barPrefetch := false, barBytes := 128 * 2 ^ 20, vectors := 33, maxPayload := 512, maxReadReq := 512, aer := true
              sriov := false, ats := false }

/-! ### Queue pairs (R366 to R369, R373) -/

/-- The registers of the queue pairs: the pair and the register's place. -/
def pairAt (off : Nat) : Option (Nat × Nat) :=
  if 0x500100 ≤ off ∧ off < 0x501100 then some ((off - 0x500100) / 0x40, (off - 0x500100) % 0x40) else none
def isPair (off place : Nat) : Bool := match pairAt off with | some (_, p) => p == place | none => false
def pairNo (off : Nat) : Nat := (off - 0x500100) / 0x40

/-- The commands that wait at a port are gone. -/
def State.dropWaiting (s : State) (f : Port → Bool) : State :=
  { s with host := { s.host with waiting := s.host.waiting.filter (fun w => !f w.cmd.port) } }

/-- Replies still to come to a port are discarded: their commands keep their effects (R362). -/
def State.dropReplies (s : State) (f : Port → Bool) : State :=
  let mute := fun c : CmdIn => if f c.port then { c with port := .workItem 0, slot := none } else c
  { s with host := { s.host with awaitAck := s.host.awaitAck.filter (fun x => !f x.2.1.port)
                                 results := s.host.results.map (fun x => (x.1, mute x.2)) } }

/-- A pair disabled as R362 describes. -/
def State.pairOff (s : State) (q : Nat) : State :=
  let mine := fun p : Port => p == .qp q
  let s := (s.dropWaiting mine).dropReplies mine
  (s.setQp q { s.qp q with owed := [] }).setFld Reg.qpCtrlEn 0 (qpBase q)

/-- A keeper window cleared (R362). -/
def State.keeperClear (s : State) (f : Nat) : State :=
  let mine := fun p : Port => p == .keeper f
  let b := kprBase f
  let s := (s.dropWaiting mine).dropReplies mine
  ((((s.setRegs b (List.replicate 16 0#32)).setReg (b + 0x44) 0#32).setRegs (b + 0x80) (List.replicate 8 0#32)).setRegs (b + 0x100)
    (List.replicate 64 0#32))

/-- QP_SQ_TAIL_WRITE (R367). -/
def execQpSqTailWrite (w : RegWrite) (s : State) : Host.Outcome State Fault Refusal :=
  .next (s.ownWrite w (isPair w.off 0x20) (fun s => s.storeReg w.off w.data))

/-- The entries between the old and the new completion head are free (R367). -/
def State.cqFree (s : State) (q : Nat) (data : Word) : State :=
  let b := qpBase q
  let depth := s.qpDepth q
  let old := s.fld Reg.qpCqHeadHead b
  let s := s.storeReg (b + 0x24) data
  let n := (s.fld Reg.qpCqHeadHead b + depth - old % depth) % depth
  (s.setQp q { s.qp q with used := (s.qp q).used - n }).cqStat q

/-- QP_CQ_HEAD_WRITE (R367). -/
def execQpCqHeadWrite (w : RegWrite) (s : State) : Host.Outcome State Fault Refusal :=
  .next (s.ownWrite w (isPair w.off 0x24) (fun s => s.cqFree (pairNo w.off) w.data))

/-- A write of 1 to QP_CTRL.en: empty queues, phase 1; a pair that ran keeps the order of its replies, and one that did not has no place
for a reply to an earlier command (log entry 114). -/
def State.pairOn (s : State) (q : Nat) (was : Bool) : State :=
  let b := qpBase q
  let x := s.qp q
  let s := ((s.setFld Reg.qpStatSqHead 0 b).setFld Reg.qpStatCqTail 0 b).setFld Reg.qpSqTailTail 0 b
  ((s.setFld Reg.qpCqHeadHead 0 b).setQp q { owed := if was then x.owed else [], era := x.era + 1 }).cqStat q

/-- The commands of a pair that have been fetched and not journaled are answered CANCELLED (R373). -/
def State.pairCancel (s : State) (q : Nat) : State :=
  let mine := s.host.waiting.filter (fun w => w.cmd.port == .qp q)
  mine.foldl (fun s w => s.turnAway w.cmd 8) (s.dropWaiting (fun p => p == .qp q))

/-- What a write of QP_CTRL does (R373). -/
def State.qpCtrl (s : State) (q : Nat) (data : Word) : State :=
  let was := s.bit Reg.qpCtrlEn (qpBase q)
  let s := s.storeReg (qpBase q) data
  if dataBit data 31 then s.pairOn q was else if was then s.pairCancel q else s

/-- QP_CTRL_WRITE (R373). -/
def execQpCtrlWrite (w : RegWrite) (s : State) : Host.Outcome State Fault Refusal :=
  .next (s.ownWrite w (isPair w.off 0x00) (fun s => s.qpCtrl (pairNo w.off) w.data))

/-- QP_COMMAND_FETCH (R367): the command of the next slot waits for its turn. -/
def execQpCommandFetch (qp : Nat) (p : Packet) (s : State) : Host.Outcome State Fault Refusal :=
  let c := CmdIn.ofPacket (.qp qp) p.bytes none
  .next (match s.arrive (.qp qp) c.tag with
    | (s, none) => s
    | (s, some slot) => s.wait { c with slot := slot, era := s.eraOf (.qp qp) })

/-- QP_HOST_ERROR (R368): of a fetch, or of a reply, which a disabled pair may still write. -/
def execQpHostError (qp : Nat) (s : State) : Host.Outcome State Fault Refusal :=
  .next (if 64 ≤ qp || !s.awake then s
    else ((s.setFld Reg.qpStatFault 1 (qpBase qp)).pairOff qp).raise 0x60 1 11 qp)

/-- FUNCTION_LEVEL_RESET (R362, R475). -/
def execFunctionLevelReset (fn : Nat) (s : State) : Host.Outcome State Fault Refusal :=
  .next (if 2 ≤ fn || !s.awake then s
    else
      let s := ((List.range 32).foldl (fun s k => s.pairOff (32 * fn + k)) s).keeperClear fn
      if fn = 0 then s.indHostStop else s)

/-- PCIE_LINK_DOWN (R362, R475). -/
def execPcieLinkDown (s : State) : Host.Outcome State Fault Refusal :=
  .next (if !s.awake then s
    else ((((List.range 64).foldl (fun s k => s.pairOff k) s).keeperClear 0).keeperClear 1).indHostStop.setReg 0x600024 0#32)

/-- A command that has waited too long (R373). -/
def State.timeOut (s : State) (w : Waiting) : State :=
  let limit : Int := ((w.atS * 1000000000 + w.atNs + s.fld Reg.cmdCtrlTimeoutMs * 1000000 : Nat) : Int)
  let s := s.advanceTo (ns16 limit)
  let s : State := { s with host := { s.host with waiting := s.host.waiting.erase w } }
  let s := (s.incFld Reg.cmdStatTimeouts).setFld Reg.cmdStatFwAlive 0
  let s := match w.item with
    | some p => s.postFailed p 9
    | none => s.turnAway w.cmd 9
  if s.host.stalled then s else ({ s with host := { s.host with stalled := true } }).raise 0x61 1 10 97

/-- COMMAND_TIMEOUT (R373): of the oldest command of a source. -/
def execCommandTimeout (src : Nat) (s : State) : Host.Outcome State Fault Refusal :=
  .next (match s.host.waiting.find? (fun w => w.src == src) with
    | none => s
    | some w => if s.awake then s.timeOut w else s)

/-! ### The always-available commands (R379) -/

/-- PING. -/
def specPing : CmdSpec :=
  { opcode := 0x0000, query := true, always := true
    run := fun s _ _ _ => (s, { data := wordBytes s.nowNs ++ wordBytes s.nowS ++ [BitVec.ofNat 8 s.mode.code] }) }

/-- The highest level at which a unit is in its fault state. -/
def State.foxLevel (s : State) : Nat := s.fox.states.foldl (fun a x => max a x.level) 0

/-- STATUS_GET. -/
def specStatusGet : CmdSpec :=
  { opcode := 0x0001, query := true, always := true
    run := fun s _ _ _ => (s, { data := [BitVec.ofNat 8 s.mode.code, BitVec.ofNat 8 s.foxLevel,
      BitVec.ofNat 8 (s.fld Reg.cmdStatFwAlive + 2 * bitN s.jnl.frozen), 0#8] ++ leBytes 8 s.jnl.head }) }

/-- BYPASS_SET: the switch follows its conditions by BYPASS_SWITCH_COMPLETE (R283, R352). -/
def specBypassSet : CmdSpec :=
  { opcode := 0x0003, rank := 3, always := true, unheld := true, named := [(0, 2)]
    absent := fun s c => decide (s.ringCount ≤ c.p8 0 ∧ c.p8 0 < 8)
    bad := fun _ c => decide (8 < c.p8 0 ∨ 1 < c.p8 1)
    run := fun s c _ _ =>
      let l := s.bypassSet.filter (fun k => k != c.p8 0)
      ({ s with bypassSet := if c.p8 1 = 1 then l ++ [c.p8 0] else l }, {}) }

/-- MODE_GET. -/
def specModeGet : CmdSpec :=
  { opcode := 0x0100, query := true, always := true
    run := fun s _ _ _ => (s, { data := [BitVec.ofNat 8 s.mode.code, 0#8, 0#8, 0#8] ++ wordBytes s.modeCycle }) }

/-- SAFE_STOP. -/
def specSafeStop : CmdSpec :=
  { opcode := 0x0102, rank := 2, safety := true, always := true, unheld := true
    run := fun s _ _ _ => (s.raise 0xF0 3 0 0, {}) }

/-- The entries a source of JOURNAL_READ holds, oldest first: the ring, or the mirror (R391, R394). -/
def State.heldEntries (s : State) (mirror : Bool) : List JEntry :=
  if mirror then (s.jnl.mirror.filterMap Prod.snd).mergeSort (fun a b => decide (a.seq ≤ b.seq)) else s.jnl.entries.reverse

/-- JOURNAL_READ. The keeper serves source 0 alone. A source without an entry has no oldest number: a free value. -/
def specJournalRead (mirror : Bool) : CmdSpec :=
  { opcode := 0x0700, query := true, always := !mirror, named := [(0, 10)]
    bad := fun _ c => decide (c.p8 8 = 0 ∨ 4 < c.p8 8 ∨ 1 < c.p8 9)
    run := fun s c _ _ =>
      let es := s.heldEntries mirror
      let long := (es.filter (fun e => decide (c.p64 0 ≤ e.seq ∧ e.seq < c.p64 0 + c.p8 8))).flatMap jBytes
      match es.head? with
      | some e => (s, { long := long, data := leBytes 8 e.seq })
      | none => (s.drew, { data := wordBytes s.freeW ++ leBytes 4 0 }) }

/-- FAULT_READ (R459). -/
def specFaultRead : CmdSpec :=
  { opcode := 0x0800, query := true, always := true, named := [(0, 6)]
    bad := fun _ c => decide (c.p8 4 = 0 ∨ 8 < c.p8 4 ∨ 1 < c.p8 5)
    run := fun s c _ _ =>
      let rs := if c.p8 5 = 1 then s.fox.retained else s.fox.queue
      let long := (rs.filter (fun r => decide (c.p32 0 ≤ r.no ∧ r.no < c.p32 0 + c.p8 4))).flatMap FoxRec.bytes
      (s, { long := long, data := leBytes 4 ((rs.head?.map FoxRec.no).getD (s.fox.head + 1)) ++ leBytes 4 s.fox.head }) }

/-- FAULT_ACK (R453, R459). -/
def specFaultAck : CmdSpec :=
  { opcode := 0x0801, rank := 2, named := [(0, 4)]
    bad := fun s c => decide (s.fox.head < c.p32 0)
    run := fun s c _ _ =>
      let ack := fun (r : FoxRec) => if r.no ≤ c.p32 0 then { r with ack := true } else r
      let f := s.fox
      let s : State := { s with fox := { f with queue := f.queue.map ack, retained := f.retained.map ack } }
      (if (s.reg 0x580030).toNat < c.p32 0 then s.setReg 0x580030 (c.pw 0) else s, {}) }

def execPing (r : CmdReq) (s : State) : Host.Outcome State Fault Refusal := .next (s.command specPing r)
def execStatusGet (r : CmdReq) (s : State) : Host.Outcome State Fault Refusal := .next (s.command specStatusGet r)
def execBypassSet (r : CmdReq) (s : State) : Host.Outcome State Fault Refusal := .next (s.command specBypassSet r)
def execModeGet (r : CmdReq) (s : State) : Host.Outcome State Fault Refusal := .next (s.command specModeGet r)
def execSafeStop (r : CmdReq) (s : State) : Host.Outcome State Fault Refusal := .next (s.command specSafeStop r)
def execJournalRead (r : CmdReq) (s : State) : Host.Outcome State Fault Refusal :=
  .next (s.command (specJournalRead (numAt r.param 9 1 == 1)) r)
def execFaultRead (r : CmdReq) (s : State) : Host.Outcome State Fault Refusal := .next (s.command specFaultRead r)
def execFaultAck (r : CmdReq) (s : State) : Host.Outcome State Fault Refusal := .next (s.command specFaultAck r)

/-! ### The mirror (R392, R394) -/

/-- Copying begins with the oldest entry still held. -/
def State.mirrorStart (s : State) : State :=
  let from_ := max 1 (s.jnl.head - 4095)
  let j := { s.jnl with mirrored := from_ - 1, copying := true }
  { s with jnl := { j with lagHolds := decide (j.lag ≤ s.fld Reg.jnlMirrorCfgMaxLag) } }

/-- A write of JNL_MIRROR_CFG. -/
def State.mirrorCfg (s : State) (data : Word) : State :=
  let was := s.bit Reg.jnlMirrorCfgEn
  let s := s.storeReg 0x50301C data
  let is := s.bit Reg.jnlMirrorCfgEn
  if is && !was then s.mirrorStart
  else if !is then { s with jnl := { s.jnl with copying := false } }
  else s

/-- Bytes of a file replaced by those written at an offset of the device, the file beginning at another. -/
def fileHit (f : ImageFile) (base off : Nat) (bs : List Byte) : ImageFile :=
  let at_ := off - base
  let new := (bs.drop (base - off)).take (f.bytes.length - at_)
  { f with bytes := f.bytes.take at_ ++ new ++ f.bytes.drop (at_ + new.length) }

/-- What a write outside the areas of R502 spoils when it meets one of them: a CRC-32C no longer holds, a record is gone, an image has
other bytes (log entry 204). -/
def FlashSt.hit (f : FlashSt) (off : Nat) (bs : List Byte) : FlashSt :=
  let meets := fun lo n => decide (off < lo + n ∧ lo < off + bs.length)
  { dir0 := if meets 0 0x1000 then { f.dir0 with crcOk := false } else f.dir0
    dir1 := if meets 0x1000 0x1000 then { f.dir1 with crcOk := false } else f.dir1
    bufA := if meets 0x100000 0x100000 then f.bufA.map (fun b => { b with crcOk := false }) else f.bufA
    bufB := if meets 0x200000 0x100000 then f.bufB.map (fun b => { b with crcOk := false }) else f.bufB
    confirm := if meets 0x300000 0x10000 then none else f.confirm
    slot0 := if meets 0x01000000 0x04000000 then f.slot0.map (fun x => fileHit x 0x01000000 off bs) else f.slot0
    slot1 := if meets 0x05000000 0x04000000 then f.slot1.map (fun x => fileHit x 0x05000000 off bs) else f.slot1 }

/-- The next entry is on the device, or the write has failed (R394, R510); `us` is the time since the detection when PFAIL handling
runs. -/
def State.mirrorWrite (s : State) (ok : Bool) (us : Nat) : State :=
  if !s.awake || !s.bit Reg.jnlMirrorCfgEn || !s.jnl.copying then s
  else
    match s.entry (s.jnl.mirrored + 1) with
    | none => s
    | some e =>
      if !ok then { s with jnl := { s.jnl with mirrorErr := true, copying := false } }.raise 0x62 1 10 107
      else
        let slot := e.seq % 2 ^ s.fld Reg.jnlMirrorCfgSizeLog2
        let j := { s.jnl with mirrored := e.seq, mirror := Tab.put none s.jnl.mirror slot (some e) }
        let j := { j with lagHolds := j.lagHolds || decide (j.lag ≤ s.fld Reg.jnlMirrorCfgMaxLag) }
        let off := (s.reg 0x503020).toNat + 64 * slot
        let s := { s with jnl := j, flash := s.flash.hit off (jBytes e) }.emit (.flash off (jBytes e))
        if s.power.handling && e.seq == s.jnl.head then
          { s with power := { s.power with flushUs := BitVec.ofNat 16 (min us 65535) } }
        else s

/-- The mirror has no more to copy. -/
def State.mirrorIdle (s : State) : Bool :=
  !s.bit Reg.jnlMirrorCfgEn || !s.jnl.copying || decide (s.jnl.head ≤ s.jnl.mirrored)

/-- VHOLD_LOW (R392). -/
def execVholdLow (s : State) : Host.Outcome State Fault Refusal :=
  .next (if s.mode = .off then { s with power := { s.power with vholdOk := false } }
    else { s with jnl := { s.jnl with frozen := true, vholdLow := true }, power := { s.power with vholdOk := false } })

/-! ### Keeper windows and the SPI management port (R381 to R386) -/

/-- The commands the keeper serves itself. -/
def keeperSpecs (levelReset : CmdSpec) : List CmdSpec :=
  [specPing, specStatusGet, levelReset, specBypassSet, specModeGet, specSafeStop, specFaultRead]

/-- The keeper's own specification of a command, when it serves it. -/
def keeperSpec (levelReset : CmdSpec) (c : CmdIn) : Option CmdSpec :=
  if c.opcode = 0x0700 then (if c.p8 9 = 1 then none else some (specJournalRead false))
  else (keeperSpecs levelReset).find? (fun k => k.opcode == c.opcode)

/-- A command that has reached the keeper: served at once, or passed on to the command processor (R381). -/
def State.keeperIn (s : State) (levelReset : CmdSpec) (c : CmdIn) : State :=
  match keeperSpec levelReset c with
  | some k => s.process k c
  | none => s.wait c

/-- The command in a keeper window. -/
def State.keeperCmd (s : State) (f : Nat) : CmdIn :=
  CmdIn.ofPacket (.keeper f) ((List.range 16).flatMap (fun i => wordBytes (s.reg (kprBase f + 4 * i)))) none

/-- A write of KPR_GO. -/
def State.keeperGo (s : State) (levelReset : CmdSpec) (f : Nat) (data : Word) : State :=
  if s.bit Reg.kprStatBusy (kprBase f) then s.setFld Reg.kprStatDropped 1 (kprBase f)
  else if !dataBit data 0 then s
  else (s.setFld Reg.kprStatBusy 1 (kprBase f)).keeperIn levelReset (s.keeperCmd f)

/-- A write of a word of KPR_CMD. -/
def State.keeperPut (s : State) (f off : Nat) (data : Word) : State :=
  if s.bit Reg.kprStatBusy (kprBase f) then s.setFld Reg.kprStatDropped 1 (kprBase f) else s.setReg off data

/-- SPI_RPL (R385, R386): the reply is read, and MGMT_IRQ_N goes high. -/
def execSpiRpl (s : State) : Host.Outcome State Fault Refusal :=
  .next (if !s.keeperUp then s
    else match s.host.spiReply with
      | none => s.emit (.spi [0#8])
      | some bs => ({ s with host := { s.host with spiReply := none } }.emit (.spi (1#8 :: bs))).emit (.pin "MGMT_IRQ_N" true))

end Sys2Proof.Machine
end

