-- ==== Sys2Proof/Machine/RegRows.lean ====
section
/-! DEFINITION. BAR0 as the host and the image reach it (R10 to R12, R50, R56, R360, R361): a write of any register, what a read of any
register or window returns, memory through the region windows.
Log: DEDUCED 134, 159, 210. DESIGN CHOICE 135, 163. -/

namespace Sys2Proof.Machine

/-! ### Islands (R24, R25) -/

/-- An island that the variant has. -/
def State.islandPresent (s : State) (i : Nat) : Bool :=
  decide (i < 108)
  && (match s.variant with
    | .a => true
    | .b => i != 95 && i != 99
    | .c => i != 95 && i != 99
        && !decide ((32 ≤ i ∧ i ≤ 63) ∨ (72 ≤ i ∧ i ≤ 79) ∨ i = 82 ∨ i = 83 ∨ (88 ≤ i ∧ i ≤ 91)))

/-- The island of a cell, a block, a region: 0 to 63, 64 to 79, 80 to 83. -/
def cellIsland (c : Nat) : Nat := c
def blockIsland (b : Nat) : Nat := 64 + b
def regionIsland (r : Nat) : Nat := 80 + r

/-! ### Writes with an effect of their own -/

/-- A write of CHIP_LOOP_CFG: the threshold of the selected group, in effect from the next edge E (R203). -/
def State.loopCfgWrite (s : State) (data : Word) : State :=
  let k := s.fld Reg.chipLoopSelGroup
  let v := bitsOf data.toNat 7 0
  let s := s.setLoop k { s.loopGrp k with thresh := if v = 0 then 2 else v }
  if v = 0 then { s with chipWarn := true } else s

/-- A group enabled, disabled, or changed: nothing of the last period is carried on; one disabled ends UB_10. -/
def State.grpCfgWrite (s : State) (k : Nat) (data : Word) : State :=
  let was := s.bit Reg.pwmGrpCfgEn (lgBase k)
  let s := s.storeReg (lgBase k) data
  let is := s.bit Reg.pwmGrpCfgEn (lgBase k)
  let s := if is then s else s.define (fun x => x == .group k)
  let x := s.lg k
  if was == is then s
  else ((s.setFld Reg.pwmGrpOfsOA 0 (lgBase k)).setFld Reg.pwmGrpOfsOB 0 (lgBase k)).setLg k
    { x with started := false, base := 0, carry := [], edges := [], delay := none, coilA := {}, coilB := {} }

/-- UB_10: an accepted write changes the kind of a group whose gates are enabled. -/
def State.kindUb (s : State) (w : RegWrite) : Bool :=
  decide (0x300100 ≤ w.off ∧ w.off < 0x300300) && (w.off - 0x300100) % 0x40 == 0 && s.awake && w.fn == 0
    && decide (s.mode = .configure ∨ s.mode = .commission)
    && (let b := lgBase ((w.off - 0x300100) / 0x40)
        s.bit Reg.pwmGrpCfgEn b && s.bit Reg.pwmGrpCfgKind b != dataBit w.data 16)

/-- UB_10 makes the gate outputs of the group undefined. -/
def State.kindCase (s : State) (w : RegWrite) : State := if s.kindUb w then s.undefine (.group ((w.off - 0x300100) / 0x40)) else s

/-- A pattern sets both outputs of a complementary pair (R292): outputs 2 × i and 2 × i + 1, of which 6 and 7 are a pair of a stepper
alone. -/
def legShort (stepper : Bool) (v : Nat) : Bool :=
  (List.range (if stepper then 4 else 3)).any (fun i => v.testBit (2 * i) && v.testBit (2 * i + 1))

/-- A write of PWM_GRP_OUT: a safe pattern that sets both outputs of a pair is reserved (R292). -/
def State.grpOutWrite (s : State) (k : Nat) (data : Word) : State :=
  if s.mode = .configure && legShort (s.bit Reg.pwmGrpCfgKind (lgBase k)) (bitsOf data.toNat 7 0) then (s.setFld Reg.pwmGrpOutSafe 0 (lgBase k)).setBit Reg.pwmCtrlCfgWarn true
  else s.storeReg (lgBase k + 8) data

/-- A write of FB_CFG: a change of mode or z_mode starts the Z latch afresh (R320). -/
def State.fbCfgWrite (s : State) (k : Nat) (data : Word) : State :=
  let b := fbBase k
  let old := (s.fld Reg.fbCfgMode b, s.fld Reg.fbCfgZMode b)
  let read := s.bit Reg.fbCfgHallEn b
  let s := s.storeReg b data
  let s := if s.bit Reg.fbCfgHallEn b && !read then s.hallStart k else s
  if (s.fld Reg.fbCfgMode b, s.fld Reg.fbCfgZMode b) = old then s else s.setFb k { s.fb k with zeroed := false, firstZ := none }

/-- A write of IND_CTRL: a part that follows a low TRIG_ARM has its sequencer in S0 (R477). -/
def State.indCtrlWrite (s : State) (data : Word) : State :=
  let s := s.storeReg 0x600000 data
  if s.bit Reg.indCtrlMulti && !s.ind.armHigh then { s with ind := { s.ind with seq := 0 } } else s

/-- A register at a place of one of some repeated groups. -/
def placeAt (base stride count place off : Nat) : Option Nat :=
  if base ≤ off ∧ (off - base) / stride < count ∧ (off - base) % stride = place then some ((off - base) / stride) else none

/-- Registers without a row whose write does more than store their fields. -/
def State.plainWrite (s : State) (off : Nat) (data : Word) : State :=
  if off = 0x10 then { s with chipWarn := s.chipWarn && !dataBit data 31 }
  else if off = 0x360000 then { s with fbWarn := s.fbWarn && !dataBit data 31 }
  else if off = 0x204 then s.loopCfgWrite data
  else if off = 0x1000A0 then s.replayCtrl data
  else if off = 0x50301C then s.mirrorCfg data
  else if off = 0x800100 then s.scanCtrl data
  else if 0x600000 ≤ off ∧ off < 0x610000 ∧ s.capturing then s
  else if off = 0x600000 then s.indCtrlWrite data
  else
    match placeAt 0x300100 0x40 8 0 off, placeAt 0x300100 0x40 8 8 off, placeAt 0x360100 0x40 8 0 off, placeAt 0x808000 0x10 128 4 off with
    | some k, _, _, _ => s.grpCfgWrite k data
    | none, some k, _, _ => s.grpOutWrite k data
    | none, none, some k, _ => s.fbCfgWrite k data
    | none, none, none, some _ => if s.chanHere off then s.chLoWrite off data else s
    | none, none, none, none =>
      if 0x502000 ≤ off ∧ off < 0x502400 ∧ (off - 0x502000) % 0x200 < 0x40 then s.keeperPut ((off - 0x502000) / 0x200) off data
      else s.storeReg off data

/-- The row of a register that has one of its own, KPR_GO apart. -/
def State.rowWrite (s : State) (w : RegWrite) : Option (Host.Outcome State Fault Refusal) :=
  let o := w.off
  if o = 0x100034 then some (execMadWicPrioWrite w s)
  else if o = 0x100044 then some (execMadWicCancelWrite w s)
  else if 0x200000 ≤ o ∧ o < 0x280000 ∧ o % 0x10000 = 0 then some (execXwCtrlWrite w s)
  else if 0x200000 ≤ o ∧ o < 0x280000 ∧ o % 0x10000 = 0x28 then some (execXwArspPopWrite w s)
  else if o = 0x340008 then some (execAdcUrgWrite w s)
  else if o = 0x40002C then some (execTimeIncTgtCommit w s)
  else if o = 0x400030 then some (execTimeSlewWrite w s)
  else if o = 0x400034 then some (execTimeHoldWrite w s)
  else if o = 0x400058 ∨ o = 0x400068 then some (execClkOutCommit w s)
  else if o = 0x400100 then some (execBbBypassWrite w s)
  else if o = 0x40103C ∨ o = 0x40203C then some (execBbTxTailWrite w s)
  else if o = 0x401058 ∨ o = 0x402058 then some (execBbRxTailWrite w s)
  else if o = 0x401014 ∨ o = 0x402014 then some (execBbTsqPopWrite w s)
  else if isPair o 0x20 then some (execQpSqTailWrite w s)
  else if isPair o 0x24 then some (execQpCqHeadWrite w s)
  else if isPair o 0x00 then some (execQpCtrlWrite w s)
  else if isEngine o 0x10 then some (execDmaETailWrite w s)
  else if isEngine o 0x00 then some (execDmaECtrlWrite w s)
  else if isChan o 0 then some (execCrcChCfgWrite w s)
  else if isChan o 8 then some (execCrcChValHiWrite w s)
  else none

/-- A write of any register, KPR_GO apart (R10, R11, R361). -/
def State.bar0Write (s : State) (w : RegWrite) : Host.Outcome State Fault Refusal :=
  match s.rowWrite w with
  | some o => o
  | none => .next ((s.kindCase w).ownWrite w true (fun s => s.plainWrite w.off w.data))

/-! ### Reads (R12): views and windows -/

/-- CHIP_ID, CHIP_CAPS. -/
def State.chipId (s : State) : Word := BitVec.ofNat 32 (0x7256 * 65536 + s.stepping.toNat * 256)
def State.chipCaps (s : State) : Word :=
  let v := match s.variant with | .a => 0 | .b => 1 | .c => 2
  let islands := match s.variant with | .a => 108 | .b => 106 | .c => 60
  BitVec.ofNat 32 (v * 2 ^ 28 + bitAt s.isA 27 + bitAt s.isA 26 + 2 ^ 25 + islands * 2 ^ 17 + s.ringCount * 2 ^ 13 + 8 * 2 ^ 9 + s.regions * 2 ^ 6)

/-- The maximum frequency of an island in MHz, and whether it runs phase-locked at it (R25, R27). -/
def islandMax (i : Nat) : Nat :=
  if i < 80 then 1000 else if i < 84 then 800 else if i < 94 then 400
  else match i with
    | 94 | 96 | 99 => 500
    | 98 => 100
    | 101 => 300
    | 102 => 250
    | 103 | 107 => 200
    | 105 | 106 => 800
    | _ => 400
def islandFixed (i : Nat) : Bool := i == 96 || i == 102 || i == 103 || i == 104

/-- The measured frequency of an island (R26, R27): 0 until it has been released; the fixed one of a locked phase-locked island; of a
locked island with a target, one within 0.5 % of it; any up to the maximum elsewhere. `f` is free. -/
def islandFreq (i : Nat) (x : IslandSt) (f : Nat) : Nat :=
  let top := islandMax i
  if !x.locked && x.inReset then 0
  else if islandFixed i && x.locked then top
  else if x.locked && x.target != 0 then
    let lo := min top (x.target - x.target / 200)
    lo + f % (min top (x.target + x.target / 200) - lo + 1)
  else f % (top + 1)

/-- CHIP_ISL_STAT: clamped is open for an island with a code of its own; the read clears lock_losses. -/
def State.readIsland (s : State) : State × Word :=
  let i := s.fld Reg.chipIslSelIsland
  if !s.islandPresent i then (s, 0#32)
  else
    let x := s.island i
    let f := s.freeW.toNat
    let clamped := if islandFixed i || (!x.locked && x.inReset) then 0 else f % 2
    (s.drew.setIsland i { x with lockLosses := 0#8 },
      BitVec.ofNat 32 (2 ^ 31 + bitAt x.locked 30 + clamped * 2 ^ 29 + bitAt x.inReset 28 + islandFreq i x (f / 2) * 2 ^ 16 + x.lockLosses.toNat))

/-- A loop group that the variant has. -/
def State.loopPresent (s : State) (k : Nat) : Bool := decide (k / 2 < s.ringCount ∨ (16 ≤ k ∧ k < 24))

/-- CHIP_LOOP_STAT: the read clears overruns. -/
def State.readLoop (s : State) : State × Word :=
  let k := s.fld Reg.chipLoopSelGroup
  let x := s.loopGrp k
  (s.setLoop k { x with overruns := 0 }, BitVec.ofNat 32 (x.overruns * 65536 + x.consec * 256 + bitN (s.loopPresent k)))

/-- The low word of a pair whose read latches the high word, read. -/
def State.readPair (s : State) (off v : Nat) : State × Word :=
  (s.latch (off + 4) (BitVec.ofNat 32 (v / 2 ^ 32)), BitVec.ofNat 32 v)
/-- The latched high word. -/
def State.latchedHi (s : State) (off : Nat) : Word := Tab.get 0#32 s.host.latched off

/-- CHIP_PWR. -/
def State.chipPwr (s : State) : Word :=
  BitVec.ofNat 32 (bitAt s.power.pfailN 31 + bitAt s.power.lastDet 30 + s.power.flushUs.toNat)

/-- The views of chip control. The spec names CHIP_CTRL's CFG_WARN and the feedback unit's (R10, R11) and gives neither register: they
are read, and cleared by a 1, at bit 31 of offset 0x10 and of the feedback unit's offset 0 (DESIGN CHOICE, log entry 163). -/
def State.chipView (s : State) (off : Nat) : Option (State × Word) :=
  match off with
  | 0x0 => some (s, s.chipId)
  | 0x8 => some (s, s.chipCaps)
  | 0x10 => some (s, BitVec.ofNat 32 (bitAt s.chipWarn 31))
  | 0x104 => some s.readIsland
  | 0x110 => some (s, s.cycle)
  | 0x204 => some (s, BitVec.ofNat 32 (s.loopGrp (s.fld Reg.chipLoopSelGroup)).thresh)
  | 0x208 => some s.readLoop
  | 0x20C => some (s, (s.loopGrp (s.fld Reg.chipLoopSelGroup)).last)
  | 0x304 => some (s, BitVec.ofNat 32 (s.mode.code * 2 ^ 28 + s.modeCause.toNat * 2 ^ 26))
  | 0x308 => some (s, s.chipPwr)
  | 0x310 => some (s.readPair 0x310 (((s.image.map Image.check).getD 0#64).toNat))
  | 0x314 => some (s, s.latchedHi 0x314)
  | _ => none

/-- MAD_QDESC and MAD_QBASE of the selected queue. -/
def State.qdescWord (s : State) : Word :=
  match s.qdesc (s.fld Reg.madQselQueue) with
  | some d => BitVec.ofNat 32 (d.kind * 2 ^ 29 + d.lag * 2 ^ 27 + (d.depth - 1) * 2 ^ 21 + (d.words - 1) * 2 ^ 15)
  | none => 0#32

/-- What a queue holds: tokens; the items of its channel that wait, for a WORK queue; the records, for a COMPLETION queue (R131). -/
def State.queueCountNow (s : State) (q : Nat) : Nat :=
  match s.wics.find? (fun (w : WicDesc) => w.workQ == some q), s.wics.find? (fun (w : WicDesc) => w.complQ == some q) with
  | some w, _ => min 127 (s.itemsWaiting w.id)
  | none, some w => min 127 (s.chan w.id).compl.length
  | none, none => (s.queue q).toks.length

/-- MAD_QSTAT, MAD_MBX_STAT, MAD_DL_STAT: the read clears their counts. -/
def State.readQstat (s : State) : State × Word :=
  let q := s.fld Reg.madQselQueue
  let x := s.queue q
  (s.setQueue q { x with late := 0, refused := 0 }, BitVec.ofNat 32 (x.late * 2 ^ 24 + x.refused * 2 ^ 16 + s.queueCountNow q))
def State.readMbx (s : State) : State × Word :=
  let q := s.fld Reg.madMbxSelQueue
  let x := s.queue q
  (s.setQueue q { x with mbLate := 0, mbSup := 0 },
    BitVec.ofNat 32 (x.mbLate * 2 ^ 24 + x.mbSup * 2 ^ 16 + bitAt (((s.qdesc q).map QDesc.eventMb).getD false) 4 + x.posts.length))
def State.readDelay (s : State) (r : Nat) : State × Word :=
  let x := s.delay r
  (s.setDelay r { x with high := x.ents.length }, BitVec.ofNat 32 (x.high * 65536 + x.ents.length))

/-- MAD_WIC_CFG and MAD_WIC_STAT of the selected channel; a channel of Indigo is unused where there is none (R143). -/
def State.wicCfg (s : State) : Word :=
  match s.wic (s.fld Reg.madWicSelChannel) with
  | some d => BitVec.ofNat 32 ((if d.owner = 2 && !s.isA then 0 else d.owner) * 2 ^ 30 + (s.chan d.id).prio * 256 + (d.depth - 1))
  | none => 0#32
def State.wicStat (s : State) : Word :=
  let k := s.fld Reg.madWicSelChannel
  BitVec.ofNat 32 ((s.chan k).lastCancel * 65536 + min 127 (s.itemsRunning k) * 512 + min 511 (s.itemsWaiting k))
def State.wicPool (s : State) : Nat := ((s.wic (s.fld Reg.madWicSelChannel)).map WicDesc.pool).getD 0

/-- MAD_DIGEST_LO and _HI: latched until both have been read (R158). -/
def State.readDigest (s : State) (hi : Bool) : State × Word :=
  let m := s.mad
  let v := m.digLatch.getD m.digest
  let w := if hi then v.extractLsb' 32 32 else v.extractLsb' 0 32
  let lo := m.digReadLo || !hi
  let up := m.digReadHi || hi
  let m := if m.digLatch.isNone then m
    else if lo && up then { m with digLatch := none, digReadLo := false, digReadHi := false }
    else { m with digReadLo := lo, digReadHi := up }
  ({ s with mad := m }, w)

/-- The views of Madder; digest_en reads 1 while Larkspur computes digests (R433). -/
def State.madView (s : State) (off : Nat) : Option (State × Word) :=
  match off with
  | 0x100000 => some (s, if s.lsp.role = .unpaired then s.reg off else s.reg off ||| 1#32)
  | 0x100014 => some (s, s.qdescWord)
  | 0x100018 => some (s, BitVec.ofNat 32 (((s.qdesc (s.fld Reg.madQselQueue)).map QDesc.base).getD 0))
  | 0x10001C => some s.readQstat
  | 0x100020 => some (s, ((s.headTok (s.fld Reg.madQselQueue)).map Token.cycle).getD 0#32)
  | 0x100034 => some (s, s.wicCfg)
  | 0x100038 => some (s, BitVec.ofNat 32 s.wicPool)
  | 0x10003C => some (s, if s.variant = .c then 0#32 else BitVec.ofNat 32 (s.wicPool / 2 ^ 32))
  | 0x100040 => some (s, s.wicStat)
  | 0x100060 => some (s.readDelay 0)
  | 0x100064 => some (s.readDelay 1)
  | 0x100068 => some (s.readDelay 2)
  | 0x10006C => some (s.readDelay 3)
  | 0x100074 => some s.readMbx
  | 0x100090 => some ({ s with mad := { s.mad with digLatch := some s.mad.digest, digReadLo := false, digReadHi := false } }, s.mad.digestCycle)
  | 0x100094 => some (s.readDigest false)
  | 0x100098 => some (s.readDigest true)
  | _ => none

/-- A word of a list of bytes. -/
def wordOf (bs : List Byte) (at_ : Nat) : Word := wordAtB bs at_

/-- The views and the response buffer of a ring port (R259, R287). -/
def State.ringView (s : State) (off : Nat) : Option (State × Word) :=
  if off < 0x200000 ∨ 0x280000 ≤ off then none
  else
    let r := (off - 0x200000) / 0x10000
    let p := (off - 0x200000) % 0x10000
    if 0x44 ≤ p ∧ p < 0x54 then
      some (s, ((s.slot r (s.fld Reg.xwSlotSelNode (ringBase r))).map (fun d => slotWord d ((p - 0x44) / 4))).getD 0#32)
    else if 0x4000 ≤ p ∧ p < 0x5000 then
      let i := ((p - 0x4000) / 256 + 16 - s.fld Reg.xwArspStatHead (ringBase r)) % 16
      some (s, wordOf (((s.ringSt r).arsp[i]?).getD []) (p % 256))
    else none

/-- The views of the time unit (R332). -/
def State.timeView (s : State) (off : Nat) : Option (State × Word) :=
  match off with
  | 0x400010 => some (s.latchTime, BitVec.ofNat 32 s.subNs)
  | 0x400014 => some (s, s.time.latNs)
  | 0x400018 => some (s, s.time.latS.extractLsb' 0 32)
  | 0x40001C => some (s, s.time.latS.extractLsb' 32 32)
  | 0x400020 => some (s, s.time.inc.extractLsb' 0 32)
  | 0x400024 => some (s, (s.time.inc.extractLsb' 32 16).setWidth 32)
  | _ => none

/-- JNL_STAT. -/
def State.jnlStat (s : State) : Word :=
  BitVec.ofNat 32 (bitAt s.jnl.frozen 31 + bitAt s.jnl.vholdLow 30 + bitAt s.jnl.retained 29 + bitAt s.jnl.mirrorErr 28 + min 511 s.jnl.lag)

/-- The views of the journal and its window (R391, R393): slot `seq mod 4096`. -/
def State.jnlView (s : State) (off : Nat) : Option (State × Word) :=
  match off with
  | 0x503000 => some (s.readPair off s.jnl.head)
  | 0x503008 => some (s.readPair off s.jnl.overwritten)
  | 0x503010 => some (s.readPair off s.jnl.mirrored)
  | 0x503004 => some (s, s.latchedHi off)
  | 0x50300C => some (s, s.latchedHi off)
  | 0x503014 => some (s, s.latchedHi off)
  | 0x503018 => some (s, s.jnlStat)
  | _ =>
    if 0x540000 ≤ off ∧ off < 0x580000 then
      let slot := (off - 0x540000) / 64
      some (s, ((s.jnl.entries.find? (fun e => e.seq % 4096 == slot)).map (fun e => wordOf (jBytes e) (off % 64))).getD 0#32)
    else none

/-- The record of a window slot, the newest with its number modulo the size. -/
def recSlot (rs : List FoxRec) (n slot : Nat) : Option FoxRec := (rs.reverse).find? (fun r => r.no % n == slot)

/-- The views and windows of Foxglove (R452 to R457). -/
def State.foxView (s : State) (off : Nat) : Option (State × Word) :=
  let at_ := fun (l : Nat) => (s.fox.states.filter (fun x => x.level == l)).length
  match off with
  | 0x580004 => some (s, BitVec.ofNat 32 (s.foxLevel * 2 ^ 30 + bitAt (!s.fox.states.isEmpty) 29 + bitAt s.fox.latch 28 + bitAt s.fox.fatal 27
      + s.fox.queue.length))
  | 0x580008 => some (s, BitVec.ofNat 32 (min 255 (at_ 0) * 2 ^ 24 + min 255 (at_ 1) * 2 ^ 16
      + (s.fox.states.filter (fun x => x.level == 2 && x.src.kind == 3)).length * 256 + bitN (s.inFault 3 ⟨0, 0⟩)))
  | 0x580028 => some (s, BitVec.ofNat 32 s.fox.head)
  | _ =>
    if 0x581000 ≤ off ∧ off < 0x585000 then
      some (s, ((recSlot s.fox.queue 512 ((off - 0x581000) / 32)).map (fun r => wordOf r.bytes (off % 32))).getD 0#32)
    else if 0x585000 ≤ off ∧ off < 0x585800 then
      some (s, ((recSlot s.fox.retained 64 ((off - 0x585000) / 32)).map (fun r => wordOf r.bytes (off % 32))).getD 0#32)
    else none

/-- The views of Indigo, Larkspur and Woad; Woad shows the words of its last safety cycle (R416 and the window's own text). -/
def State.islandViews (s : State) (off : Nat) : Option (State × Word) :=
  match off with
  | 0x600004 => some (s, s.indStat)
  | 0x600018 => some (s.readPair off s.ind.wr.toNat)
  | 0x60001C => some (s, s.latchedHi off)
  | 0x600020 => some (s, BitVec.ofNat 32 s.indDecl)
  | 0x600028 => some (s, BitVec.ofNat 32 s.indBpc)
  | 0x680004 => some (s, s.lspStat)
  | 0x700000 => some (s, s.woadSeen 512 s.woadStat)
  | 0x700004 => some (s, s.woadCrc.1)
  | 0x700008 => some (s, s.woadCrc.2)
  | 0x70000C => some (s, s.woadSeen 513 s.woadSi)
  | 0x700010 => some (s, s.woadSeen 514 s.woadSo)
  | 0x700018 => (let a := s.fld Reg.woadAxisSelAxis; some (s, s.woadSeen a (s.woadAxisStat a)))
  | _ => none

/-- The views of the check-value units (R486, R491). -/
def State.crcView (s : State) (off : Nat) : Option (State × Word) :=
  if off = 0x800114 then some (s.latch 0x800118 (s.reg 0x800118), s.reg off)
  else if off = 0x800118 then some (s, s.latchedHi off)
  else if isChan off 4 then
    let j := (off - 0x808000) / 16
    let v := if s.chanHere off && !s.cellDown (j / 2) then s.chVal j else 0#64
    some (s.latch (off + 4) (v.extractLsb' 32 32), v.extractLsb' 0 32)
  else if isChan off 8 then some (s, s.latchedHi off)
  else none

/-- The views of a cell's registers (R54). -/
def State.cellView (s : State) (off : Nat) : Option (State × Word) :=
  match regCell off with
  | none => none
  | some n =>
    let c := s.cell n
    if off % 0x40 = 4 then
      let st := if c.inReset || (s.island (cellIsland n)).inReset then 2 else if c.halted then 3 else if c.run.isSome then 1 else 0
      some (s, BitVec.ofNat 32 (st * 2 ^ 30 + bitAt (!c.trig.isEmpty) 29 + c.rrb.toNat * 2 ^ 24 + c.pc.toNat))
    else if off % 0x40 = 8 then
      let w := s.reg off
      some (s, if bitsOf w.toNat 5 0 = 0 then w &&& 0xFF00FFFF#32 else w)
    else none

/-- The view of a group's state. -/
def State.lgView (s : State) (off : Nat) : Option (State × Word) :=
  match placeAt 0x300100 0x40 8 0x18 off with
  | some k => some (s, s.lgStat k)
  | none => none

/-- The first of some views that applies. -/
def firstView : List (Option (State × Word)) → Option (State × Word)
  | [] => none
  | some x :: _ => some x
  | none :: r => firstView r

/-- A view of state that the map does not hold itself, chosen by the unit. -/
def State.viewAt (s : State) (off : Nat) : Option (State × Word) :=
  if off < 0x100000 then s.chipView off
  else if off < 0x200000 then s.madView off
  else if off < 0x300000 then s.ringView off
  else if off < 0x340000 then s.lgView off
  else if off = 0x360000 then some (s, BitVec.ofNat 32 (bitAt s.fbWarn 31))
  else if off < 0x500000 then s.timeView off
  else if off < 0x580000 then s.jnlView off
  else if off < 0x600000 then s.foxView off
  else if off < 0x800000 then s.islandViews off
  else if off < 0x4000000 then s.crcView off
  else s.cellView off

/-- The bits of write-only fields. -/
def woMask (off : Nat) : Nat :=
  match locate off with
  | none => 0
  | some r => r.reg.fields.foldl (fun a f => if f.acc = .wo then withBits a f.hi f.lo (2 ^ (f.hi + 1 - f.lo) - 1) else a) 0

/-- What a register or window shows, and the state after the read (R12). -/
def State.regShows (s : State) (off : Nat) : State × Word :=
  match s.viewAt off with
  | some x => x
  | none => (s.readClear off, s.reg off &&& ~~~(BitVec.ofNat 32 (woMask off)))

/-- A read of any register or window (R4, R12): the state after it, and the word; a free one where a case of undefined behaviour reaches
the unit (R45). -/
def State.regRead (s : State) (off : Nat) : State × Word :=
  if s.absentAt off then (s, 0#32)
  else
    let y := s.regShows off
    y.1.unsure off y.2

/-- REGISTER_READ. -/
def execRegisterRead (r : RegRead) (s : State) : Host.Outcome State Fault Refusal :=
  .next (if !s.awake then s
    else if s.heldRead r.off && !s.absentAt r.off then s.emit (.readPoisoned r.fn r.off 0#32)
    else
      let y := s.regRead r.off
      y.1.emit (.readData r.fn r.off y.2))

/-- The registers that RDREG reads (R385): chip control, the command window and the journal, Foxglove. -/
def rdregOk (off : Nat) : Bool := decide (off < 0x100000 ∨ (0x500000 ≤ off ∧ off < 0x600000))

/-- SPI_RDREG (R384, R385). -/
def execSpiRdreg (off : Nat) (s : State) : Host.Outcome State Fault Refusal :=
  .next (if !s.keeperUp then s
    else if !rdregOk off then s.emit (.spi (wordBytes 0#32))
    else
      let y := s.regRead off
      y.1.emit (.spi (wordBytes y.2)))

/-! ### Memory through the region windows (R50 to R56, R482) -/

/-- REGION_WINDOW_WRITE. -/
def execRegionWindowWrite (w : RegWrite) (s : State) : Host.Outcome State Fault Refusal :=
  .next (if !s.awake || (memUnit w.off).isNone then s
    else if !mayWrite w.fn w.off then s.incFld Reg.cmdAuthErrPf1Wr
    else if s.absentAt w.off then s
    else (s.routed 94 w.off).outsideWrite w.off (wordBytes w.data))

/-- REGION_WINDOW_READ. -/
def execRegionWindowRead (r : RegRead) (s : State) : Host.Outcome State Fault Refusal :=
  .next (if !s.awake || (memUnit r.off).isNone then s
    else if s.absentAt r.off then s.emit (.readData r.fn r.off 0#32)
    else
      let y := (s.routed 94 r.off).portRead r.off 4
      y.1.emit (if y.2.2 then .readPoisoned r.fn r.off (wordAtB y.2.1 0) else .readData r.fn r.off (wordAtB y.2.1 0)))

end Sys2Proof.Machine
end

