-- ==== Sys2Proof/Machine/Power.lean ====
section
/-! DEFINITION. Images, boot, modes by command, resets, power loss, supplies, temperature, JTAG (R26, R379, R496 to R513, R520, R529, R532,
R540).
Log: DEDUCED 61, 92, 104, 125, 126, 127, 128, 129, 130, 132, 133, 134, 158, 160, 161, 203, 205. DESIGN CHOICE 10, 131, 186. -/

namespace Sys2Proof.Machine

def State.setPower (s : State) (p : PowerSt) : State := { s with power := p }

/-! ### Images (R503, R504, R540) -/

/-- The limits of R540 that involve only the timing section and f. -/
def timingOk (t : Timing) (f : Nat) (midpoint : Bool) : Bool :=
  decide (1000 ≤ t.tCut) && decide ((t.tEnd + 1000) * f ≤ 1000000000) && decide (t.tCmd + 30 ≤ t.tApply)
    && (if midpoint then decide (100 ≤ t.tWatch ∧ t.tWatch ≤ 900) else decide (t.tWatch = 0))

/-- Step 1 of R503. -/
def imageFormOk (f : ImageFile) : Bool :=
  decide (f.magic = 0x72561A6E) && decide (f.version = 1) && f.lengthsOk && f.kindsOk
    && decide (8000 ≤ f.hz ∧ f.hz ≤ 128000)
    && (f.timing.map (fun t => timingOk t f.hz f.midpoint)).getD false

/-- A section's target is there (R504). A Madder section names a block by its number, and the chip by any other (log entry 203). -/
def State.targetOk (s : State) (x : ImgSection) : Bool :=
  match x.kind with
  | 1 => decide (x.target < s.cellCount)
  | 2 => decide (x.target < s.cellCount)
  | 3 => decide (x.target < s.cellCount)
  | 4 => decide (x.target < s.blocks)
  | 5 => decide (x.target < s.regions)
  | 6 => decide (x.target < s.blocks ∨ 16 ≤ x.target)
  | 7 => decide (x.target < s.ringCount)
  | 11 => decide (x.target < s.regions)
  | _ => true

/-- What sections of kinds 6, 7 and 11 lay out stands at targets that are there: a part of two regions so has half the queues, pool places
and delay lists (R166, R504). -/
def imageTargetsOk (regions : Nat) (i : Image) : Bool :=
  i.queues.all (fun d => decide (d.id < 2048 * regions)) && i.ops.all (fun d => decide (d.cell < 16 * regions))
    && i.wics.all (fun d => decide (d.home < 4 * regions)) && i.rings.all (fun c => decide (c.ring < 2 * regions))
    && i.hwr.all (fun h => decide (h.1 < regions)) && i.wheels.blocks.all (fun e => decide (e.1 < 4 * regions))
    && (i.wheels.regions.map Prod.fst ++ i.wheels.weights.map Prod.fst).all (fun r => decide (r < regions))

/-- Where a memory section goes (R52, R53, R504). -/
def memAddr (x : ImgSection) : Option Nat :=
  match x.kind with
  | 1 => some (cellBase x.target + x.toff)
  | 2 => some (xAddr x.target 0 + x.toff)
  | 3 => some (yAddr x.target 0 + x.toff)
  | 4 => some (blockMem x.target + x.toff)
  | 5 => some (regionBase x.target + x.toff)
  | _ => none

/-- The pairs of a section of register settings. -/
def regPairs (bs : List Byte) : List (Nat × Word) :=
  (List.range (bs.length / 8)).map (fun i => (numAt bs (8 * i) 4, wordAtB bs (8 * i + 4)))

/-- What an image file says: what its bytes lay out, and the rest as given with it (log entry 203). -/
def content (f : ImageFile) : Image :=
  { f.image with
    check := f.check, f := f.hz, timing := f.timing.getD ⟨0, 0, 0, 0, 0, 0⟩
    mem := f.sections.filterMap (fun x => (memAddr x).map (fun a => (a, f.body x)))
    regs := (f.sections.filter (fun x => x.kind == 8)).flatMap (fun x => regPairs (f.body x)) }

/-- The code of the first failure of R503: 0 none, 1 read error, 2 to 6 the steps 1 to 5. -/
def State.imageFail (s : State) (f : ImageFile) : Nat :=
  let v := match s.variant with | .a => 0 | .b => 1 | .c => 2
  if !f.readOk then 1
  else if !imageFormOk f then 2
  else if !f.variants.testBit v || !f.sections.all s.targetOk || !imageTargetsOk s.regions f.image then 3
  else if (s.power.fuses.map (fun h => decide (f.keyHash ≠ h))).getD false then 4
  else if s.power.fuses.isSome && !f.sigOk then 5
  else if !f.checkOk then 6
  else 0

/-! ### Loading an image (R134, R137, R256, R336, R501, R504, R540) -/

/-- Memory sections written. -/
def State.loadMem (s : State) : List (Nat × List Byte) → State
  | [] => s
  | (a, bs) :: r => State.loadMem (s.ramWrite a bs) r

/-- Register settings written as in CONFIGURE. -/
def State.applyRegs (s : State) : List (Nat × Word) → State
  | [] => s
  | (off, w) :: r =>
    match s.bar0Write ⟨0, off, w⟩ with
    | .next t => State.applyRegs t r
    | _ => State.applyRegs s r
def State.loadRegs (s : State) (l : List (Nat × Word)) : State :=
  let m := s.mode
  { ({ s with mode := .configure }.applyRegs l) with mode := m }

/-- Words written to consecutive registers, without regard to access. -/
def State.putRegs (s : State) (off : Nat) (ws : List Word) : State := s.setRegs off ws

/-- What the image gives a ring for the part's own position (R256, R259, R420). -/
def State.loadRing (s : State) (img : Image) (r : Nat) : State :=
  let b := ringBase r
  let s : State := { s with regs := s.regs.filter (fun (e : Nat × Word) => !decide (b + 0x8000 ≤ e.1 ∧ e.1 < b + 0xC000)) }
  match s.ringCfg r with
  | none => s.setRing r { s.ringSt r with slots := [] }
  | some c =>
    let s := s.setRing r { s.ringSt r with slots := c.slots }
    let s := s.putRegs (b + 0x8000) (c.sched.flatMap schedWords)
    let s := (s.setFld Reg.xwTimingTApply (c.tApply.getD img.timing.tApply) b).setFld Reg.xwTimingTS c.tS b
    (s.setFld Reg.xwTimingHTApplyH c.tApplyH b).setFld Reg.xwTimingHTCs s.tCs.toNat b

/-- A zero code of a coil from an offset word of its axis (R305). -/
def zeroCode (w : Word) : Nat := (max 0 (min 16383 (Fp.cvtfi (Fp.canon w)).toInt)).toNat

/-- What a local group takes from the parameters of its axis. -/
def State.loadGroup (s : State) (k : Nat) : State :=
  let x := s.axis (256 + k)
  let b := lgBase k
  let s := s.setFld Reg.pwmGrpOutSsTmin ((Fp.cvtfi (x.pw 45)).toNat % 16384) b
  if (s.axisCfg (256 + k)).isNone then s
  else (s.setFld Reg.pwmGrpZeroZA (zeroCode (x.pw 5)) b).setFld Reg.pwmGrpZeroZB (zeroCode (x.pw 6)) b

/-- Parameter words as a table. -/
def paramTab (ws : List Word) : List (Nat × Word) := ((List.range ws.length).zip ws).filter (fun e => decide (e.2 ≠ 0#32))

/-- An axis as an image leaves it: its parameters, its state blocks as at RUN entry. -/
def freshAxis (ws : List Word) (cycle : Word) : AxisSt := ({ params := paramTab ws } : AxisSt).runEntry cycle false

/-- An image loaded; `boot` tells Woad whether the stored confirmation counts (R415). What lies beyond the capacities
of R166 is taken as it stands (log entry 186). -/
def State.loadImage (s : State) (img : Image) (boot : Bool) : State :=
  let s : State := { s with image := some img, cells := Tab.mapVals {} (fun (c : CellSt) => { ch0 := c.ch0, ch1 := c.ch1, halted := c.halted }) s.cells }
  let chans := img.wics.foldl (fun t (w : WicDesc) => Tab.put {} t w.id { prio := w.prio }) []
  let s : State := { s with mad := { s.mad with queues := [], ops := [], waiting := [], chans := chans, delay := [], samples := [], sinks := [] } }
  let s := img.freqs.foldl (fun (s : State) e => s.setIsland e.1 { s.island e.1 with target := e.2 }) s
  let s : State := { (s.loadMem img.mem).placeDescs with arb := {} }
  let s := (s.setReg 0x400040 (BitVec.ofNat 32 img.f)).restartGrid
  let s := (s.setFld Reg.madStatTokensCarved img.tokens).setFld Reg.madStatOpsPlaced img.ops.length
  let s := s.loadRegs img.regs
  let s := (List.range s.ringCount).foldl (fun s r => s.loadRing img r) s
  let s := (s.setFld Reg.pwmTimingTApply img.timing.tApply).setFld Reg.pwmTimingTCmd img.timing.tCmd
  let s := if s.isA then (s.setFld Reg.lspTimingTCsTw (img.timing.tCs - img.timing.tWatch)).setFld Reg.lspTimingTWatch img.timing.tWatch else s
  let s := (List.range 128).foldl (fun s k => s.setReg (0x800400 + 4 * k) 0#32) s
  let s := img.hwr.foldl (fun s h => (s.setReg (0x800400 + 0x80 * h.1 + 8 * h.2.1) (BitVec.ofNat 32 h.2.2.1)).setReg
    (0x800404 + 0x80 * h.1 + 8 * h.2.1) (BitVec.ofNat 32 h.2.2.2)) s
  let s : State := { s with axes := img.axes.foldl (fun t (c : AxisCfg) => Tab.put {} t c.axis (freshAxis c.params s.cycle)) [] }
  let s := (List.range 8).foldl State.loadGroup s
  let s : State := { s with axShown := s.axes, axCycle := s.cycle }
  s.woadLoad boot

/-! ### Parameter buffers (R505) -/

/-- A buffer that may be loaded over an image. -/
def bufFits (check : BitVec 64) (b : Option ParamBuf) : Bool :=
  match b with | some x => x.crcOk && decide (x.check = check) | none => false
def bufGen (b : Option ParamBuf) : Nat := (b.map ParamBuf.gen).getD 0

/-- Parameter blocks put in place of the image's. -/
def State.putParams (s : State) : List (Nat × List Word) → State
  | [] => s
  | (a, ws) :: r =>
    State.putParams (if (s.axisCfg a).isSome then s.setAxis a (freshAxis ws s.cycle) else s) r

/-- The buffer with the higher generation that fits is loaded over the image's values. -/
def State.loadBuffer (s : State) (check : BitVec 64) : State :=
  let a := bufFits check s.flash.bufA
  let b := bufFits check s.flash.bufB
  let useB := b && (!a || decide (bufGen s.flash.bufA < bufGen s.flash.bufB))
  if !a && !b then s.setFld Reg.chipBootStatParamNone 1
  else
    let x := if useB then s.flash.bufB else s.flash.bufA
    let s := s.putParams ((x.map ParamBuf.axes).getD [])
    let s := (List.range 8).foldl State.loadGroup s
    let s : State := { s with axShown := s.axes, power := { s.power with bufLast := bitN useB } }
    s.setFld Reg.chipBootStatParamBuf (bitN useB)

/-! ### The boot sequence (R498, R501 to R505) -/

/-- The islands of the variant run (log entry 61). -/
def State.releaseIslands (s : State) : State :=
  (List.range 108).foldl (fun s i =>
    if s.islandPresent i then s.setIsland i { s.island i with locked := true, inReset := false } else s) s

/-- The directory that counts: the copy whose CRC-32C holds, the first one before the other; none is valid without one. -/
def FlashSt.dir (f : FlashSt) : BootDir := if f.dir0.crcOk then f.dir0 else if f.dir1.crcOk then f.dir1 else {}

/-- The valid slots in the order they are tried: the higher generation first. -/
def State.slotOrder (s : State) : List Nat :=
  let d := s.flash.dir
  let l := (if d.valid0 then [0] else []) ++ (if d.valid1 then [1] else [])
  if d.gen0.toNat < d.gen1.toNat then l.reverse else l
def State.slotFile (s : State) (k : Nat) : Option ImageFile := if k = 0 then s.flash.slot0 else s.flash.slot1
/-- The failure code of a slot. -/
def State.slotFail (s : State) (k : Nat) : Nat := match s.slotFile k with | some f => s.imageFail f | none => 1

/-- The slot that boots, with the failures met on the way: the first slot's and the second's. -/
def State.pickSlot (s : State) : Option Nat × Nat × Nat :=
  match s.slotOrder with
  | [] => (none, 0, 0)
  | [a] => if s.slotFail a = 0 then (some a, 0, 0) else (none, s.slotFail a, 0)
  | a :: b :: _ =>
    if s.slotFail a = 0 then (some a, 0, 0)
    else if s.slotFail b = 0 then (some b, s.slotFail a, 0)
    else (none, s.slotFail a, s.slotFail b)

/-- A boot from flash. -/
def State.flashBoot (s : State) : State :=
  let p := s.pickSlot
  let s := ((s.setFld Reg.chipBootStatFailFirst p.2.1).setFld Reg.chipBootStatFailSecond p.2.2).setFld Reg.chipBootStatFallback
    (bitN (decide (p.2.1 ≠ 0)))
  match p.1.bind (fun k => (s.slotFile k).map (fun f => (k, f))) with
  | none => s.setFld Reg.chipBootStatResult 3
  | some (k, f) =>
    let s := (s.setFld Reg.chipBootStatResult k).setFld Reg.chipBootStatUnsecured (bitN s.power.fuses.isNone)
    let s := s.setPower { s.power with source := some (.slot k), file := some f }
    (s.loadImage (content f) true).loadBuffer f.check

/-- BOOT_SEQUENCE_END. -/
def execBootSequenceEnd (s : State) : Host.Outcome State Fault Refusal :=
  .next (if s.mode ≠ .boot then s
    else
      let s := s.releaseIslands
      let strap := s.power.strap.toNat
      let s := if strap = 1 then s.setFld Reg.chipBootStatResult 3 else s.flashBoot
      if s.fox.latch then s.setMode .safeHold .fault
      else if s.image.isNone || strap = 1 || strap = 2 then s.setMode .configure .boot
      else (s.setMode .idle .boot).portsEnter)

/-! ### Modes by command (R498, R500) -/

/-- Every axis of the image is in one of some modes. -/
def State.axesIn (s : State) (ms : List AxMode) : Bool :=
  ((s.image.map Image.axes).getD []).all (fun c => ms.contains (s.axis c.axis).mode)
/-- The chip is in its L3 state. -/
def State.inL3 (s : State) : Bool := s.fox.states.any (fun x => x.level == 3)

/-- Every ring port that the image enables is INTACT or HEALED. -/
def State.ringsUp (s : State) : Bool :=
  (List.range s.ringCount).all (fun r => !s.bit Reg.xwCtrlEnable (ringBase r) || s.xw r = .intact || s.xw r = .healed)

/-- The rows of R498 that MODE_SET takes, by target code. -/
def State.mayMode (s : State) (target : Nat) : Bool :=
  match target with
  | 3 => decide (s.mode = .idle)
  | 4 => decide (s.mode = .idle)
  | 5 => (match s.mode with
      | .configure => s.image.isSome
      | .commission => s.axesIn [.off]
      | .armed => true
      | .standby => true
      | .safeHold => !s.inL3
      | _ => false)
  | 6 => decide (s.mode = .idle) && s.isA && s.lsp.imageOk
  | 7 => decide (s.mode = .idle) && s.ringsUp && s.woad.locked
  | _ => false

/-- A part leaves STANDBY by command. -/
def State.leaveStandby (s : State) : State :=
  s.unpair.portsEnter

/-- IDLE entered from SAFE_HOLD: ports that are OFF are started (R513). -/
def State.portsStart (s : State) : State :=
  (List.range s.ringCount).foldl (fun s r =>
    if s.xw r = .off && s.bit Reg.xwCtrlEnable (ringBase r) then (s.setRing r { s.ringSt r with started := true }).portRest r else s) s

/-- A mode entered by MODE_SET; COMMISSION begins at the next edge E (R497). -/
def State.modeSet (s : State) (target : Nat) : State :=
  match target with
  | 3 => (s.setMode .configure .command).portsEnter
  | 4 => s.setPower { s.power with entering := true }
  | 5 =>
    let old := s.mode
    let s := s.setMode .idle .command
    if old = .configure then s.portsEnter else if old = .standby then s.leaveStandby else if old = .safeHold then s.portsStart else s
  | 6 => s.enterStandby .command
  | 7 => (s.setPower { s.power with rearmed := false }).setMode .armed .command
  | _ => s

/-- MODE_SET. -/
def specModeSet : CmdSpec :=
  { opcode := 0x0101, rank := 4, named := [(0, 1)]
    bad := fun _ c => !decide (3 ≤ c.p8 0 ∧ c.p8 0 ≤ 7)
    mode := fun s c => !s.mayMode (c.p8 0)
    run := fun s c _ _ => ((s.setPower { s.power with entering := false }).modeSet (c.p8 0), {}) }

/-- RUN_CTRL at its cycle: one that finds the T256 in another mode is discarded, with a MODE entry (R498, R499). -/
def State.runCtrl (s : State) (start : Bool) : State :=
  if start then
    (if s.mode = .armed then (s.setLsp { s.lsp with tookOver := false }).setMode .run .command else s.ownEntry 0x00F1 [s.mode.code, s.mode.code, 0])
  else if (s.mode = .run || s.mode = .degraded) && s.axesIn [.off, .safe] then
    (s.setPower { s.power with rearmed := false }).setMode .armed .command
  else s.ownEntry 0x00F1 [s.mode.code, s.mode.code, 0]

/-- RUN_CTRL. -/
def specRunCtrl : CmdSpec :=
  { opcode := 0x0103, rank := 2, fenced := true, named := [(0, 1)]
    bad := fun _ c => decide (1 < c.p8 0)
    mode := fun s c => if c.p8 0 = 1 then decide (s.mode ≠ .armed) else decide (s.mode ≠ .run ∧ s.mode ≠ .degraded)
    effect := fun s c _ => s.runCtrl (c.p8 0 == 1) }

/-- REARM (R456). -/
def specRearm : CmdSpec :=
  { opcode := 0x0104, rank := 2
    mode := fun s _ => decide (s.mode ≠ .safeHold) || s.inL3
    run := fun s _ _ _ =>
      let s : State := { s with fox := { s.fox with latch := false }, power := { s.power with rearmed := true } }
      (s.setMode .armed .command, {}) }

/-- CFG_STATUS_GET. -/
def specCfgStatusGet : CmdSpec :=
  { opcode := 0x0200, query := true
    run := fun s _ _ _ => (s, .of (wordBytes (s.reg 0x300) ++ leBytes 8 ((s.image.map Image.check).getD 0#64).toNat)) }

/-- CFG_LOAD: the image is read from host memory. -/
def specCfgLoad : CmdSpec :=
  { opcode := 0x0201, rank := 4, later := true, named := [(0, 12)]
    mode := fun s _ => decide (s.mode ≠ .configure)
    run := fun s c _ _ => (s.emit (.hostRead (c.p64 0) (c.p32 8)), { wait := true }) }

/-- CFG_STORE. -/
def specCfgStore : CmdSpec :=
  { opcode := 0x0202, rank := 4, later := true, named := [(0, 1)]
    bad := fun _ c => decide (1 < c.p8 0)
    mode := fun s _ => decide (s.mode ≠ .configure)
    run := fun s _ _ _ => (s, { wait := true }) }

/-- PARAM_SAVE: the blocks as the last cycle-end fence left them. -/
def specParamSave : CmdSpec :=
  { opcode := 0x0203, rank := 4, later := true
    mode := fun s _ => decide (s.mode = .boot ∨ s.mode = .configure) || s.image.isNone
    run := fun s _ _ _ =>
      let blocks := ((s.image.map Image.axes).getD []).map (fun (c : AxisCfg) =>
        (c.axis, (List.range 128).map (fun k => Tab.get 0#32 (Tab.get ({} : AxisSt) s.axShown c.axis).params k)))
      (s.setPower { s.power with saving := some blocks }, { wait := true }) }

def execModeSet (r : CmdReq) (s : State) : Host.Outcome State Fault Refusal := .next (s.command specModeSet r)
def execRunCtrl (r : CmdReq) (s : State) : Host.Outcome State Fault Refusal := .next (s.command specRunCtrl r)
def execRearm (r : CmdReq) (s : State) : Host.Outcome State Fault Refusal := .next (s.command specRearm r)
def execCfgStatusGet (r : CmdReq) (s : State) : Host.Outcome State Fault Refusal := .next (s.command specCfgStatusGet r)
def execCfgLoad (r : CmdReq) (s : State) : Host.Outcome State Fault Refusal := .next (s.command specCfgLoad r)
def execCfgStore (r : CmdReq) (s : State) : Host.Outcome State Fault Refusal := .next (s.command specCfgStore r)
def execParamSave (r : CmdReq) (s : State) : Host.Outcome State Fault Refusal := .next (s.command specParamSave r)

/-- CFG_LOAD_COMPLETE (R503). A load that ends after CONFIGURE was left has no effect: placement and descriptors are read-only by then
(R126), and its reply is TIMEOUT (log entry 131). The image is as long as the command says. -/
def execCfgLoadComplete (f : ImageFile) (s : State) : Host.Outcome State Fault Refusal :=
  .next (match s.resultOf 0x0201 with
    | none => s
    | some x =>
      if s.mode ≠ .configure then s.finish x 0x09 {}
      else if f.bytes.length ≠ x.2.p32 8 || s.imageFail f ≠ 0 then s.finish x 0x0A {}
      else
        let s := s.setPower { s.power with source := some .host, file := some f }
        let s := (s.setFld Reg.chipBootStatResult 2).setFld Reg.chipBootStatUnsecured (bitN s.power.fuses.isNone)
        (s.loadImage (content f) false).finish x 0 {})

/-- A file written to an image slot. -/
def State.setSlot (s : State) (k : Nat) (x : ImageFile) : State :=
  { s with flash := if k = 0 then { s.flash with slot0 := some x } else { s.flash with slot1 := some x } }.emit
    (.flash (0x01000000 + 0x04000000 * k) x.bytes)

/-- The directory once a slot is stored: its generation is one above the other's. -/
def BootDir.store (d : BootDir) (k : Nat) : BootDir :=
  if k = 0 then { d with crcOk := true, gen0 := d.gen1 + 1#32, valid0 := true } else { d with crcOk := true, gen1 := d.gen0 + 1#32, valid1 := true }

/-- CFG_STORE_COMPLETE (R502): the slot, then both copies of the directory; on a failed read-back the slot cannot be read, and the
directory stays. -/
def execCfgStoreComplete (ok : Bool) (s : State) : Host.Outcome State Fault Refusal :=
  .next (match s.resultOf 0x0202 with
    | none => s
    | some x =>
      let k := x.2.p8 0
      match s.power.file with
      | none => s.finish x 0x0A {}
      | some f =>
        if !ok then (s.setSlot k { f with readOk := false }).finish x 0x0A {}
        else
          let d := s.flash.dir.store k
          let s := s.setSlot k f
          ({ s with flash := { s.flash with dir0 := d, dir1 := d } } : State).finish x 0 {})

/-- PARAM_SAVE_COMPLETE (R505): the buffer not loaded last; a save that failed leaves a buffer whose CRC-32C does not hold. -/
def execParamSaveComplete (ok : Bool) (s : State) : Host.Outcome State Fault Refusal :=
  .next (match s.resultOf 0x0203, s.power.saving with
    | some x, some blocks =>
      let last := s.power.bufLast
      let gen := bufGen (if last = 0 then s.flash.bufA else s.flash.bufB) + 1
      let b : ParamBuf := { gen := gen, crcOk := ok, check := (s.image.map Image.check).getD 0#64, axes := blocks }
      let f := if last = 0 then { s.flash with bufB := some b } else { s.flash with bufA := some b }
      let s : State := { s with flash := f, power := { s.power with saving := none, bufLast := if ok then 1 - last else last } }
      s.finish x (if ok then 0 else 0x0A) {}
    | _, _ => s)

/-! ### Resets of the chip (R506, R512) -/

/-- The registers that stay with the keeper: its windows, idle. -/
def State.keeperRegs (s : State) : List (Nat × Word) :=
  (s.regs.filter (fun e => decide (0x502000 ≤ e.1 ∧ e.1 < 0x502400))).filterMap (fun e =>
    if e.1 = 0x502044 ∨ e.1 = 0x502244 then (if e.2 &&& 0x7FFFFFFF#32 = 0#32 then none else some (e.1, e.2 &&& 0x7FFFFFFF#32)) else some e)

/-- The journal as a reset leaves it; what the mirror device holds stays. -/
def JnlSt.afterReset (j : JnlSt) (kept : Bool) : JnlSt :=
  if kept then { j with retained := true, mirrorErr := false, copying := false, lagHolds := false }
  else { frozen := j.frozen, vholdLow := j.vholdLow, mirror := j.mirror }

/-- The pins that a reset lets go (R351, R516), the latest first: PPS_OUT falls and BYPASS_N is released. -/
def State.resetPins (s : State) : List Output :=
  (if s.bypassN = some true then [.pin "BYPASS_N" false] else []) ++ (if s.time.ppsHigh then [.pin "PPS_OUT" false] else [])

/-- The entry of a change to RESET or OFF, written before it takes effect (R390, R498), where the retention holds one. A LEVEL_RESET is a
command; of the other causes R390 gives no code: a free value (log entry 126). -/
def State.downEntry (s : State) (m : Mode) (kind : Nat) : State :=
  let cause := if kind = 3 then 0 else s.freeW.toNat % 4
  let s := if kind = 3 then s else s.drew
  { if kind = 0 then s else s.ownEntry 0x00F1 [s.mode.code, m.code, cause] with modeCause := BitVec.ofNat 2 cause }

/-- Everything returns to its reset state but what R506 keeps of a reset of a kind, as in its BOOT entry. -/
def State.wiped (s : State) (kind : Nat) (hold : Bool) : State :=
  let kept := decide (kind ≠ 0)
  let p := s.power
  { State.reset with
    pending := s.pending
    variant := s.variant
    stepping := s.stepping
    mode := .reset
    modeCause := s.modeCause
    regs := if kept then s.keeperRegs else []
    host := if kept then { spiReply := s.host.spiReply } else {}
    jnl := s.jnl.afterReset kept
    fox := s.fox.afterReset kept
    flash := s.flash
    power := { kind := kind, fuses := p.fuses, vholdOk := p.vholdOk, pfailN := p.pfailN, holdReset := hold,
               lastDet := kept && p.lastDet, flushUs := if kept then p.flushUs else 0#16 }
    woad := if kind = 3 then s.woad else {}
    bypassSet := if kept then s.bypassSet else []
    sent := s.resetPins ++ s.sent
    freeCtr := s.freeCtr }

/-- A reset of the chip. -/
def State.toReset (s : State) (kind : Nat) (hold : Bool) : State := (s.downEntry .reset kind).wiped kind hold

/-- POWER_ON (R506, R509). -/
def execPowerOn (vholdHeld : Bool) (s : State) : Host.Outcome State Fault Refusal :=
  .next (if s.mode ≠ .off then s else s.toReset (if vholdHeld then 1 else 0) false)

/-- SUPPLY_LOSS (R498): what VHOLD retains is settled by the next power-on. -/
def execSupplyLoss (s : State) : Host.Outcome State Fault Refusal :=
  .next (if s.mode = .off then s else { (s.downEntry .off 1).wiped 1 false with mode := .off })

/-- PFAIL handling has nothing more to do (R508, R512): a cause that has gone holds the part in reset, a RESET_N still low takes effect. -/
def State.pfailOver (s : State) : State :=
  if !s.power.handling || !s.mirrorIdle then s
  else if s.power.released then s.toReset 1 true
  else if s.power.resetLow then s.toReset 2 false
  else s

/-- RESET_N_LOW (R506, R508). -/
def execResetNLow (s : State) : Host.Outcome State Fault Refusal :=
  .next (match s.mode with
    | .off | .reset => s
    | _ => if s.power.handling then (s.setPower { s.power with resetLow := true }).pfailOver else s.toReset 2 false)

/-- RESET_END (R390 to R392, R501, R506). -/
def execResetEnd (x : ResetPins) (s : State) : Host.Outcome State Fault Refusal :=
  .next (if s.mode ≠ .reset || s.power.holdReset then s
    else
      let strap := 2 * bitN x.bootMode1 + bitN x.bootMode0
      let s : State := { s with
        jnl := { s.jnl with frozen := !x.vholdOk, vholdLow := !x.vholdOk }
        power := { s.power with strap := BitVec.ofNat 2 strap, vholdOk := x.vholdOk }
        lsp := { s.lsp with pos := x.lspPos } }
      let s := s.setFld Reg.chipBootStatStrap strap
      let s := s.ownEntry 0x00F0 [s.power.kind]
      let s := s.setMode .boot .boot
      if strap = 3 then { s with chipWarn := true } else s)

/-! ### Power loss (R508, R510 to R512) -/

/-- PFAIL_DETECT; in RESET it still takes the outputs of a Woad that runs (R409). -/
def execPfailDetect (detector : Bool) (s : State) : Host.Outcome State Fault Refusal :=
  let s := if detector then s else s.setPower { s.power with pfailN := false }
  .next (match s.mode with
    | .off => s
    | .reset => { s with woad := { s.woad with pfail := true, so := 0#8 } }
    | _ =>
      if s.power.handling then { s with power := { s.power with released := false } }
      else
        let s := (s.setPower { s.power with handling := true, released := false, lastDet := detector }).ownEntry 0x00F2 [bitN detector]
        { s with jnl := { s.jnl with frozen := true }
                 woad := { s.woad with pfail := true, so := 0#8 } })

/-- PFAIL_RELEASE (R512). -/
def execPfailRelease (s : State) : Host.Outcome State Fault Refusal :=
  let s := s.setPower { s.power with pfailN := true }
  .next (if s.power.handling then (s.setPower { s.power with released := true }).pfailOver
    else { s with woad := { s.woad with pfail := false } })

/-- PFAIL_RESTORE_HOLD_EXPIRY (R512): RESET_END then boots. -/
def execPfailRestoreHoldExpiry (s : State) : Host.Outcome State Fault Refusal :=
  .next (if s.mode = .reset && s.power.holdReset && s.power.pfailN then s.setPower { s.power with holdReset := false, kind := 1 } else s)

/-- JOURNAL_MIRROR_WRITE (R394, R510). -/
def execJournalMirrorWrite (ok : Bool) (us : Nat) (s : State) : Host.Outcome State Fault Refusal :=
  .next (s.mirrorWrite ok us).pfailOver

/-! ### LEVEL_RESET of a unit (R29, R75, R454, R507) -/

/-- The cells and blocks of a unit. -/
def unitCells (level index : Nat) : List Nat :=
  match level with
  | 0 => [index]
  | 1 => (List.range 4).map (fun i => 4 * index + i)
  | _ => (List.range 16).map (fun i => 16 * index + i)
def unitBlocks (level index : Nat) : List Nat :=
  match level with
  | 0 => []
  | 1 => [index]
  | _ => (List.range 4).map (fun i => 4 * index + i)
/-- Its islands. -/
def unitIslands (level index : Nat) : List Nat :=
  (unitCells level index).map cellIsland ++ (unitBlocks level index).map blockIsland ++ (if level = 2 then [regionIsland index] else [])
/-- Its memories: start and length. -/
def unitMems (level index : Nat) : List (Nat × Nat) :=
  (unitCells level index).map (fun c => (cellBase c, 0x40000)) ++ (unitBlocks level index).map (fun b => (blockMem b, 0x100000))
    ++ (if level = 2 then [(regionBase index, 0x200000)] else [])
def inMems (ms : List (Nat × Nat)) (a : Nat) : Bool := ms.any (fun m => decide (m.1 ≤ a ∧ a < m.1 + m.2))

/-- A cell put under reset: what it ran and prefetched is gone, an item of its prefetch slot waits again. -/
def State.cellToReset (s : State) (n : Nat) : State :=
  let s := match (s.cell n).slot with | some r => s.giveBack r | none => s
  let s : State := { s with regs := s.regs.filter (fun (e : Nat × Word) => !decide (cellRegs n ≤ e.1 ∧ e.1 < cellRegs n + 0x40)) }
  s.setCell n { inReset := true }

/-- A block put under reset: its queues empty, the items of its channels are discarded. -/
def State.blockToReset (s : State) (b : Nat) : State :=
  let chs := (s.wics.filter (fun (w : WicDesc) => w.home == b)).map WicDesc.id
  let mine := fun (r : Ready) => match r.job with | .item w => chs.contains w.ch | .op _ => false
  let m := s.mad
  let chans := chs.foldl (fun t k => Tab.put {} t k { prio := ((s.wic k).map WicDesc.prio).getD 0 }) m.chans
  { s with mad := { m with queues := m.queues.filter (fun (e : Nat × QueueSt) => blockOfQueue e.1 != b), chans := chans
                           waiting := m.waiting.filter (fun r => !mine r) } }

/-- An axis whose kernel's state or parameters lay in a unit: the inner kernel's part, the outer kernel's part. -/
def AxisSt.innerReset (x : AxisSt) (ws : List (Nat × Word)) (cycle : Word) : AxisSt :=
  let p := ws.filter (fun e => decide (e.1 < 64)) ++ x.params.filter (fun e => decide (64 ≤ e.1))
  let y : AxisSt := { params := p }
  { y with since := cycle, i := { iLim := y.pw 19 }, o := x.o, ms := x.ms }
def AxisSt.outerReset (x : AxisSt) (ws : List (Nat × Word)) (cycle : Word) : AxisSt :=
  { x with params := x.params.filter (fun e => decide (e.1 < 64)) ++ ws.filter (fun e => decide (64 ≤ e.1)), o := { rc := { n0 := cycle } }, ms := [] }

/-- The axes of a unit's operations reloaded; `fromImage` tells whether the image's values come back. -/
def State.axesReload (s : State) (cells : List Nat) (fromImage : Bool) : State :=
  let words := fun a => if fromImage then paramTab (((s.axisCfg a).map AxisCfg.params).getD []) else []
  (s.ops.filter (fun d => cells.contains d.cell)).foldl (fun s d => match d.kernel with
    | .inner as => as.foldl (fun s a => s.setAxis a ((s.axis a).innerReset (words a) s.cycle)) s
    | .outer a => s.setAxis a ((s.axis a).outerReset (words a) s.cycle)
    | .custom => s) s

/-- The outputs of a cell of a unit, or of the region that is the unit. -/
def inUnit (level index : Nat) : Extent → Bool
  | .cell n => (unitCells level index).contains n
  | .region r => level == 2 && r == index
  | _ => false

/-- A unit put under LEVEL_RESET: what was undefined of its outputs ends. -/
def State.unitReset (s : State) (level index : Nat) : State :=
  let s := (unitIslands level index).foldl State.emptyChannel s
  let s := (s.endStates level index).define (inUnit level index)
  let s := (unitCells level index).foldl State.cellToReset s
  let s := (unitBlocks level index).foldl State.blockToReset s
  let s := if level = 2 then s.setDelay index {} else s
  let s := (unitIslands level index).foldl (fun s i => s.setIsland i { s.island i with inReset := true }) s
  let p := s.power
  (s.setPower { p with unitResets := p.unitResets.filter (fun u => u != (level, index)) ++ [(level, index)]
                       resuming := p.resuming.filter (fun u => u != (level, index)) }).note

/-- A unit of a level that R25 numbers; one that the variant has. -/
def levelRange (level : Nat) : Nat := match level with | 0 => 64 | 1 => 16 | 2 => 4 | 3 => 1 | _ => 0
def State.levelHas (s : State) (level : Nat) : Nat := match level with | 0 => s.cellCount | 1 => s.blocks | 2 => s.regions | _ => 1

/-- LEVEL_RESET (R379, R383, R506 to R508): answered before it acts. -/
def specLevelReset : CmdSpec :=
  { opcode := 0x0002, rank := 3, always := true, unheld := true, early := true, named := [(0, 2)]
    absent := fun s c => decide (c.p8 0 < 3 ∧ s.levelHas (c.p8 0) ≤ c.p8 1 ∧ c.p8 1 < levelRange (c.p8 0))
    bad := fun _ c => decide (levelRange (c.p8 0) ≤ c.p8 1)
    run := fun s c _ _ =>
      (if s.power.handling then s else if c.p8 0 = 3 then s.toReset 3 false else s.unitReset (c.p8 0) (c.p8 1), {}) }

def execLevelReset (r : CmdReq) (s : State) : Host.Outcome State Fault Refusal := .next (s.command specLevelReset r)

/-- LEVEL_RESET_UNIT_END (R507): memories from the slot the part booted from, zeros when the image came from the host. -/
def execLevelResetUnitEnd (level index : Nat) (s : State) : Host.Outcome State Fault Refusal :=
  .next (if !s.power.unitResets.contains (level, index) then s
    else
      let ms := unitMems level index
      let slot := match s.power.source with | some (.slot _) => true | _ => false
      let s : State := { s with ram := s.ram.filter (fun c => !inMems ms c.1), flip1 := s.flip1.filter (fun a => !inMems ms a)
                                flip2 := s.flip2.filter (fun a => !inMems ms a) }
      let img := if slot then s.image else none
      let s := s.loadMem (((img.map Image.mem).getD []).filter (fun e => inMems ms e.1))
      let s := if slot then s.placeDescsIn (fun d => inMems ms (opPlace d)) else s
      let s := s.loadRegs (((img.map Image.regs).getD []).filter (fun e =>
        (unitCells level index).any (fun c => decide (cellRegs c ≤ e.1 ∧ e.1 < cellRegs c + 0x40))))
      let s := s.axesReload (unitCells level index) slot
      let p := s.power
      s.setPower { p with unitResets := p.unitResets.filter (fun u => u != (level, index)), resuming := p.resuming ++ [(level, index)] })

/-- Units whose reload has ended resume at an edge E. -/
def State.resumeUnits (s : State) : State :=
  let us := s.power.resuming
  let s := s.setPower { s.power with resuming := [] }
  us.foldl (fun s u =>
    let s := ((unitCells u.1 u.2).filter (fun c => !s.cellDown c)).foldl (fun s c => s.setCell c { s.cell c with inReset := false }) s
    (unitIslands u.1 u.2).foldl (fun s i => s.setIsland i { s.island i with inReset := decide (s.downUnits.any (fun v =>
      (unitIslands v.1 v.2).contains i)) }) s) s

/-! ### Ports of the keeper -/

/-- KPR_GO_WRITE (R381). -/
def execKprGoWrite (w : RegWrite) (s : State) : Host.Outcome State Fault Refusal :=
  let f := (w.off - 0x502040) / 0x200
  .next (s.ownWrite w (w.off == 0x502040 || w.off == 0x502240) (fun s => s.keeperGo specLevelReset f w.data))

/-- SPI_CMD (R384 to R386). -/
def execSpiCmd (p : Packet) (s : State) : Host.Outcome State Fault Refusal :=
  let c := CmdIn.ofPacket .spi p.bytes none
  .next (match s.arrive .spi c.tag with
    | (s, none) => s
    | (s, some _) => s.keeperIn specLevelReset c)

/-- REGISTER_WRITE: any register; one that has a row of its own acts as that row does. -/
def execRegisterWrite (w : RegWrite) (s : State) : Host.Outcome State Fault Refusal :=
  if w.off = 0x502040 ∨ w.off = 0x502240 then execKprGoWrite w s else s.bar0Write w

/-! ### Supplies, temperature, islands, JTAG -/

/-- One class of temperature after a reading: raised at its onset and once a millisecond, ten readings, until every sensor lies 5 °C
below its threshold (R532). -/
def thermalStep (thr : Int) (temps : List Int) (x : Option Nat) : Option Nat × Bool :=
  let at_ := temps.any (fun t => decide (thr ≤ t))
  let near := temps.any (fun t => decide (thr - 5 < t))
  match x with
  | none => if at_ then (some 0, true) else (none, false)
  | some n => if !near then (none, false) else if 9 ≤ n then (some 0, true) else (some (n + 1), false)

/-- THERMAL_SENSOR_READ. -/
def execThermalSensorRead (temps : List Int) (s : State) : Host.Outcome State Fault Refusal :=
  .next (if !s.awake then s
    else
      let a := thermalStep 140 temps s.power.warm
      let b := thermalStep 150 temps s.power.hot
      let s := s.setPower { s.power with warm := a.1, hot := b.1 }
      let s := if a.2 then s.raise 0xE5 1 0 0 else s
      if b.2 then s.raise 0xE6 3 0 0 else s)

/-- SUPPLY_OUT_OF_RANGE (R520): with a power loss in the same keeper clock the loss comes first, and SUPPLY changes no mode. -/
def execSupplyOutOfRange (powerLost : Bool) (s : State) : Host.Outcome State Fault Refusal :=
  if !s.awake then .next s
  else if !powerLost then .next (s.raise 0xE7 3 0 0)
  else
    match execPfailDetect true s with
    | .next t =>
      let u := t.foxRaise ⟨0xE7, 3, ⟨0, 0⟩⟩ false 3
      .next { u with mode := t.mode, modeCause := t.modeCause, modeCycle := t.modeCycle }
    | o => o

/-- ISLAND_LOCK_LOSS and ISLAND_LOCK_REGAINED (R26, R446). -/
def execIslandLockLoss (island : Nat) (s : State) : Host.Outcome State Fault Refusal :=
  .next (if !s.awake || !s.islandPresent island || !(s.island island).locked then s
    else
      let x := s.island island
      (s.setIsland island { x with locked := false, lockLosses := BitVec.ofNat 8 (satAdd x.lockLosses.toNat 1 255) }).raise 0xE2 1 10 island)
def execIslandLockRegained (island : Nat) (s : State) : Host.Outcome State Fault Refusal :=
  .next (if !s.awake || !s.islandPresent island then s else s.setIsland island { s.island island with locked := true })

/-- The bits of IDCODE, least significant first, out of TDO. -/
def State.shiftOut (s : State) (w : Word) : Nat → State
  | 0 => s
  | k + 1 => State.shiftOut (s.emit (.pin "TDO" (w.getLsbD (31 - k)))) w k

/-- JTAG_INSTRUCTION (R45, R529): debug access to an island halts a cell; in ARMED, RUN and DEGRADED it is UB_16, which
reaches the whole part but what R9 keeps. -/
def execJtagInstruction (j : JtagInstr) (s : State) : Host.Outcome State Fault Refusal :=
  if s.mode = .off then .next s
  else
    match j with
    | .bypass | .sample | .extest => .next s
    | .idcode => .next (s.shiftOut (BitVec.ofNat 32 (s.stepping.toNat % 16 * 2 ^ 28 + 0x07256A73)) 32)
    | .debug i =>
      let s := if s.mode = .armed ∨ s.mode = .run ∨ s.mode = .degraded then s.undefine .chip else s
      if i < s.cellCount then .next (s.setCell i { s.cell i with halted := true })
      else .next s

end Sys2Proof.Machine
end

