-- ==== Sys2Proof/Machine/Cycle.lean ====
section
/-! DEFINITION. The control cycle: what happens at edge E and at the cycle-end fence (R37), the command processor's turn (R369, R370),
cycles that replay (R159, R160) and a synchronising standby (R435) run, and the entries an active forwards (R431).
Log: DEDUCED 72, 74, 112, 113, 136, 137, 138, 139, 145, 193, 194, 199. DESIGN CHOICE 50, 140, 141, 195, 219. -/

namespace Sys2Proof.Machine

/-! ### Every command by its opcode (R378) -/

/-- The defined commands, JOURNAL_READ apart. -/
def specsA : List CmdSpec :=
  [specPing, specStatusGet, specLevelReset, specBypassSet, specModeGet, specModeSet, specSafeStop, specRunCtrl, specRearm,
   specCfgStatusGet, specCfgLoad, specCfgStore, specParamSave, specAxisModeSet, specAxisParamSet, specAxisParamGet,
   specAxisStatusGet, specAxisReset, specAxisCurRef, specMotionTarget, specMotionParamSet, specMotionParamGet,
   specMotionStatusGet, specMotionPosGet, specRcCtrl, specMicrostepTableSet]
def specsB : List CmdSpec :=
  [specRingStatusGet, specRingAsyncPost, specRingResetBcast, specRingClaimSet, specRingSlotRelease, specRingReclose,
   specTimeStatusGet, specTimeSet, specFaultRead, specFaultAck, specIndStatusGet, specIndStart, specIndStop, specIndArm,
   specIndMark, specTwinStatusGet, specTwinSwitch, specTwinSync, specTwinInhibit]
def specsC : List CmdSpec :=
  [specSafetyStatusGet, specSafetyCrcGet, specSafetyConfirm, specSafetyReset, specSafetyUnlock, specLgStatusGet,
   specLgFaultClear, specAdcCalPoint, specFbPosSet, specDmaStatusGet, specMemCheck, specWorkSubmit, specWorkCancel,
   specWorkComplRead, specMailboxPost, specSnapshot]

/-- The specification of a command; `none` for an undefined opcode. -/
def specOf (c : CmdIn) : Option CmdSpec :=
  if c.opcode = 0x0700 then some (specJournalRead (c.p8 9 == 1))
  else (specsA ++ specsB ++ specsC).find? (fun k => k.opcode == c.opcode)

/-! ### The command processor (R369, R370) -/

/-- Whose turn it is: the first source after the one served last that has a command waiting. -/
def State.nextTurn (s : State) : Option Nat :=
  ((List.range 71).map (fun i => (s.host.turn + 1 + i) % 71)).find? (fun k => s.host.waiting.any (fun w => w.src == k))

/-- A command taken: an undefined opcode is turned away once its check value holds (R15, R370). -/
def State.takeCommand (s : State) (w : Waiting) : State :=
  match w.item with
  | some p => s.takeItemPost w p
  | none =>
    match specOf w.cmd with
    | some k => s.process k w.cmd
    | none => s.turnAway w.cmd (if w.cmd.tested && !w.cmd.checkOk then 0x0A else 0x02)

/-- COMMAND_PROCESS: the oldest command of the source whose turn it is. -/
def execCommandProcess (s : State) : Host.Outcome State Fault Refusal :=
  .next (if !s.awake then s
    else match s.nextTurn with
      | none => s
      | some k => match s.host.waiting.find? (fun w => w.src == k) with
        | none => s
        | some w =>
          (({ s with host := { s.host with waiting := s.host.waiting.erase w } } : State).taken k).takeCommand w)

/-! ### Entry into RUN and COMMISSION (R137, R497) -/

/-- The seeds of a queue with a lag. -/
def State.seed (s : State) (d : QDesc) : State :=
  (List.range d.lag).foldl (fun s i => s.pushHold d.id (s.cycle + BitVec.ofNat 32 i)) s

/-- The state block of a cell's own operation, loaded from the image. -/
def State.reloadOp (s : State) (d : OpDesc) : State :=
  match d.kernel with
  | .custom =>
    let lo := xAddr d.cell d.state
    let hi := xAddr d.cell (d.state + s.stateLen d)
    s.loadMem (((s.image.map Image.mem).getD []).filterMap (fun (e : Nat × List Byte) =>
      if e.1 < hi ∧ lo < e.1 + e.2.length then some (max e.1 lo, (e.2.take (hi - e.1)).drop (lo - e.1)) else none))
  | .inner _ => s
  | .outer _ => s

/-- The first cycle of RUN or COMMISSION (R497). But for the state that REARM keeps, every entry into RUN is the same state (R156): a LATCH
mailbox then has no last value. -/
def State.enterGraphs (s : State) (kept : Bool) : State :=
  let c := s.cycle
  let s := s.setReg Reg.madRunCycle.off c
  let qs := Tab.mapVals {} (fun (x : QueueSt) =>
    { x with toks := [], wr := 0, lastGood := [], done := none, lastVal := if kept then x.lastVal else none }) s.mad.queues
  let s : State := { s with mad := { s.mad with queues := qs }, rings := Tab.mapVals {} (fun (y : RingSt) => { y with prev := [] }) s.rings }
  let s := s.numberedOps.foldl (fun s (e : Nat × OpDesc) => (s.unslot e.1 e.2).setOp e.1 { next := c }) s
  let s : State := { s with axes := Tab.mapVals {} (fun (x : AxisSt) => x.runEntry c kept) s.axes }
  let s := if kept then s else s.ops.foldl State.reloadOp s
  s.qdescs.foldl State.seed s

/-! ### Mailboxes (R152, R153) -/

/-- A mailbox at edge E of a cycle: the pending entries of that cycle are delivered, the last of them wins. Its token goes to
graphs that fire. -/
def State.deliverBox (s : State) (c : Word) (d : QDesc) : State :=
  let x := s.queue d.id
  let due := x.posts.filter (fun (p : Post) => decide (p.apply = c))
  let s := s.setQueue d.id { x with posts := x.posts.filter (fun (p : Post) => !decide (p.apply = c)),
                                    lastVal := if due.isEmpty then x.lastVal else due.getLast?,
                                    mbSup := satAdd x.mbSup (due.length - 1) 255 }
  if !s.graphsFire then s
  else match (if due.isEmpty && d.eventMb then none else (s.queue d.id).lastVal) with
    | some p => s.push d.id ⟨c, false, false, p.apply :: p.words⟩
    | none => s.pushHold d.id c

/-- Every mailbox. -/
def State.deliverBoxes (s : State) (c : Word) : State :=
  (s.qdescs.filter (fun d => d.kind == 3)).foldl (fun s d => s.deliverBox c d) s

/-! ### Edge E (R336, R374, R377) -/

/-- The cycle-fenced commands of a cycle take effect, in journal order. -/
def State.fencedEffects (s : State) (c : Word) : State :=
  let due := s.host.fenced.filter (fun f => !cycLater f.cycle c)
  let s : State := { s with host := { s.host with fenced := s.host.fenced.filter (fun f => cycLater f.cycle c) } }
  due.foldl (fun s (f : Fenced) => match specOf f.cmd with
    | some k => k.effect s f.cmd f.cycle
    | none => s) s

/-- A SOURCE queue that neither an axis nor a feedback interface feeds: the time unit does (R131). -/
def State.timeQueue (s : State) (d : QDesc) : Bool :=
  d.kind == 1 && !((s.image.map Image.axes).getD []).any (fun c => c.srcQ == d.id)
    && !((s.image.map Image.fbExt).getD []).any (fun e => e.2 == d.id)

/-- The tokens of the time unit at edge E (R141): the spec gives no payload, which is free. -/
def State.timeSources (s : State) : State :=
  (s.qdescs.filter s.timeQueue).foldl (fun s d => (s.drewN d.words).liveSource timePort d.id s.cycle (some (s.freeWords d.words))) s

/-- RUN or COMMISSION entered at this edge: RUN by a command of the cycle, COMMISSION by an earlier MODE_SET; DEGRADED at once while a
region is in its L2 state. -/
def State.edgeModes (s : State) (was : Mode) : State :=
  let s := if s.power.entering then
      let s := s.setPower { s.power with entering := false }
      if s.mode = .idle then ((s.setMode .commission .command).enterGraphs false) else s
    else s
  if s.mode = .run && was = .armed then
    let s := s.enterGraphs s.power.rearmed
    if s.regionL2 then s.setMode .degraded .fault else s
  else s

/-- Tokens of past cycles are no longer kept for the digest, the snapshot and the standby. -/
def State.dropTokens (s : State) (c : Word) : State :=
  { s with mad := { s.mad with samples := s.mad.samples.filter (fun r => cycGe r.tok.cycle c)
                               sinks := s.mad.sinks.filter (fun r => cycGe r.tok.cycle c) } }

/-- The graphs at edge E: commands of the cycle, modes, mailboxes, the time unit's tokens. -/
def State.graphEdge (s : State) : State :=
  let was := s.mode
  if s.catchingUp then s
  else
    let s := (s.fencedEffects s.cycle).edgeModes was
    if s.mad.replay.running then s else ((s.dropTokens s.cycle).deliverBoxes s.cycle).timeSources.note

/-- The loop groups at edge E. -/
def State.loopEdges (s : State) : State := { s with loops := Tab.mapVals {} LoopSt.edge s.loops }

/-- A replay under way sees edge E (R160). -/
def ReplaySt.atEdge (r : ReplaySt) : ReplaySt := { r with edge := r.running }

/-- CYCLE_EDGE: edge E of the next cycle. -/
def execCycleEdge (s : State) : Host.Outcome State Fault Refusal :=
  .next (match s.edgeAt (s.cycle + 1#32) with
    | none => s
    | some e =>
      let s := s.advanceTo e
      let s := State.rebase { s with cycle := s.cycle + 1#32, mad := { s.mad with replay := s.mad.replay.atEdge } }
      let s := s.lspLeaves.graphEdge.localEdge
      let s := (List.range s.ringCount).foldl State.ringEdge s
      s.loopEdges.woadEdge.lspEdge.indEdge.resumeUnits)

/-! ### The cycle-end fence (R37, R39, R158, R427, R433) -/

/-- The digest of a cycle. -/
def State.digestOf (s : State) (c : Word) : BitVec 64 :=
  let recs := (s.mad.sinks.filter (fun r => decide (r.tok.cycle = c))).mergeSort (fun a b => decide (a.queue ≤ b.queue))
  BitVec.ofNat 64 (crc64 (recs.flatMap (fun r => wordBytes r.tok.cycle ++ wordBytes (BitVec.ofNat 32 (tokFlags r.tok)) ++ bytesOfWords r.tok.words)))

/-- Madder computes digests: by its own control, and on both parts of a pair. -/
def State.digests (s : State) : Bool := s.bit Reg.madCtrlDigestEn || decide (s.lsp.role ≠ .unpaired)

/-- The digest of a cycle computed. -/
def State.putDigest (s : State) (c : Word) : State :=
  if s.digests then { s with mad := { s.mad with digest := s.digestOf c, digestCycle := c } } else s

/-- The commands that no launch of the cycle has taken leave their queues. -/
def State.discardSinks (s : State) (c : Word) : State :=
  (s.qdescs.filter (fun d => d.kind == 2)).foldl (fun s d => s.popUpTo d.id c) s

/-- Holds for the sides of the rings that had no SAMPLE_DUE in the cycle (R141); a running port counts what it missed (R539). -/
def State.ringLate (s : State) : State :=
  (List.range s.ringCount).foldl (fun s r => [Side.east, Side.west].foldl (fun s x =>
    if (s.ringSt r).due x then s
    else (s.setRing r ((s.ringSt r).setDue x)).dueSide r x (s.xwRuns r)) s) s

/-- Holds for the local axes where no record was due in the cycle, and for the interfaces whose frame has not come (R141). -/
def State.localLate (s : State) : State :=
  let s := if s.adc.sent then s else (List.range 8).foldl (fun s k => s.axisToken adcPort (256 + k) none) s
  (List.range 8).foldl (fun s k => if (s.fb k).passed then (s.setFb k { s.fb k with passed := false }).fbExt k false else s) s

/-- Every unit has given its tokens of the cycle at the fence. -/
def State.lateSides (s : State) : State := if s.catchingUp then s else s.ringLate.localLate

/-- The graphs' part of the fence of a cycle. -/
def State.graphFence (s : State) (c : Word) : State :=
  if !s.graphsFire then s.putDigest c
  else ((s.opFences c).putDigest c).discardSinks c

/-- A snapshot of the cycle holds the fabric as the fence leaves it (R40). -/
def State.snapNow (s : State) (c : Word) : State :=
  match s.mad.snap with
  | some x => if x.bytes.isNone && decide (x.cycle = c) then s.readBlocks.setSnap (some { x with bytes := some (s.snapBytes x) }) else s
  | none => s

/-- The bodies of the frames of a state copy (R424, R429): each carries 248 bytes of data, the last filled up with zeros. -/
def copyFrames (size : Nat) : Nat → Nat → List Byte → List (List Byte)
  | 0, _, _ => []
  | k + 1, off, bs => (leBytes 4 off ++ leBytes 4 size ++ slice bs 0 248) :: copyFrames size k (off + 248) (bs.drop 248)

/-- What an active sends at the fence (R427). -/
def State.sendFence (s : State) : State :=
  if s.lsp.role ≠ .active || !s.lsp.linkUp then s
  else
    let s := s.sendTwin 5 s.cycle (leBytes 8 s.mad.digest.toNat)
    let bs := bytesOfWords s.copyWords
    (copyFrames bs.length ((bs.length + 247) / 248) 0 bs).foldl (fun s b => s.sendTwin 4 s.cycle b) s.readBlocks

/-- What a standby in step compares at the fence (R433): its digest, and the check value of its own copy. -/
def State.compareFence (s : State) (c : Word) : State :=
  if s.mode ≠ .standby || s.lsp.sync ≠ .inStep then s
  else
    let s := s.digestTest
    let own := BitVec.ofNat 64 (crc64 (bytesOfWords s.copyWords))
    (s.readBlocks.setLsp { s.lsp with own := some (c, own) }).copyTest

/-- The fence of a replayed cycle (R160). -/
def State.replayFence (s : State) : State :=
  let p := s.mad.replay
  let c := s.reg Reg.madReplayAt.off
  if !p.busy then (if p.abort then s.replayStop false else s)
  else
    let s := (s.graphFence c).snapNow c
    let differs := match p.ref with
      | some d => s.bit Reg.madReplayCtrlStopOnMismatch && decide (d ≠ s.digestOf c)
      | none => false
    if differs || p.abort then s.replayStop false
    else if c = s.reg Reg.madReplayTo.off then { s.setFld Reg.madReplayStatState 2 with mad := { s.mad with replay := {} } }
    else { s with mad := { s.mad with replay := { p with busy := false, ref := none } } }


/-! ### Journal entries applied elsewhere (R160, R431, R435) -/

/-- The command of an entry; no port waits for its reply. -/
def entryCmd (e : JEntry) : CmdIn :=
  { port := .workItem e.index.toNat, opcode := e.opcode.toNat, irq := false, chk := false, at_ := e.at_, tag := 0#16
    apply := e.cycle, checkOk := true, param := e.param }

/-- An entry put into effect at a cycle in replay: those of the axis and motion groups and mailbox posts act on the control fabric, the
others are skipped. -/
def State.replayEntry (s : State) (c : Word) (e : JEntry) : State :=
  let g := e.opcode.toNat / 256
  if g ≠ 3 && g ≠ 4 && e.opcode ≠ 0x0D13#16 then s
  else match specOf (entryCmd e) with
    | some k => if k.query then s else if k.fenced then k.effect s (entryCmd e) c else (k.run s (entryCmd e) e.seq c).1
    | none => s

/-- The groups a standby records only. -/
def recordedOnly (op : Nat) : Bool := [0, 1, 6, 7, 8, 10].contains (op / 256)

/-- A forwarded entry is applied, by the standby, at its cycle of effect: a cycle-fenced command waits for it. -/
def State.applyEntry (s : State) (e : JEntry) : State :=
  if recordedOnly e.opcode.toNat then s
  else match specOf (entryCmd e) with
    | none => s
    | some k =>
      let s : State := if k.later then s.awaitResult e.seq (entryCmd e) e.cycle else s
      if k.query then s
      else if k.fenced && !k.post then
        { s with host := { s.host with fenced := s.host.fenced ++ [{ cmd := entryCmd e, cycle := e.cycle, seq := e.seq }] } }
      else if k.fenced then k.effect s (entryCmd e) e.cycle
      else (k.run s (entryCmd e) e.seq e.cycle).1

/-- The frames that a synchronising standby holds for its catch-up begin with the copy of the cycle whose fence passes. The entries before it
are applied: the copy has their effect on the graphs, but not the parameters they set (R428, R431). -/
def State.syncFence (s : State) : State :=
  if s.lsp.sync = .syncing && !s.lsp.loaded then s.lsp.heldJnl.foldl State.applyEntry (s.setLsp { s.lsp with heldJnl := [] }) else s

/-- CYCLE_END_FENCE. A replay that is not paced has its fence without regard to the instant (R160). -/
def execCycleEndFence (s : State) : Host.Outcome State Fault Refusal :=
  .next (if !s.edgesRun then s
    else
      let free := s.mad.replay.running && !s.bit Reg.madReplayCtrlPaced
      let s := if free then s else s.toInstant s.timing.tEnd
      let s := if s.mad.replay.running then s.replayFence
        else if s.catchingUp then s.syncFence
        else ((s.judgeCycle.lateSides.graphFence s.cycle).snapNow s.cycle).sendFence.compareFence s.cycle
      if free then s else { s with axShown := s.axes, axCycle := s.cycle })

/-- The inhibit of the partner's TWIN_INHIBIT. -/
def State.applyTwin (s : State) (e : JEntry) : State :=
  if e.opcode = 0x0A03#16 then s.setFld Reg.lspCtrlInhibit ((entryCmd e).p8 0 % 2) else s

/-- TWIN_JOURNAL_RECEIVE (R427, R431): a standby writes the entry into its own journal under its own number, keeping the rest,
acknowledges it and applies it; either part applies its partner's twin-group entries. -/
def execTwinJournalReceive (e : JEntry) (s : State) : Host.Outcome State Fault Refusal :=
  .next (if !s.isA || !s.awake || !s.lsp.linkUp then s
    else if s.mode ≠ .standby then s.applyTwin e
    else if !s.jnlOpen then s
    else
      let s := State.mirrorTest { s with jnl := s.jnl.add { e with seq := s.jnl.head + 1 } }
      let s := (s.sendTwin 6 s.cycle (leBytes 8 e.seq)).applyTwin e
      match s.lsp.sync with
      | .inStep => s.applyEntry e
      | .syncing => s.setLsp { s.lsp with heldJnl := s.lsp.heldJnl ++ [e] }
      | .none => s.applyEntry e)

/-! ### Synchronisation (R435) -/

/-- The held entries up to a recomputed cycle are applied; those of cycle-fenced commands wait for their own. -/
def State.heldEntriesNow (s : State) (c : Word) : State :=
  let now := fun (e : JEntry) => ((specOf (entryCmd e)).map CmdSpec.fenced).getD false || !cycLater e.cycle c
  let go := s.lsp.heldJnl.filter now
  go.foldl State.applyEntry (s.setLsp { s.lsp with heldJnl := s.lsp.heldJnl.filter (fun e => !now e) })

/-- The mirrored token of a SOURCE queue for a recomputed cycle. -/
def State.heldToken (s : State) (c : Word) (q : Nat) : Option Token :=
  (s.lsp.heldToks.find? (fun (r : TokenRec) => r.queue == q && decide (r.tok.cycle = c))).map TokenRec.tok

/-- The SOURCE queues of a recomputed cycle: mirrored tokens, and holds where none came. -/
def State.heldSources (s : State) (c : Word) (holds : Bool) : State :=
  (s.qdescs.filter (fun d => d.kind == 1)).foldl (fun s d => match s.heldToken c d.id with
    | some t => s.push d.id t
    | none => if holds then s.pushHold d.id c else s) s

/-- Holds of the live cycle for what was due before the standby came to be in step. -/
def State.dueHolds (s : State) : State :=
  let s := (List.range s.ringCount).foldl (fun s r => [Side.east, Side.west].foldl (fun s x =>
    if (s.ringSt r).due x then s.sideHolds r [] false (s.path r x ++ s.lost r x) else s) s) s
  if s.adc.sent then (List.range 8).foldl (fun s k => s.axisToken adcPort (256 + k) none) s else s

/-- The recomputed cycle under way passes its fence. -/
def State.closeCaught (s : State) : State :=
  if s.lsp.catching then s.graphFence s.catchCycle else s

/-- SYNC_CATCH_UP_CYCLE: the fence of the cycle before, then the next recomputed cycle; at the live cycle the standby is in step. -/
def execSyncCatchUpCycle (s : State) : Host.Outcome State Fault Refusal :=
  .next (if s.mode ≠ .standby || s.lsp.sync ≠ .syncing || !s.lsp.loaded || decide (128 ≤ s.lsp.caught) then s
    else
      let s := s.closeCaught
      let c := s.catchCycle + 1#32
      if cycLater c s.cycle then s.setLsp { s.lsp with catching := false }
      else
        let live := decide (c = s.cycle)
        let s := s.setLsp { s.lsp with caught := s.lsp.caught + 1, catching := true }
        let s := ((((s.heldEntriesNow c).fencedEffects c).dropTokens c).deliverBoxes c).heldSources c (!live)
        let s := s.setLsp { s.lsp with heldToks := s.lsp.heldToks.filter (fun (r : TokenRec) => cycLater r.tok.cycle c) }
        if live then
          let s := s.setLsp { s.lsp with sync := .inStep, catching := false, loaded := false, heldToks := [], heldJnl := []
                                         bad := false, digOk := false, copyOk := false, lateOp := none
                                         cmdSeen := [], cmdBad := false, cmdOk := false }
          ({ s with ind := { s.ind with suspended := false } } : State).dueHolds.note
        else s.note)

/-! ### Replay cycles (R159, R160) -/

/-- A snapshot as R165 lays it out: its magic, both check values and the image it belongs to. -/
def State.snapFits (s : State) (bs : List Byte) : Bool :=
  let body := slice bs 64 (numAt bs 16 4 + numAt bs 20 4)
  decide (numAt bs 0 4 = 0x72565350 ∧ numAt bs 8 8 = ((s.image.map Image.check).getD 0#64).toNat
    ∧ numAt bs 60 4 = crc32c (bs.take 60) ∧ numAt bs (64 + body.length) 8 = crc64 body)

/-- The pending posts of a mailbox that a snapshot gives, and the MAILBOX_POSTs of the journal extract that formed them: as many as are
pending for an apply cycle, the first in journal order. -/
def State.formedPosts (s : State) (js : List JEntry) (q : Nat) : List Nat :=
  let ps := (s.queue q).posts
  let of_ := fun (e : JEntry) => decide (e.opcode = 0x0D13#16) && (entryCmd e).p16 0 == q
  ((ps.map Post.apply).eraseDups).flatMap (fun a =>
    ((js.filter (fun e => of_ e && decide (e.cycle = a))).take (ps.filter (fun p => decide (p.apply = a))).length).map JEntry.seq)

/-- The state a replay begins from (R40, R159): the snapshot's with its pending mailbox posts, its other pending commands left to the
journal extract; or entry into RUN at the first cycle. Operations that run go on (log entry 219). `none` when the
snapshot does not hold. -/
def State.replayFrom (s : State) (bs : List Byte) (js : List JEntry) : Option State :=
  let first := s.reg Reg.madReplayFrom.off
  if s.reg 0x1000D8 = 0#32 && s.reg 0x1000DC = 0#32 then
    let live := s.cycle
    let s := State.enterGraphs { s with cycle := first } false
    some { s with cycle := live }
  else if s.snapFits bs then
    let f := s.host.fenced
    let s := s.loadCopy (first - 1#32) (slice bs 64 (numAt bs 16 4))
    let s := (s.qdescs.filter (fun d => !d.hostPost)).foldl (fun s d => s.setQueue d.id { s.queue d.id with posts := [] }) s
    let done := ((s.qdescs.filter QDesc.hostPost).map QDesc.id).flatMap (s.formedPosts js)
    some { s with host := { s.host with fenced := f }, mad := { s.mad with replay := { s.mad.replay with formed := done } } }
  else none

/-- The records of a cycle keep R159. -/
def State.recordsOk (s : State) (c : Word) : List TokenRec → Bool
  | [] => true
  | r :: rest =>
    decide (r.tok.cycle = c) && ((s.qdesc r.queue).map (fun d => d.kind == 1)).getD false
      && (match rest with | [] => true | x :: _ => decide (r.queue < x.queue)) && State.recordsOk s c rest

/-- The SOURCE queues of a replayed cycle. -/
def State.replaySources (s : State) (c : Word) (rs : List TokenRec) : State :=
  (s.qdescs.filter (fun d => d.kind == 1)).foldl (fun s d => match rs.find? (fun (r : TokenRec) => r.queue == d.id) with
    | some r => s.push d.id r.tok
    | none => s.pushHold d.id c) s

/-- The digest listed for a cycle. -/
def State.replayRef (s : State) (c : Word) (d : Option (BitVec 64)) : Option (BitVec 64) :=
  if s.reg 0x1000E0 = 0#32 && s.reg 0x1000E4 = 0#32 then none
  else if (c - s.reg Reg.madReplayFrom.off).toNat < s.fld Reg.madReplayRefLen then d else none

/-- The cycle in which an entry was journaled, by its time stamp on the grid of R336. -/
def State.cycleOfEntry (s : State) (e : JEntry) : Word :=
  let t : Int := (e.tS.toNat * 1000000000 + e.tNs.toNat : Nat)
  BitVec.ofInt 32 ((s.time.n0.toNat : Int) + (t - (s.time.t0.getD 0 : Int) * 1000000000) * (s.rate : Int) / 1000000000)

/-- The MAILBOX_POSTs of the extract that are formed before edge E of a replayed cycle: those journaled by then, and at the latest those of
the cycle itself (R164; log entry 199). -/
def State.replayPosts (s : State) (c : Word) (js : List JEntry) : State :=
  let due := js.filter (fun e => decide (e.opcode = 0x0D13#16) && cycGe e.cycle c && !s.mad.replay.formed.contains e.seq
    && (decide (e.cycle = c) || cycLater c (s.cycleOfEntry e)))
  let s := due.foldl (fun s e => s.replayEntry e.cycle e) s
  { s with mad := { s.mad with replay := { s.mad.replay with formed := s.mad.replay.formed ++ due.map JEntry.seq } } }

/-- The next cycle of a replay that has begun. -/
def State.replayNext (s : State) (c : Word) (inp : ReplayIn) : State :=
  let s := s.setReg Reg.madReplayAt.off c
  if !inp.inOrder || !s.recordsOk c inp.records then s.replayStop true
  else
    let p := { s.mad.replay with begun := true, busy := true, go := false, edge := false, ref := s.replayRef c inp.digest }
    let s : State := { s with mad := { s.mad with replay := p } }
    let s := ((s.dropTokens c).replayPosts c inp.journal)
    let s := (inp.journal.filter (fun e => decide (e.cycle = c ∧ e.opcode ≠ 0x0D13#16))).foldl (fun s e => s.replayEntry c e) s
    ((s.deliverBoxes c).replaySources c inp.records).note

/-- REPLAY_CYCLE: a paced replay takes one cycle for each edge E (R160). -/
def execReplayCycle (inp : ReplayIn) (s : State) : Host.Outcome State Fault Refusal :=
  let p := s.mad.replay
  .next (if !p.running || s.mode ≠ .commission || p.busy || (p.stepping && !p.go) then s
    else if s.bit Reg.madReplayCtrlPaced && !p.edge && !p.abort then s
    else if p.abort then s.replayStop false
    else if p.begun then s.replayNext (s.reg Reg.madReplayAt.off + 1#32) inp
    else
      let s := s.setReg Reg.madReplayAt.off (s.reg Reg.madReplayFrom.off)
      match s.replayFrom inp.snapshot inp.journal with
      | some s => s.replayNext (s.reg Reg.madReplayFrom.off) inp
      | none => s.replayStop true)

end Sys2Proof.Machine
end

