-- ==== Sys2Proof/Machine/FoxTimers.lean ====
section
/-! DEFINITION. Foxglove's timers (R454, R458): the quiet periods that end fault states, the millisecond of a source's alarms. Both are
counted in ticks of the counter (log entry 192).
Log: DEDUCED 144, 192. -/

namespace Sys2Proof.Machine

/-- The quiet period of a level in ticks: 50,000 to 100 µs. -/
def State.quietTicks (s : State) (level : Nat) : Nat := 50000 * s.fld Reg.foxQuiet0Quiet (4 * level)

/-- A recovery at a level counted. -/
def State.recovered (s : State) (level : Nat) : State :=
  match level with
  | 0 => s.incFld Reg.foxRecovLoL0
  | 1 => s.incFld Reg.foxRecovLoL1
  | 2 => s.incFld Reg.foxRecovHiL2
  | _ => s.incFld Reg.foxRecovHiL3

/-- FAULT_QUIET_EXPIRY (R454, R455): the counter runs on to the end of the quiet period after the last raising, and the unit leaves its
fault state. -/
def execFaultQuietExpiry (level : Nat) (src : FoxSrc) (s : State) : Host.Outcome State Fault Refusal :=
  .next (match s.fox.states.find? (fun x => x.is level src) with
    | none => s
    | some x =>
      let s := s.runTo (x.since + s.quietTicks level)
      let s := ({ s with fox := { s.fox with states := s.fox.states.filter (fun y => !y.is level src) } } : State).recovered level
      if s.mode = .degraded && !s.regionL2 then s.setMode .run .fault else s)

/-- ALARM_WINDOW_EXPIRY (R458): the counter runs on to the end of a source's millisecond, 500,000 ticks; the source sends an alarm for
each record changed in it, and a new millisecond begins. -/
def execAlarmWindowExpiry (src : FoxSrc) (s : State) : Host.Outcome State Fault Refusal :=
  .next (match s.fox.windows.find? (fun w => decide (w.src = src)) with
    | none => s
    | some w =>
      let s := s.runTo (w.since + 500000)
      let rest := s.fox.windows.filter (fun x => !decide (x.src = src))
      if w.changed.isEmpty then { s with fox := { s.fox with windows := rest } }
      else
        let s := { s with fox := { s.fox with windows := rest ++ [⟨src, [], s.time.ran⟩] } }
        (w.changed.mergeSort (· ≤ ·)).foldl (fun s no => match s.fox.queue.find? (fun r => r.no == no) with
          | some r => s.sendAlarm r
          | none => s) s)

end Sys2Proof.Machine
end

