-- ==== Sys2Proof/Machine/Dispatch.lean ====
section
/-! DEFINITION. The meaning of every command: one direct call per constructor of `Instr`.
Log: DESIGN CHOICE 1. -/

namespace Sys2Proof.Machine

def exec (i : Instr) (s : State) : Host.Outcome State Fault Refusal :=
  match i with
  | .nop w => Sys2Proof.Machine.execNop w s
  | .endOp w => Sys2Proof.Machine.execEndOp w s
  | .br w => Sys2Proof.Machine.execBr w s
  | .breq w => Sys2Proof.Machine.execBreq w s
  | .brne w => Sys2Proof.Machine.execBrne w s
  | .brlt w => Sys2Proof.Machine.execBrlt w s
  | .brge w => Sys2Proof.Machine.execBrge w s
  | .brun w => Sys2Proof.Machine.execBrun w s
  | .bror w => Sys2Proof.Machine.execBror w s
  | .brgt w => Sys2Proof.Machine.execBrgt w s
  | .brle w => Sys2Proof.Machine.execBrle w s
  | .brts w => Sys2Proof.Machine.execBrts w s
  | .brtc w => Sys2Proof.Machine.execBrtc w s
  | .loop w => Sys2Proof.Machine.execLoop w s
  | .loopp w => Sys2Proof.Machine.execLoopp w s
  | .setrrb w => Sys2Proof.Machine.execSetrrb w s
  | .tsync w => Sys2Proof.Machine.execTsync w s
  | .movfi w => Sys2Proof.Machine.execMovfi w s
  | .movpi w => Sys2Proof.Machine.execMovpi w s
  | .movmi w => Sys2Proof.Machine.execMovmi w s
  | .movpf w => Sys2Proof.Machine.execMovpf w s
  | .movfp w => Sys2Proof.Machine.execMovfp w s
  | .movmf w => Sys2Proof.Machine.execMovmf w s
  | .movfm w => Sys2Proof.Machine.execMovfm w s
  | .movfc w => Sys2Proof.Machine.execMovfc w s
  | .movfcc w => Sys2Proof.Machine.execMovfcc w s
  | .movrrb w => Sys2Proof.Machine.execMovrrb w s
  | .add w => Sys2Proof.Machine.execAdd w s
  | .sub w => Sys2Proof.Machine.execSub w s
  | .mul w => Sys2Proof.Machine.execMul w s
  | .fmac w => Sys2Proof.Machine.execFmac w s
  | .fmsc w => Sys2Proof.Machine.execFmsc w s
  | .minOp w => Sys2Proof.Machine.execMinOp w s
  | .maxOp w => Sys2Proof.Machine.execMaxOp w s
  | .absOp w => Sys2Proof.Machine.execAbsOp w s
  | .neg w => Sys2Proof.Machine.execNeg w s
  | .mov w => Sys2Proof.Machine.execMov w s
  | .sat w => Sys2Proof.Machine.execSat w s
  | .muln w => Sys2Proof.Machine.execMuln w s
  | .cvtfi w => Sys2Proof.Machine.execCvtfi w s
  | .cvtif w => Sys2Proof.Machine.execCvtif w s
  | .fma w => Sys2Proof.Machine.execFma w s
  | .fms w => Sys2Proof.Machine.execFms w s
  | .fnma w => Sys2Proof.Machine.execFnma w s
  | .fnms w => Sys2Proof.Machine.execFnms w s
  | .selz w => Sys2Proof.Machine.execSelz w s
  | .seln w => Sys2Proof.Machine.execSeln w s
  | .cmp w => Sys2Proof.Machine.execCmp w s
  | .cmpz w => Sys2Proof.Machine.execCmpz w s
  | .icmp w => Sys2Proof.Machine.execIcmp w s
  | .pcmp w => Sys2Proof.Machine.execPcmp w s
  | .iadd w => Sys2Proof.Machine.execIadd w s
  | .isub w => Sys2Proof.Machine.execIsub w s
  | .imul w => Sys2Proof.Machine.execImul w s
  | .andOp w => Sys2Proof.Machine.execAndOp w s
  | .orOp w => Sys2Proof.Machine.execOrOp w s
  | .xorOp w => Sys2Proof.Machine.execXorOp w s
  | .shl w => Sys2Proof.Machine.execShl w s
  | .shr w => Sys2Proof.Machine.execShr w s
  | .sar w => Sys2Proof.Machine.execSar w s
  | .imin w => Sys2Proof.Machine.execImin w s
  | .imax w => Sys2Proof.Machine.execImax w s
  | .isatu w => Sys2Proof.Machine.execIsatu w s
  | .notOp w => Sys2Proof.Machine.execNotOp w s
  | .clarke w => Sys2Proof.Machine.execClarke w s
  | .clarke3 w => Sys2Proof.Machine.execClarke3 w s
  | .park w => Sys2Proof.Machine.execPark w s
  | .ipark w => Sys2Proof.Machine.execIpark w s
  | .svm3 w => Sys2Proof.Machine.execSvm3 w s
  | .tap w => Sys2Proof.Machine.execTap w s
  | .tapn w => Sys2Proof.Machine.execTapn w s
  | .tap0 w => Sys2Proof.Machine.execTap0 w s
  | .limv w => Sys2Proof.Machine.execLimv w s
  | .angw w => Sys2Proof.Machine.execAngw w s
  | .angadd w => Sys2Proof.Machine.execAngadd w s
  | .sin w => Sys2Proof.Machine.execSin w s
  | .cos w => Sys2Proof.Machine.execCos w s
  | .sincos w => Sys2Proof.Machine.execSincos w s
  | .atan2 w => Sys2Proof.Machine.execAtan2 w s
  | .sqrt w => Sys2Proof.Machine.execSqrt w s
  | .rsqrt w => Sys2Proof.Machine.execRsqrt w s
  | .recip w => Sys2Proof.Machine.execRecip w s
  | .exp2 w => Sys2Proof.Machine.execExp2 w s
  | .log2 w => Sys2Proof.Machine.execLog2 w s
  | .sinm w => Sys2Proof.Machine.execSinm w s
  | .cosm w => Sys2Proof.Machine.execCosm w s
  | .sincosm w => Sys2Proof.Machine.execSincosm w s
  | .atan2m w => Sys2Proof.Machine.execAtan2m w s
  | .sqrtm w => Sys2Proof.Machine.execSqrtm w s
  | .rsqrtm w => Sys2Proof.Machine.execRsqrtm w s
  | .recipm w => Sys2Proof.Machine.execRecipm w s
  | .exp2m w => Sys2Proof.Machine.execExp2m w s
  | .log2m w => Sys2Proof.Machine.execLog2m w s
  | .trigWriteback cell => Sys2Proof.Machine.execTrigWriteback cell s
  | .qget w => Sys2Proof.Machine.execQget w s
  | .qput w => Sys2Proof.Machine.execQput w s
  | .qputr w => Sys2Proof.Machine.execQputr w s
  | .qhold w => Sys2Proof.Machine.execQhold w s
  | .qish w => Sys2Proof.Machine.execQish w s
  | .qcyc w => Sys2Proof.Machine.execQcyc w s
  | .crc8_0 w => Sys2Proof.Machine.execCrc8_0 w s
  | .crc8_1 w => Sys2Proof.Machine.execCrc8_1 w s
  | .crc32_0 w => Sys2Proof.Machine.execCrc32_0 w s
  | .crc32_1 w => Sys2Proof.Machine.execCrc32_1 w s
  | .crcrd_0 w => Sys2Proof.Machine.execCrcrd_0 w s
  | .crcrd_1 w => Sys2Proof.Machine.execCrcrd_1 w s
  | .rnd w => Sys2Proof.Machine.execRnd w s
  | .frac w => Sys2Proof.Machine.execFrac w s
  | .sign w => Sys2Proof.Machine.execSign w s
  | .cpsgn w => Sys2Proof.Machine.execCpsgn w s
  | .scale w => Sys2Proof.Machine.execScale w s
  | .deadz w => Sys2Proof.Machine.execDeadz w s
  | .lpf w => Sys2Proof.Machine.execLpf w s
  | .dot2 w => Sys2Proof.Machine.execDot2 w s
  | .cross2 w => Sys2Proof.Machine.execCross2 w s
  | .mag2 w => Sys2Proof.Machine.execMag2 w s
  | .ldx w => Sys2Proof.Machine.execLdx w s
  | .ldy w => Sys2Proof.Machine.execLdy w s
  | .stx w => Sys2Proof.Machine.execStx w s
  | .sty w => Sys2Proof.Machine.execSty w s
  | .ldxp w => Sys2Proof.Machine.execLdxp w s
  | .ldyp w => Sys2Proof.Machine.execLdyp w s
  | .stxp w => Sys2Proof.Machine.execStxp w s
  | .styp w => Sys2Proof.Machine.execStyp w s
  | .movpp w => Sys2Proof.Machine.execMovpp w s
  | .movmm w => Sys2Proof.Machine.execMovmm w s
  | .addpm w => Sys2Proof.Machine.execAddpm w s
  | .addpi w => Sys2Proof.Machine.execAddpi w s
  | .movpc w => Sys2Proof.Machine.execMovpc w s
  | .popc w => Sys2Proof.Machine.execPopc w s
  | .clz w => Sys2Proof.Machine.execClz w s
  | .bext w => Sys2Proof.Machine.execBext w s
  | .bins w => Sys2Proof.Machine.execBins w s
  | .andi w => Sys2Proof.Machine.execAndi w s
  | .ori w => Sys2Proof.Machine.execOri w s
  | .xori w => Sys2Proof.Machine.execXori w s
  | .iaddi w => Sys2Proof.Machine.execIaddi w s
  | .icmpi w => Sys2Proof.Machine.execIcmpi w s
  | .shli w => Sys2Proof.Machine.execShli w s
  | .shri w => Sys2Proof.Machine.execShri w s
  | .sari w => Sys2Proof.Machine.execSari w s
  | .addfi w => Sys2Proof.Machine.execAddfi w s
  | .mulfi w => Sys2Proof.Machine.execMulfi w s
  | .fmacfi w => Sys2Proof.Machine.execFmacfi w s
  | .minfi w => Sys2Proof.Machine.execMinfi w s
  | .maxfi w => Sys2Proof.Machine.execMaxfi w s
  | .satfi w => Sys2Proof.Machine.execSatfi w s
  | .cmpfi w => Sys2Proof.Machine.execCmpfi w s
  | .diffw w => Sys2Proof.Machine.execDiffw w s
  | .ucvtf w => Sys2Proof.Machine.execUcvtf w s
  | .cvtfu w => Sys2Proof.Machine.execCvtfu w s
  | .pack16 w => Sys2Proof.Machine.execPack16 w s
  | .unpkl w => Sys2Proof.Machine.execUnpkl w s
  | .unpkh w => Sys2Proof.Machine.execUnpkh w s
  | .ints w => Sys2Proof.Machine.execInts w s
  | .rlim w => Sys2Proof.Machine.execRlim w s
  | .maxabs w => Sys2Proof.Machine.execMaxabs w s
  | .avg w => Sys2Proof.Machine.execAvg w s
  | .sqdif w => Sys2Proof.Machine.execSqdif w s
  | .illegalOpcode cell stg opcode => Sys2Proof.Machine.execIllegalOpcode cell stg opcode s
  | .regionWindowWrite w => Sys2Proof.Machine.execRegionWindowWrite w s
  | .registerWrite w => Sys2Proof.Machine.execRegisterWrite w s
  | .cycleEdge => Sys2Proof.Machine.execCycleEdge s
  | .cycleEndFence => Sys2Proof.Machine.execCycleEndFence s
  | .operationFence op => Sys2Proof.Machine.execOperationFence op s
  | .operationDispatch cell => Sys2Proof.Machine.execOperationDispatch cell s
  | .delayListExpiry region => Sys2Proof.Machine.execDelayListExpiry region s
  | .replayStart w => Sys2Proof.Machine.execReplayStart w s
  | .replayStep w => Sys2Proof.Machine.execReplayStep w s
  | .replayAbort w => Sys2Proof.Machine.execReplayAbort w s
  | .replayCycle inp => Sys2Proof.Machine.execReplayCycle inp s
  | .madWicPrioWrite w => Sys2Proof.Machine.execMadWicPrioWrite w s
  | .madWicCancelWrite w => Sys2Proof.Machine.execMadWicCancelWrite w s
  | .madDigestCycleRead r => Sys2Proof.Machine.execMadDigestCycleRead r s
  | .snapshotComplete ok => Sys2Proof.Machine.execSnapshotComplete ok s
  | .workSubmit r => Sys2Proof.Machine.execWorkSubmit r s
  | .workCancel r => Sys2Proof.Machine.execWorkCancel r s
  | .workComplRead r => Sys2Proof.Machine.execWorkComplRead r s
  | .mailboxPost r => Sys2Proof.Machine.execMailboxPost r s
  | .snapshot r => Sys2Proof.Machine.execSnapshot r s
  | .axisModeSet r => Sys2Proof.Machine.execAxisModeSet r s
  | .axisParamSet r => Sys2Proof.Machine.execAxisParamSet r s
  | .axisParamGet r => Sys2Proof.Machine.execAxisParamGet r s
  | .axisStatusGet r => Sys2Proof.Machine.execAxisStatusGet r s
  | .axisReset r => Sys2Proof.Machine.execAxisReset r s
  | .axisCurRef r => Sys2Proof.Machine.execAxisCurRef r s
  | .motionTarget r => Sys2Proof.Machine.execMotionTarget r s
  | .motionParamSet r => Sys2Proof.Machine.execMotionParamSet r s
  | .motionParamGet r => Sys2Proof.Machine.execMotionParamGet r s
  | .motionStatusGet r => Sys2Proof.Machine.execMotionStatusGet r s
  | .motionPosGet r => Sys2Proof.Machine.execMotionPosGet r s
  | .rcCtrl r => Sys2Proof.Machine.execRcCtrl r s
  | .microstepTableSet r => Sys2Proof.Machine.execMicrostepTableSet r s
  | .xwCtrlWrite w => Sys2Proof.Machine.execXwCtrlWrite w s
  | .ringLockChange rs lock => Sys2Proof.Machine.execRingLockChange rs lock s
  | .ringRateTryExpiry ring => Sys2Proof.Machine.execRingRateTryExpiry ring s
  | .rxPolarityCorrect x => Sys2Proof.Machine.execRxPolarityCorrect x s
  | .ringCsInstant ring => Sys2Proof.Machine.execRingCsInstant ring s
  | .ringLoneEntry ring => Sys2Proof.Machine.execRingLoneEntry ring s
  | .ringSampleDue rs => Sys2Proof.Machine.execRingSampleDue rs s
  | .ringCmdLaunch rs => Sys2Proof.Machine.execRingCmdLaunch rs s
  | .ringAsyncOutWindow rs => Sys2Proof.Machine.execRingAsyncOutWindow rs s
  | .ringSafetyOutWindow rs => Sys2Proof.Machine.execRingSafetyOutWindow rs s
  | .ringTopoWindow ring => Sys2Proof.Machine.execRingTopoWindow ring s
  | .ringCycleStartReceive rs f => Sys2Proof.Machine.execRingCycleStartReceive rs f s
  | .ringSampleSubframeReceive rs f => Sys2Proof.Machine.execRingSampleSubframeReceive rs f s
  | .ringCommandTrainReceive rs f => Sys2Proof.Machine.execRingCommandTrainReceive rs f s
  | .ringAsyncReceive rs f => Sys2Proof.Machine.execRingAsyncReceive rs f s
  | .ringSafetyReceive rs f => Sys2Proof.Machine.execRingSafetyReceive rs f s
  | .ringTopoLoopReceive rs f => Sys2Proof.Machine.execRingTopoLoopReceive rs f s
  | .ringDiscoverReturn rs f => Sys2Proof.Machine.execRingDiscoverReturn rs f s
  | .ringEchoReceive rs f => Sys2Proof.Machine.execRingEchoReceive rs f s
  | .ringClaimReceive rs f => Sys2Proof.Machine.execRingClaimReceive rs f s
  | .ringDiscoverRetry ring => Sys2Proof.Machine.execRingDiscoverRetry ring s
  | .ringRecloseStart ring => Sys2Proof.Machine.execRingRecloseStart ring s
  | .xwArspPopWrite w => Sys2Proof.Machine.execXwArspPopWrite w s
  | .ringStatusGet r => Sys2Proof.Machine.execRingStatusGet r s
  | .ringAsyncPost r => Sys2Proof.Machine.execRingAsyncPost r s
  | .ringResetBcast r => Sys2Proof.Machine.execRingResetBcast r s
  | .ringClaimSet r => Sys2Proof.Machine.execRingClaimSet r s
  | .ringSlotRelease r => Sys2Proof.Machine.execRingSlotRelease r s
  | .ringReclose r => Sys2Proof.Machine.execRingReclose r s
  | .localCmdLaunch => Sys2Proof.Machine.execLocalCmdLaunch s
  | .localApplyInstant => Sys2Proof.Machine.execLocalApplyInstant s
  | .delayLineCalibration errPs => Sys2Proof.Machine.execDelayLineCalibration errPs s
  | .maskEvent group e => Sys2Proof.Machine.execMaskEvent group e s
  | .maskStep group => Sys2Proof.Machine.execMaskStep group s
  | .gateShortDetect group out => Sys2Proof.Machine.execGateShortDetect group out s
  | .adcTimedStart conv => Sys2Proof.Machine.execAdcTimedStart conv s
  | .adcConversionComplete conv r => Sys2Proof.Machine.execAdcConversionComplete conv r s
  | .adcUrgWrite w => Sys2Proof.Machine.execAdcUrgWrite w s
  | .adcRecordDue => Sys2Proof.Machine.execAdcRecordDue s
  | .adcCalComplete sum ovr => Sys2Proof.Machine.execAdcCalComplete sum ovr s
  | .adcCalTimeout => Sys2Proof.Machine.execAdcCalTimeout s
  | .fbQuadEdge fb e => Sys2Proof.Machine.execFbQuadEdge fb e s
  | .fbZEdge fb => Sys2Proof.Machine.execFbZEdge fb s
  | .fbHallChange fb hall => Sys2Proof.Machine.execFbHallChange fb hall s
  | .fbSerialRequest fb => Sys2Proof.Machine.execFbSerialRequest fb s
  | .fbSerialFrame fb f => Sys2Proof.Machine.execFbSerialFrame fb f s
  | .fbSerialDeadline fb => Sys2Proof.Machine.execFbSerialDeadline fb s
  | .fbPairLoss fb pair x => Sys2Proof.Machine.execFbPairLoss fb pair x s
  | .lgStatusGet r => Sys2Proof.Machine.execLgStatusGet r s
  | .lgFaultClear r => Sys2Proof.Machine.execLgFaultClear r s
  | .adcCalPoint r => Sys2Proof.Machine.execAdcCalPoint r s
  | .fbPosSet r => Sys2Proof.Machine.execFbPosSet r s
  | .timeIncTgtCommit w => Sys2Proof.Machine.execTimeIncTgtCommit w s
  | .rampBoundary => Sys2Proof.Machine.execRampBoundary s
  | .timeSlewWrite w => Sys2Proof.Machine.execTimeSlewWrite w s
  | .timeHoldWrite w => Sys2Proof.Machine.execTimeHoldWrite w s
  | .holdoverExpiry => Sys2Proof.Machine.execHoldoverExpiry s
  | .timeNowSubRead r => Sys2Proof.Machine.execTimeNowSubRead r s
  | .ppsRise => Sys2Proof.Machine.execPpsRise s
  | .ppsFall => Sys2Proof.Machine.execPpsFall s
  | .clkOutCommit w => Sys2Proof.Machine.execClkOutCommit w s
  | .clkOutLock k => Sys2Proof.Machine.execClkOutLock k s
  | .timeStatusGet r => Sys2Proof.Machine.execTimeStatusGet r s
  | .timeSet r => Sys2Proof.Machine.execTimeSet r s
  | .bbFrameReceive port f => Sys2Proof.Machine.execBbFrameReceive port f s
  | .bbFrameTransmit port d => Sys2Proof.Machine.execBbFrameTransmit port d s
  | .bbTimedLaunch port => Sys2Proof.Machine.execBbTimedLaunch port s
  | .bbTxTailWrite w => Sys2Proof.Machine.execBbTxTailWrite w s
  | .bbRxTailWrite w => Sys2Proof.Machine.execBbRxTailWrite w s
  | .bbTsqPopWrite w => Sys2Proof.Machine.execBbTsqPopWrite w s
  | .bbLockLoss port => Sys2Proof.Machine.execBbLockLoss port s
  | .bbBypassWrite w => Sys2Proof.Machine.execBbBypassWrite w s
  | .bypassSwitchComplete sw => Sys2Proof.Machine.execBypassSwitchComplete sw s
  | .qpSqTailWrite w => Sys2Proof.Machine.execQpSqTailWrite w s
  | .qpCqHeadWrite w => Sys2Proof.Machine.execQpCqHeadWrite w s
  | .qpCtrlWrite w => Sys2Proof.Machine.execQpCtrlWrite w s
  | .qpCommandFetch qp p => Sys2Proof.Machine.execQpCommandFetch qp p s
  | .commandProcess => Sys2Proof.Machine.execCommandProcess s
  | .commandTimeout src => Sys2Proof.Machine.execCommandTimeout src s
  | .qpHostError qp => Sys2Proof.Machine.execQpHostError qp s
  | .functionLevelReset fn => Sys2Proof.Machine.execFunctionLevelReset fn s
  | .pcieLinkDown => Sys2Proof.Machine.execPcieLinkDown s
  | .pcieLinkRetrain lanes rate => Sys2Proof.Machine.execPcieLinkRetrain lanes rate s
  | .kprGoWrite w => Sys2Proof.Machine.execKprGoWrite w s
  | .spiCmd p => Sys2Proof.Machine.execSpiCmd p s
  | .spiRpl => Sys2Proof.Machine.execSpiRpl s
  | .spiRdreg off => Sys2Proof.Machine.execSpiRdreg off s
  | .journalMirrorWrite ok us => Sys2Proof.Machine.execJournalMirrorWrite ok us s
  | .vholdLow => Sys2Proof.Machine.execVholdLow s
  | .ping r => Sys2Proof.Machine.execPing r s
  | .statusGet r => Sys2Proof.Machine.execStatusGet r s
  | .levelReset r => Sys2Proof.Machine.execLevelReset r s
  | .levelResetUnitEnd level index => Sys2Proof.Machine.execLevelResetUnitEnd level index s
  | .bypassSet r => Sys2Proof.Machine.execBypassSet r s
  | .modeGet r => Sys2Proof.Machine.execModeGet r s
  | .safeStop r => Sys2Proof.Machine.execSafeStop r s
  | .journalRead r => Sys2Proof.Machine.execJournalRead r s
  | .faultRead r => Sys2Proof.Machine.execFaultRead r s
  | .faultAck r => Sys2Proof.Machine.execFaultAck r s
  | .modeSet r => Sys2Proof.Machine.execModeSet r s
  | .runCtrl r => Sys2Proof.Machine.execRunCtrl r s
  | .rearm r => Sys2Proof.Machine.execRearm r s
  | .cfgStatusGet r => Sys2Proof.Machine.execCfgStatusGet r s
  | .cfgLoad r => Sys2Proof.Machine.execCfgLoad r s
  | .cfgLoadComplete img => Sys2Proof.Machine.execCfgLoadComplete img s
  | .cfgStore r => Sys2Proof.Machine.execCfgStore r s
  | .cfgStoreComplete ok => Sys2Proof.Machine.execCfgStoreComplete ok s
  | .paramSave r => Sys2Proof.Machine.execParamSave r s
  | .paramSaveComplete ok => Sys2Proof.Machine.execParamSaveComplete ok s
  | .safetyCycleStart x => Sys2Proof.Machine.execSafetyCycleStart x s
  | .safeInputSample pins => Sys2Proof.Machine.execSafeInputSample pins s
  | .safeInputDiscrepancy k => Sys2Proof.Machine.execSafeInputDiscrepancy k s
  | .testPulse ch => Sys2Proof.Machine.execTestPulse ch s
  | .testPulseCheck k ch followed => Sys2Proof.Machine.execTestPulseCheck k ch followed s
  | .safeOutputTest k t => Sys2Proof.Machine.execSafeOutputTest k t s
  | .woadTelegramReceive line t => Sys2Proof.Machine.execWoadTelegramReceive line t s
  | .woadWatchdogExpiry conn => Sys2Proof.Machine.execWoadWatchdogExpiry conn s
  | .woadLineFrameReceive port f => Sys2Proof.Machine.execWoadLineFrameReceive port f s
  | .woadLineSlot slot => Sys2Proof.Machine.execWoadLineSlot slot s
  | .safetyStatusGet r => Sys2Proof.Machine.execSafetyStatusGet r s
  | .safetyCrcGet r => Sys2Proof.Machine.execSafetyCrcGet r s
  | .safetyConfirm r => Sys2Proof.Machine.execSafetyConfirm r s
  | .safetyReset r => Sys2Proof.Machine.execSafetyReset r s
  | .safetyUnlock r => Sys2Proof.Machine.execSafetyUnlock r s
  | .twinHeartbeatReceive h => Sys2Proof.Machine.execTwinHeartbeatReceive h s
  | .twinMirrorReceive t => Sys2Proof.Machine.execTwinMirrorReceive t s
  | .twinJournalReceive e => Sys2Proof.Machine.execTwinJournalReceive e s
  | .twinCopyReceive c => Sys2Proof.Machine.execTwinCopyReceive c s
  | .twinDigestReceive cycle d => Sys2Proof.Machine.execTwinDigestReceive cycle d s
  | .twinAckReceive seq => Sys2Proof.Machine.execTwinAckReceive seq s
  | .twinSyncReceive cycle => Sys2Proof.Machine.execTwinSyncReceive cycle s
  | .twinLinkDown => Sys2Proof.Machine.execTwinLinkDown s
  | .takeoverWatch => Sys2Proof.Machine.execTakeoverWatch s
  | .syncCatchUpCycle => Sys2Proof.Machine.execSyncCatchUpCycle s
  | .syncGiveUp => Sys2Proof.Machine.execSyncGiveUp s
  | .twinStatusGet r => Sys2Proof.Machine.execTwinStatusGet r s
  | .twinSwitch r => Sys2Proof.Machine.execTwinSwitch r s
  | .twinSync r => Sys2Proof.Machine.execTwinSync r s
  | .twinInhibit r => Sys2Proof.Machine.execTwinInhibit r s
  | .faultRaising r => Sys2Proof.Machine.execFaultRaising r s
  | .faultQuietExpiry level src => Sys2Proof.Machine.execFaultQuietExpiry level src s
  | .alarmWindowExpiry src => Sys2Proof.Machine.execAlarmWindowExpiry src s
  | .thermalSensorRead temps => Sys2Proof.Machine.execThermalSensorRead temps s
  | .supplyOutOfRange powerLost => Sys2Proof.Machine.execSupplyOutOfRange powerLost s
  | .islandLockLoss island => Sys2Proof.Machine.execIslandLockLoss island s
  | .indigoGroupClose => Sys2Proof.Machine.execIndigoGroupClose s
  | .sequencerTimerExpiry k => Sys2Proof.Machine.execSequencerTimerExpiry k s
  | .trigFireRelease => Sys2Proof.Machine.execTrigFireRelease s
  | .indigoGroupWritten => Sys2Proof.Machine.execIndigoGroupWritten s
  | .trigFireEdge => Sys2Proof.Machine.execTrigFireEdge s
  | .trigArmChange high => Sys2Proof.Machine.execTrigArmChange high s
  | .indStatusGet r => Sys2Proof.Machine.execIndStatusGet r s
  | .indStart r => Sys2Proof.Machine.execIndStart r s
  | .indStop r => Sys2Proof.Machine.execIndStop r s
  | .indArm r => Sys2Proof.Machine.execIndArm r s
  | .indMark r => Sys2Proof.Machine.execIndMark r s
  | .dmaETailWrite w => Sys2Proof.Machine.execDmaETailWrite w s
  | .dmaECtrlWrite w => Sys2Proof.Machine.execDmaECtrlWrite w s
  | .dmaDescriptorStart e d => Sys2Proof.Machine.execDmaDescriptorStart e d s
  | .dmaDescriptorEnd e x => Sys2Proof.Machine.execDmaDescriptorEnd e x s
  | .scrubPeriod single double => Sys2Proof.Machine.execScrubPeriod single double s
  | .crcScanGo w => Sys2Proof.Machine.execCrcScanGo w s
  | .scanComplete second => Sys2Proof.Machine.execScanComplete second s
  | .crcChValHiWrite w => Sys2Proof.Machine.execCrcChValHiWrite w s
  | .crcChValLoRead r => Sys2Proof.Machine.execCrcChValLoRead r s
  | .crcChCfgWrite w => Sys2Proof.Machine.execCrcChCfgWrite w s
  | .dmaStatusGet r => Sys2Proof.Machine.execDmaStatusGet r s
  | .memCheck r => Sys2Proof.Machine.execMemCheck r s
  | .powerOn vholdHeld => Sys2Proof.Machine.execPowerOn vholdHeld s
  | .supplyLoss => Sys2Proof.Machine.execSupplyLoss s
  | .resetNLow => Sys2Proof.Machine.execResetNLow s
  | .resetEnd x => Sys2Proof.Machine.execResetEnd x s
  | .bootSequenceEnd => Sys2Proof.Machine.execBootSequenceEnd s
  | .pfailDetect detector => Sys2Proof.Machine.execPfailDetect detector s
  | .pfailRelease => Sys2Proof.Machine.execPfailRelease s
  | .pfailRestoreHoldExpiry => Sys2Proof.Machine.execPfailRestoreHoldExpiry s
  | .jtagInstruction j => Sys2Proof.Machine.execJtagInstruction j s
  | .registerRead r => Sys2Proof.Machine.execRegisterRead r s
  | .regionWindowRead r => Sys2Proof.Machine.execRegionWindowRead r s
  | .bbBlockLock port => Sys2Proof.Machine.execBbBlockLock port s
  | .twinLinkUp => Sys2Proof.Machine.execTwinLinkUp s
  | .islandLockRegained island => Sys2Proof.Machine.execIslandLockRegained island s
  | .sampleTrainLaunch rs => Sys2Proof.Machine.execSampleTrainLaunch rs s
  | .carrierPeriodStart group => Sys2Proof.Machine.execCarrierPeriodStart group s
  | .mixedDecayEnd group coilB => Sys2Proof.Machine.execMixedDecayEnd group coilB s

end Sys2Proof.Machine
end

