-- ==== Sys2Proof/Machine/Idle.lean ====
section
/-! DEFINITION. What the part does when no command waits: one tick of the time unit's counter (R330), and one raising on its way to
Foxglove arrives (log entry 2).
Log: DESIGN CHOICE 2. -/

namespace Sys2Proof.Machine

/-- One tick with no command: the counter counts where the T256 is awake, and Foxglove takes one raising. -/
def State.idle (s : State) : State :=
  if !s.awake then s
  else
    let s := s.tick
    match s.nextArrival with
    | none => s
    | some r => s.foxTake r

end Sys2Proof.Machine
end

