-- ==== Sys2Proof/Safety.lean ====
section
/-! DEFINITION. The words claims are stated in: the canonical form of the memories, a command that completes, when a cell
issues an instruction with the instruction's own effect, and what one issued instruction did. -/

namespace Sys2Proof

/-- The cell and the stage of a cell instruction (R94). -/
def Instr.cellStg (c : Instr) : Option (Nat × BitVec 3) :=
  match c with
  | .nop i => some (i.cell, i.stg)
  | .endOp i => some (i.cell, i.stg)
  | .br i => some (i.cell, i.stg)
  | .breq i => some (i.cell, i.stg)
  | .brne i => some (i.cell, i.stg)
  | .brlt i => some (i.cell, i.stg)
  | .brge i => some (i.cell, i.stg)
  | .brun i => some (i.cell, i.stg)
  | .bror i => some (i.cell, i.stg)
  | .brgt i => some (i.cell, i.stg)
  | .brle i => some (i.cell, i.stg)
  | .brts i => some (i.cell, i.stg)
  | .brtc i => some (i.cell, i.stg)
  | .loop i => some (i.cell, i.stg)
  | .loopp i => some (i.cell, i.stg)
  | .setrrb i => some (i.cell, i.stg)
  | .tsync i => some (i.cell, i.stg)
  | .movfi i => some (i.cell, i.stg)
  | .movpi i => some (i.cell, i.stg)
  | .movmi i => some (i.cell, i.stg)
  | .movpf i => some (i.cell, i.stg)
  | .movfp i => some (i.cell, i.stg)
  | .movmf i => some (i.cell, i.stg)
  | .movfm i => some (i.cell, i.stg)
  | .movfc i => some (i.cell, i.stg)
  | .movfcc i => some (i.cell, i.stg)
  | .movrrb i => some (i.cell, i.stg)
  | .add i => some (i.cell, i.stg)
  | .sub i => some (i.cell, i.stg)
  | .mul i => some (i.cell, i.stg)
  | .fmac i => some (i.cell, i.stg)
  | .fmsc i => some (i.cell, i.stg)
  | .minOp i => some (i.cell, i.stg)
  | .maxOp i => some (i.cell, i.stg)
  | .absOp i => some (i.cell, i.stg)
  | .neg i => some (i.cell, i.stg)
  | .mov i => some (i.cell, i.stg)
  | .sat i => some (i.cell, i.stg)
  | .muln i => some (i.cell, i.stg)
  | .cvtfi i => some (i.cell, i.stg)
  | .cvtif i => some (i.cell, i.stg)
  | .fma i => some (i.cell, i.stg)
  | .fms i => some (i.cell, i.stg)
  | .fnma i => some (i.cell, i.stg)
  | .fnms i => some (i.cell, i.stg)
  | .selz i => some (i.cell, i.stg)
  | .seln i => some (i.cell, i.stg)
  | .cmp i => some (i.cell, i.stg)
  | .cmpz i => some (i.cell, i.stg)
  | .icmp i => some (i.cell, i.stg)
  | .pcmp i => some (i.cell, i.stg)
  | .iadd i => some (i.cell, i.stg)
  | .isub i => some (i.cell, i.stg)
  | .imul i => some (i.cell, i.stg)
  | .andOp i => some (i.cell, i.stg)
  | .orOp i => some (i.cell, i.stg)
  | .xorOp i => some (i.cell, i.stg)
  | .shl i => some (i.cell, i.stg)
  | .shr i => some (i.cell, i.stg)
  | .sar i => some (i.cell, i.stg)
  | .imin i => some (i.cell, i.stg)
  | .imax i => some (i.cell, i.stg)
  | .isatu i => some (i.cell, i.stg)
  | .notOp i => some (i.cell, i.stg)
  | .clarke i => some (i.cell, i.stg)
  | .clarke3 i => some (i.cell, i.stg)
  | .park i => some (i.cell, i.stg)
  | .ipark i => some (i.cell, i.stg)
  | .svm3 i => some (i.cell, i.stg)
  | .tap i => some (i.cell, i.stg)
  | .tapn i => some (i.cell, i.stg)
  | .tap0 i => some (i.cell, i.stg)
  | .limv i => some (i.cell, i.stg)
  | .angw i => some (i.cell, i.stg)
  | .angadd i => some (i.cell, i.stg)
  | .sin i => some (i.cell, i.stg)
  | .cos i => some (i.cell, i.stg)
  | .sincos i => some (i.cell, i.stg)
  | .atan2 i => some (i.cell, i.stg)
  | .sqrt i => some (i.cell, i.stg)
  | .rsqrt i => some (i.cell, i.stg)
  | .recip i => some (i.cell, i.stg)
  | .exp2 i => some (i.cell, i.stg)
  | .log2 i => some (i.cell, i.stg)
  | .sinm i => some (i.cell, i.stg)
  | .cosm i => some (i.cell, i.stg)
  | .sincosm i => some (i.cell, i.stg)
  | .atan2m i => some (i.cell, i.stg)
  | .sqrtm i => some (i.cell, i.stg)
  | .rsqrtm i => some (i.cell, i.stg)
  | .recipm i => some (i.cell, i.stg)
  | .exp2m i => some (i.cell, i.stg)
  | .log2m i => some (i.cell, i.stg)
  | .qget i => some (i.cell, i.stg)
  | .qput i => some (i.cell, i.stg)
  | .qputr i => some (i.cell, i.stg)
  | .qhold i => some (i.cell, i.stg)
  | .qish i => some (i.cell, i.stg)
  | .qcyc i => some (i.cell, i.stg)
  | .crc8_0 i => some (i.cell, i.stg)
  | .crc8_1 i => some (i.cell, i.stg)
  | .crc32_0 i => some (i.cell, i.stg)
  | .crc32_1 i => some (i.cell, i.stg)
  | .crcrd_0 i => some (i.cell, i.stg)
  | .crcrd_1 i => some (i.cell, i.stg)
  | .rnd i => some (i.cell, i.stg)
  | .frac i => some (i.cell, i.stg)
  | .sign i => some (i.cell, i.stg)
  | .cpsgn i => some (i.cell, i.stg)
  | .scale i => some (i.cell, i.stg)
  | .deadz i => some (i.cell, i.stg)
  | .lpf i => some (i.cell, i.stg)
  | .dot2 i => some (i.cell, i.stg)
  | .cross2 i => some (i.cell, i.stg)
  | .mag2 i => some (i.cell, i.stg)
  | .ldx i => some (i.cell, i.stg)
  | .ldy i => some (i.cell, i.stg)
  | .stx i => some (i.cell, i.stg)
  | .sty i => some (i.cell, i.stg)
  | .ldxp i => some (i.cell, i.stg)
  | .ldyp i => some (i.cell, i.stg)
  | .stxp i => some (i.cell, i.stg)
  | .styp i => some (i.cell, i.stg)
  | .movpp i => some (i.cell, i.stg)
  | .movmm i => some (i.cell, i.stg)
  | .addpm i => some (i.cell, i.stg)
  | .addpi i => some (i.cell, i.stg)
  | .movpc i => some (i.cell, i.stg)
  | .popc i => some (i.cell, i.stg)
  | .clz i => some (i.cell, i.stg)
  | .bext i => some (i.cell, i.stg)
  | .bins i => some (i.cell, i.stg)
  | .andi i => some (i.cell, i.stg)
  | .ori i => some (i.cell, i.stg)
  | .xori i => some (i.cell, i.stg)
  | .iaddi i => some (i.cell, i.stg)
  | .icmpi i => some (i.cell, i.stg)
  | .shli i => some (i.cell, i.stg)
  | .shri i => some (i.cell, i.stg)
  | .sari i => some (i.cell, i.stg)
  | .addfi i => some (i.cell, i.stg)
  | .mulfi i => some (i.cell, i.stg)
  | .fmacfi i => some (i.cell, i.stg)
  | .minfi i => some (i.cell, i.stg)
  | .maxfi i => some (i.cell, i.stg)
  | .satfi i => some (i.cell, i.stg)
  | .cmpfi i => some (i.cell, i.stg)
  | .diffw i => some (i.cell, i.stg)
  | .ucvtf i => some (i.cell, i.stg)
  | .cvtfu i => some (i.cell, i.stg)
  | .pack16 i => some (i.cell, i.stg)
  | .unpkl i => some (i.cell, i.stg)
  | .unpkh i => some (i.cell, i.stg)
  | .ints i => some (i.cell, i.stg)
  | .rlim i => some (i.cell, i.stg)
  | .maxabs i => some (i.cell, i.stg)
  | .avg i => some (i.cell, i.stg)
  | .sqdif i => some (i.cell, i.stg)
  | _ => none

/-- The trig opcodes 0x60 to 0x68 and 0x70 to 0x78 (R110, R118). -/
def Instr.isTrig (c : Instr) : Bool :=
  match c with
  | .sin _ => true
  | .cos _ => true
  | .sincos _ => true
  | .atan2 _ => true
  | .sqrt _ => true
  | .rsqrt _ => true
  | .recip _ => true
  | .exp2 _ => true
  | .log2 _ => true
  | .sinm _ => true
  | .cosm _ => true
  | .sincosm _ => true
  | .atan2m _ => true
  | .sqrtm _ => true
  | .rsqrtm _ => true
  | .recipm _ => true
  | .exp2m _ => true
  | .log2m _ => true
  | _ => false

end Sys2Proof

namespace Sys2Proof.Machine

/-- The memories of a state are in their canonical form. -/
def State.memWf (s : State) : Bool := Memory.wf s.ram

/-- A command completes: it answers a next state. -/
def Completes (i : Instr) (s : State) : Prop := ∃ t, exec i s = .next t

/-- Two states agree on every byte of cell, block and region memory. -/
def State.sameMem (s t : State) : Prop := ∀ a, t.ramByte a = s.ramByte a

/-! ### A cell at an instruction -/

/-- The cell runs an operation or a work item, is neither halted nor in reset, and meets no trap of its own before the
instruction: the word at its pc has no double-bit error (R56), and this instruction does not exceed the budget (R88, R91). -/
def State.canIssue (s : State) (n : Nat) : Prop :=
  ∃ r, s.issues n = some r
    ∧ insAddr n (s.cell n).pc.toNat ∉ s.flip2 ∧ insAddr n (s.cell n).pc.toNat + 4 ∉ s.flip2
    ∧ (s.fld Reg.cellCtrlOpBudget (cellRegs n) = 0 ∨ r.issued + 1 ≤ s.fld Reg.cellCtrlOpBudget (cellRegs n))

/-- An instruction of stage `stg` has its own effect: it is not in the shadow of a taken branch (R69), nor suppressed (R65). -/
def State.ready (s : State) (n : Nat) (stg : BitVec 3) : Prop :=
  s.canIssue n ∧ (s.cell n).shadow = none ∧ (s.cell n).suppressed stg.toNat = false

/-- An access raises no fault: its pointer is in bounds and no word it reads has a double-bit error (R56, R59). -/
def State.clean (s : State) (a : AccRes) : Prop := a.faults = [] ∧ ∀ x ∈ a.reads, x ∉ s.flip2

/-- The X and the Y access of a Format A instruction, and the one access of a Format F instruction. -/
def State.xOf (s : State) (i : FmtA) : AccRes := access s i.cell (s.cell i.cell) .x i.xa
def State.yOf (s : State) (i : FmtA) : AccRes := access s i.cell (s.cell i.cell) .y i.ya
def State.accOf (s : State) (i : FmtF) : AccRes := access s i.cell (s.cell i.cell) (if i.sel then .y else .x) i.acc

/-- What writes in order leave at a key: the last that names it. -/
def lastAt {α : Type} : List (Nat × α) → Nat → Option α
  | [], _ => none
  | (j, v) :: r, k => (lastAt r k).or (if j = k then some v else none)

/-- A register of a file after a compute operation and the accesses of one instruction: one that one of the two names holds
what that one gives; one that neither names is unchanged. Of one that both name nothing is said (UB_02). -/
def Merged {α : Type} (old new : Nat → α) (comp acc : List (Nat × α)) (k : Nat) : Prop :=
  (∀ v, lastAt comp k = some v → lastAt acc k = none → new k = v)
    ∧ (∀ v, lastAt comp k = none → lastAt acc k = some v → new k = v)
    ∧ (lastAt comp k = none → lastAt acc k = none → new k = old k)

/-- A word for which a result of the trig unit is pending and that one instruction lets be written: any when the instruction starts an
operation, which must find a place (R72), else a word that it reads (R73). -/
def State.lands (s : State) (n : Nat) (e : Eff) (xa ya : AccRes) (a : Nat) : Prop :=
  (s.cell n).pendingAt (.mem a) ≠ none ∧ (e.trig.isSome = true ∨ a ∈ xa.reads ++ ya.reads)

/-- What one issued instruction of cell `n` with the effect `e` and the accesses `xa` and `ya` did, from `s` to `t`: what it
wrote, and that nothing else changed. -/
structure Did (s t : State) (n : Nat) (e : Eff) (xa ya : AccRes) : Prop where
  f : ∀ k, (∀ x, e.trig = some x → (s.cell n).pendingAt (.reg k) = none ∧ x.value (.reg k) = none) →
    Merged (s.cell n).getF (t.cell n).getF e.f (xa.loads ++ ya.loads) k
  p : ∀ k, Merged (s.cell n).rdP (t.cell n).rdP e.p (xa.ptr.toList ++ ya.ptr.toList) k
  m : ∀ k, (t.cell n).rdM k = (lastAt e.m k).getD ((s.cell n).rdM k)
  cc : (t.cell n).cc = e.cc.getD (s.cell n).cc
  ch0 : (t.cell n).ch0 = match e.ch with | some (0, v) => v | _ => (s.cell n).ch0
  ch1 : (t.cell n).ch1 = match e.ch with | some (_ + 1, v) => v | _ => (s.cell n).ch1
  run : (t.cell n).run = (s.cell n).run.map (fun r => { e.run.getD r with issued := r.issued + 1 })
  held : (t.cell n).slot = (s.cell n).slot ∧ (t.cell n).inReset = (s.cell n).inReset
    ∧ (t.cell n).halted = (s.cell n).halted ∧ (t.cell n).shadow = none
  /-- Where no loop ends here, the next instruction follows, and loops, counters and rrb stay but for a write of rrb. -/
  next : (∀ l ∈ (s.cell n).loops, l.last ≠ (s.cell n).pc.toNat) →
    (t.cell n).pc = (s.cell n).pc + 1#14 ∧ (t.cell n).loops = (s.cell n).loops ∧ (t.cell n).c = (s.cell n).c
      ∧ (t.cell n).rrb = e.rrb.getD (s.cell n).rrb
  /-- The operations in flight: as before, or the new one behind those that its place leaves (R72). -/
  trig : (e.trig = none → (t.cell n).trig.length = (s.cell n).trig.length)
    ∧ (e.trig ≠ none → ∃ k, k ≤ (s.cell n).trig.length ∧ (t.cell n).trig.length = k + 1)
  /-- What a trig operation of the instruction will write is pending (R73): a read of it gives that value. -/
  pend : ∀ x d v, e.trig = some x → x.value d = some v → (t.cell n).pendingAt d = some v
  /-- A stored word holds the value stored, and every byte outside the words stored or landed what it held. -/
  stored : ∀ a v, lastAt (xa.stores ++ ya.stores) a = some v → t.ramWord a = v
  bytes : ∀ b, (∀ x ∈ xa.stores ++ ya.stores, b < x.1 ∨ x.1 + 4 ≤ b) → (∀ a, s.lands n e xa ya a → b < a ∨ a + 4 ≤ b) →
    t.ramByte b = s.ramByte b
  /-- The axes change only where such a word belongs to a block of a standard kernel. -/
  axes : (∀ x ∈ xa.stores ++ ya.stores, s.blockAt x.1 = none) → (∀ a, s.lands n e xa ya a → s.blockAt a = none) → t.axes = s.axes
  issued : t.fld Reg.cellIssuedIssued (cellRegs n) = satAdd (s.fld Reg.cellIssuedIssued (cellRegs n)) 1 (2 ^ 32 - 1)
  regs : ∀ o, o ≠ cellRegs n + Reg.cellIssuedIssued.off → o ≠ cellRegs n + Reg.cellEccCorrected.off →
    (∀ j, e.conflict = some j → o ≠ chBase j + Reg.crcChCfgConflict.off) → t.reg o = s.reg o
  cells : ∀ j, j ≠ n → t.cell j = s.cell j
  rest : t = { s with cells := t.cells, ram := t.ram, regs := t.regs, flip1 := t.flip1, flip2 := t.flip2, axes := t.axes
                      freeCtr := t.freeCtr }

/-- One instruction of cell `n` was issued that wrote no register, pointer, flag, check value or memory: only the pc, the
loops, the loop counters, rrb and the branch shadow of the cell may differ, the count of instructions issued, and single-bit errors of
the fetch with their count (R55). -/
structure Quiet (s t : State) (n : Nat) : Prop where
  f : (t.cell n).f = (s.cell n).f
  p : (t.cell n).p = (s.cell n).p
  m : (t.cell n).m = (s.cell n).m
  cc : (t.cell n).cc = (s.cell n).cc
  ch : (t.cell n).ch0 = (s.cell n).ch0 ∧ (t.cell n).ch1 = (s.cell n).ch1
  trig : (t.cell n).trig = (s.cell n).trig
  run : (t.cell n).run = (s.cell n).run.map (fun r => { r with issued := r.issued + 1 })
  held : (t.cell n).slot = (s.cell n).slot ∧ (t.cell n).inReset = (s.cell n).inReset ∧ (t.cell n).halted = (s.cell n).halted
  issued : t.fld Reg.cellIssuedIssued (cellRegs n) = satAdd (s.fld Reg.cellIssuedIssued (cellRegs n)) 1 (2 ^ 32 - 1)
  regs : ∀ o, o ≠ cellRegs n + Reg.cellIssuedIssued.off → o ≠ cellRegs n + Reg.cellEccCorrected.off → t.reg o = s.reg o
  cells : ∀ j, j ≠ n → t.cell j = s.cell j
  rest : t = { s with cells := t.cells, regs := t.regs, flip1 := t.flip1 }

/-! ### Commands that arrive on a port (R357, R370 to R376) -/

/-- The command of a row comes to its checks: its port takes it, and no earlier command of its source waits. `c` is the command,
`u` the state in which it is judged, in which the command processor has the turn unless the keeper serves the command (R369, R381). -/
def State.judges (s : State) (k : CmdSpec) (r : CmdReq) (u : State) (c : CmdIn) : Prop :=
  ∃ v slot, s.arrive r.port r.tag = (v, some slot) ∧ c = { CmdIn.ofReq r k.opcode slot with era := v.eraOf r.port }
    ∧ v.mustWait k c = false ∧ u = v.judged k c

/-- The command passes every check. -/
def State.accepts (s : State) (k : CmdSpec) (r : CmdReq) (u : State) (c : CmdIn) : Prop := s.judges k r u c ∧ u.verdict k c = 0

/-- A query, accepted, is answered with `out`, at the cycle `cyc` that its values belong to; it leaves what `run` leaves. -/
def Asks (i : CmdReq → Instr) (k : CmdSpec) (run : State → CmdIn → State) (cyc : State → Word) (out : State → CmdIn → CmdOut) : Prop :=
  ∀ s r u c, s.accepts k r u c → exec (i r) s = .next ((run u c).answer c 0 false 0 (cyc u) (out u c))

/-- A command that acts at once, accepted: its entry is written, `f` of the command and its entry's number takes effect, and the
reply of `f` goes out with that number. -/
def Acts (i : CmdReq → Instr) (k : CmdSpec) (f : State → CmdIn → Nat → State × CmdOut) : Prop :=
  ∀ s r u c, s.accepts k r u c →
    exec (i r) s = .next (
      let j := u.journalCmd c u.cycle
      let y := f j c j.jnl.head
      y.1.answer c y.2.status true j.jnl.head u.cycle y.2)

/-- A command that answers with its result, accepted: its entry is written, `f` takes effect, and no reply goes out yet. -/
def Awaits (i : CmdReq → Instr) (k : CmdSpec) (f : State → CmdIn → Nat → State) : Prop :=
  ∀ s r u c, s.accepts k r u c →
    exec (i r) s = .next (
      let j := u.journalCmd c u.cycle
      let y := f j c j.jnl.head
      { y with host := { y.host with results := y.host.results ++ [(j.jnl.head, { c with cyc := u.cycle })] } })

/-- The cycle at which a cycle-fenced command takes effect while edges run: the one it names, or the first whose cut-off has not
passed. -/
def State.applyCycle (s : State) (c : CmdIn) : Word := if c.at_ then c.apply else s.nextOpen

/-- A cycle-fenced command with the effect `f`, accepted: while edges run it waits for its cycle and is answered, and at the edge of
that cycle `f` takes effect; while none run `f` takes effect at once, with 0 for the cycle. -/
def Fences (i : CmdReq → Instr) (k : CmdSpec) (f : State → CmdIn → Word → State) : Prop :=
  (∀ s r u c, s.accepts k r u c → u.edgesRun = true →
    exec (i r) s = .next (
      let a := u.applyCycle c
      let j := u.journalCmd c a
      ({ j with host := { j.host with fenced := j.host.fenced ++ [⟨c, a, j.jnl.head⟩] } } : State).answer c 0 true j.jnl.head a {}))
  ∧ (∀ s r u c, s.accepts k r u c → u.edgesRun = false →
    exec (i r) s = .next (
      let j := u.journalCmd c 0#32
      (f j c 0#32).answer c 0 true j.jnl.head 0#32 {}))
  ∧ (∀ (s : State) c a n, c.opcode = k.opcode →
    ({ s with host := { s.host with fenced := [⟨c, a, n⟩] } } : State).fencedEffects a
      = f { s with host := { s.host with fenced := [] } } c a)

/-- A post to a mailbox, accepted: `f` places it, for the cycle it names. -/
def Posts (i : CmdReq → Instr) (k : CmdSpec) (f : State → CmdIn → Word → State) : Prop :=
  ∀ s r u c, s.accepts k r u c →
    exec (i r) s = .next (
      let a := if u.edgesRun then u.applyCycle c else 0#32
      let j := u.journalCmd c a
      (f j c a).answer c 0 true j.jnl.head a {})

/-- A write that one row acts on (`own`), while the part is awake: it does `f`; one of a register that the function may not write
counts in CMD_AUTH_ERR.pf1_wr alone; one of a register the variant does not have does nothing (R4, R361). -/
def OwnRow (i : RegWrite → Instr) (own : State → RegWrite → Bool) (f : State → RegWrite → State) : Prop :=
  ∀ s w, own s w = true → s.awake = true →
    (mayWrite w.fn w.off = true → s.shutAt w.off = false → exec (i w) s = .next (f s w))
    ∧ (mayWrite w.fn w.off = false → exec (i w) s = .next (s.incFld Reg.cmdAuthErrPf1Wr))
    ∧ (mayWrite w.fn w.off = true → s.shutAt w.off = true → exec (i w) s = .next s)

end Sys2Proof.Machine
end

