-- ==== Sys2Proof/Certificates/Slice0/Obligations.lean ====
section
/-! DEFINITION. The statements for the provers, by family of commands, each over the words of `Safety` and of the model. -/

open Sys2Proof Sys2Proof.Machine

namespace Sys2Proof.Spec

/-! ### A cell's compute operations -/

/-- A Format A instruction whose own effect is `eff`: where the cell is ready and both accesses are clean it answers a next
state, which holds that effect, the effects of its two accesses, and nothing else. -/
def opA (op : FmtA → Instr) (eff : State → CellSt → FmtA → Eff) : Prop :=
  ∀ (i : FmtA) (s : State), s.ready i.cell i.stg → s.clean (s.xOf i) → s.clean (s.yOf i) →
    ∃ t, exec (op i) s = .next t ∧ Did s t i.cell (eff s (s.cell i.cell) i) (s.xOf i) (s.yOf i)

/-- The same of Format F, with its one access. -/
def opF (op : FmtF → Instr) (eff : CellSt → FmtF → Eff) : Prop :=
  ∀ (i : FmtF) (s : State), s.ready i.cell i.stg → s.clean (s.accOf i) →
    ∃ t, exec (op i) s = .next t ∧ Did s t i.cell (eff (s.cell i.cell) i) (s.accOf i) {}

/-- The same of Format I, which has no access. -/
def opI (op : FmtI → Instr) (eff : CellSt → FmtI → Eff) : Prop :=
  ∀ (i : FmtI) (s : State), s.ready i.cell i.stg →
    ∃ t, exec (op i) s = .next t ∧ Did s t i.cell (eff (s.cell i.cell) i) {} {}

/-- The same of Format M, whose words are at an address of its own. -/
def opM (op : FmtM → Instr) (acc : State → CellSt → FmtM → AccRes) : Prop :=
  ∀ (i : FmtM) (s : State), s.ready i.cell i.stg → s.clean (acc s (s.cell i.cell) i) →
    ∃ t, exec (op i) s = .next t ∧ Did s t i.cell {} (acc s (s.cell i.cell) i) {}

/-- One `f` register written: register d of the instruction, mapped by rrb as it stands at issue (R47, R104). -/
def wr (c : CellSt) (d : BitVec 6) (v : Word) : Eff := { f := [(c.phys d.toNat, v)] }

/-- A pair written, even register first (R102). -/
def wrPair (c : CellSt) (d : BitVec 6) (lo hi : Word) : Eff :=
  { f := [(c.phys (2 * (d.toNat / 2)), lo), (c.phys (2 * (d.toNat / 2) + 1), hi)] }

/-- d of a function of a; of a and b; of a, b and the old d. -/
def dA (v : Word → Word) (_ : State) (c : CellSt) (i : FmtA) : Eff := wr c i.d (v (c.rdF i.a))
def dAB (v : Word → Word → Word) (_ : State) (c : CellSt) (i : FmtA) : Eff := wr c i.d (v (c.rdF i.a) (c.rdF i.b))
def dABD (v : Word → Word → Word → Word) (_ : State) (c : CellSt) (i : FmtA) : Eff :=
  wr c i.d (v (c.rdF i.a) (c.rdF i.b) (c.rdF i.d))
/-- d of a function of a, b and c, in Format F. -/
def dABC (v : Word → Word → Word → Word) (c : CellSt) (i : FmtF) : Eff := wr c i.d (v (c.rdF i.a) (c.rdF i.b) (c.rdF i.c))
/-- d of a function of a and the immediate; of a, the immediate and the old d. -/
def dAImm (v : Word → Word → Word) (c : CellSt) (i : FmtI) : Eff := wr c i.d (v (c.rdF i.a) i.imm)
def dAImmD (v : Word → Word → Word → Word) (c : CellSt) (i : FmtI) : Eff := wr c i.d (v (c.rdF i.a) i.imm (c.rdF i.d))

/-- A word with its sign turned, as an operand of a step (R107). -/
def minus (w : Word) : Word := w ^^^ 0x80000000#32
/-- `min(max(x, −y), y)`. -/
def limit (x y : Word) : Word := Fp.min (Fp.max x (Fp.neg y)) y

/-- The steps of SVM3 (R116) for one phase voltage: the on-time and whether the limits acted. -/
def svmPhase (v o w tper : Word) : Word × Bool :=
  let d := Fp.fma (Fp.sub v o) w 0x3F000000#32
  let x := Fp.min (Fp.max d 0#32) 0x3F800000#32
  (Fp.mul x tper, decide (x ≠ d))
/-- SVM3 by its steps and special cases (R116): the three on-times, n and u. -/
def svmSteps (va vbeta vbus tper : Word) : (Word × Word × Word) × Bool × Bool :=
  if Fp.isNan vbus || Fp.eq vbus 0#32 || Fp.lt vbus 0#32 then
    let x := Fp.mul tper 0x3F000000#32
    ((x, x, x), false, true)
  else if Fp.isNan va || Fp.isNan vbeta || Fp.isNan tper then ((0x7FC00000#32, 0x7FC00000#32, 0x7FC00000#32), false, true)
  else
    let h := Fp.mul va 0x3F000000#32
    let q := Fp.mul vbeta 0x3F5DB3D7#32
    let vb := Fp.sub q h
    let vc := Fp.add (minus q) (minus h)
    let o := Fp.mul (Fp.add (Fp.max (Fp.max va vb) vc) (Fp.min (Fp.min va vb) vc)) 0x3F000000#32
    let w := Fp.div 0x3F800000#32 vbus
    let a := svmPhase va o w tper
    let b := svmPhase vb o w tper
    let c := svmPhase vc o w tper
    ((a.1, b.1, c.1), a.2 || b.2 || c.2, false)

/-- LIMV by its steps (R116), for operands that are numbers: the two components and n. -/
def limvSteps (vd vq lim : Word) : Word × Word × Bool :=
  let l2 := Fp.mul lim lim
  let m2 := Fp.fma vd vd (Fp.mul vq vq)
  if Fp.lt m2 l2 || Fp.eq m2 l2 then (Fp.canon vd, Fp.canon vq, false)
  else
    let ud := limit vd lim
    let r := Fp.max (Fp.fma (minus ud) ud l2) 0#32
    (ud, (Fp.sqrt r &&& 0x7FFFFFFF#32) ||| (vq &&& 0x80000000#32), true)

/-- ANGW by its steps (R116). -/
def angwSteps (a : Word) : Word :=
  if Fp.isNan a || decide (a.toNat / 2 ^ 23 % 256 = 255) || Fp.lt 0x47000000#32 (a &&& 0x7FFFFFFF#32) then 0x7FC00000#32
  else
    let k := Fp.rnd (Fp.mul a 0x3E22F983#32)
    let r := Fp.fma (minus k) 0x40C90FDB#32 a
    let r := if Fp.lt 0x40490FDB#32 r then Fp.sub r 0x40C90FDB#32 else r
    if Fp.lt r 0xC0490FDB#32 || Fp.eq r 0xC0490FDB#32 then Fp.add r 0x40C90FDB#32 else r
/-- An operand that ANGW and ANGADD refuse: no number, infinite, or beyond 2^15. -/
def angleOut (a : Word) : Bool :=
  Fp.isNan a || decide (a.toNat / 2 ^ 23 % 256 = 255) || Fp.lt 0x47000000#32 (a &&& 0x7FFFFFFF#32)

end Sys2Proof.Spec

open Sys2Proof.Spec

/-- R113: every arithmetic opcode of row 0x2_ writes d with its operation, its accesses take place, and nothing else changes; R114:
the fused operations of Format F and the two selections. -/
def Obligations.FloatResults : Prop :=
  opA .add (dAB fun a b => Fp.add a b)
  ∧ opA .sub (dAB fun a b => Fp.add a (minus b))
  ∧ opA .mul (dAB fun a b => Fp.mul a b)
  ∧ opA .fmac (dABD fun a b d => Fp.fma a b d)
  ∧ opA .fmsc (dABD fun a b d => Fp.fma (minus a) b d)
  ∧ opA .minOp (dAB fun a b =>
      if Fp.isNan a || Fp.isNan b then 0x7FC00000#32 else if Fp.lt b a then Fp.canon b else Fp.canon a)
  ∧ opA .maxOp (dAB fun a b =>
      if Fp.isNan a || Fp.isNan b then 0x7FC00000#32 else if Fp.lt a b then Fp.canon b else Fp.canon a)
  ∧ opA .absOp (dA fun a => if Fp.isNan a then 0x7FC00000#32 else Fp.canon a &&& 0x7FFFFFFF#32)
  ∧ opA .neg (dA fun a => if Fp.isNan a then 0x7FC00000#32 else Fp.canon a ^^^ 0x80000000#32)
  ∧ opA .mov (dA fun a => a)
  ∧ opA .sat (dAB limit)
  ∧ opA .muln (dAB fun a b => Fp.mul (minus a) b)
  ∧ opA .cvtfi (dA Fp.cvtfi)
  ∧ opA .cvtif (dA Fp.cvtif)
  ∧ opF .fma (dABC fun a b c => Fp.fma a b c)
  ∧ opF .fms (dABC fun a b c => Fp.fma a b (minus c))
  ∧ opF .fnma (dABC fun a b c => Fp.fma (minus a) b c)
  ∧ opF .fnms (dABC fun a b c => Fp.fma (minus a) b (minus c))
  ∧ opA .selz (fun _ c i => wr c i.d (if c.cc.z then c.rdF i.a else c.rdF i.b))
  ∧ opA .seln (fun _ c i => wr c i.d (if c.cc.n then c.rdF i.a else c.rdF i.b))

/-- R109, R114, R122, R123: each compare writes z, n and u by its order and leaves t; it writes no register. -/
def Obligations.CompareFlags : Prop :=
  opA .cmp (fun _ c i => { cc := some { c.cc with z := Fp.eq (c.rdF i.a) (c.rdF i.b), n := Fp.lt (c.rdF i.a) (c.rdF i.b)
                                                  u := Fp.isNan (c.rdF i.a) || Fp.isNan (c.rdF i.b) } })
  ∧ opA .cmpz (fun _ c i => { cc := some { c.cc with z := Fp.eq (c.rdF i.a) 0#32, n := Fp.lt (c.rdF i.a) 0#32
                                                     u := Fp.isNan (c.rdF i.a) } })
  ∧ opA .icmp (fun _ c i => { cc := some { c.cc with z := c.rdF i.a == c.rdF i.b, n := (c.rdF i.a).slt (c.rdF i.b), u := false } })
  ∧ opA .pcmp (fun _ c i => { cc := some { c.cc with z := c.rdP (i.a.toNat % 16) == c.rdP (i.b.toNat % 16)
                                                     n := (c.rdP (i.a.toNat % 16)).ult (c.rdP (i.b.toNat % 16)), u := false } })
  ∧ opI .cmpfi (fun c i => { cc := some { c.cc with z := Fp.eq (c.rdF i.a) i.imm, n := Fp.lt (c.rdF i.a) i.imm
                                                    u := Fp.isNan (c.rdF i.a) || Fp.isNan i.imm } })
  ∧ opI .icmpi (fun c i => { cc := some { c.cc with z := c.rdF i.a == i.imm, n := (c.rdF i.a).slt i.imm, u := false } })

/-- R115: the integer opcodes of row 0x4_, on raw words, modulo 2^32, with shift counts of five bits. -/
def Obligations.IntegerResults : Prop :=
  opA .iadd (dAB fun a b => BitVec.ofNat 32 (a.toNat + b.toNat))
  ∧ opA .isub (dAB fun a b => BitVec.ofInt 32 (a.toNat - b.toNat))
  ∧ opA .imul (dAB fun a b => BitVec.ofInt 32 (a.toInt * b.toInt))
  ∧ opA .andOp (dAB fun a b => a &&& b)
  ∧ opA .orOp (dAB fun a b => a ||| b)
  ∧ opA .xorOp (dAB fun a b => a ^^^ b)
  ∧ opA .shl (dAB fun a b => BitVec.ofNat 32 (a.toNat * 2 ^ (b.toNat % 32)))
  ∧ opA .shr (dAB fun a b => BitVec.ofNat 32 (a.toNat / 2 ^ (b.toNat % 32)))
  ∧ opA .sar (dAB fun a b => BitVec.ofInt 32 (a.toInt / 2 ^ (b.toNat % 32)))
  ∧ opA .imin (dAB fun a b => BitVec.ofInt 32 (min a.toInt b.toInt))
  ∧ opA .imax (dAB fun a b => BitVec.ofInt 32 (max a.toInt b.toInt))
  ∧ opA .isatu (dAB fun a b => BitVec.ofInt 32 (min (max a.toInt 0) b.toInt))
  ∧ opA .notOp (dA fun a => BitVec.ofNat 32 (2 ^ 32 - 1 - a.toNat))

/-- R122, R124: bit operations, immediate forms, packing and the conversions of row 0xD_. -/
def Obligations.BitAndImmediateResults : Prop :=
  opA .popc (dA fun a => BitVec.ofNat 32 ((List.range 32).countP fun k => a.getLsbD k))
  ∧ opA .clz (dA fun a => BitVec.ofNat 32 ((List.range 32).countP fun k => (List.range (k + 1)).all fun j => !a.getLsbD (31 - j)))
  ∧ opI .bext (dAImm bextOf)
  ∧ (∀ (a imm : Word) (k : Nat), k < 32 →
      (bextOf a imm).getLsbD k = (decide (k < imm.toNat / 32 % 32 + 1) && a.getLsbD (imm.toNat % 32 + k)))
  ∧ opI .bins (dAImmD fun a imm d => binsOf d a imm)
  ∧ (∀ (d a imm : Word) (k : Nat), k < 32 →
      (binsOf d a imm).getLsbD k = if imm.toNat % 32 ≤ k ∧ k < imm.toNat % 32 + (imm.toNat / 32 % 32 + 1)
        then a.getLsbD (k - imm.toNat % 32) else d.getLsbD k)
  ∧ opI .andi (dAImm fun a imm => a &&& imm)
  ∧ opI .ori (dAImm fun a imm => a ||| imm)
  ∧ opI .xori (dAImm fun a imm => a ^^^ imm)
  ∧ opI .iaddi (dAImm fun a imm => BitVec.ofNat 32 (a.toNat + imm.toNat))
  ∧ opI .shli (dAImm fun a imm => BitVec.ofNat 32 (a.toNat * 2 ^ (imm.toNat % 32)))
  ∧ opI .shri (dAImm fun a imm => BitVec.ofNat 32 (a.toNat / 2 ^ (imm.toNat % 32)))
  ∧ opI .sari (dAImm fun a imm => BitVec.ofInt 32 (a.toInt / 2 ^ (imm.toNat % 32)))
  ∧ opA .diffw (dAB fun a b => Fp.cvtif (a - b))
  ∧ opA .ucvtf (dA Fp.ucvtf)
  ∧ opA .cvtfu (dA Fp.cvtfu)
  ∧ opA .pack16 (dAB fun a b => BitVec.ofNat 32 (b.toNat % 65536 * 65536 + a.toNat % 65536))
  ∧ opA .unpkl (dA fun a => BitVec.ofInt 32 (a.setWidth 16).toInt)
  ∧ opA .unpkh (dA fun a => BitVec.ofInt 32 (a.toInt / 65536))

/-- R116: the domain operations by their steps, on pairs; R117: the TAP family. -/
def Obligations.DomainResults : Prop :=
  opA .clarke (fun _ c i => wrPair c i.d (Fp.canon (c.rdEven i.a))
      (Fp.fma (c.rdOdd i.a) 0x3F93CD3A#32 (Fp.mul (c.rdEven i.a) 0x3F13CD3A#32)))
  ∧ opA .clarke3 (fun _ c i =>
      let s := Fp.add (c.rdOdd i.a) (c.rdF i.b)
      let t := Fp.fma (c.rdEven i.a) 0x40000000#32 (minus s)
      wrPair c i.d (Fp.mul t 0x3EAAAAAB#32) (Fp.mul (Fp.sub (c.rdOdd i.a) (c.rdF i.b)) 0x3F13CD3A#32))
  ∧ opA .park (fun _ c i =>
      let p := Fp.mul (c.rdEven i.a) (c.rdEven i.b)
      wrPair c i.d (Fp.fma (c.rdEven i.a) (c.rdOdd i.b) (Fp.mul (c.rdOdd i.a) (c.rdEven i.b)))
        (Fp.fma (c.rdOdd i.a) (c.rdOdd i.b) (minus p)))
  ∧ opA .ipark (fun _ c i =>
      let p := Fp.mul (c.rdOdd i.a) (c.rdEven i.b)
      wrPair c i.d (Fp.fma (c.rdEven i.a) (c.rdOdd i.b) (minus p))
        (Fp.fma (c.rdEven i.a) (c.rdEven i.b) (Fp.mul (c.rdOdd i.a) (c.rdOdd i.b))))
  ∧ opF .svm3 (fun c i =>
      let r := svmSteps (c.rdEven i.a) (c.rdOdd i.a) (c.rdF i.b) (c.rdF i.c)
      let k := 4 * (i.d.toNat / 4)
      { f := [(c.phys k, r.1.1), (c.phys (k + 1), r.1.2.1), (c.phys (k + 2), r.1.2.2)]
        cc := some { c.cc with n := r.2.1, u := r.2.2 } })
  ∧ opA .limv (fun _ c i =>
      let r := if Fp.isNan (c.rdEven i.a) || Fp.isNan (c.rdOdd i.a) || Fp.isNan (c.rdF i.b)
        then (0x7FC00000#32, 0x7FC00000#32, true) else limvSteps (c.rdEven i.a) (c.rdOdd i.a) (c.rdF i.b)
      { wrPair c i.d r.1 r.2.1 with cc := some { c.cc with n := r.2.2 } })
  ∧ opA .angw (dA angwSteps)
  ∧ opA .angadd (dAB fun a b => if angleOut a || angleOut b then 0x7FC00000#32 else angwSteps (Fp.add a b))
  ∧ opA .tap (fun _ c i => { f := [(c.phys i.d.toNat, Fp.fma (c.rdF i.a) (c.rdF i.b) (c.rdF i.d)),
      (c.phys (if i.a.toNat = 31 then 0 else if i.a.toNat = 63 then 32 else i.a.toNat + 1), c.rdF i.a)] })
  ∧ opA .tapn (dABD fun a b d => Fp.fma a b d)
  ∧ opA .tap0 (dAB Fp.mul)

/-- R120, R123: the further operations and the FP32 immediate forms; R125, R109: the limited sums, which tell in n whether the
limit acted, and the rest of row 0xE_. -/
def Obligations.FurtherFloatResults : Prop :=
  opA .rnd (dA Fp.rnd)
  ∧ opA .frac (dA fun a => Fp.sub a (Fp.rnd a))
  ∧ opA .sign (dA fun a =>
      if Fp.isNan a then 0x7FC00000#32 else if Fp.eq a 0#32 then 0#32 else if Fp.lt a 0#32 then 0xBF800000#32 else 0x3F800000#32)
  ∧ opA .cpsgn (dAB fun a b =>
      if Fp.isNan a then 0x7FC00000#32 else (Fp.canon a &&& 0x7FFFFFFF#32) ||| (b &&& 0x80000000#32))
  ∧ opA .scale (dAB Fp.scale)
  ∧ opA .deadz (dAB fun a b => Fp.sub a (limit a b))
  ∧ opA .lpf (dABD fun a b d => Fp.fma b (Fp.sub a d) d)
  ∧ opA .dot2 (fun _ c i => wr c i.d (Fp.fma (c.rdEven i.a) (c.rdEven i.b) (Fp.mul (c.rdOdd i.a) (c.rdOdd i.b))))
  ∧ opA .cross2 (fun _ c i => wr c i.d (Fp.fma (c.rdEven i.a) (c.rdOdd i.b) (minus (Fp.mul (c.rdOdd i.a) (c.rdEven i.b)))))
  ∧ opA .mag2 (fun _ c i => wr c i.d (Fp.fma (c.rdEven i.a) (c.rdEven i.a) (Fp.mul (c.rdOdd i.a) (c.rdOdd i.a))))
  ∧ opI .addfi (dAImm Fp.add)
  ∧ opI .mulfi (dAImm Fp.mul)
  ∧ opI .fmacfi (dAImmD fun a imm d => Fp.fma a imm d)
  ∧ opI .minfi (dAImm Fp.min)
  ∧ opI .maxfi (dAImm Fp.max)
  ∧ opI .satfi (dAImm limit)
  ∧ opF .ints (fun c i =>
      let s := Fp.fma (c.rdF i.a) (c.rdF i.b) (c.rdF i.d)
      let r := limit s (c.rdF i.c)
      { wr c i.d r with cc := some { c.cc with n := decide (Fp.canon r ≠ Fp.canon s) } })
  ∧ opA .rlim (fun _ c i =>
      let e := Fp.sub (c.rdF i.a) (c.rdF i.d)
      let g := limit e (c.rdF i.b)
      { wr c i.d (Fp.add (c.rdF i.d) g) with cc := some { c.cc with n := decide (Fp.canon g ≠ Fp.canon e) } })
  ∧ opA .maxabs (dAB fun a b => Fp.max (Fp.abs a) (Fp.abs b))
  ∧ opA .avg (dAB fun a b => Fp.mul (Fp.add a b) 0x3F000000#32)
  ∧ opA .sqdif (dAB fun a b => Fp.mul (Fp.sub a b) (Fp.sub a b))

/-- R111, R112, R121: NOP with its two accesses, SETRRB, the moves and the pointer operations. -/
def Obligations.MoveResults : Prop :=
  opA .nop (fun _ _ _ => {})
  ∧ opI .setrrb (fun _ i => { rrb := some (BitVec.ofNat 5 i.imm.toNat) })
  ∧ opI .movfi (dAImm fun _ imm => imm)
  ∧ opI .movpi (fun _ i => { p := [(i.d.toNat % 16, BitVec.ofNat 16 i.imm.toNat)] })
  ∧ opI .movmi (fun _ i => { m := [(i.d.toNat % 16, i.imm)] })
  ∧ opA .movpf (fun _ c i => { p := [(i.d.toNat % 16, BitVec.ofNat 16 (c.rdF i.a).toNat)] })
  ∧ opA .movfp (fun _ c i => wr c i.d (BitVec.ofNat 32 (c.rdP (i.a.toNat % 16)).toNat))
  ∧ opA .movmf (fun _ c i => { m := [(i.d.toNat % 16, c.rdF i.a)] })
  ∧ opA .movfm (fun _ c i => wr c i.d (c.rdM (i.a.toNat % 16)))
  ∧ opA .movfc (fun _ c i => wr c i.d (BitVec.ofNat 32 (c.rdC (i.a.toNat % 8)).toNat))
  ∧ opA .movfcc (fun _ c i => wr c i.d (BitVec.ofNat 32 (8 * c.cc.t.toNat + 4 * c.cc.u.toNat + 2 * c.cc.n.toNat + c.cc.z.toNat)))
  ∧ opA .movrrb (fun _ c i => wr c i.d (BitVec.ofNat 32 c.rrb.toNat))
  ∧ opA .movpp (fun _ c i => { p := [(i.d.toNat % 16, c.rdP (i.a.toNat % 16))] })
  ∧ opA .movmm (fun _ c i => { m := [(i.d.toNat % 16, c.rdM (i.a.toNat % 16))] })
  ∧ opA .addpm (fun _ c i => { p := [(i.d.toNat % 16, postMod (c.rdP (i.a.toNat % 16)) (c.rdM (i.b.toNat % 16)))] })
  ∧ opI .addpi (fun c i => { p := [(i.d.toNat % 16, BitVec.ofNat 16 ((c.rdP (i.a.toNat % 16)).toNat + i.imm.toNat))] })
  ∧ opA .movpc (fun _ c i => { p := [(i.d.toNat % 16, c.rdC (i.a.toNat % 8))] })

/-- R121, R60: the absolute loads and stores. A load gives what a core read of the word sees, a pending trig result first (R73). -/
def Obligations.AbsoluteAccess : Prop :=
  opM .ldx (fun s c i => { loads := [(c.phys i.f.toNat, coreWord s c (xAddr i.cell i.addr.toNat))], reads := [xAddr i.cell i.addr.toNat] })
  ∧ opM .ldy (fun s c i => { loads := [(c.phys i.f.toNat, coreWord s c (yAddr i.cell i.addr.toNat))], reads := [yAddr i.cell i.addr.toNat] })
  ∧ opM .stx (fun _ c i => { stores := [(xAddr i.cell i.addr.toNat, c.rdF i.f)] })
  ∧ opM .sty (fun _ c i => { stores := [(yAddr i.cell i.addr.toNat, c.rdF i.f)] })
  ∧ opM .ldxp (fun s c i =>
      let lo := xAddr i.cell (2 * (i.addr.toNat / 2))
      let k := 2 * (i.f.toNat / 2)
      { loads := [(c.phys k, coreWord s c lo), (c.phys (k + 1), coreWord s c (lo + 4))], reads := [lo, lo + 4] })
  ∧ opM .ldyp (fun s c i =>
      let lo := yAddr i.cell (2 * (i.addr.toNat / 2))
      let k := 2 * (i.f.toNat / 2)
      { loads := [(c.phys k, coreWord s c lo), (c.phys (k + 1), coreWord s c (lo + 4))], reads := [lo, lo + 4] })
  ∧ opM .stxp (fun _ c i =>
      let lo := xAddr i.cell (2 * (i.addr.toNat / 2))
      { stores := [(lo, c.rdEven i.f), (lo + 4, c.rdOdd i.f)] })
  ∧ opM .styp (fun _ c i =>
      let lo := yAddr i.cell (2 * (i.addr.toNat / 2))
      { stores := [(lo, c.rdEven i.f), (lo + 4, c.rdOdd i.f)] })

namespace Sys2Proof.Spec

/-- A branch with its condition over cc: taken, it puts the target in the shadow of the next instruction and pops the loops
whose bodies the target lies outside, with every loop inside them; not taken, it is an instruction without effect. -/
def opB (op : FmtB → Instr) (cond : CC → Bool) : Prop :=
  ∀ (i : FmtB) (s : State), s.ready i.cell i.stg →
    ∃ t, exec (op i) s = .next t ∧ Quiet s t i.cell
      ∧ (cond (s.cell i.cell).cc = false → (t.cell i.cell).shadow = none
          ∧ ((∀ l ∈ (s.cell i.cell).loops, l.last ≠ (s.cell i.cell).pc.toNat) →
              (t.cell i.cell).pc = (s.cell i.cell).pc + 1#14 ∧ (t.cell i.cell).loops = (s.cell i.cell).loops
                ∧ (t.cell i.cell).c = (s.cell i.cell).c ∧ (t.cell i.cell).rrb = (s.cell i.cell).rrb))
      ∧ (cond (s.cell i.cell).cc = true →
          (t.cell i.cell).shadow = some i.target ∧ (t.cell i.cell).pc = (s.cell i.cell).pc + 1#14
            ∧ (t.cell i.cell).c = (s.cell i.cell).c ∧ (t.cell i.cell).rrb = (s.cell i.cell).rrb
            ∧ ∃ popped, (s.cell i.cell).loops = popped ++ (t.cell i.cell).loops
                ∧ (∀ l ∈ (t.cell i.cell).loops, l.start ≤ i.target.toNat ∧ i.target.toNat ≤ l.last)
                ∧ (∀ l, popped.getLast? = some l → ¬ (l.start ≤ i.target.toNat ∧ i.target.toNat ≤ l.last)))

/-- A loop instruction with its count: a body that does not lie after it makes it do nothing; a counter in use or a body that
ends beyond the enclosing loop is left to the traps; a count of 0 skips the body; otherwise the loop is pushed. -/
def opL (op : FmtL → Instr) (count : CellSt → FmtL → Nat) : Prop :=
  ∀ (i : FmtL) (s : State), s.ready i.cell i.stg →
    let c := s.cell i.cell
    (i.last.toNat ≤ c.pc.toNat ∨ ((∀ l ∈ c.loops, l.ctr ≠ i.k.toNat) ∧
      (count c i = 0 ∨ ∀ l, c.loops.head? = some l → i.last.toNat ≤ l.last))) →
    ∃ t, exec (op i) s = .next t ∧ Quiet s t i.cell ∧ (t.cell i.cell).shadow = none
      ∧ (i.last.toNat ≤ c.pc.toNat → (∀ l ∈ c.loops, l.last ≠ c.pc.toNat) →
          (t.cell i.cell).pc = c.pc + 1#14 ∧ (t.cell i.cell).loops = c.loops ∧ (t.cell i.cell).c = c.c
            ∧ (t.cell i.cell).rrb = c.rrb)
      ∧ (c.pc.toNat < i.last.toNat → count c i = 0 → (∀ l ∈ c.loops, l.last ≠ i.last.toNat) →
          (t.cell i.cell).rdC i.k.toNat = 0#16 ∧ (t.cell i.cell).pc = i.last + 1#14 ∧ (t.cell i.cell).loops = c.loops
            ∧ (t.cell i.cell).rrb = c.rrb ∧ ∀ k, k ≠ i.k.toNat → (t.cell i.cell).rdC k = c.rdC k)
      ∧ (c.pc.toNat < i.last.toNat → 0 < count c i →
          (t.cell i.cell).rdC i.k.toNat = BitVec.ofNat 16 (count c i) ∧ (t.cell i.cell).pc = c.pc + 1#14
            ∧ (t.cell i.cell).rrb = c.rrb ∧ (∀ k, k ≠ i.k.toNat → (t.cell i.cell).rdC k = c.rdC k)
            ∧ (t.cell i.cell).loops
                = ⟨i.k.toNat, c.pc.toNat + 1, i.last.toNat, i.rot, if i.rot then i.sc.toNat + 1 else 1, count c i, 0⟩ :: c.loops)

/-- A trig operation to registers: the registers it will write hold its results for every later read (R73), cc.t is set, and
nothing else changes. Where a load of the same instruction names such a register the value is open (UB_02), and the
instruction completes as well. -/
def opTrig (op : FmtA → Instr) (w : CellSt → FmtA → List (Nat × Word)) : Prop :=
  ∀ (i : FmtA) (s : State), s.ready i.cell i.stg → s.clean (s.xOf i) → s.clean (s.yOf i) →
    ∃ t, exec (op i) s = .next t ∧ (t.cell i.cell).cc = { (s.cell i.cell).cc with t := true }
      ∧ ((∀ x ∈ w (s.cell i.cell) i, lastAt ((s.xOf i).loads ++ (s.yOf i).loads) x.1 = none) →
          Did s t i.cell { trig := some ⟨(w (s.cell i.cell) i).map (fun x => (.reg x.1, x.2)), false⟩
                           cc := some { (s.cell i.cell).cc with t := true } } (s.xOf i) (s.yOf i))

/-- The access of a field that is the destination of a memory form: its pointer post-modified, and nothing read or stored. -/
def pointerOnly (c : CellSt) (a : Access) : AccRes :=
  { ptr := if a.pm then some (a.p.toNat, postMod (c.rdP a.p.toNat) (c.rdM a.m.toNat)) else none }

/-- A trig operation to memory, one word or an even word and the next: tm = 0 names the Y word at the pointer of ya, tm = 1 the X
word at the pointer of xa; every later read of the word gives the result (R73). -/
def opTrigMem (op : FmtA → Instr) (pair : Bool) (v : CellSt → FmtA → Word × Word) : Prop :=
  ∀ (i : FmtA) (s : State), s.ready i.cell i.stg →
    let c := s.cell i.cell
    let p := (c.rdP (if i.tm then i.xa.p.toNat else i.ya.p.toNat)).toNat
    let at_ := fun k => if i.tm then xAddr i.cell k else yAddr i.cell k
    let xa := if i.tm then pointerOnly c i.xa else s.xOf i
    let ya := if i.tm then s.yOf i else pointerOnly c i.ya
    p < 16384 → s.clean xa → s.clean ya →
    ∃ t, exec (op i) s = .next t
      ∧ Did s t i.cell { trig := some ⟨if pair then [(.mem (at_ (2 * (p / 2))), (v c i).1), (.mem (at_ (2 * (p / 2) + 1)), (v c i).2)]
                                         else [(.mem (at_ p), (v c i).1)], false⟩
                         cc := some { c.cc with t := true } } xa ya

end Sys2Proof.Spec

/-- R69, R111: the eleven branches. -/
def Obligations.BranchOutcomes : Prop :=
  opB .br (fun _ => true)
  ∧ opB .breq (fun c => c.z) ∧ opB .brne (fun c => !c.z)
  ∧ opB .brlt (fun c => c.n) ∧ opB .brge (fun c => !(c.n || c.u))
  ∧ opB .brun (fun c => c.u) ∧ opB .bror (fun c => !c.u)
  ∧ opB .brgt (fun c => !(c.z || c.n || c.u)) ∧ opB .brle (fun c => c.z || c.n)
  ∧ opB .brts (fun c => c.t) ∧ opB .brtc (fun c => !c.t)

/-- R69, R74: an instruction in the shadow of a taken branch does nothing but put the pc at the branch's target; a trig operation
among them is put in flight without a result. It is issued and fetched all the same, so it counts in CELL_ISSUED (R91), and a
single-bit error of its word is corrected and counted (R55). Holds for every cell instruction (for the queue writes, where no mailbox post
is half written). -/
def Obligations.ShadowSquashes : Prop :=
  ∀ (i : Instr) (n : Nat) (stg : BitVec 3) (s : State) (r : RunCtx) (target : BitVec 14),
    i.cellStg = some (n, stg) → s.issues n = some r → (s.cell n).shadow = some target → r.post = [] →
    ∃ t, exec i s = .next t
      ∧ t.cell n = { s.cell n with run := some { r with issued := r.issued + 1 }, shadow := none, pc := target
                                   trig := (s.cell n).trig ++ (if i.isTrig then [⟨[], true⟩] else []) }
      ∧ (∀ j, j ≠ n → t.cell j = s.cell j)
      ∧ (∀ o, o ≠ cellRegs n + Reg.cellIssuedIssued.off → o ≠ cellRegs n + Reg.cellEccCorrected.off → t.reg o = s.reg o)
      ∧ t = { s with cells := t.cells, regs := t.regs, flip1 := t.flip1 }

/-- R65, R67, R88: an instruction whose stage the innermost rotating loop suppresses in this pass writes nothing, accesses no memory and
modifies no pointer, and (R88) raises no fault. Holds for every cell instruction. -/
def Obligations.StageSuppresses : Prop :=
  ∀ (i : Instr) (n : Nat) (stg : BitVec 3) (s : State) (r : RunCtx) (l : LoopEnt),
    i.cellStg = some (n, stg) → s.issues n = some r → (s.cell n).shadow = none → r.post = [] →
    (s.cell n).loops.find? LoopEnt.rot = some l → (l.pass < stg.toNat ∨ stg.toNat + l.n ≤ l.pass) →
    ∃ t, exec i s = .next t ∧ Quiet s t n ∧ (t.cell n).shadow = none
      ∧ ((∀ l ∈ (s.cell n).loops, l.last ≠ (s.cell n).pc.toNat) →
          (t.cell n).pc = (s.cell n).pc + 1#14 ∧ (t.cell n).loops = (s.cell n).loops ∧ (t.cell n).c = (s.cell n).c
            ∧ (t.cell n).rrb = (s.cell n).rrb)

/-- R62, R65, R100, R111: LOOP takes its count from its field, LOOPP from the pointer register that n[3:0] names. -/
def Obligations.LoopStarts : Prop :=
  opL .loop (fun _ i => i.n.toNat) ∧ opL .loopp (fun c i => (c.rdP (i.n.toNat % 16)).toNat)

/-- R62, R65, R66: at the last instruction of the innermost loop's body a further pass goes back to the body's first instruction and
the last pass leaves the loop; the counter is decremented, and rrb is decremented modulo 32 when the loop rotates. Shown on a
NOP without accesses, where no enclosing loop ends at the same instruction. -/
def Obligations.LoopPassEnds : Prop :=
  ∀ (i : FmtA) (s : State) (l : LoopEnt) (outer : List LoopEnt), s.ready i.cell i.stg → i.xa.kind = 0#2 → i.ya.kind = 0#2 →
    (s.cell i.cell).loops = l :: outer → l.last = (s.cell i.cell).pc.toNat → (∀ x ∈ outer, x.last ≠ (s.cell i.cell).pc.toNat) →
    let again := if l.rot then decide (l.pass + 1 < l.n + l.stages - 1) else decide (1 < ((s.cell i.cell).rdC l.ctr).toNat)
    ∃ t, exec (.nop i) s = .next t ∧ Quiet s t i.cell
      ∧ (t.cell i.cell).pc = (if again then BitVec.ofNat 14 l.start else (s.cell i.cell).pc + 1#14)
      ∧ (t.cell i.cell).loops = (if again then { l with pass := l.pass + 1 } :: outer else outer)
      ∧ (t.cell i.cell).rrb = (if l.rot then (s.cell i.cell).rrb - 1#5 else (s.cell i.cell).rrb)
      ∧ (∀ k, (t.cell i.cell).rdC k
          = if k = l.ctr then BitVec.ofNat 16 (((s.cell i.cell).rdC l.ctr).toNat - 1) else (s.cell i.cell).rdC k)

/-- R71, R72, R73, R110, R118: the trig operations with register destinations. -/
def Obligations.TrigRegisterForms : Prop :=
  opTrig .sin (fun c i => [(c.phys i.d.toNat, Fp.sin (c.rdF i.a))])
  ∧ opTrig .cos (fun c i => [(c.phys i.d.toNat, Fp.cos (c.rdF i.a))])
  ∧ opTrig .sincos (fun c i => [(c.phys (2 * (i.d.toNat / 2)), Fp.sin (c.rdF i.a)), (c.phys (2 * (i.d.toNat / 2) + 1), Fp.cos (c.rdF i.a))])
  ∧ opTrig .atan2 (fun c i => [(c.phys i.d.toNat, Fp.atan2 (c.rdF i.a) (c.rdF i.b))])
  ∧ opTrig .sqrt (fun c i => [(c.phys i.d.toNat, Fp.sqrt (c.rdF i.a))])
  ∧ opTrig .rsqrt (fun c i => [(c.phys i.d.toNat, Fp.rsqrt (c.rdF i.a))])
  ∧ opTrig .recip (fun c i => [(c.phys i.d.toNat, Fp.recip (c.rdF i.a))])
  ∧ opTrig .exp2 (fun c i => [(c.phys i.d.toNat, Fp.exp2 (c.rdF i.a))])
  ∧ opTrig .log2 (fun c i => [(c.phys i.d.toNat, Fp.log2 (c.rdF i.a))])

/-- R72, R73, R110, R118: the trig operations with memory destinations. -/
def Obligations.TrigMemoryForms : Prop :=
  opTrigMem .sinm false (fun c i => (Fp.sin (c.rdF i.a), 0#32))
  ∧ opTrigMem .cosm false (fun c i => (Fp.cos (c.rdF i.a), 0#32))
  ∧ opTrigMem .sincosm true (fun c i => (Fp.sin (c.rdF i.a), Fp.cos (c.rdF i.a)))
  ∧ opTrigMem .atan2m false (fun c i => (Fp.atan2 (c.rdF i.a) (c.rdF i.b), 0#32))
  ∧ opTrigMem .sqrtm false (fun c i => (Fp.sqrt (c.rdF i.a), 0#32))
  ∧ opTrigMem .rsqrtm false (fun c i => (Fp.rsqrt (c.rdF i.a), 0#32))
  ∧ opTrigMem .recipm false (fun c i => (Fp.recip (c.rdF i.a), 0#32))
  ∧ opTrigMem .exp2m false (fun c i => (Fp.exp2 (c.rdF i.a), 0#32))
  ∧ opTrigMem .log2m false (fun c i => (Fp.log2 (c.rdF i.a), 0#32))

/-- R72, R74: the oldest trig operation in flight ends: its results go to their registers and memory words, none of them when it was
squashed; every other register of the file and every byte outside those words is unchanged, and the axes are where no such word
belongs to a block of a standard kernel. -/
def Obligations.TrigWritesBack : Prop :=
  ∀ (n : Nat) (s : State) (x : TrigOp) (later : List TrigOp), n < s.cellCount → (s.cell n).trig = x :: later →
    (∀ a v, (TrigDest.mem a, v) ∈ x.writes → a % 4 = 0) →
    ∃ t, exec (.trigWriteback n) s = .next t ∧ (t.cell n).trig = later
      ∧ (x.squashed = true → (t.cell n).f = (s.cell n).f ∧ t.ram = s.ram)
      ∧ (x.squashed = false →
          (∀ k, Tab.get 0#32 (t.cell n).f k
            = (lastAt (x.writes.filterMap (fun w => match w.1 with | .reg r => some (r, w.2) | .mem _ => none)) k).getD
                (Tab.get 0#32 (s.cell n).f k))
          ∧ (∀ a v, lastAt (x.writes.filterMap (fun w => match w.1 with | .mem m => some (m, w.2) | .reg _ => none)) a = some v →
              t.ramWord a = v)
          ∧ (∀ b, (∀ a v, (TrigDest.mem a, v) ∈ x.writes → b < a ∨ a + 4 ≤ b) → t.ramByte b = s.ramByte b))
      ∧ t.cell n = { s.cell n with f := (t.cell n).f, trig := later }
      ∧ (∀ j, j ≠ n → t.cell j = s.cell j)
      ∧ ((∀ a v, (TrigDest.mem a, v) ∈ x.writes → s.blockAt a = none) → t.axes = s.axes)
      ∧ t = { s with cells := t.cells, ram := t.ram, flip1 := t.flip1, flip2 := t.flip2, axes := t.axes }

/-- R110, R111: TSYNC leaves no trig operation in flight and clears cc.t; what every register was to be read as it now is, but for
those its accesses load. A load gives what it read where no pending word belongs to a block of a standard kernel. -/
def Obligations.TsyncDrains : Prop :=
  ∀ (i : FmtA) (s : State), s.ready i.cell i.stg → s.clean (s.xOf i) → s.clean (s.yOf i) →
    (∀ x ∈ (s.cell i.cell).trig, (x.writes.map Prod.fst).Nodup ∧ ∀ a v, (TrigDest.mem a, v) ∈ x.writes → a % 4 = 0) →
    ∃ t, exec (.tsync i) s = .next t ∧ (t.cell i.cell).trig = [] ∧ (t.cell i.cell).cc = { (s.cell i.cell).cc with t := false }
      ∧ (∀ k, lastAt ((s.xOf i).loads ++ (s.yOf i).loads) k = none → (t.cell i.cell).getF k = (s.cell i.cell).getF k)
      ∧ ((∀ a, (s.cell i.cell).pendingAt (.mem a) ≠ none → s.blockAt a = none) →
          (∀ k v, lastAt ((s.xOf i).loads ++ (s.yOf i).loads) k = some v → (t.cell i.cell).getF k = v) ∧ t.axes = s.axes)
      ∧ (∀ k, (t.cell i.cell).rdP k = (lastAt ((s.xOf i).ptr.toList ++ (s.yOf i).ptr.toList) k).getD ((s.cell i.cell).rdP k))
      ∧ (t.cell i.cell).m = (s.cell i.cell).m
      ∧ ((∀ l ∈ (s.cell i.cell).loops, l.last ≠ (s.cell i.cell).pc.toNat) → (t.cell i.cell).pc = (s.cell i.cell).pc + 1#14)
      ∧ (∀ j, j ≠ i.cell → t.cell j = s.cell j)
      ∧ t = { s with cells := t.cells, ram := t.ram, regs := t.regs, flip1 := t.flip1, flip2 := t.flip2, freeCtr := t.freeCtr
                     axes := t.axes }

namespace Sys2Proof.Spec

/-- A cell abandoned its operation for a fault (R75, R88 to R90): where it is the operation's first, its bit of CELL_FAULT is set
and it is on its way to Foxglove at L0 with the cell as source; every trig operation has ended; the cell is free, unless its
prefetch slot held the next job. -/
def Trapped (s t : State) (n code : Nat) : Prop :=
  ((∀ r, (s.cell n).run = some r → r.nonfinite = false) →
    bitsOf (t.reg (cellRegs n + 8)).toNat (code - 1) (code - 1) = 1 ∧ (⟨code, 0, ⟨1, n⟩⟩ : Raising) ∈ t.fox.inflight)
  ∧ (t.cell n).trig = [] ∧ (t.cell n).loops = []
  ∧ ((s.cell n).slot = none → (t.cell n).run = none)

end Sys2Proof.Spec

/-- R119: QGET takes the next word of the port's token, the one the operation began with; QISH tells in z whether it is a hold; QCYC gives the cycle of the
operation's tokens (for a work item, which has none, it completes with an open value). R82, R83, R133: a queue write appends a word to
the token of its output port, QHOLD marks that token a hold, and a word that is not finite written by QPUT is replaced by the word a
hold of the queue carries there, with NONFINITE raised once. -/
def Obligations.QueueOperations : Prop :=
  (∀ (i : FmtA) (s : State) (q : Nat) (r : RunCtx) (w : Word), s.ready i.cell i.stg → s.clean (s.xOf i) → s.clean (s.yOf i) →
    portOf s (s.cell i.cell) i.b = .input q → (s.cell i.cell).run = some r →
    (((r.tok q).map Token.words).getD [])[Tab.get 0 r.rd (i.b.toNat % 16)]? = some w →
    ∃ t, exec (.qget i) s = .next t
      ∧ Did s t i.cell { wr (s.cell i.cell) i.d w with
          run := some { r with rd := Tab.put 0 r.rd (i.b.toNat % 16) (Tab.get 0 r.rd (i.b.toNat % 16) + 1) } } (s.xOf i) (s.yOf i))
  ∧ (∀ (i : FmtA) (s : State) (q : Nat) (r : RunCtx), s.ready i.cell i.stg → s.clean (s.xOf i) → s.clean (s.yOf i) →
    portOf s (s.cell i.cell) i.b = .input q → (s.cell i.cell).run = some r →
    ∃ t, exec (.qish i) s = .next t
      ∧ Did s t i.cell { cc := some { (s.cell i.cell).cc with z := ((r.tok q).map Token.hold).getD true, n := false, u := false } }
          (s.xOf i) (s.yOf i))
  ∧ (∀ (i : FmtA) (s : State) (r : RunCtx), s.ready i.cell i.stg → s.clean (s.xOf i) → s.clean (s.yOf i) →
    (s.cell i.cell).run = some r →
    ∃ t, exec (.qcyc i) s = .next t ∧ (∀ k, r.job = .op k → Did s t i.cell (wr (s.cell i.cell) i.d r.cycle) (s.xOf i) (s.yOf i)))
  ∧ (∀ (i : FmtA) (s : State) (q k : Nat) (r : RunCtx), s.ready i.cell i.stg → s.clean (s.xOf i) → s.clean (s.yOf i) →
    portOf s (s.cell i.cell) i.b = .output q → (s.cell i.cell).run = some r → r.job = .op k →
    let w := (s.cell i.cell).rdF i.a
    let p := i.b.toNat % 16
    let now := Tab.get [] r.outs p
    (∃ t, exec (.qputr i) s = .next t
      ∧ Did s t i.cell { run := some { r with outs := Tab.put [] r.outs p (now ++ [w]) } } (s.xOf i) (s.yOf i))
    ∧ (∃ t, exec (.qhold i) s = .next t ∧ Did s t i.cell { run := some { r with holds := p :: r.holds } } (s.xOf i) (s.yOf i))
    ∧ (w.toNat / 2 ^ 23 % 256 ≠ 255 → ∃ t, exec (.qput i) s = .next t
      ∧ Did s t i.cell { run := some { r with outs := Tab.put [] r.outs p (now ++ [w]) } } (s.xOf i) (s.yOf i))
    ∧ (w.toNat / 2 ^ 23 % 256 = 255 → ∃ t, exec (.qput i) s = .next t
      ∧ ((t.cell i.cell).run.map (fun x => Tab.get [] x.outs p)) = some (now ++ [((s.holdWords q)[now.length]?).getD 0#32])
      ∧ ((t.cell i.cell).run.map RunCtx.nonfinite) = some true
      ∧ (r.nonfinite = false → (⟨6, 0, ⟨1, i.cell⟩⟩ : Raising) ∈ t.fox.inflight)
      ∧ (r.nonfinite = true → t.fox = s.fox)))

namespace Sys2Proof.Spec

/-- A queue write `op` of a work item puts `v` into the post that port b[3:0] collects for the mailbox `q` of `len` words: below its
length the post waits; at its length it goes to the command processor as a MAILBOX_POST of the work item, with its first word as apply
cycle, and the collection starts afresh. `plain`: nothing else happens than the accesses. -/
def collects (op : Instr) (i : FmtA) (s : State) (q len : Nat) (r : RunCtx) (w : WorkItem) (v : Word) (plain : Bool) : Prop :=
  let words := Tab.get [] r.post (i.b.toNat % 16) ++ [v]
  (words.length < len → ∃ t, exec op s = .next t
    ∧ ((t.cell i.cell).run.map (fun x => Tab.get [] x.post (i.b.toNat % 16))) = some words
    ∧ (plain = true → Did s t i.cell { run := some { r with post := Tab.put [] r.post (i.b.toNat % 16) words } } (s.xOf i) (s.yOf i)))
  ∧ (words.length = len → ∃ t, exec op s = .next t
    ∧ ((t.cell i.cell).run.map (fun x => Tab.get [] x.post (i.b.toNat % 16))) = some []
    ∧ ∃ x, t.host.waiting = s.host.waiting ++ [x] ∧ x.cmd.port = .workItem w.ch ∧ x.cmd.opcode = 0x0D13
        ∧ x.cmd.tag = BitVec.ofNat 16 w.tag ∧ x.cmd.apply = words.headD 0#32
        ∧ x.item = some ⟨w.ch, w.tag, q, ⟨words.headD 0#32, words.tail⟩⟩)

/-- The effect of a core feed of channel `ch` (R84, R85, R483): the bytes of fa, least significant first, into the running value; or,
where the channel is bound to the DMA port, the conflict flag alone. -/
def feedEff (ch : Nat) (wide : Bool) (s : State) (c : CellSt) (i : FmtA) : Eff :=
  if s.bit Reg.crcChCfgBind (chBase (2 * i.cell + ch)) then { conflict := some (2 * i.cell + ch) }
  else { ch := some (ch, BitVec.ofNat 64 (crcFeed (crcPoly (s.fld Reg.crcChCfgPoly (chBase (2 * i.cell + ch))))
    (if ch = 0 then c.ch0 else c.ch1).toNat
    (if wide then [(c.rdF i.a).extractLsb' 0 8, (c.rdF i.a).extractLsb' 8 8, (c.rdF i.a).extractLsb' 16 8, (c.rdF i.a).extractLsb' 24 8]
      else [(c.rdF i.a).extractLsb' 0 8]))) }

end Sys2Proof.Spec

/-- R144, R154: a work item's QPUTs to a mailbox port collect a post; the word that completes the queue's length sends it to the
command processor as a MAILBOX_POST of the work item, with the first word as its apply cycle, and the collection starts
afresh. R83: a word that is not finite, written by QPUT, is replaced by the word a hold of the mailbox carries there. Shown for a cell
whose outputs are defined (R45). -/
def Obligations.WorkItemPosts : Prop :=
  ∀ (i : FmtA) (s : State) (q : Nat) (r : RunCtx) (w : WorkItem), s.ready i.cell i.stg → s.clean (s.xOf i) → s.clean (s.yOf i) →
    portOf s (s.cell i.cell) i.b = .mailbox q → (s.cell i.cell).run = some r → r.job = .item w → s.cellUndef i.cell = false →
    (∀ x ∈ r.post, x.1 ≠ i.b.toNat % 16 →
      x.2.length < ((s.qdesc (((s.wic w.ch).bind (fun d => d.ports[x.1]?)).getD 0)).map QDesc.words).getD 0) →
    ∀ (len : Nat), (s.qdesc q).map QDesc.words = some len →
    let v := (s.cell i.cell).rdF i.a
    let k := (Tab.get [] r.post (i.b.toNat % 16)).length
    collects (.qputr i) i s q len r w v true
    ∧ (v.toNat / 2 ^ 23 % 256 ≠ 255 → collects (.qput i) i s q len r w v true)
    ∧ (v.toNat / 2 ^ 23 % 256 = 255 → collects (.qput i) i s q len r w (((s.holdWords q)[k]?).getD 0#32) false)

/-- R84, R85, R119, R483: a feed of a channel bound to the core takes the bytes of fa, least significant first, into the running
value; one bound to the DMA port is dropped and sets the conflict flag; CRCRD reads the running value into a pair. Each of the six
completes wherever the cell is ready and its accesses are clean. -/
def Obligations.CheckValueFeeds : Prop :=
  ∀ (i : FmtA) (s : State), s.ready i.cell i.stg → s.clean (s.xOf i) → s.clean (s.yOf i) →
    let c := s.cell i.cell
    (∃ t, exec (.crc8_0 i) s = .next t ∧ Did s t i.cell (feedEff 0 false s c i) (s.xOf i) (s.yOf i))
    ∧ (∃ t, exec (.crc8_1 i) s = .next t ∧ Did s t i.cell (feedEff 1 false s c i) (s.xOf i) (s.yOf i))
    ∧ (∃ t, exec (.crc32_0 i) s = .next t ∧ Did s t i.cell (feedEff 0 true s c i) (s.xOf i) (s.yOf i))
    ∧ (∃ t, exec (.crc32_1 i) s = .next t ∧ Did s t i.cell (feedEff 1 true s c i) (s.xOf i) (s.yOf i))
    ∧ (∃ t, exec (.crcrd_0 i) s = .next t
        ∧ Did s t i.cell (wrPair c i.d (c.ch0.extractLsb' 0 32) (c.ch0.extractLsb' 32 32)) (s.xOf i) (s.yOf i))
    ∧ (∃ t, exec (.crcrd_1 i) s = .next t
        ∧ Did s t i.cell (wrPair c i.d (c.ch1.extractLsb' 0 32) (c.ch1.extractLsb' 32 32)) (s.xOf i) (s.yOf i))

/-- R49, R72, R91, R145: an END of any job, with any accesses that are clean and any trig work in flight, drains that work, ends the loops
and frees the cell, which takes the job of its prefetch slot, if it has one. A work item gets its completion record, with BUSY for a
periodic one whose re-arm finds the delay list full (R151); an operation, of its own kernel or a standard one, advances its next-cycle number
past the cycle (R136, R139). R129: where an operation of its own kernel it has one framed raw output with room and is not late, the queue takes the token of that cycle plus the queue's lag
with the words at out_frame in Y. -/
def Obligations.EndCompletes : Prop :=
  (∀ (i : FmtA) (s : State) (r : RunCtx), s.ready i.cell i.stg → s.clean (s.xOf i) → s.clean (s.yOf i) →
    (s.cell i.cell).run = some r →
    ∃ t, exec (.endOp i) s = .next t
      ∧ (t.cell i.cell).loops = [] ∧ (t.cell i.cell).trig = [] ∧ (t.cell i.cell).slot = none
      ∧ ((s.cell i.cell).slot = none → (t.cell i.cell).run = none)
      ∧ (∀ x, (s.cell i.cell).slot = some x → (∀ k, x.job = .op k → (s.opDesc k).isSome = true) →
        (t.cell i.cell).run.map RunCtx.job = some x.job)
      ∧ (∀ (w : WorkItem), r.job = .item w → s.recordsDown w.ch = false →
        let full := w.period ≠ 0 ∧ s.regionDown (s.wicRegion w.ch) = false ∧ 1024 ≤ (s.delay (s.wicRegion w.ch)).ents.length
        (full ∧ r.status = 0 → (t.chan w.ch).compl =
          (s.chan w.ch).compl ++ [⟨w.tag, 0, 1, BitVec.ofNat 32 (r.issued + 1), s.time.ns, i.cell⟩])
        ∧ (¬full ∨ r.status ≠ 0 → (t.chan w.ch).compl =
          (s.chan w.ch).compl ++ [⟨w.tag, 0, r.status, BitVec.ofNat 32 (r.issued + 1), s.time.ns, i.cell⟩])
        ∧ (∀ k, k ≠ w.ch → t.chan k = s.chan k))
      ∧ (∀ (k : Nat) (d : OpDesc), r.job = .op k → s.opDesc k = some d → cycGe r.cycle (s.op k).next = true →
        (t.op k).next = r.cycle + 1#32))
  ∧ (∀ (i : FmtA) (s : State) (r : RunCtx) (k : Nat) (d : OpDesc), s.ready i.cell i.stg → i.xa.kind = 0#2 → i.ya.kind = 0#2 →
    (s.cell i.cell).run = some r → (s.cell i.cell).trig = [] → (s.cell i.cell).slot = none → r.job = .op k → s.opDesc k = some d →
    d.kernel = .custom → cycGe r.cycle (s.op k).next = true →
    ∃ t, exec (.endOp i) s = .next t ∧ (t.cell i.cell).run = none ∧ (t.op k).next = r.cycle + 1#32
      ∧ (∀ (p : PortDesc) (q : QDesc) (no : Nat), d.inputs = [] → d.outputs = [(no, p)] → p.qop = false → p.raw = true →
          s.qdesc p.queue = some q → r.late = false → s.blockDown (blockOfQueue p.queue) = false →
          (s.queue p.queue).done = none → (s.queue p.queue).toks.length < q.depth → s.consumer p.queue = none →
          s.cellUndef d.cell = false →
          (∀ j < q.words, yAddr d.cell ((d.outFrame + j) % 16384) ∉ s.flip2) →
          (t.queue p.queue).toks = (s.queue p.queue).toks ++
            [⟨r.cycle + BitVec.ofNat 32 q.lag, false, false, (List.range q.words).map (fun j => s.memWord (yAddr d.cell ((d.outFrame + j) % 16384)))⟩]))

/-- R56, R88, R90, R91: before its effect an instruction that is neither squashed nor suppressed meets ECC where its word has a
double-bit error, and one beyond the operation's budget raises RUNAWAY, or the lower of the codes it meets besides; holds for every
cell instruction. A NOP without accesses meets none besides. R59, R63, R119: the traps of
an instruction's own effect: a loop whose counter is in use or whose body ends beyond the enclosing loop (LOOPNEST), a queue operation
whose port is not declared, and an access beyond the data memory (BOUNDS). -/
def Obligations.CellTraps : Prop :=
  (∀ (i : Instr) (n : Nat) (stg : BitVec 3) (s : State) (r : RunCtx), i.cellStg = some (n, stg) → s.issues n = some r →
    (s.cell n).shadow = none → (s.cell n).suppressed stg.toNat = false → r.post = [] →
    ((insAddr n (s.cell n).pc.toNat ∈ s.flip2 ∨ insAddr n (s.cell n).pc.toNat + 4 ∈ s.flip2) →
      ∃ t, exec i s = .next t ∧ Trapped s t n 1)
    ∧ (insAddr n (s.cell n).pc.toNat ∉ s.flip2 → insAddr n (s.cell n).pc.toNat + 4 ∉ s.flip2 →
        s.fld Reg.cellCtrlOpBudget (cellRegs n) ≠ 0 → s.fld Reg.cellCtrlOpBudget (cellRegs n) < r.issued + 1 →
        ∃ t code, exec i s = .next t ∧ 1 ≤ code ∧ code ≤ 5 ∧ Trapped s t n code))
  ∧ (∀ (i : FmtA) (s : State) (r : RunCtx), s.issues i.cell = some r → (s.cell i.cell).shadow = none →
    (s.cell i.cell).suppressed i.stg.toNat = false → i.xa.kind = 0#2 → i.ya.kind = 0#2 →
    insAddr i.cell (s.cell i.cell).pc.toNat ∉ s.flip2 → insAddr i.cell (s.cell i.cell).pc.toNat + 4 ∉ s.flip2 →
    s.fld Reg.cellCtrlOpBudget (cellRegs i.cell) ≠ 0 → s.fld Reg.cellCtrlOpBudget (cellRegs i.cell) < r.issued + 1 →
    ∃ t, exec (.nop i) s = .next t ∧ Trapped s t i.cell 5)
  ∧ (∀ (i : FmtL) (s : State), s.ready i.cell i.stg → (s.cell i.cell).pc.toNat < i.last.toNat →
    (∃ l ∈ (s.cell i.cell).loops, l.ctr = i.k.toNat) →
    (∃ t, exec (.loop i) s = .next t ∧ Trapped s t i.cell 3) ∧ (∃ t, exec (.loopp i) s = .next t ∧ Trapped s t i.cell 3))
  ∧ (∀ (i : FmtL) (s : State) (l : LoopEnt), s.ready i.cell i.stg → (s.cell i.cell).pc.toNat < i.last.toNat →
    (s.cell i.cell).loops.head? = some l → l.last < i.last.toNat → i.n ≠ 0#16 → ∃ t, exec (.loop i) s = .next t ∧ Trapped s t i.cell 3)
  ∧ (∀ (i : FmtA) (s : State), s.ready i.cell i.stg → s.clean (s.xOf i) → s.clean (s.yOf i) →
    portOf s (s.cell i.cell) i.b = .none →
    ∀ op ∈ [Instr.qget i, .qput i, .qputr i, .qhold i, .qish i], ∃ t, exec op s = .next t ∧ Trapped s t i.cell 4)
  ∧ (∀ (i : FmtA) (s : State), s.ready i.cell i.stg → s.clean (s.yOf i) → i.xa.kind ≠ 0#2 →
    16384 ≤ ((s.cell i.cell).rdP i.xa.p.toNat).toNat → ∃ t, exec (.nop i) s = .next t ∧ Trapped s t i.cell 4)

/-- R14, R106: an opcode that the map leaves undefined raises ILLEGAL, and so does the word 0 of erased or cleared instruction
memory, which spells opcode 0x00. -/
def Obligations.UndefinedOpcodeTraps : Prop :=
  (∀ (n : Nat) (stg : BitVec 3) (op : BitVec 8) (s : State), s.ready n stg → definedOpcode op.toNat = false →
    ∃ t, exec (.illegalOpcode n stg op) s = .next t ∧ Trapped s t n 2)
  ∧ (∀ (n : Nat) (w : BitVec 64), definedOpcode (w.toNat / 2 ^ 56) = false → cellDecode n w = .illegalOpcode n (wordStg w) (wordOp w))
  ∧ ((List.range 256).countP definedOpcode = 158)
  ∧ (∀ (s : State) (n : Nat), (∀ k < 8, s.ramByte (insAddr n (s.cell n).pc.toNat + k) = 0#8) →
      s.fetched n = .illegalOpcode n 0#3 0#8)

/-- R94 to R101, R106: every cell instruction, with every operand at every value its fields hold, is what its own word decodes to. -/
def Obligations.CellWordsRoundTrip : Prop :=
  ∀ (i : Instr) (n : Nat) (stg : BitVec 3), i.cellStg = some (n, stg) →
    ∃ w, cellEncode i = some w ∧ cellDecode n w = i ∧ wordStg w = stg ∧ definedOpcode (wordOp w).toNat = true

/-- R94 to R101: words written out from the encodings, one for each format: the worked TAP, ADD d=1 a=2 b=3, FMA with a Y load,
MOVFI f5 ← 1.0, BR 100, a rotating LOOP and LDX. -/
def Obligations.WrittenOutWordsDecode : Prop :=
  cellDecode 0 0x5508102188114451#64
    = .tap ⟨0, 0#3, 16#6, 8#6, 4#6, false, ⟨1#2, true, 1#4, 0#4, 8#6⟩, ⟨2#2, true, 1#4, 1#4, 17#6⟩⟩
  ∧ cellDecode 1 0x2000841800000000#64 = .add ⟨1, 0#3, 1#6, 2#6, 3#6, false, ⟨0#2, false, 0#4, 0#4, 0#6⟩, ⟨0#2, false, 0#4, 0#4, 0#6⟩⟩
  ∧ cellDecode 2 0x30008418900080C5#64 = .fma ⟨2, 0#3, 1#6, 2#6, 3#6, 4#6, true, ⟨1#2, false, 0#4, 3#4, 5#6⟩⟩
  ∧ cellDecode 3 0x140280003F800000#64 = .movfi ⟨3, 0#3, 5#6, 0#6, 0x3F800000#32⟩
  ∧ cellDecode 4 0x0300000000000064#64 = .br ⟨4, 0#3, 100#14⟩
  ∧ cellDecode 5 0x1006400400000009#64 = .loop ⟨5, 0#3, 1#3, true, 1#3, 16#16, 9#14⟩
  ∧ cellDecode 6 0xA001000000000123#64 = .ldx ⟨6, 0#3, 2#6, 0x123#14⟩


/-! ### Host commands -/

/-- Queries of the host group, the modes, the configuration, the journal and the fault queue (R379, R392, R459, R500). -/
def Obligations.HostQueriesAnswer : Prop :=
  Asks .ping specPing (fun u _ => u) State.cycle
      (fun u _ => { data := wordBytes u.time.ns ++ wordBytes (u.time.s.setWidth 32) ++ [BitVec.ofNat 8 u.mode.code] })
  ∧ Asks .statusGet specStatusGet (fun u _ => u) State.cycle
      (fun u _ => { data := [BitVec.ofNat 8 u.mode.code, BitVec.ofNat 8 u.foxLevel,
        BitVec.ofNat 8 (u.fld Reg.cmdStatFwAlive + (if u.jnl.frozen then 2 else 0)), 0#8] ++ leBytes 8 u.jnl.head })
  ∧ Asks .modeGet specModeGet (fun u _ => u) State.cycle
      (fun u _ => { data := [BitVec.ofNat 8 u.mode.code, 0#8, 0#8, 0#8] ++ wordBytes u.modeCycle })
  ∧ Asks .cfgStatusGet specCfgStatusGet (fun u _ => u) State.cycle
      (fun u _ => { data := wordBytes (u.reg 0x300) ++ leBytes 8 ((u.image.map Image.check).getD 0#64).toNat })
  ∧ Asks .faultRead specFaultRead (fun u _ => u) State.cycle
      (fun u c =>
        let rs := if c.p8 5 = 1 then u.fox.retained else u.fox.queue
        { long := (rs.filter (fun x => decide (c.p32 0 ≤ x.no ∧ x.no < c.p32 0 + c.p8 4))).flatMap FoxRec.bytes
          data := leBytes 4 ((rs.head?.map FoxRec.no).getD (u.fox.head + 1)) ++ leBytes 4 u.fox.head })
  ∧ (∀ (m : Bool) (s : State) r u c e, (numAt r.param 9 1 == 1) = m → s.accepts (specJournalRead m) r u c →
      (u.heldEntries m).head? = some e →
      exec (.journalRead r) s = .next (u.answer c 0 false 0 u.cycle
        { long := ((u.heldEntries m).filter (fun x => decide (c.p64 0 ≤ x.seq ∧ x.seq < c.p64 0 + c.p8 8))).flatMap jBytes
          data := leBytes 8 e.seq }))

/-- Queries of the axis, motion and work groups (R163, R205, R236): an axis shows what the last cycle-end fence left, with the
number of that cycle. -/
def Obligations.AxisQueriesAnswer : Prop :=
  Asks .axisParamGet specAxisParamGet (fun u _ => u) State.shownCycle
      (fun u c => { data := wordBytes (Tab.get 0#32 (u.shown c.axis).params (c.p16 2)) })
  ∧ Asks .axisStatusGet specAxisStatusGet (fun u _ => u) State.shownCycle
      (fun u c => .of (bytesOfWords (u.shown c.axis).statusRec))
  ∧ Asks .motionParamGet specMotionParamGet (fun u _ => u) State.shownCycle
      (fun u c => { data := wordBytes (Tab.get 0#32 (u.shown c.axis).params (c.p16 2)) })
  ∧ Asks .motionStatusGet specMotionStatusGet (fun u _ => u) State.shownCycle
      (fun u c => .of (bytesOfWords (u.shown c.axis).motionRec))
  ∧ Asks .motionPosGet specMotionPosGet (fun u _ => u) State.shownCycle
      (fun u c =>
        let x := u.shown c.axis
        { long := leBytes 8 (if x.stepper then x.o.prof.pInt else x.o.p).toNat ++ leBytes 8 x.o.prof.tgt.toNat })
  ∧ Asks .workComplRead specWorkComplRead
      (fun u c => u.setChan (c.p8 0) { u.chan (c.p8 0) with compl := (u.chan (c.p8 0)).compl.drop (c.p8 1) }) State.cycle
      (fun u c =>
        { long := ((u.chan (c.p8 0)).compl.take (c.p8 1)).flatMap ComplRec.bytes
          data := leBytes 2 ((u.chan (c.p8 0)).compl.drop (c.p8 1)).length })

/-- Queries of the ring, local drive, time, memory, safety, twin and Indigo groups (R287, R328, R355, R416, R443, R478, R494). -/
def Obligations.UnitQueriesAnswer : Prop :=
  Asks .ringStatusGet specRingStatusGet (fun u _ => u) State.cycle
      (fun u c =>
        let y := u.ringSt (c.p8 0 % 8)
        { long := wordBytes (u.reg (ringBase (c.p8 0 % 8) + 4))
            ++ (match Tab.find y.shown (c.p8 1) with | some b => nodeBlockBytes b | none => List.replicate 16 0#8)
            ++ bytesOfWords (Tab.get [] y.shownAux (c.p8 1)) })
  ∧ Asks .lgStatusGet specLgStatusGet (fun u _ => u) State.cycle
      (fun u c => { data := bytesOfWords [u.lgStat (c.p8 0), u.reg (lgBase (c.p8 0) + 0x1C),
        u.reg (fbBase (u.fld Reg.pwmGrpCfgFb (lgBase (c.p8 0))) + 0x28)] })
  ∧ Asks .timeStatusGet specTimeStatusGet (fun u _ => u) State.cycle
      (fun u _ => .ofLong (wordBytes (u.reg 0x400004) ++ leBytes 4 (u.time.frac.toNat / 2 ^ 24) ++ wordBytes u.time.ns
        ++ leBytes 8 u.time.s.toNat ++ leBytes 8 u.time.inc.toNat))
  ∧ Asks .dmaStatusGet specDmaStatusGet (fun u _ => u) State.cycle
      (fun u _ => { long := bytesOfWords (u.reg 0x800008 :: (List.range 8).map (fun e => u.reg (dmaBase e + 4))) })
  ∧ Asks .safetyStatusGet specSafetyStatusGet (fun u _ => u) State.cycle
      (fun u c => { long := bytesOfWords [u.woadSeen 512 u.woadStat, u.woadSeen 513 u.woadSi, u.woadSeen 514 u.woadSo,
        u.woadSeen (c.p16 0 % 512) (u.woadAxisStat (c.p16 0 % 512))] })
  ∧ Asks .safetyCrcGet specSafetyCrcGet (fun u _ => u) State.cycle
      (fun u _ => { data := bytesOfWords [u.woadCrc.1, u.woadCrc.2, if u.woad.locked then 1#32 else 0#32] })
  ∧ Asks .twinStatusGet specTwinStatusGet (fun u _ => u) State.cycle
      (fun u _ => { long := bytesOfWords [u.lspStat, u.reg 0x68000C] ++ slice ((u.lsp.hb.map hbBytes).getD []) 0 16 })
  ∧ Asks .indStatusGet specIndStatusGet (fun u _ => u) State.cycle
      (fun u _ => { long := wordBytes u.indStat ++ leBytes 8 u.ind.wr.toNat ++ leBytes 4 u.indDecl ++ leBytes 4 (u.reg 0x600024).toNat })

/-- Commands that act at once: time, bypass, stop, acknowledgement, modes, release of the safe latch (R163, R287, R338, R355, R379,
R453, R456, R459, R500). -/
def Obligations.CommandsActAtOnce : Prop :=
  Acts .timeSet specTimeSet (fun u c _ => (u.setTime (c.p64 0) (c.p32 8), {}))
  ∧ Acts .bypassSet specBypassSet (fun u c _ =>
      ({ u with bypassSet := u.bypassSet.filter (fun k => k != c.p8 0) ++ (if c.p8 1 = 1 then [c.p8 0] else []) }, {}))
  ∧ Acts .safeStop specSafeStop (fun u _ _ => (u.raise 0xF0 3 0 0, {}))
  ∧ Acts .faultAck specFaultAck (fun u c _ =>
      let ack := fun (x : FoxRec) => { x with ack := x.ack || decide (x.no ≤ c.p32 0) }
      let t : State := { u with fox := { u.fox with queue := u.fox.queue.map ack, retained := u.fox.retained.map ack } }
      (if (t.reg 0x580030).toNat < c.p32 0 then t.setReg 0x580030 (c.pw 0) else t, {}))
  ∧ Acts .modeSet specModeSet (fun u c _ => (({ u with power := { u.power with entering := false } } : State).modeSet (c.p8 0), {}))
  ∧ Acts .rearm specRearm (fun u _ _ =>
      (({ u with fox := { u.fox with latch := false }, power := { u.power with rearmed := true } } : State).setMode .armed .command, {}))
  ∧ Acts .workSubmit specWorkSubmit (fun u c _ =>
      let d := slice c.param 4 32
      let w := itemOf (c.p8 0) d (u.time.s.toNat * 1000000000 + u.time.ns.toNat + numAt d 12 8)
      (if numAt d 12 8 = 0 then (u.layWork (c.p8 0) d).enqueue w else ((u.layWork (c.p8 0) d).delayInsert w).1, {}))
  ∧ Acts .workCancel specWorkCancel (fun u c _ =>
      let t := u.cancel (c.p8 0) (c.p16 2)
      (t, { data := [BitVec.ofNat 8 (t.chan (c.p8 0)).lastCancel] }))

/-- Commands that act at once: rings, safety, the twin (R276, R282, R287, R406, R415, R416, R443). A frame of a ring whose behaviour is
defined goes out, while the port is not closed off, as a start block with seven header bytes, its body in whole blocks and the CRC-32C
over both (R242, R243), on the side that the role names; in FAULT only a CYCLE_START does (R496). -/
def Obligations.UnitCommandsActAtOnce : Prop :=
  Acts .ringAsyncPost specRingAsyncPost (fun u c _ =>
      let y := u.ringSt (c.p8 0 % 8)
      let body := slice c.param 2 8 ++ slice c.param 10 (if c.p8 1 / 16 = 0 then 0 else c.p32 6)
      (u.setRing (c.p8 0 % 8) { y with asyncQ := y.asyncQ ++ [⟨c.p8 1 % 16, c.p8 1 / 16, 0, body⟩] }, {}))
  ∧ Acts .ringResetBcast specRingResetBcast (fun u c _ =>
      let r := c.p8 0 % 8
      (if u.xw r = .discover ∨ u.xw r = .intact ∨ u.xw r = .healed then
        (u.sendTopo r .east 3 0 (leBytes 8 (c.p8 1))).sendTopo r .west 3 0 (leBytes 8 (c.p8 1)) else u, {}))
  ∧ Acts .ringReclose specRingReclose (fun u c _ =>
      (u.setRing (c.p8 0 % 8) { u.ringSt (c.p8 0 % 8) with permit := true }, {}))
  ∧ Acts .safetyReset specSafetyReset (fun u c _ =>
      ({ u with woad := { u.woad with resets := u.woad.resets ++ [c.p16 0] } }, {}))
  ∧ Acts .safetyConfirm specSafetyConfirm (fun u c n =>
      if u.woad.accepted = false ∨ c.pw 0 ≠ u.woadCrc.1 ∨ c.pw 0 ≠ u.woadCrc.2 then (u, { status := 0x0A })
      else (({ u with woad := { u.woad with locked := true }, flash := { u.flash with confirm := some (c.pw 0, n) } } : State).emit
        (.flash 0x00300000 (wordBytes (c.pw 0) ++ leBytes 8 n)), {}))
  ∧ Acts .safetyUnlock specSafetyUnlock (fun u c _ =>
      if u.woad.accepted = false ∨ c.pw 0 ≠ u.woadCrc.1 ∨ c.pw 0 ≠ u.woadCrc.2 then (u, { status := 0x0A })
      else (({ u with woad := { u.woad with locked := false }, flash := { u.flash with confirm := none } } : State).emit
        (.flash 0x00300000 (List.replicate 12 0xFF#8)), {}))
  ∧ Acts .twinSync specTwinSync (fun u _ _ => (u.startSync, {}))
  ∧ Acts .twinInhibit specTwinInhibit (fun u c _ => (u.setFld Reg.lspCtrlInhibit (c.p8 0), {}))
  ∧ (∀ (s : State) (r : Nat) (x : Side) (h : TxHead) (body : List Byte), s.ringUndef r = false →
      (s.mode = .fault → h.type ≠ 1 → s.ringSend r x h body = s)
      ∧ ((s.mode ≠ .fault ∨ h.type = 1) → s.ringSend r x h body = s.sendFrame (.ring r (s.role r x) (
        let b := body ++ List.replicate ((body.length + 7) / 8 * 8 - body.length) 0#8
        let hb := headBytes r h (b.length / 8)
        0x78#8 :: hb ++ b ++ (0xCC#8 :: leBytes 4 (crc32c (hb ++ b))) ++ [0#8, 0#8, 0#8])))
      ∧ (frameOf r h body).length = frameBytes body.length)

/-- Cycle-fenced commands of the axes, rings, local drives, the modes, the twin and Indigo (R205, R228, R236, R276, R281, R287, R308,
R325, R328, R442, R443, R475, R477, R478, R499). -/
def Obligations.CommandsFence : Prop :=
  Fences .axisParamSet specAxisParamSet (fun u c _ => u.setAxis c.axis ((u.axis c.axis).setParam (c.p16 2) (c.pw 4)))
  ∧ Fences .axisReset specAxisReset (fun u c a => u.setAxis c.axis ((u.axis c.axis).reset a))
  ∧ Fences .motionParamSet specMotionParamSet (fun u c _ => u.setAxis c.axis ((u.axis c.axis).setParam (c.p16 2) (c.pw 4)))
  ∧ Fences .rcCtrl specRcCtrl (fun u c a =>
      u.setAxis c.axis { u.axis c.axis with o := { (u.axis c.axis).o with rc := (u.axis c.axis).o.rc.ctrl (c.p8 2) a } })
  ∧ Fences .microstepTableSet specMicrostepTableSet (fun u c _ =>
      u.setAxis c.axis ((u.axis c.axis).setMs (c.p8 2) ((List.range 8).map (fun i => BitVec.ofNat 16 (c.p16 (4 + 2 * i))))))
  ∧ Fences .ringClaimSet specRingClaimSet (fun u c _ => u.setFld Reg.xwCtrlClaimEn (c.p8 1 % 2) (ringBase (c.p8 0 % 8)))
  ∧ Fences .ringSlotRelease specRingSlotRelease (fun u c _ =>
      let y := u.ringSt (c.p8 0 % 8)
      u.setRing (c.p8 0 % 8) { y with slots := y.slots.map (fun d => { d with granted := d.granted && d.node != c.p8 1 }) })
  ∧ Fences .lgFaultClear specLgFaultClear (fun u c _ => u.lgClear (c.p8 0))
  ∧ Fences .fbPosSet specFbPosSet (fun u c _ => u.setFld Reg.fbPos (c.p32 4) (fbBase (c.p8 0)))
  ∧ Fences .runCtrl specRunCtrl (fun u c _ =>
      if c.p8 0 = 1 then (if u.mode = .armed then ({ u with lsp := { u.lsp with tookOver := false } } : State).setMode .run .command else u.ownEntry 0x00F1 [u.mode.code, u.mode.code, 0])
      else if (u.mode = .run ∨ u.mode = .degraded) ∧ u.axesIn [.off, .safe] = true then
        ({ u with power := { u.power with rearmed := false } } : State).setMode .armed .command
      else u.ownEntry 0x00F1 [u.mode.code, u.mode.code, 0])
  ∧ Fences .twinSwitch specTwinSwitch (fun u _ a =>
      if u.lsp.role = .active then { u with lsp := { u.lsp with switchAt := some a, resign := true } } else u)
  ∧ Fences .indStart specIndStart (fun u _ a =>
      if u.capturing = true then u
      else { u with ind := { u.ind with st := .run, first := a, begun := false, last := none, post := 0, next := 0#54, wr := 0#54, staged := [], lost := 0
                                        hostErr := false, below := false, trigs := 0, nT := none } })
  ∧ Fences .indStop specIndStop (fun u _ a =>
      if u.capturing = true then { u with ind := { u.ind with last := some (u.ind.last.getD a) } } else u)
  ∧ Fences .indArm specIndArm (fun u c a =>
      let t := (u.trigArm (c.p8 0 == 1)).emit (.pin "TRIG_ARM" (c.p8 0 == 1))
      if c.p8 0 = 1 then t.seqArm a else t)
  ∧ Fences .indMark specIndMark (fun u c a => { u with ind := { u.ind with marks := u.ind.marks ++ [(a, c.pw 0)] } })

/-- Posts to mailboxes (R152, R153, R164, R205, R236): an entry for the cycle among the pending ones of the mailbox. -/
def Obligations.PostsReachMailboxes : Prop :=
  Posts .mailboxPost specMailboxPost (fun u c a =>
      u.post (c.p16 0) a (putWords (u.mailBase (c.p16 0) a) (c.p8 2) (wordsOfBytes (slice c.param 4 (4 * c.p8 3)) (c.p8 3))))
  ∧ Posts .axisModeSet specAxisModeSet (fun u c a => ((u.axisCfg c.axis).map AxisCfg.modeMb).elim u (fun q =>
      u.post q a [BitVec.ofNat 32 (c.p8 2), BitVec.ofNat 32 (c.p8 3)]))
  ∧ Posts .axisCurRef specAxisCurRef (fun u c a => ((u.axisCfg c.axis).bind AxisCfg.curMb).elim u (fun q =>
      u.post q a [c.pw 4, c.pw 8]))
  ∧ Posts .motionTarget specMotionTarget (fun u c a => ((u.axisCfg c.axis).bind AxisCfg.tgtMb).elim u (fun q =>
      u.post q a [BitVec.ofNat 32 (c.p8 2), c.pw 4, c.pw 8, c.pw 12]))

/-- Commands that answer with their result (R163, R165, R315, R372, R494, R500, R502, R503, R505): what they begin. LEVEL_RESET
(R379, R507, R508) is answered first, then resets its unit or the chip; nothing while a power loss is handled. -/
def Obligations.CommandsAwaitResults : Prop :=
  Awaits .adcCalPoint specAdcCalPoint (fun u c n => { u with adc := { u.adc with cal := some (n, c.p8 0, c.p8 1, c.p16 2), calAt := u.time.ran } })
  ∧ Awaits .memCheck specMemCheck (fun u c n => { u with dma := { u.dma with scan2 := [(n, c.p32 0, c.p32 4, c.p8 8)] } })
  ∧ Awaits .cfgLoad specCfgLoad (fun u c _ => u.emit (.hostRead (c.p64 0) (c.p32 8)))
  ∧ Awaits .cfgStore specCfgStore (fun u _ _ => u)
  ∧ Awaits .paramSave specParamSave (fun u _ _ =>
      { u with power := { u.power with saving := some (((u.image.map Image.axes).getD []).map (fun (g : AxisCfg) =>
        (g.axis, (List.range 128).map (fun k => Tab.get 0#32 (Tab.get ({} : AxisSt) u.axShown g.axis).params k)))) } })
  ∧ (∀ s r u c, s.accepts specSnapshot r u c → u.edgesRun = true →
      exec (.snapshot r) s = .next (
        let a := u.applyCycle c
        let j := u.journalCmd c a
        { j with host := { j.host with fenced := j.host.fenced ++ [⟨c, a, j.jnl.head⟩], results := j.host.results ++ [(j.jnl.head, { c with cyc := a })] } }))
  ∧ (∀ s r u c, s.accepts specSnapshot r u c → u.edgesRun = false →
      exec (.snapshot r) s = .next (
        let j := u.journalCmd c 0#32
        let t : State := { j with host := { j.host with results := j.host.results ++ [(j.jnl.head, { c with cyc := 0#32 })] } }
        { t with mad := { t.mad with snap := some { seq := ((t.resultOf 0x0D14).map Prod.fst).getD 0, cycle := 0#32, addr := c.p64 0 } } }))
  ∧ (∀ (s : State) c a n, c.opcode = 0x0D14 →
      ({ s with host := { s.host with fenced := [⟨c, a, n⟩] } } : State).fencedEffects a
        = { s with host := { s.host with fenced := [] }
                   mad := { s.mad with snap := some { seq := ((s.resultOf 0x0D14).map Prod.fst).getD 0, cycle := a, addr := c.p64 0 } } })
  ∧ (∀ s ok x z bs, s.mad.snap = some x → x.bytes = some bs → s.resultOf 0x0D14 = some z →
      exec (.snapshotComplete ok) s = .next (
        let t : State := { s with mad := { s.mad with snap := none } }
        if ok then (t.emit (.hostWrite x.addr bs)).finish z 0 {} else t.finish z 9 {}))
  ∧ (∀ s r u c, s.accepts specLevelReset r u c →
    exec (.levelReset r) s = .next (
      let j := u.journalCmd c u.cycle
      let t := j.answer c 0 true j.jnl.head u.cycle {}
      if t.power.handling then t else if c.p8 0 = 3 then t.toReset 3 false else t.unitReset (c.p8 0) (c.p8 1)))


namespace Sys2Proof.Spec

/-- The rows that carry a command packet, with the specification of each; JOURNAL_READ, whose own depends on a parameter, is not
among them. -/
def CommandRow (i : CmdReq → Instr) (k : CmdSpec) : Prop :=
  (i, k) ∈ ([(.workSubmit, specWorkSubmit), (.workCancel, specWorkCancel), (.workComplRead, specWorkComplRead), (.mailboxPost, specMailboxPost),
   (.snapshot, specSnapshot), (.axisModeSet, specAxisModeSet), (.axisParamSet, specAxisParamSet), (.axisParamGet, specAxisParamGet),
   (.axisStatusGet, specAxisStatusGet), (.axisReset, specAxisReset), (.axisCurRef, specAxisCurRef)]
  ++ [(.motionTarget, specMotionTarget), (.motionParamSet, specMotionParamSet), (.motionParamGet, specMotionParamGet),
   (.motionStatusGet, specMotionStatusGet), (.motionPosGet, specMotionPosGet), (.rcCtrl, specRcCtrl),
   (.microstepTableSet, specMicrostepTableSet), (.ringStatusGet, specRingStatusGet), (.ringAsyncPost, specRingAsyncPost),
   (.ringResetBcast, specRingResetBcast), (.ringClaimSet, specRingClaimSet)]
  ++ [(.ringSlotRelease, specRingSlotRelease), (.ringReclose, specRingReclose), (.lgStatusGet, specLgStatusGet),
   (.lgFaultClear, specLgFaultClear), (.adcCalPoint, specAdcCalPoint), (.fbPosSet, specFbPosSet), (.timeStatusGet, specTimeStatusGet),
   (.timeSet, specTimeSet), (.ping, specPing), (.statusGet, specStatusGet), (.levelReset, specLevelReset)]
  ++ [(.bypassSet, specBypassSet), (.modeGet, specModeGet), (.safeStop, specSafeStop), (.faultRead, specFaultRead),
   (.faultAck, specFaultAck), (.modeSet, specModeSet), (.runCtrl, specRunCtrl), (.rearm, specRearm), (.cfgStatusGet, specCfgStatusGet),
   (.cfgLoad, specCfgLoad), (.cfgStore, specCfgStore), (.paramSave, specParamSave)]
  ++ [(.safetyStatusGet, specSafetyStatusGet), (.safetyCrcGet, specSafetyCrcGet), (.safetyConfirm, specSafetyConfirm),
   (.safetyReset, specSafetyReset), (.safetyUnlock, specSafetyUnlock), (.twinStatusGet, specTwinStatusGet), (.twinSwitch, specTwinSwitch),
   (.twinSync, specTwinSync), (.twinInhibit, specTwinInhibit), (.indStatusGet, specIndStatusGet), (.indStart, specIndStart)]
  ++ [(.indStop, specIndStop), (.indArm, specIndArm), (.indMark, specIndMark), (.dmaStatusGet, specDmaStatusGet), (.memCheck, specMemCheck)]
    : List ((CmdReq → Instr) × CmdSpec))

/-- A command passes the checks 1 to 5 of R370: check value, authority, named unit, parameters (opcode 2 is the row's). -/
def passesTo5 (s : State) (k : CmdSpec) (c : CmdIn) : Prop :=
  (c.tested = true → c.checkOk = true) ∧ k.allowed c = true ∧ k.absent s c = false ∧ k.bad s c = false ∧ k.strayByte c = false

/-- And check 6, the mode. -/
def passesTo6 (s : State) (k : CmdSpec) (c : CmdIn) : Prop :=
  passesTo5 s k c ∧ s.modeTakes k = true ∧ k.mode s c = false

/-- And check 7, the apply cycle, of a fenced command. -/
def passesTo7 (s : State) (k : CmdSpec) (c : CmdIn) : Prop := passesTo6 s k c ∧ (c.at_ = true → s.edgesRun = true ∧ s.lateFor c.apply = false)

/-- Everything but Ochre, Foxglove's raisings on their way and what was sent is the same. -/
def SameButJournal (s t : State) : Prop :=
  t = { s with jnl := t.jnl, sent := t.sent, fox := { s.fox with inflight := t.fox.inflight } }

end Sys2Proof.Spec

/-- A step takes the command at the front of the queue and runs it on the state with the queue's rest; on an empty queue the part
idles for one tick of its counter, at which Foxglove takes one raising that is on its way: one that no raising of a lower sending island
stands beside (R534), and the oldest of its island (R28). What an idle step does is the model's choice (log entry 2). -/
def Obligations.StepRunsFrontCommand : Prop :=
  (∀ (i : Instr) (rest : List Instr) (s : State), step { s with pending := i :: rest } = exec i { s with pending := rest })
  ∧ (∀ (s : State), s.pending = [] → step s = .next s.idle)
  ∧ (∀ (s : State), s.mode = .off ∨ s.mode = .reset → s.idle = s)
  ∧ (∀ (s : State) (r : Raising), s.awake = true → s.tick.nextArrival = some r → s.idle = s.tick.foxTake r)
  ∧ (∀ (s : State), s.fox.inflight ≠ [] → ∃ r, s.nextArrival = some r ∧ r ∈ s.fox.inflight
      ∧ (∀ x ∈ s.fox.inflight, s.sender r.src ≤ s.sender x.src)
      ∧ (s.fox.inflight.filter (fun x => s.sender x.src == s.sender r.src)).head? = some r)
  ∧ (∀ (s : State), s.awake = true → s.tick.fox.inflight = [] → s.idle = s.tick)

/-- R10, R107, R498: right after reset the part is in BOOT, no command waits, no edge runs, no image is loaded, nothing is queued or
retained, every register holds the reset value of its table, and the memories are in canonical form. -/
def Obligations.ResetState : Prop :=
  State.reset.mode = .boot ∧ State.reset.pending = [] ∧ State.reset.memWf = true ∧ State.reset.edgesRun = false
  ∧ State.reset.image = none ∧ State.reset.jnl.entries = [] ∧ State.reset.fox.queue = [] ∧ State.reset.fox.latch = false
  ∧ State.reset.cycle = 0#32 ∧ State.reset.graphsFire = false
  ∧ (∀ off, State.reset.reg off = regReset off)
  ∧ (∀ n, State.reset.issues n = none)

/-- R36: the order of cycle numbers, and LATE for an apply cycle half the range away. -/
def Obligations.CycleNumbers : Prop :=
  (∀ (a b : Word), cycLater a b = true ↔ 0 < (a - b).toInt)
  ∧ (∀ (a : Word) (d : Nat), 0 < d → d < 2 ^ 31 →
      cycLater (a + BitVec.ofNat 32 d) a = true ∧ cycLater a (a + BitVec.ofNat 32 d) = false)
  ∧ (∀ (a : Word), cycLater (a + 0x80000000#32) a = false ∧ cycLater a (a + 0x80000000#32) = false)
  ∧ (∀ (s : State) (k : CmdSpec) (c : CmdIn), Spec.passesTo6 s k c → k.fenced = true → c.at_ = true → s.edgesRun = true →
      c.apply = s.cycle + 0x80000000#32 → s.verdict k c = 0x0B)

/-- R376: while no edges run, a cycle-fenced command with at = 1 returns MODE; with at = 0 its effect takes place at once, with 0 for
its cycle. -/
def Obligations.NoEdges : Prop :=
  (∀ (s : State) (k : CmdSpec) (c : CmdIn), Spec.passesTo5 s k c → k.fenced = true → c.at_ = true → s.edgesRun = false →
    s.verdict k c = 0x05)
  ∧ (∀ (s : State) (k : CmdSpec) (c : CmdIn), k.fenced = true → k.query = false → k.early = false → c.at_ = false → s.edgesRun = false →
      s.verdict k c = 0 →
      let j := s.journalCmd c 0#32
      (k.post = false → k.later = false → s.process k c = (k.effect j c 0#32).answer c 0 true j.jnl.head 0#32 {})
      ∧ (k.post = false → k.later = true →
          s.process k c
            = k.effect { j with host := { j.host with results := j.host.results ++ [(j.jnl.head, { c with cyc := 0#32 })] } } c 0#32)
      ∧ (k.post = true → s.process k c = (k.effect j c 0#32).answer c 0 true j.jnl.head 0#32 {}))

/-- R375: the pending list. A cycle-fenced command that is no mailbox post, accepted while edges run, joins it at its end; one that
finds 256 entries in it returns BUSY; a post leaves it as it is. -/
def Obligations.PendingList : Prop :=
  (∀ (s : State) (k : CmdSpec) (c : CmdIn), k.fenced = true → k.post = false → k.query = false → s.edgesRun = true → s.verdict k c = 0 →
    (s.process k c).host.fenced = s.host.fenced ++ [⟨c, s.applyCycle c, (s.journalCmd c (s.applyCycle c)).jnl.head⟩]
      ∧ (s.process k c).host.fenced.length ≤ 256)
  ∧ (∀ (s : State) (k : CmdSpec) (c : CmdIn), Spec.passesTo7 s k c → k.fenced = true → k.post = false → s.edgesRun = true →
      256 ≤ s.host.fenced.length → s.verdict k c = 0x01)
  ∧ (∀ k ∈ [specMailboxPost, specAxisModeSet, specAxisCurRef, specMotionTarget], ∀ (s : State) (c : CmdIn),
      (s.process k c).host.fenced = s.host.fenced)

/-- R370, R383: a command that fails a check has no effect but its reply, the counts of those turned away, and what its port keeps; it
is not journaled. The first check that fails gives the status. -/
def Obligations.ChecksTurnAway : Prop :=
  (∀ i k, Spec.CommandRow i k → ∀ s r u c, s.judges k r u c → u.verdict k c ≠ 0 →
    exec (i r) s = .next ((k.turned u c (u.verdict k c)).turnAway c (u.verdict k c) (k.why u c (u.verdict k c))))
  ∧ (∀ i k, Spec.CommandRow i k → ∀ (u : State) (c : CmdIn) (v : Nat), ((k.turned u c v).turnAway c v (k.why u c v)).jnl = u.jnl)
  ∧ (∀ (s : State) (k : CmdSpec) (c : CmdIn), c.tested = true → c.checkOk = false → s.verdict k c = 0x0A)
  ∧ (∀ (s : State) (k : CmdSpec) (c : CmdIn), (c.tested = true → c.checkOk = true) → k.allowed c = false → s.verdict k c = 0x04)
  ∧ (∀ (s : State) (k : CmdSpec) (c : CmdIn), (c.tested = true → c.checkOk = true) → k.allowed c = true → k.absent s c = true →
      s.verdict k c = 0x06)
  ∧ (∀ (s : State) (k : CmdSpec) (c : CmdIn), (c.tested = true → c.checkOk = true) → k.allowed c = true → k.absent s c = false →
      (k.bad s c = true ∨ k.strayByte c = true) → s.verdict k c = 0x03)
  ∧ (∀ (s : State) (k : CmdSpec) (c : CmdIn), Spec.passesTo5 s k c → (s.modeTakes k = false ∨ k.mode s c = true) → s.verdict k c = 0x05)
  ∧ (∀ (s : State) (k : CmdSpec) (c : CmdIn), Spec.passesTo6 s k c → k.fenced = true → c.at_ = true → s.edgesRun = true →
      s.lateFor c.apply = true → s.verdict k c = 0x0B)
  ∧ (∀ (s : State) (k : CmdSpec) (c : CmdIn), Spec.passesTo7 s k c → k.busy s c = true → s.verdict k c = 0x01)
  ∧ (∀ (s : State) (k : CmdSpec) (c : CmdIn), Spec.passesTo7 s k c → k.busy s c = false → s.lagBusy = false →
      s.host.fenced.length < 256 → k.query = false → s.jnl.frozen = true → s.verdict k c = 0x07)

/-- R388, R389, R391, R392: the entry of an accepted command takes the next sequence number, holds the command, its source, its cycle of
effect and the time, and is kept among the newest 4,096; while the journal is frozen nothing is written. The reply goes out
on the port alone. -/
def Obligations.JournalWrites : Prop :=
  (∀ (s : State) (c : CmdIn) (cyc : Word), s.jnl.frozen = false →
    let t := s.journalCmd c cyc
    let e : JEntry := { seq := s.jnl.head + 1, tNs := s.time.ns, tS := s.time.s.setWidth 32, cycle := cyc, opcode := BitVec.ofNat 16 c.opcode
                        origin := portOrigin c.port, at_ := c.at_, index := BitVec.ofNat 6 (portIndex c.port), param := slice c.param 0 36 }
    t.jnl.head = s.jnl.head + 1 ∧ t.jnl.entries = (e :: s.jnl.entries).take 4096
      ∧ t.jnl.overwritten = s.jnl.overwritten + (if 4096 ≤ s.jnl.entries.length then 1 else 0)
      ∧ Spec.SameButJournal s t)
  ∧ (∀ (s : State) (c : CmdIn) (cyc : Word), s.jnl.frozen = true → s.journalCmd c cyc = s)
  ∧ (∀ (s : State) (c : CmdIn) (st n : Nat) (b : Bool) (cyc : Word) (o : CmdOut),
      let t := s.answer c st b n cyc o
      t = { s with host := t.host, regs := t.regs, bb := t.bb, woad := { s.woad with reply := t.woad.reply }, sent := t.sent }
        ∧ t.host.fenced = s.host.fenced ∧ t.host.waiting = s.host.waiting ∧ t.host.results = s.host.results)

/-- R58: post-modify, linear where the modifier's length is 0, else around the buffer of that length. -/
def Obligations.PostModify : Prop :=
  ∀ (p : BitVec 16) (m : Word),
    let len : Nat := m.toNat / 65536
    let step := (BitVec.ofNat 16 m.toNat).toInt
    (len = 0 → ((postMod p m).toNat : Int) = ((p.toNat : Int) + step) % 65536)
    ∧ (∀ b : Nat, 0 < len → len ≤ 2 ^ b → (∀ j < b, 2 ^ j < len) →
        ((postMod p m).toNat : Int)
          = (((p.toNat - p.toNat % 2 ^ b : Nat) : Int) + (((p.toNat % 2 ^ b : Nat) : Int) + step) % (len : Int)) % 65536)

/-- R110: the flag t. The issue of any trig operation sets it and TSYNC clears it; one that is squashed or suppressed leaves it. -/
def Obligations.TrigFlag : Prop :=
  (∀ (i : FmtA) (s : State), s.ready i.cell i.stg → s.clean (s.xOf i) → s.clean (s.yOf i) →
    ∀ op ∈ [Instr.sin i, .cos i, .sincos i, .atan2 i, .sqrt i, .rsqrt i, .recip i, .exp2 i, .log2 i],
      ∃ t, exec op s = .next t ∧ (t.cell i.cell).cc = { (s.cell i.cell).cc with t := true })
  ∧ (∀ (i : FmtA) (s : State), s.ready i.cell i.stg → s.clean (s.xOf i) → s.clean (s.yOf i) →
      ((s.cell i.cell).rdP (if i.tm then i.xa.p.toNat else i.ya.p.toNat)).toNat < 16384 →
    ∀ op ∈ [Instr.sinm i, .cosm i, .sincosm i, .atan2m i, .sqrtm i, .rsqrtm i, .recipm i, .exp2m i, .log2m i],
      ∃ t, exec op s = .next t ∧ (t.cell i.cell).cc = { (s.cell i.cell).cc with t := true })
  ∧ (∀ (i : FmtA) (s : State), s.ready i.cell i.stg → s.clean (s.xOf i) → s.clean (s.yOf i) →
      ∃ t, exec (.tsync i) s = .next t ∧ (t.cell i.cell).cc = { (s.cell i.cell).cc with t := false })
  ∧ (∀ (i : Instr) (n : Nat) (stg : BitVec 3) (s : State) (r : RunCtx), i.isTrig = true → i.cellStg = some (n, stg) →
      s.issues n = some r → ((s.cell n).shadow.isSome = true ∨ (s.cell n).suppressed stg.toNat = true) → r.post = [] →
      ∃ t, exec i s = .next t ∧ (t.cell n).cc = (s.cell n).cc)

/-- R28, R446, R450: FAULT_RAISING of a defined class, at its default level and from a source of its kind, takes the raising, after those that its island sent before it, in the order
sent; alone of its island it is taken at once; any other raising is none. One at a source with an unacknowledged record of its class and level counts in that
record, any other opens a record, with esc when it is an escalation's. -/
def Obligations.FaultRecords : Prop :=
  (∀ (s : State) (r : Raising), s.awake = true →
      (foxSent r = true → exec (.faultRaising r) s = .next (s.foxArrive r)) ∧ (foxSent r = false → exec (.faultRaising r) s = .next s))
  ∧ (∀ (s : State) (r : Raising), (∀ x ∈ s.fox.inflight, s.sender x.src = s.sender r.src → x = r) → s.foxArrive r = s.foxTake r)
  ∧ (∀ (s : State) (r : Raising) (before after : List Raising), r ∉ before →
      s.fox.inflight.filter (fun x => s.sender x.src == s.sender r.src) = before ++ r :: after →
      s.foxArrive r = (before.foldl State.foxTake s).foxTake r)
  ∧ (∀ (s : State) (r : Raising) (esc : Bool) (x : FoxRec),
      s.fox.queue.find? (fun y => y.openAt r.cls r.level && decide (y.src = r.src)) = some x →
      (s.recordRaising r esc).fox.queue = s.fox.queue.map (fun y => if y.no = x.no then
          { x with count := if x.count < 65535 then x.count + 1 else 65535, lastNs := s.time.ns, lastS := s.time.s.setWidth 32 } else y)
        ∧ (s.recordRaising r esc).fox.head = s.fox.head)
  ∧ (∀ (s : State) (r : Raising) (esc : Bool),
      s.fox.queue.find? (fun y => y.openAt r.cls r.level && decide (y.src = r.src)) = none →
      (s.recordRaising r esc).fox.head = s.fox.head + 1
        ∧ (s.recordRaising r esc).fox.queue = newest 512 (s.fox.queue ++
            [{ no := s.fox.head + 1, cls := r.cls, level := r.level, esc := esc, ack := false, src := r.src, count := 1, cycle := s.cycle
               firstNs := s.time.ns, firstS := s.time.s.setWidth 32, lastNs := s.time.ns, lastS := s.time.s.setWidth 32 }]))


/-! ### Register rows -/

/-- The registers of Madder, the rings, the converters, the time unit and the backbone whose write is a row: who may not write one is
counted, a register that the variant lacks takes nothing, and any other write has the effect named (R149, R159, R268, R287, R311, R331,
R345, R351, R353). -/
def Obligations.UnitRegisterWrites : Prop :=
  OwnRow .madWicPrioWrite (fun _ w => w.off == 0x100034) (fun s w =>
      if s.hostOwned (s.fld Reg.madWicSelChannel) = true then s.setPrio (s.fld Reg.madWicSelChannel) (bitsOf w.data.toNat 10 8) else s)
  ∧ OwnRow .madWicCancelWrite (fun _ w => w.off == 0x100044) (fun s w => s.cancel (bitsOf w.data.toNat 21 16) (bitsOf w.data.toNat 15 0))
  ∧ OwnRow .replayStart (fun _ w => w.off == 0x1000A0 && dataBit w.data 0) (fun s w => s.replayCtrl w.data)
  ∧ OwnRow .replayStep (fun _ w => w.off == 0x1000A0 && dataBit w.data 1) (fun s w => s.replayCtrl w.data)
  ∧ OwnRow .replayAbort (fun _ w => w.off == 0x1000A0 && dataBit w.data 4) (fun s w => s.replayCtrl w.data)
  ∧ (∀ (s : State) (d : Word), s.mode ≠ .commission → s.replayCtrl d = s)
  ∧ OwnRow .xwCtrlWrite (fun _ w => decide (0x200000 ≤ w.off ∧ w.off < 0x280000 ∧ w.off % 0x10000 = 0)) (fun s w =>
      let r := (w.off - 0x200000) / 0x10000
      let t := s.storeReg (ringBase r) w.data
      if t.xw r ≠ .off ∧ t.bit Reg.xwCtrlEnable (ringBase r) = false then t.portRest r else t)
  ∧ OwnRow .xwArspPopWrite (fun _ w => decide (0x200000 ≤ w.off ∧ w.off < 0x280000 ∧ w.off % 0x10000 = 0x28))
      (fun s w => s.popArsp ((w.off - 0x200000) / 0x10000) w.data)
  ∧ OwnRow .adcUrgWrite (fun _ w => w.off == 0x340008) (fun s w =>
      let ch := bitsOf w.data.toNat 5 0
      if 48 ≤ ch then s.setBit Reg.adcCtrlCfgWarn true else s.urgentReq (ch / 3) 64 ch)
  ∧ OwnRow .timeIncTgtCommit (fun _ w => w.off == 0x40002C) (fun s w => if s.mode = .standby then s else s.incTgtWrite w.data)
  ∧ OwnRow .timeSlewWrite (fun _ w => w.off == 0x400030) (fun s w => s.storeReg 0x400030 w.data)
  ∧ OwnRow .timeHoldWrite (fun _ w => w.off == 0x400034) (fun s w =>
      let t := s.storeReg 0x400034 w.data
      { t with time := { t.time with hold := t.time.ran } })
  ∧ OwnRow .clkOutCommit (fun _ w => w.off == 0x400058 || w.off == 0x400068) (fun s w => s.clkCommit ((w.off - 0x400058) / 0x10) w.data)
  ∧ OwnRow .bbBypassWrite (fun _ w => w.off == 0x400100) (fun s w => s.storeReg 0x400100 w.data)
  ∧ OwnRow .bbTxTailWrite (fun _ w => w.off == 0x40103C || w.off == 0x40203C) (fun s w =>
      let p := (w.off - 0x401000) / 0x1000
      let t := s.storeReg w.off w.data
      if s.fld Reg.bbTxHead (bbBase p) ≠ s.fld Reg.bbTxTail (bbBase p) ∧ 0 < s.fld Reg.bbTxLen (bbBase p) then t
      else t.setBbSt p { t.bbSt p with headAt := t.now16 })
  ∧ OwnRow .bbRxTailWrite (fun _ w => w.off == 0x401058 || w.off == 0x402058) (fun s w => s.storeReg w.off w.data)
  ∧ OwnRow .bbTsqPopWrite (fun _ w => w.off == 0x401014 || w.off == 0x402014) (fun s w =>
      let p := (w.off - 0x401014) / 0x1000
      if w.data.getLsbD 0 = true then (s.setBbSt p { s.bbSt p with tsq := (s.bbSt p).tsq.drop 1 }).showTsq p else s)

/-- The registers of the queue pairs, the keeper windows, the engines and the check channels whose write is a row, a register without one,
and the memory windows (R10, R11, R50, R361, R373, R377, R487, R490, R491). A case of undefined behaviour (R45) does not stop the part:
UB_10 makes the outputs of its group undefined, UB_04 those of the cells of the region, UB_01 those of the cell, and the write takes
place. -/
def Obligations.HostRegisterWrites : Prop :=
  OwnRow .qpSqTailWrite (fun _ w => isPair w.off 0x20) (fun s w => s.storeReg w.off w.data)
  ∧ OwnRow .qpCqHeadWrite (fun _ w => isPair w.off 0x24) (fun s w => s.cqFree (pairNo w.off) w.data)
  ∧ OwnRow .qpCtrlWrite (fun _ w => isPair w.off 0x00) (fun s w =>
      let q := pairNo w.off
      let t := s.storeReg (qpBase q) w.data
      match s.bit Reg.qpCtrlEn (qpBase q), w.data.getLsbD 31 with
      | was, true => t.pairOn q was
      | true, false => t.pairCancel q
      | _, _ => t)
  ∧ OwnRow .kprGoWrite (fun _ w => w.off == 0x502040 || w.off == 0x502240) (fun s w =>
      let f := (w.off - 0x502040) / 0x200
      if s.bit Reg.kprStatBusy (kprBase f) = true then s.setFld Reg.kprStatDropped 1 (kprBase f)
      else if w.data.getLsbD 0 = true then (s.setFld Reg.kprStatBusy 1 (kprBase f)).keeperIn specLevelReset (s.keeperCmd f)
      else s)
  ∧ OwnRow .registerWrite (fun _ w => w.off == 0x502040 || w.off == 0x502240)
      (fun s w => s.keeperGo specLevelReset ((w.off - 0x502040) / 0x200) w.data)
  ∧ OwnRow .registerWrite (fun s w => w.off != 0x502040 && w.off != 0x502240 && (s.rowWrite w).isNone && !s.kindUb w)
      (fun s w => s.plainWrite w.off w.data)
  ∧ (∀ (s : State) w o, w.off ≠ 0x502040 → w.off ≠ 0x502240 → s.rowWrite w = some o → exec (.registerWrite w) s = o)
  ∧ (∀ (s : State) w, s.awake = true → s.rowWrite w = none → s.kindUb w = true → mayWrite w.fn w.off = true → s.shutAt w.off = false →
      exec (.registerWrite w) s = .next ((s.undefine (.group ((w.off - 0x300100) / 0x40))).plainWrite w.off w.data))
  ∧ OwnRow .dmaETailWrite (fun _ w => isEngine w.off 0x10) (fun s w => s.storeReg w.off w.data)
  ∧ OwnRow .dmaECtrlWrite (fun _ w => isEngine w.off 0 && dataBit w.data 31) (fun s w =>
      let b := dmaBase ((w.off - 0x801000) / 0x40)
      ((s.storeReg w.off w.data).setFld Reg.dmaEHeadHead 0 b).setFld Reg.dmaETailTail 0 b)
  ∧ OwnRow .dmaECtrlWrite (fun s w => isEngine w.off 0 && !dataBit w.data 31
        && (s.dma.runs.find? (fun r => r.1 == (w.off - 0x801000) / 0x40)).isNone) (fun s w => s.storeReg w.off w.data)
  ∧ (∀ (s : State) w y, isEngine w.off 0 = true → dataBit w.data 31 = false → s.awake = true → mayWrite w.fn w.off = true →
      s.shutAt w.off = false → s.bit Reg.dmaECtrlEn (dmaBase ((w.off - 0x801000) / 0x40)) = true →
      s.dma.runs.find? (fun r => r.1 == (w.off - 0x801000) / 0x40) = some y →
      exec (.dmaECtrlWrite w) s = .next (
        let f := DescFields.of y.2.bytes
        let n := s.freeBlocks f.len
        let x := s.drew.freeBytes (if f.srcHost then n else 0)
        ((x.2.dmaMove f x.1 n).1.dmaDone ((w.off - 0x801000) / 0x40) y.2.addr 8).storeReg w.off w.data))
  ∧ OwnRow .crcScanGo (fun _ w => w.off == 0x800100 && dataBit w.data 0) (fun s w => s.scanCtrl w.data)
  ∧ OwnRow .crcChValHiWrite (fun s w => isChan w.off 8 && s.chanHere w.off) (fun s w =>
      let j := (w.off - 0x808000) / 16
      s.setChVal j (w.data.toNat * 2 ^ 32 + (Tab.get 0#32 s.dma.lo j).toNat))
  ∧ OwnRow .crcChCfgWrite (fun s w => isChan w.off 0 && s.chanHere w.off) (fun s w =>
      let j := (w.off - 0x808000) / 16
      let t := s.storeReg w.off w.data
      if w.data.getLsbD 4 = true ∨ t.fld Reg.crcChCfgPoly (chBase j) ≠ s.fld Reg.crcChCfgPoly (chBase j) then t.chRestart j else t)
  ∧ OwnRow .regionWindowWrite (fun _ w => (memUnit w.off).isSome) (fun s w =>
      let t := s.routed 94 w.off
      (t.markWrite w.off 4).portWrite w.off (wordBytes w.data))
  ∧ (∀ (s : State) a n, s.ub04 a n = true → .region ((a - 0x04000000) / 0x1000000) ∈ (s.markWrite a n).undef)
  ∧ (∀ (s : State) a n c, memCell a = some c → s.ub01 a n c = true → .cell c ∈ (s.markWrite a n).undef)
  ∧ (∀ (s : State) a n, s.ub04 a n = false → (∀ c, memCell a = some c → s.ub01 a n c = false) → s.markWrite a n = s)
  ∧ (∀ (s : State) a n, s.markWrite a n = { s with undef := (s.markWrite a n).undef })

/-- What a read of a register or of a memory window returns, on the bus and over SPI (R4, R12, R56, R158, R332, R382, R385, R486). Where a
case of undefined behaviour reaches the unit a register shows a free word (R45). -/
def Obligations.ReadsAnswer : Prop :=
  (∀ (s : State) (r : RegRead), s.awake = true → exec (.registerRead r) s = .next (
      if s.heldRead r.off && !s.absentAt r.off then s.emit (.readPoisoned r.fn r.off 0#32)
      else (s.regRead r.off).1.emit (.readData r.fn r.off (s.regRead r.off).2)))
  ∧ (∀ (s : State) (off : Nat), s.absentAt off = true → s.regRead off = (s, 0#32))
  ∧ (∀ (s : State) (off : Nat), s.absentAt off = false → s.viewAt off = none → (s.readClear off).offUndef off = false →
      s.regRead off = (s.readClear off, s.reg off &&& ~~~(BitVec.ofNat 32 (woMask off))))
  ∧ (∀ (s : State) (off : Nat) y, s.absentAt off = false → s.viewAt off = some y → y.1.offUndef off = false → s.regRead off = y)
  ∧ (∀ (s : State) (off : Nat), s.absentAt off = false → (s.regShows off).1.offUndef off = true →
      s.regRead off = ((s.regShows off).1.drew,
        ((s.regShows off).1.freeW &&& ~~~(keptBits off)) ||| ((s.regShows off).2 &&& keptBits off)))
  ∧ (∀ (s : State) (r : RegRead), s.awake = true → r.off = 0x100090 → exec (.madDigestCycleRead r) s = .next (
      let y := ({ s with mad := { s.mad with digLatch := some s.mad.digest, digReadLo := false, digReadHi := false } } : State).unsure r.off
        s.mad.digestCycle
      y.1.emit (.readData r.fn r.off y.2)))
  ∧ (∀ (s : State) (r : RegRead), s.awake = true → r.off = 0x400010 → exec (.timeNowSubRead r) s = .next (
      let y := s.latchTime.unsure r.off (BitVec.ofNat 32 s.subNs)
      y.1.emit (.readData r.fn r.off y.2)))
  ∧ (∀ (s : State) (r : RegRead), s.awake = true → isChan r.off 4 = true → exec (.crcChValLoRead r) s = .next (
      let j := (r.off - 0x808000) / 16
      let held := s.chanHere r.off && s.cellDown (j / 2)
      let v := if s.chanHere r.off && !s.cellDown (j / 2) then s.chVal j else 0#64
      let y := (s.latch (r.off + 4) (v.extractLsb' 32 32)).unsure r.off (v.setWidth 32)
      y.1.emit (if held then .readPoisoned r.fn r.off y.2 else .readData r.fn r.off y.2)))
  ∧ (∀ (s : State) (r : RegRead), s.awake = true → (memUnit r.off).isSome = true → exec (.regionWindowRead r) s = .next (
      if s.absentAt r.off then s.emit (.readData r.fn r.off 0#32)
      else
        let y := (s.routed 94 r.off).portRead r.off 4
        if y.2.2 then y.1.emit (.readPoisoned r.fn r.off (wordAtB y.2.1 0)) else y.1.emit (.readData r.fn r.off (wordAtB y.2.1 0))))
  ∧ (∀ (s : State) (off : Nat), s.keeperUp = true → exec (.spiRdreg off) s = .next (
      if rdregOk off then (s.regRead off).1.emit (.spi (wordBytes (s.regRead off).2)) else s.emit (.spi (wordBytes 0#32))))
  ∧ (∀ (s : State), s.keeperUp = true → s.host.spiReply = none → exec .spiRpl s = .next (s.emit (.spi [0#8])))
  ∧ (∀ (s : State) bs, s.keeperUp = true → s.host.spiReply = some bs → exec .spiRpl s = .next (
      (({ s with host := { s.host with spiReply := none } } : State).emit (.spi (1#8 :: bs))).emit (.pin "MGMT_IRQ_N" true)))


/-! ### The cycle and Madder -/

/-- The rows of the cycle: its edge, its fence, the fence of an operation, dispatch, delay lists, replay, and the turn among the
commands that wait (R29, R36, R37, R145, R148, R151, R158 to R160, R372, R374). -/
def Obligations.CycleRows : Prop :=
  (∀ (s : State) e, s.edgeAt (s.cycle + 1#32) = some e → exec .cycleEdge s = .next (
      let a := s.advanceTo e
      let m := { a.mad with replay := { a.mad.replay with edge := a.mad.replay.running } }
      let g := (State.rebase { a with cycle := a.cycle + 1#32, mad := m }).lspLeaves.graphEdge.localEdge
      ((List.range g.ringCount).foldl State.ringEdge g).loopEdges.woadEdge.lspEdge.indEdge.resumeUnits))
  ∧ (∀ (s : State), s.edgeAt (s.cycle + 1#32) = none → exec .cycleEdge s = .next s)
  ∧ (∀ (s : State), s.edgesRun = true → s.mad.replay.running = false → s.catchingUp = false →
      exec .cycleEndFence s = .next (
        let t := s.toInstant s.timing.tEnd
        let u := (((t.judgeCycle.lateSides.graphFence t.cycle).snapNow t.cycle).sendFence.compareFence t.cycle)
        { u with axShown := u.axes, axCycle := u.cycle }))
  ∧ (∀ (s : State) op d, s.graphsFire = true → (s.catchingUp = false ∨ s.lsp.loaded = true) → s.opDesc op = some d → exec (.operationFence op) s = .next (
      let t := if s.liveGraphs then s.toInstant (s.fenceInstant d) else s
      (t.opFence t.madCycle (op, d)).note))
  ∧ (∀ (s : State) n, s.awake = true → s.cellOpen n = true → exec (.operationDispatch n) s = .next (s.note.dispatch n))
  ∧ (∀ (s : State) r w rest, s.awake = true → (s.delay r).ents = w :: rest → exec (.delayListExpiry r) s = .next (
      let k := s.tickAfter r (Nat.max w.expiry ((s.now16 + 65535) / 65536).toNat)
      let t := s.advanceTo (ns16 k)
      let due := (t.delay r).ents.takeWhile (fun w => decide (w.expiry ≤ k))
      due.foldl State.enqueue (t.setDelay r { t.delay r with ents := (t.delay r).ents.drop due.length })))
  ∧ (∀ (s : State) x, s.mad.replay.running = true → s.mode = .commission → s.mad.replay.busy = false →
      (s.mad.replay.stepping = true → s.mad.replay.go = true) →
      (s.bit Reg.madReplayCtrlPaced = true → s.mad.replay.edge = true ∨ s.mad.replay.abort = true) → exec (.replayCycle x) s = .next (
        if s.mad.replay.abort then s.replayStop false
        else if s.mad.replay.begun then s.replayNext (s.reg Reg.madReplayAt.off + 1#32) x
        else
          let t := s.setReg Reg.madReplayAt.off (s.reg Reg.madReplayFrom.off)
          match t.replayFrom x.snapshot x.journal with
          | some u => u.replayNext (u.reg Reg.madReplayFrom.off) x
          | none => t.replayStop true))
  ∧ (∀ (s : State) k w, s.awake = true → s.nextTurn = some k → s.host.waiting.find? (fun w => w.src == k) = some w →
      exec .commandProcess s = .next (
        let t : State := { s with host := { s.host with waiting := s.host.waiting.erase w, turn := k, stalled := false } }
        (t.setFld Reg.cmdStatFwAlive 1).takeCommand w))
  ∧ (∀ (s : State) k c, k.keepers c = false → s.judged k c
      = ({ s with host := { s.host with turn := portSrc c.port, stalled := false } } : State).setFld Reg.cmdStatFwAlive 1)
  ∧ (∀ (s : State) src w, s.awake = true → s.host.waiting.find? (fun w => w.src == src) = some w →
      exec (.commandTimeout src) s = .next (s.timeOut w))


/-! ### Ring ports -/

/-- What a ring port does of its own at an instant, when it is awake and what the row waits for holds (R241 to R247, R250 to R254,
R268 to R271, R273, R277, R283, R284, R354). -/
def Obligations.RingInstants : Prop :=
  (∀ (s : State) rs lock, s.ringAwake rs.ring = true → s.xw rs.ring ≠ .off → s.xw rs.ring ≠ .bypass →
      s.ringLock rs.ring (s.role rs.ring rs.side) ≠ lock → exec (.ringLockChange rs lock) s = .next (
        let x := s.role rs.ring rs.side
        let u := s.setRingLock rs.ring x lock
        let t := if lock then u.setRing rs.ring { u.ringSt rs.ring with rateHeld := true } else u
        if lock = true ∨ t.xwRuns rs.ring = false then t
        else if t.ringLock rs.ring (flipSide x) = false then (t.toLink rs.ring).ringRaise 0x34 rs.ring
        else t.healEvidence rs.ring x none))
  ∧ (∀ (s : State) r, s.ringAwake r = true → (s.xw r = .link ∨ s.xw r = .pass) → s.fld Reg.xwCtrlPhy (ringBase r) = 2 →
      (s.ringSt r).rateHeld = false →
      exec (.ringRateTryExpiry r) s = .next (
        let t := s.runTo ((s.ringSt r).rateAt + 25000000)
        (t.setRing r { t.ringSt r with rateAt := t.time.ran }).setBit Reg.xwStatRate10 (!t.bit Reg.xwStatRate10 (ringBase r)) (ringBase r)))
  ∧ (∀ (s : State) (rs : RingSide), s.ringAwake rs.ring = true → s.ringLock rs.ring (s.role rs.ring rs.side) = true →
      exec (.rxPolarityCorrect (.ring rs)) s = .next (
        if s.role rs.ring rs.side = .east then s.setFld Reg.xwStatInvE 1 (ringBase rs.ring) else s.setFld Reg.xwStatInvW 1 (ringBase rs.ring)))
  ∧ (∀ (s : State) p, p < 2 → s.awake = true → s.bit Reg.bbStatLock (bbBase p) = true →
      exec (.rxPolarityCorrect (.backbone p)) s = .next (s.setBit Reg.bbStatInv true (bbBase p)))
  ∧ (∀ (s : State) r e edge, s.ringAwake r = true → s.mode ≠ .standby → s.edgeAt (s.cycle + 1#32) = some edge →
      (s.sched r).find? (fun e => e.kind == 1 && s.entryApplies r (s.topoNow r) (s.cycle + 1#32) e) = some e →
      exec (.ringCsInstant r) s = .next (
        let t := s.advanceTo (edge + ns16 e.offset)
        let u := if t.lsp.csSent = false ∧ t.lsp.csMissed = false then t.sendHeartbeat (s.cycle + 1#32) else t
        if (u.ringSt r).csSent = true then u
        else if u.lsp.switchAt = some s.cycle ∨ u.sendsCs r = false then u.setLsp { u.lsp with csMissed := true }
        else (u.setLsp { u.lsp with csSent := true }).sendCs r (s.cycle + 1#32) edge))
  ∧ (∀ (s : State) r c edge, ((s.sendCs r c edge).ringSt r).csSent = true)
  ∧ (∀ (s : State) r, s.ringAwake r = true → (s.xw r = .link ∨ s.xw r = .discover ∨ s.xw r = .intact ∨ s.xw r = .healed) →
      16 ≤ (s.ringSt r).sentRun → exec (.ringLoneEntry r) s = .next ((s.setXw r .lone).ringRaise 0x30 r))
  ∧ (∀ (s : State) rs, s.ringAwake rs.ring = true →
      exec (.ringSampleDue rs) s = .next ((s.sampleDue rs.ring (s.role rs.ring rs.side)).note))
  ∧ (∀ (s : State) rs, s.ringAwake rs.ring = true → s.edgesRun = true →
      exec (.ringCmdLaunch rs) s = .next (s.cmdLaunch rs.ring (s.role rs.ring rs.side)))
  ∧ (∀ (s : State) rs w, s.ringAwake rs.ring = true → (s.xw rs.ring = .intact ∨ s.xw rs.ring = .healed) →
      s.windowNext rs.ring 3 (s.role rs.ring rs.side) = some w → exec (.ringAsyncOutWindow rs) s = .next (
        let x := s.role rs.ring rs.side
        (fitFrames (s.windowBytes rs.ring w.2) (s.asyncWaiting rs.ring x)).foldl (fun s m => s.sendAsync rs.ring x m)
          (s.openWindow rs.ring x w)))
  ∧ (∀ (s : State) rs, s.ringAwake rs.ring = true → s.xw rs.ring = .discover → s.mode ≠ .fault → exec (.ringAsyncOutWindow rs) s = .next (
        let x := s.role rs.ring rs.side
        ((s.asyncWaiting rs.ring x).filter (fun m => m.op == 5)).foldl (fun s m => s.sendAsync rs.ring x m) s))
  ∧ (∀ (s : State) rs p w, s.ringAwake rs.ring = true → s.sfSet = some p → s.xwRuns rs.ring = true → s.lsp.role ≠ .standby →
      s.windowNext rs.ring 5 (s.role rs.ring rs.side) = some w → exec (.ringSafetyOutWindow rs) s = .next (
        let side := s.role rs.ring rs.side
        (((List.range p.conns.length).zip p.conns).foldl (fun (t : State × Nat) e =>
          let x := t.1.conn e.1
          if e.2.kind = 1 ∧ x.sentRing = false ∧ x.out ≠ [] ∧ t.1.connOn rs.ring side e.2 = true ∧ frameBytes x.out.length ≤ t.2 then
            ((t.1.setConnSt e.1 { x with sentRing := true }).ringSend rs.ring side
              { type := 5, node := t.1.connNode rs.ring side e.2, cyc := t.1.cycle } x.out, t.2 - frameBytes x.out.length)
          else t) (s.openWindow rs.ring side w, s.windowBytes rs.ring w.2)).1))
  ∧ (∀ (s : State) r x w, s.ringAwake r = true → s.topoNext r = some (x, w) → exec (.ringTopoWindow r) s = .next (
        let t := s.openWindow r x w
        if t.xw r ≠ .intact ∨ t.windowBytes r w.2 < frameBytes 8 then t
        else if (t.ringSt r).verify = true then t.sendTopo r x 0 0 (List.replicate 8 0#8)
        else t.verifyEcho r x))
  ∧ (∀ (s : State) r kind x, s.mode = .fault → s.windowNext r kind x = none)
  ∧ (∀ (s : State) r kind x w, s.windowNext r kind x = some w → (w.1, x) ∉ (s.ringSt r).used ∧ w.2.kind = kind
      ∧ (s.sched r)[w.1]? = some w.2 ∧ (w.1, x) ∈ ((s.openWindow r x w).ringSt r).used)
  ∧ (∀ (s : State) r, s.ringAwake r = true → s.xw r = .discover → (s.ringSt r).step ≠ .done → 1024 ≤ (s.ringSt r).discFor →
      exec (.ringDiscoverRetry r) s = .next ((s.discFail r).toDiscover r))
  ∧ (∀ (s : State) r, s.ringAwake r = true → s.xw r = .healed → 256 ≤ (s.ringSt r).farRun →
      (s.bit Reg.xwCtrlAutoReclose (ringBase r) = true ∨ (s.ringSt r).permit = true) → (s.ringSt r).evid = [] →
      exec (.ringRecloseStart r) s = .next (s.setRing r { s.ringSt r with reclosing := true }))
  ∧ (∀ (s : State) rs at_, s.ringAwake rs.ring = true → s.xw rs.ring = .pass → (s.ringSt rs.ring).csLaunch = some s.cycle →
      s.role rs.ring rs.side ∉ (s.ringSt rs.ring).launched → s.launchAt rs.ring (s.role rs.ring rs.side) = some at_ →
      exec (.sampleTrainLaunch rs) s = .next (
        let x := s.role rs.ring rs.side
        let y := s.ringSt rs.ring
        let t := s.advanceTo at_
        (halfOf y.slots x).foldl (fun t d =>
          t.ringSend rs.ring x { type := 2, node := d.node, cyc := t.cycle, inbound := true } (List.replicate (16 + 24 * d.axes) 0#8))
          (t.setRing rs.ring { t.ringSt rs.ring with launched := y.launched ++ [x] })))
  ∧ (∀ (s : State) rs, s.ringAwake rs.ring = true →
      (s.role rs.ring rs.side ∈ (s.ringSt rs.ring).launched ∨ (s.ringSt rs.ring).csLaunch ≠ some s.cycle) →
      exec (.sampleTrainLaunch rs) s = .next s)
  ∧ (∀ (s : State), exec (.bypassSwitchComplete 8) s = .next (s.bbSwitchDone.showBypass s))
  ∧ (∀ (s : State) k, k < s.ringCount → k < 8 → exec (.bypassSwitchComplete k) s = .next ((s.ringSwitchDone k).showBypass s))

/-- What a ring port does with a frame received, when it is awake: in PASS it goes on by the other side, whatever it carries (R268), but an
ECHO called to this part, which the port answers (R253, R430); one with a bad check is counted, one of a reserved type, of another ring, or that lies in no window of its
node's is foreign (R245, R257, R286), and another does what its kind is for (R249 to R255, R260 to R267, R270, R272, R279, R426, R433). -/
def Obligations.RingFrames : Prop :=
  (∀ (s : State) rs (f : RingFrame), s.ringForward rs f
      = if s.xw rs.ring = .pass then s.sendFrame (.ringForward rs.ring (flipSide rs.side) f) else s)
  ∧ (∀ (s : State) rs (c : CsFrame) (u : SampleSub) (a : AsyncFrame) (t : SafetyFrame) (l : LoopFrame) (d : DiscoverFrame) (e : EchoFrame) (m : ClaimFrame),
    s.ringAwake rs.ring = true → c.crcOk = false → u.crcOk = false → a.crcOk = false → t.crcOk = false → l.crcOk = false → d.crcOk = false →
    e.crcOk = false → m.crcOk = false →
    (∀ p ∈ [(Instr.ringCycleStartReceive rs c, RingFrame.cs c), (.ringSampleSubframeReceive rs u, .sample u), (.ringAsyncReceive rs a, .async a),
      (.ringSafetyReceive rs t, .safety t), (.ringTopoLoopReceive rs l, .loop l), (.ringDiscoverReturn rs d, .discover d),
      (.ringClaimReceive rs m, .claim m)], exec p.1 s = .next ((s.ringForward rs p.2).ringCrcErr rs.ring (s.role rs.ring rs.side)))
    ∧ exec (.ringEchoReceive rs e) s = .next ((if s.echoIsMine rs e then s else s.ringForward rs (.echo e)).ringCrcErr rs.ring
        (s.role rs.ring rs.side)))
  ∧ (∀ (s : State) rs (c : CsFrame) (u : SampleSub) (a : AsyncFrame) (t : SafetyFrame) (l : LoopFrame) (d : DiscoverFrame) (e : EchoFrame) (m : ClaimFrame),
    s.ringAwake rs.ring = true → (∀ h ∈ [c.toRxHead, u.toRxHead, a.toRxHead, t.toRxHead, l.toRxHead, d.toRxHead, e.toRxHead, m.toRxHead],
      h.crcOk = true ∧ (h.typeOk = false ∨ h.ringNo ≠ rs.ring)) →
    (∀ p ∈ [(Instr.ringCycleStartReceive rs c, RingFrame.cs c), (.ringSampleSubframeReceive rs u, .sample u), (.ringAsyncReceive rs a, .async a),
      (.ringSafetyReceive rs t, .safety t), (.ringTopoLoopReceive rs l, .loop l), (.ringDiscoverReturn rs d, .discover d),
      (.ringClaimReceive rs m, .claim m)], exec p.1 s = .next ((s.ringForward rs p.2).ringForeign rs.ring))
    ∧ exec (.ringEchoReceive rs e) s = .next ((if s.echoIsMine rs e then s else s.ringForward rs (.echo e)).ringForeign rs.ring))
  ∧ (∀ (s : State) rs (a : AsyncFrame) (t : SafetyFrame) (m : ClaimFrame), s.ringAwake rs.ring = true →
    (∀ h ∈ [a.toRxHead, t.toRxHead, m.toRxHead], h = ⟨true, true, rs.ring⟩) → a.inWindow = false → t.inWindow = false → m.inWindow = false →
    s.xw rs.ring ≠ .pass →
    (∀ i ∈ [Instr.ringAsyncReceive rs a, .ringSafetyReceive rs t], exec i s = .next (s.ringStray rs.ring))
    ∧ (s.xw rs.ring ≠ .off → s.xw rs.ring ≠ .bypass → exec (.ringClaimReceive rs m) s = .next (s.ringStray rs.ring)))
  ∧ (∀ (s : State) rs (f : CsFrame), s.ringAwake rs.ring = true → f.toRxHead = ⟨true, true, rs.ring⟩ → s.xw rs.ring = .pass →
      exec (.ringCycleStartReceive rs f) s = .next ((s.ringForward rs (.cs f)).csPass rs.ring f))
  ∧ (∀ (s : State) rs (f : CsFrame), s.ringAwake rs.ring = true → f.toRxHead = ⟨true, true, rs.ring⟩ → s.xw rs.ring ≠ .off →
      s.xw rs.ring ≠ .bypass → s.xw rs.ring ≠ .pass → f.activeId = s.activeId →
      exec (.ringCycleStartReceive rs f) s = .next (s.csBack rs.ring (s.role rs.ring rs.side) f))
  ∧ (∀ (s : State) rs (f : CsFrame), s.ringAwake rs.ring = true → f.toRxHead = ⟨true, true, rs.ring⟩ → s.xw rs.ring ≠ .off →
      s.xw rs.ring ≠ .bypass → s.xw rs.ring ≠ .pass → f.activeId ≠ s.activeId → s.lsp.role ≠ .unpaired → s.lsp.tookOver = false →
      (s.mode = .run ∨ s.mode = .degraded) → exec (.ringCycleStartReceive rs f) s = .next ((s.enterStandby .fault).lspRaise 0x85))
  ∧ (∀ (s : State) rs (f : CsFrame), s.ringAwake rs.ring = true → f.toRxHead = ⟨true, true, rs.ring⟩ → s.xw rs.ring ≠ .off →
      s.xw rs.ring ≠ .bypass → s.xw rs.ring ≠ .pass → f.activeId ≠ s.activeId → s.lsp.role = .unpaired →
      exec (.ringCycleStartReceive rs f) s = .next (s.undefine (.ring rs.ring)))
  ∧ (∀ (s : State) rs (f : SampleSub), s.ringAwake rs.ring = true → f.toRxHead = ⟨true, true, rs.ring⟩ → s.xwRuns rs.ring = true →
      exec (.ringSampleSubframeReceive rs f) s = .next ((s.sampleIn rs.ring (s.role rs.ring rs.side) f).note))
  ∧ (∀ (s : State) rs (f : CmdTrain), s.ringAwake rs.ring = true → exec (.ringCommandTrainReceive rs f) s = .next (
        let t := f.subs.foldl (fun t k =>
          if k.crcOk = false then t.ringCrcErr rs.ring (s.role rs.ring rs.side)
          else if k.typeOk = false ∨ k.ringNo ≠ rs.ring then t.ringForeign rs.ring else t) (s.ringForward rs (.command f))
        if t.xw rs.ring = .pass ∧ t.lsp.sync = .inStep ∧ f.cycle = t.cycle then
          let ks := f.subs.filter (fun k => k.crcOk && k.typeOk && decide (k.ringNo = rs.ring))
          let y := t.trainDiffers rs.ring ks
          let u := if ks = [] then y.1 else y.1.setLsp { y.1.lsp with cmdSeen := rs.ring :: y.1.lsp.cmdSeen }
          if y.2 then u.mismatch 1 f.cycle else u
        else t))
  ∧ (∀ (s : State) rs (f : AsyncFrame), s.ringAwake rs.ring = true → f.toRxHead = ⟨true, true, rs.ring⟩ → f.inWindow = true →
      (s.xw rs.ring = .discover ∨ s.xw rs.ring = .intact ∨ s.xw rs.ring = .healed) → exec (.ringAsyncReceive rs f) s = .next (
        if f.sub = 6 then s.descAck rs.ring f.node
        else if f.sub = 2 ∨ f.sub = 3 ∨ f.sub = 4 ∨ f.sub = 7 then s.asyncReply rs.ring f else s))
  ∧ (∀ (s : State) rs (f : AsyncFrame), s.ringAwake rs.ring = true → f.toRxHead = ⟨true, true, rs.ring⟩ → s.xw rs.ring = .pass →
      exec (.ringAsyncReceive rs f) s = .next (s.ringForward rs (.async f)))
  ∧ (∀ (s : State) rs (f : SafetyFrame), s.ringAwake rs.ring = true → f.toRxHead = ⟨true, true, rs.ring⟩ → f.inWindow = true →
      exec (.ringSafetyReceive rs f) s = .next ((s.ringForward rs (.safety f)).telegramIn false f.body))
  ∧ (∀ (s : State) rs (f : LoopFrame), s.ringAwake rs.ring = true → f.toRxHead = ⟨true, true, rs.ring⟩ →
      exec (.ringTopoLoopReceive rs f) s = .next ((s.ringForward rs (.loop f)).healEvidence rs.ring (s.role rs.ring rs.side) (some f.addr)))
  ∧ (∀ (s : State) rs (f : DiscoverFrame), s.ringAwake rs.ring = true → f.toRxHead = ⟨true, true, rs.ring⟩ →
      exec (.ringDiscoverReturn rs f) s = .next ((s.ringForward rs (.discover f)).discoverBack rs.ring (s.role rs.ring rs.side) f))
  ∧ (∀ (s : State) rs (f : EchoFrame), s.ringAwake rs.ring = true → f.toRxHead = ⟨true, true, rs.ring⟩ → exec (.ringEchoReceive rs f) s = .next (
      let x := s.role rs.ring rs.side
      if s.xw rs.ring = .pass then
        (if s.echoIsMine rs f then
          s.ringSend rs.ring x { type := 6, node := f.node, cyc := s.cycle, sub := 1, inbound := true }
            (leBytes 8 (f.hop % 16 + if f.west then 16 else 0))
        else s.ringForward rs (.echo f))
      else if f.returned = true then
        (if (s.otherCfg rs.ring).isSome = true ∧ f.hop = s.twinHop rs.ring x then s.twinMeasured rs.ring x f
        else s.measured rs.ring f.node x ((f.rttSixteenths - 16 * (Tab.find (s.ringSt rs.ring).echoNs f.node).getD 0) / 2))
      else s))
  ∧ (∀ (s : State) rs (f : EchoFrame), s.echoIsMine rs f = true ↔ f.returned = false ∧ f.hop = s.twinHop rs.ring (s.role rs.ring rs.side))
  ∧ (∀ (s : State) rs (f : ClaimFrame), s.ringAwake rs.ring = true → f.toRxHead = ⟨true, true, rs.ring⟩ → f.inWindow = true →
      s.xw rs.ring ≠ .pass → s.xw rs.ring ≠ .off → s.xw rs.ring ≠ .bypass → exec (.ringClaimReceive rs f) s = .next (s.claim rs.ring f))
  ∧ (∀ (s : State) rs (f : ClaimFrame), s.ringAwake rs.ring = true → f.toRxHead = ⟨true, true, rs.ring⟩ → s.xw rs.ring = .pass →
      exec (.ringClaimReceive rs f) s = .next (s.ringForward rs (.claim f)))


/-! ### Local drives -/

/-- The gate timers: what is taken at the command launch and at the apply instant, carrier periods, decay, mask edges and steps, the delay
line, a short, and the levels of the outputs by the order that applies (R289 to R308, R318). A mask step leaves the floating phase with
both outputs off from then on (R300, R304); no leg of a stepper ever has both its outputs on (R292, R305). -/
def Obligations.GateTimerRows : Prop :=
  (∀ (s : State), s.edgesRun = true → s.awake = true → (∃ k < 8, (s.lg k).taken = false) →
      exec .localCmdLaunch s = .next (((List.range 8).foldl State.lgLaunch (s.toInstant s.timing.tCmd)).note))
  ∧ (∀ (s : State) now nx, s.awake = true → s.applyTap s.cycle = some now → s.applyTap (s.cycle + 1#32) = some nx →
      (∀ k < 8, (s.lg k).started = true → ¬ (nx ≤ (s.lg k).until_ + 32 ∧ (s.lg k).until_ ≤ nx + 32)) → exec .localApplyInstant s = .next (
        (s.toInstant s.timing.tApply).gated (fun t => (List.range 8).foldl (fun t k => t.lgApply k now nx) t)))
  ∧ (∀ (s : State) k, k < 8 → s.awake = true → (s.lg k).started = true → (s.lg k).left ≠ 0 → s.bit Reg.pwmGrpCfgEn (lgBase k) = true →
      exec (.carrierPeriodStart k) s = .next (
        let x := s.lg k
        let per := 32 * (s.lgPer k : Int)
        let start := s.onGrid (x.start + per)
        ((s.advanceTo (ofTap start)).setLg k { x with left := x.left - 1 }).periodStart k start
          (if x.left - 1 = 0 then s.onGrid x.until_ - start else per)))
  ∧ (∀ (s : State) (t : Int), s.bit Reg.pwmDlyStatDlyErr = false → s.onGrid t = t)
  ∧ (∀ (s : State) (t : Int), s.bit Reg.pwmDlyStatDlyErr = true → s.onGrid t % 32 = 0 ∧ t - 32 < s.onGrid t ∧ s.onGrid t < t + 32)
  ∧ (∀ (s : State) k b t, k < 8 → s.awake = true → ((s.lg k).coil b).ph = .fast → ((s.lg k).coil b).mixEnd = some t →
      exec (.mixedDecayEnd k b) s = .next ((s.advanceTo t).setCoil k b { (s.lg k).coil b with ph := .slow, mixEnd := none }))
  ∧ (∀ (s : State) (e : Int), s.awake = true → exec (.delayLineCalibration e) s = .next (
      let trim := s.fld Reg.pwmDlyStatTrim
      let nx := if 0 < e then trim - 1 else if e < 0 then min 63 (trim + 1) else trim
      let was := s.bit Reg.pwmDlyStatDlyErr
      let err := decide (62 < e ∨ e < -62) && (was || nx == trim)
      let t := ((s.setFld Reg.pwmDlyStatTrim nx).setFld Reg.pwmDlyStatErrPs (BitVec.ofInt 8 (max (-128) (min 127 e))).toNat).setBit
        Reg.pwmDlyStatDlyErr err
      if err = true ∧ was = false then t.raise 0x42 1 10 102 else t))
  ∧ (∀ (s : State) k p rising, k < 8 → s.awake = true → exec (.maskEvent k (.zc p rising)) s = .next (s.maskEvent k (.zc p rising)))
  ∧ (∀ (s : State) k h, k < 8 → s.bit Reg.pwmGrpMaskSrc (lgBase k) = true → s.fld Reg.pwmGrpCfgFb (lgBase k) < 8 →
      exec (.maskEvent k (.hall h)) s = exec (.fbHallChange (s.fld Reg.pwmGrpCfgFb (lgBase k)) h) s)
  ∧ (∀ (s : State) k e, s.bit Reg.pwmGrpCfgEn (lgBase k) = true → (s.lg k).masked = true → s.qualified k e = true →
      recForced (s.lg k).rec_ = false → s.blanked k = true → (s.lg k).delay = none → s.maskEvent k e
        = s.setLg k { s.lg k with delay := some (s.now16 + ns16 (4 * recOn (s.lg k).rec_ 1)) })
  ∧ (∀ (s : State) k e, s.bit Reg.pwmGrpCfgEn (lgBase k) = true → (s.lg k).masked = true → s.qualified k e = true →
      recForced (s.lg k).rec_ = false → (s.blanked k = false ∨ (s.lg k).delay ≠ none) → s.maskEvent k e = s.incFld Reg.pwmGrpCntEvMissed (lgBase k))
  ∧ (∀ (s : State) k t, k < 8 → s.awake = true → (s.lg k).masked = true → (s.lg k).delay = some t →
      exec (.maskStep k) s = .next ((s.advanceTo t).maskStep k t))
  ∧ (∀ (s : State) k t, s.lgOrder k ≠ 7 → s.maskStep k t = s.setLg k { s.lg k with delay := none })
  ∧ (∀ (s : State) k t, s.lgOrder k = 7 →
      let u := s.maskStep k t
      let place := (s.onGrid (tapOf t) - (s.lg k).start).toNat
      u.maskAt k = s.nextStep k ∧ (u.lg k).delay = none ∧ (u.lg k).stepAt = some t ∧ (u.lg k).ev = ((s.lg k).ev + 1) % 256
        ∧ (∀ e ∈ (u.lg k).edges, e.out / 2 = (sixStep (s.nextStep k)).2.2.1 → place < e.at_ → e.high = false)
        ∧ (∀ n ≠ k, u.lg n = s.lg n))
  ∧ (∀ (s : State) k o, k < 8 → o < 8 → s.awake = true → exec (.gateShortDetect k o) s = .next (
      let x := s.lg k
      let t := (s.setFld Reg.pwmGrpStatShort (Nat.lor (s.fld Reg.pwmGrpStatShort (lgBase k)) (2 ^ o)) (lgBase k)).setLg k
        { x with fault := true, edges := [] }
      if x.fault then t else t.raise 0x40 1 7 k))
  ∧ (∀ (s : State) k, s.stoOff k = true ∨ s.power.handling = true → s.lgOrder k = 1 ∧ s.gatePins k = 0)
  ∧ (∀ (s : State) k, s.mode = .fault → s.gatePins k = 0)
  ∧ (∀ (s : State) k, s.stoOff k = false → s.power.handling = false → s.fox.latch = true →
      s.lgOrder k = 2 ∧ (s.mode ≠ .fault → s.gatePins k = s.safePins k))
  ∧ (∀ (s : State) k, s.groupUndef k = false → s.mode ≠ .fault →
      (s.lgOrder k = 3 ∨ s.lgOrder k = 6 → s.gatePins k = if s.spareHigh k then 128 else 0)
      ∧ (s.lgOrder k = 4 → s.gatePins k = 0) ∧ (s.lgOrder k = 5 → s.gatePins k = s.safePins k)
      ∧ (7 ≤ s.lgOrder k → s.gatePins k = s.wavePins k))
  ∧ (∀ (s : State) k j, s.bit Reg.pwmGrpCfgKind (lgBase k) = true → j < 4 →
      ¬ ((s.wavePins k).testBit (2 * j) = true ∧ (s.wavePins k).testBit (2 * j + 1) = true))
  ∧ (∀ (s : State) (f : State → State) k, k < 8 → (f s).lgSafe k = true → s.lgSafe k = false →
      ((s.gated f).lg k).safeAt = some ((f s).now16, s.gatePins k))

/-- The converters: timed starts, on a free converter and on a busy one, where the entry is counted late and waits or, urgent, makes its
request; a conversion's result, after which the table goes on; the records of the cycle, calibration (R309 to R317). -/
def Obligations.ConverterRows : Prop :=
  (∀ (s : State) j i early, j < 16 → s.bit Reg.adcCtrlRunning = true → s.awake = true → s.timedNext j = some (i, early) → (s.conv j).run = none →
      exec (.adcTimedStart j) s = .next (
        let t := match s.instant (if early then s.cycle + 1#32 else s.cycle) (s.seqSample j i - 30) with
          | some x => s.advanceTo x
          | none => s
        (if early then t else t.seqTake j i).convStart j i (t.seqChan j i) (t.seqUrg j i) false early))
  ∧ (∀ (s : State) j i r, j < 16 → s.bit Reg.adcCtrlRunning = true → s.awake = true → s.timedNext j = some (i, false) → (s.conv j).run = some r →
      exec (.adcTimedStart j) s = .next (
        let t := match s.instant s.cycle (s.seqSample j i - 30) with
          | some x => s.advanceTo x
          | none => s
        if t.seqUrg j i = false then (t.incFld Reg.adcStatLate).setConv j { t.conv j with idx := i, due := true }
        else
          let u := if t.mayAbort r then t else t.incFld Reg.adcStatLate
          (u.seqTake j i).urgentReq j i (u.seqChan j i)))
  ∧ (∀ (s : State) j i, s.seqAt j 65 (s.conv j).idx = i → s.seqTake j i = s.setConv j { s.conv j with idx := i + 1 })
  ∧ (∀ (s : State) j i, s.seqAt j 65 (s.conv j).idx ≠ i → s.seqTake j i = s.setConv j { s.conv j with took := (s.conv j).took ++ [i] })
  ∧ (∀ (s : State) j i e t, s.seqAt j 65 i = e → e < 64 → s.seqKind j e = 0 → (s.conv j).due = false →
      s.instant s.cycle (s.seqSample j e - 30) = some t →
      (t < s.now16 → s.seqNext j true i = ((s.incFld Reg.adcStatLate).setConv j { s.conv j with due := true }).seqGo j true i)
      ∧ (s.now16 ≤ t → s.seqNext j true i = s.seqGo j true i))
  ∧ (∀ (s : State) j r c, j < 16 → s.awake = true → (s.conv j).run = some c → c.entry = 64 → (s.conv j).urgent = [] → (s.conv j).aborted = none →
      r.above = false → r.below = false →
      exec (.adcConversionComplete j r) s = .next (
        let a := s.advanceTo (c.start + ns16 200)
        let x := a.conv j
        let nb := match x.lastOvr with | some n => n != c.chan | none => false
        let w := BitVec.ofNat 32 (bitN nb * 2 ^ 30 + bitN c.rst * 2 ^ 29 + 63 * 65536
          + a.calibrated c.chan r.code.toNat)
        let b := (a.setReg (0x340100 + 4 * c.chan) w).indResult c.chan w (c.start + ns16 30)
        (b.setConv j { x with run := none, lastOvr := none }).seqNext j (b.convFits b.now16) x.idx))
  ∧ (∀ (s : State), s.edgesRun = true → s.awake = true → s.adc.sent = false → exec .adcRecordDue s = .next (
      let t := s.toInstant (s.fld Reg.adcDueDue)
      ((List.range 8).foldl (fun s k =>
        if (s.axisCfg (256 + k)).isNone then s
        else
          let y := s.localRecord k
          y.1.axisToken adcPort (256 + k) y.2) ({ t with adc := { t.adc with sent := true } } : State)).note))
  ∧ (∀ (s : State) sum x ch tgt, s.calCmd = some (x, ch, 0, tgt) → exec (.adcCalComplete sum false) s = .next (
      let t : State := { s with adc := { s.adc with cal := none, points := Tab.ins (Tab.drop s.adc.points ch) ch (sum, tgt) } }
      t.finish x 0 { data := t.calData ch }))
  ∧ (∀ (s : State) sum x ch pt tgt, s.calCmd = some (x, ch, pt, tgt) → exec (.adcCalComplete sum true) s = .next (s.calDone.finish x 0x0A {}))
  ∧ (∀ (s : State) sum x ch pt tgt p, s.calCmd = some (x, ch, pt, tgt) → pt ≠ 0 → Tab.find s.adc.points ch = some p → p.1 + 65536 ≤ sum →
      0x8000 ≤ calGain p (sum, tgt) → calGain p (sum, tgt) ≤ 0x1FFFF → exec (.adcCalComplete sum false) s = .next (
        let g := calGain p (sum, tgt)
        let t := (s.calDone.setFld Reg.adcGainGain g.toNat (4 * ch)).setFld Reg.adcOffOff (BitVec.ofInt 20 (calOffset p g)).toNat (4 * ch)
        t.finish x 0 { data := t.calData ch }))
  ∧ (∀ (s : State) x y, s.calCmd = some (x, y) → exec .adcCalTimeout s = .next ((s.runTo (s.adc.calAt + 5000000)).calDone.finish x 9 {}))

/-- The position interfaces: counting, the Z latch, Hall states, serial frames, a lost pair (R318 to R327). -/
def Obligations.FeedbackRows : Prop :=
  (∀ (s : State) k, k < 8 → s.awake = true → s.fbMode k = 1 →
      exec (.fbQuadEdge k .up) s = .next ((s.shadowStep k false).countEdge k (s.bit Reg.fbStatSwapFixed (fbBase k)))
      ∧ exec (.fbQuadEdge k .down) s = .next ((s.shadowStep k true).countEdge k (!s.bit Reg.fbStatSwapFixed (fbBase k)))
      ∧ exec (.fbQuadEdge k .both) s = .next (((s.incFld Reg.fbStatQerr (fbBase k)).setFb k { s.fb k with qerr := true }).fbNote k))
  ∧ (∀ (s : State) k e, k < 8 → s.woadOn = true → s.awake = false → exec (.fbQuadEdge k e) s = .next (s.shadowEdge k e))
  ∧ (∀ (s : State) k down, s.shadowStep k down = { s with woad := { s.woad with shadow := (s.shadowStep k down).woad.shadow } }
      ∧ (∀ j, j ≠ k → Tab.get 0#32 (s.shadowStep k down).woad.shadow j = Tab.get 0#32 s.woad.shadow j)
      ∧ ((Tab.get 0#32 s.woad.shadow k).toNat < s.shadowCpr k → s.shadowCpr k ≤ 2 ^ 32 →
          ((Tab.get 0#32 (s.shadowStep k down).woad.shadow k).toNat : Int)
            = ((Tab.get 0#32 s.woad.shadow k).toNat + if down then -1 else 1) % (s.shadowCpr k : Int)))
  ∧ (∀ (s : State) k, k < 8 → s.awake = true → s.fbMode k = 1 → s.fld Reg.fbCfgZMode (fbBase k) ≠ 0 → exec (.fbZEdge k) s = .next (
      let b := fbBase k
      let z := s.fld Reg.fbCfgZMode b
      let pos := s.fld Reg.fbPos b
      let t := s.setFld Reg.fbZlatch pos b
      if z = 2 ∧ (t.fb k).zeroed = false then (t.setFld Reg.fbPos 0 b).setFb k { t.fb k with zeroed := true }
      else if z = 3 then
        match (t.fb k).firstZ with
        | none => t.setFb k { t.fb k with firstZ := some (BitVec.ofNat 32 pos) }
        | some f => if t.fld Reg.fbCfgZTol b < circDist (t.cpr k) pos f.toNat then (t.setBit Reg.fbStatZerr true b).fbNote k else t
      else t))
  ∧ (∀ (s : State) k (h : BitVec 3), k < 8 → s.awake = true → (s.bit Reg.fbCfgHallEn (fbBase k) = false ∨
      ((s.fb k).hallRead = true ∧ h.toNat = (s.fb k).hall)) →
      exec (.fbHallChange k h) s = .next (s.setFb k { s.fb k with hallPin := some h.toNat }))
  ∧ (∀ (s : State) k (h : BitVec 3), k < 8 → s.awake = true → s.bit Reg.fbCfgHallEn (fbBase k) = true →
      ((s.fb k).hallRead = false ∨ h.toNat ≠ (s.fb k).hall) → (h = 0#3 ∨ h = 7#3) → exec (.fbHallChange k h) s = .next (
        let t := s.setFb k { s.fb k with hallPin := some h.toNat, hall := h.toNat, hallRead := true }
        (t.setBit Reg.fbStatHallErr true (fbBase k)).fbNote k))
  ∧ (∀ (s : State) k (h : BitVec 3), k < 8 → s.awake = true → s.bit Reg.fbCfgHallEn (fbBase k) = true →
      ((s.fb k).hallRead = false ∨ h.toNat ≠ (s.fb k).hall) → h ≠ 0#3 → h ≠ 7#3 → (s.fb k).valid = none → exec (.fbHallChange k h) s = .next (
        let t := s.setFb k { s.fb k with hallPin := some h.toNat, hall := h.toNat, hallRead := true }
        let u := (t.hallMasks k).foldl (fun u n => u.maskEvent n (.hall h)) t
        (u.setFb k { u.fb k with valid := some h.toNat, moved := 0 }).fbNote k))
  ∧ (∀ (s : State) k, k < 8 → s.awake = true → 2 ≤ s.fbMode k → (s.fb k).waits = false → s.edgesRun = true → exec (.fbSerialRequest k) s = .next (
      let t := match s.instant (s.cycle + 1#32) (-(s.fld Reg.fbLeadLead (fbBase k) : Int)) with
        | some x => s.advanceTo x
        | none => s
      (t.setFb k { t.fb k with waits := true, good := false }).emit (.serialRequest k)))
  ∧ (∀ (s : State) k f, k < 8 → s.awake = true → (s.fb k).waits = true → 2 ≤ s.fbMode k → s.frameGood k f = false →
      exec (.fbSerialFrame k f) s = .next ((s.serFail k).fbNote k))
  ∧ (∀ (s : State) k f, k < 8 → s.awake = true → (s.fb k).waits = true → 2 ≤ s.fbMode k → s.frameGood k f = true →
      ((s.fb k).prev = none ∨ s.bit Reg.fbCfgExtrap (fbBase k) = false) → exec (.fbSerialFrame k f) s = .next (
        let b := fbBase k
        let p := s.serField k f.data
        let x := s.fb k
        let t := ((s.setFld Reg.fbStatSerFail 0 b).setBit Reg.fbStatSerErr false b).setBit Reg.fbStatWarn (f.warn && s.fbMode k == 3) b
        let t := t.setFld Reg.fbPos p b
        let t := (t.setFb k { x with waits := false, passed := false, good := true, prev := some (BitVec.ofNat 32 p) }).fbNote k
        if x.passed then (t.setFld Reg.fbLatchPos p b).fbExt k true else t))
  ∧ (∀ (s : State) k, k < 8 → s.awake = true → (s.fb k).waits = true → (s.fb k).passed = true → 2 ≤ s.fbMode k →
      exec (.fbSerialDeadline k) s = .next (((s.toInstant 170).serFail k).fbNote k))
  ∧ (∀ (s : State) k p x, k < 8 → s.awake = true → ((s.fbMode k = 1 ∧ p < 3) ∨ (2 ≤ s.fbMode k ∧ p = 1)) →
      exec (.fbPairLoss k p x) s = .next (
        let b := fbBase k
        if x = .good then
          let t := s.setFld Reg.fbStatLost (Nat.land (s.fld Reg.fbStatLost b) (7 - 2 ^ (2 - p))) b
          (if t.fld Reg.fbStatLost b = 0 then t.setBit Reg.fbStatShorted false b else t).fbNote k
        else
          let t := (s.setFld Reg.fbStatLost (Nat.lor (s.fld Reg.fbStatLost b) (2 ^ (2 - p))) b).setBit Reg.fbStatShorted (decide (x = .shorted)) b
          (if p = 2 then t else t.fbFault k).fbNote k))


/-! ### Time, backbone, host links -/

/-- The time unit's own instants and the backbone's frames (R330 to R335, R339 to R354): a tick adds the increment, a ramp boundary comes
each interval and moves the increment one step; a timed frame keeps its port for one maximum frame time before its launch, and the
part's own frames wait; a PTP event message is recognised by its bytes. -/
def Obligations.TimeAndBackboneRows : Prop :=
  (∀ (s : State), s.awake = true → exec .rampBoundary s = .next ((s.ticks s.time.left).rampStat))
  ∧ (∀ (s : State), 0 < s.time.left →
      let t := s.time.taken
      let u := (s.ticks s.time.left).time
      u.inc = BitVec.ofNat 48 (stepToward t.inc.toNat t.tgt.toNat (s.fld Reg.timeSlewStep)) ∧ u.tgt = s.time.tgt
        ∧ u.left = 500 * max 1 (s.fld Reg.timeSlewInterval) ∧ u.ran = s.time.ran + s.time.left)
  ∧ (∀ (s : State) k, 0 < k → k < s.time.left →
      let t := s.time.taken
      let u := (s.ticks k).time
      u.inc = t.inc ∧ u.left = s.time.left - k ∧ u.ran = s.time.ran + k
        ∧ (s.time.total + k * t.inc.toNat < 2 ^ 40 * (1000000000 * 2 ^ 64) → u.total = s.time.total + k * t.inc.toNat))
  ∧ (∀ (s : State), s.awake = true → s.fld Reg.timeHoldStaleMs ≠ 0 → s.bit Reg.timeStatStale = false →
      exec .holdoverExpiry s = .next (
        let t := s.runTo (s.time.hold + 500000 * s.fld Reg.timeHoldStaleMs)
        (t.setFld Reg.timeStatStale 1).raise 0x50 1 10 96))
  ∧ (∀ (s : State), s.awake = true → s.time.ppsHigh = false → exec .ppsRise s = .next (
      let t := s.ppsPassed.advanceTo (sec16 s.ppsDue)
      let n := t.time.s.toNat
      ({ t with time := { t.time with ppsHigh := true, ppsFrom := n + 1
                                      ppsEnd := sec16 n + ns16 ((t.fld Reg.timePpsWidthUs : Int) * 1000) } } : State).emit (.pin "PPS_OUT" true)))
  ∧ (∀ (s : State), s.awake = true → s.time.ppsHigh = true → exec .ppsFall s = .next (
      let t := s.advanceTo s.time.ppsEnd
      ({ t with time := { t.time with ppsHigh := false } } : State).emit (.pin "PPS_OUT" false)))
  ∧ (∀ (gs : List ClkSeg) c t g e, (clkLive gs t).getLast? = some g → g.till = some e →
      ∃ n, clkTake gs c t = clkLive gs t ++ [⟨c, sec16 n, none⟩] ∧ t < sec16 n ∧ e + g.set.half c ≤ sec16 n)
  ∧ (∀ (s : State) k c, Tab.find s.time.clkNext k = some c → exec (.clkOutLock k) s = .next (
      let t := s.clkWave k (fun gs => clkTake gs c s.now16)
      ({ t with time := { t.time with clkNext := Tab.drop t.time.clkNext k } } : State).setFld Reg.timeClkCtrlPending 0 (0x10 * k)))
  ∧ (∀ (s : State) p f, p < 2 → s.awake = true → s.bbUp p = true → f.fcsOk = true → 64 ≤ f.length → f.length ≤ 1522 →
      exec (.bbFrameReceive p f) s = .next (s.bbDeliver p f))
  ∧ (∀ (s : State) p f, p < 2 → s.awake = true → s.bbUp p = true → (f.fcsOk = false ∨ 1522 < f.length) →
      exec (.bbFrameReceive p f) s = .next (s.incFld Reg.bbCntRxErr (bbBase p)))
  ∧ (∀ (s : State) p d, p < 2 → s.awake = true → s.bbUp p = true → s.power.handling = false → s.bbGuard p = true →
      exec (.bbFrameTransmit p d) s = .next s)
  ∧ (∀ (s : State) p d f rest, p < 2 → s.awake = true → s.bbUp p = true → s.power.handling = false → s.bbGuard p = false →
      ((s.bbSt p).timed ≠ none ∨ s.txWaits p = false) → (s.bbSt p).fwd = f :: rest →
      exec (.bbFrameTransmit p d) s = .next ((s.sendHeld p).sendForwarded p f rest))
  ∧ (∀ (s : State) p d, p < 2 → s.awake = true → s.bbUp p = true → s.power.handling = false → (s.bbSt p).timed = none → s.txWaits p = true →
      exec (.bbFrameTransmit p d) s = .next (
        let y := s.headTx p d
        if y.1.bbGuard p = true then y.1
        else
          let t := y.1.sendHeld p
          match (t.bbSt p).fwd with
          | f :: rest => t.sendForwarded p f rest
          | [] => if y.2 then t.sendRing p d t.now16 else t))
  ∧ (∀ (s : State) p d,
      let at_ := (s.bbSt p).headAt
      ((d.length < 60 ∨ 1518 < d.length) → s.headTx p d = (s.retireTx p d 3, false))
      ∧ (60 ≤ d.length → d.length ≤ 1518 → d.timed = false → s.headTx p d = (s, true))
      ∧ (60 ≤ d.length → d.length ≤ 1518 → d.timed = true → (txLaunch d - at_) * 100 < s.maxFrame100 p →
          s.headTx p d = ((s.incFld Reg.bbLateLate (bbBase p)).retireTx p d 0x0B, false))
      ∧ (60 ≤ d.length → d.length ≤ 1518 → d.timed = true → s.maxFrame100 p ≤ (txLaunch d - at_) * 100 → sec16 1 < txLaunch d - at_ →
          s.headTx p d = (s.retireTx p d 3, false))
      ∧ (60 ≤ d.length → d.length ≤ 1518 → d.timed = true → s.maxFrame100 p ≤ (txLaunch d - at_) * 100 → txLaunch d - at_ ≤ sec16 1 →
          s.headTx p d = (s.setBbSt p { s.bbSt p with timed := some d }, false)))
  ∧ (∀ (s : State) p d, (s.bbSt p).timed = some d → (s.bbGuard p = true ↔ (txLaunch d - s.now16) * 100 ≤ s.maxFrame100 p))
  ∧ (∀ (s : State) p bs, s.bbSend p bs
      = if s.bbGuard p then s.setBbSt p { s.bbSt p with held := (s.bbSt p).held ++ [bs] } else s.sendFrame (.backbone p bs))
  ∧ (∀ (s : State) p d, p < 2 → s.awake = true → s.bbUp p = true → s.power.handling = false → (s.bbSt p).timed = some d →
      exec (.bbTimedLaunch p) s = .next (
        let t := (s.setBbSt p { s.bbSt p with timed := none }).advanceTo (txLaunch d)
        (if txLaunch d < s.now16 then (t.incFld Reg.bbLateLate (bbBase p)).retireTx p d 0x0B else t.sendRing p d (txLaunch d)).sendHeld p))
  ∧ (∀ (a : List Byte) (ty ver : Byte) (m : List Byte), a.length = 12 →
      ptpEvent (a ++ [0x88#8, 0xF7#8, ty, ver] ++ m) = (decide (ver.toNat % 16 = 2) && decide (ty.toNat % 16 ≤ 3))
      ∧ ∀ v0 v1, ptpEvent (a ++ [0x81#8, 0x00#8, v0, v1, 0x88#8, 0xF7#8, ty, ver] ++ m)
          = (decide (ver.toNat % 16 = 2) && decide (ty.toNat % 16 ≤ 3)))
  ∧ (∀ (s : State) p, p < 2 → s.awake = true → s.bit Reg.bbStatLock (bbBase p) = true → exec (.bbLockLoss p) s = .next (
      let t := s.setFld Reg.bbStatLock 0 (bbBase p)
      if t.bit Reg.bbCtrlEn (bbBase p) = true ∧ t.bit Reg.bbPairCtrlClosed = false then t.raise 0x51 1 10 (92 + p) else t))
  ∧ (∀ (s : State) p, p < 2 → s.awake = true → s.bit Reg.bbPairCtrlClosed = false → s.bit Reg.bbCtrlEn (bbBase p) = true →
      exec (.bbBlockLock p) s = .next (s.setFld Reg.bbStatLock 1 (bbBase p)))

/-- Host links: a command fetched or clocked in, errors of the host, resets of a function, the link, the journal's mirror, VHOLD_OK
(R362, R367, R373, R381, R384, R393 to R396). -/
def Obligations.HostLinkRows : Prop :=
  (∀ (s : State) q p t n, s.arrive (.qp q) (CmdIn.ofPacket (.qp q) p.bytes none).tag = (t, some n) →
      exec (.qpCommandFetch q p) s = .next (t.wait { CmdIn.ofPacket (.qp q) p.bytes none with slot := n, era := (t.qp q).era }))
  ∧ (∀ (s : State) p t n, s.arrive .spi (CmdIn.ofPacket .spi p.bytes none).tag = (t, some n) →
      exec (.spiCmd p) s = .next (t.keeperIn specLevelReset (CmdIn.ofPacket .spi p.bytes none)))
  ∧ (∀ (s : State) q, q < 64 → s.awake = true →
      exec (.qpHostError q) s = .next (((s.setFld Reg.qpStatFault 1 (qpBase q)).pairOff q).raise 0x60 1 11 q))
  ∧ (∀ (s : State), s.awake = true →
      exec (.functionLevelReset 0) s = .next ((((List.range 32).foldl (fun t k => t.pairOff (32 * 0 + k)) s).keeperClear 0).indHostStop)
      ∧ exec (.functionLevelReset 1) s = .next (((List.range 32).foldl (fun t k => t.pairOff (32 * 1 + k)) s).keeperClear 1))
  ∧ (∀ (s : State), s.awake = true → exec .pcieLinkDown s = .next (
      ((((List.range 64).foldl (fun t k => t.pairOff k) s).keeperClear 0).keeperClear 1).indHostStop.setReg 0x600024 0#32))
  ∧ (∀ (s : State) lanes gen, s.awake = true → s.isA = true → (lanes = 1 ∨ lanes = 2 ∨ lanes = 4) → linkRate lanes gen ≠ 0 →
      exec (.pcieLinkRetrain lanes gen) s = .next (
        let t := s.setReg 0x600024 (BitVec.ofNat 32 (linkRate lanes gen))
        if t.indRate ≤ t.indGuar * 1000000 then t.setInd { t.ind with below := false }
        else if t.capturing = true then (t.setInd { t.ind with below := true }).indRaise 0x90
        else t))
  ∧ (∀ (s : State) ok us, exec (.journalMirrorWrite ok us) s = .next (s.mirrorWrite ok us).pfailOver)
  ∧ (∀ (s : State), s.mode ≠ .off → exec .vholdLow s = .next
      { s with jnl := { s.jnl with frozen := true, vholdLow := true }, power := { s.power with vholdOk := false } })


/-! ### Power, reset, configuration -/

/-- Power, reset and boot: what each brings the part to (R394, R481, R498, R501 to R509, R513 to R516, R23 to R26). -/
def Obligations.PowerRows : Prop :=
  (∀ (s : State) h, s.mode = .off → exec (.powerOn h) s = .next (s.toReset (if h then 1 else 0) false))
  ∧ (∀ (s : State), s.mode ≠ .off → exec .supplyLoss s = .next { (s.downEntry .off 1).wiped 1 false with mode := .off })
  ∧ (∀ (s : State), s.mode ≠ .off → s.mode ≠ .reset → exec .resetNLow s = .next (
      if s.power.handling then (s.setPower { s.power with resetLow := true }).pfailOver else s.toReset 2 false))
  ∧ (∀ (s : State) (x : ResetPins), s.mode = .reset → s.power.holdReset = false → exec (.resetEnd x) s = .next (
      let strap := 2 * bitN x.bootMode1 + bitN x.bootMode0
      let t : State := { s with jnl := { s.jnl with frozen := !x.vholdOk, vholdLow := !x.vholdOk }
                                power := { s.power with strap := BitVec.ofNat 2 strap, vholdOk := x.vholdOk }
                                lsp := { s.lsp with pos := x.lspPos } }
      let u := t.setFld Reg.chipBootStatStrap strap
      let v := (u.ownEntry 0x00F0 [u.power.kind]).setMode .boot .boot
      if strap = 3 then { v with chipWarn := true } else v))
  ∧ (∀ (s : State), s.mode = .boot → exec .bootSequenceEnd s = .next (
      let t := s.releaseIslands
      let u := if t.power.strap = 1#2 then t.setFld Reg.chipBootStatResult 3 else t.flashBoot
      if u.fox.latch = true then u.setMode .safeHold .fault
      else if u.image.isNone = true ∨ t.power.strap = 1#2 ∨ t.power.strap = 2#2 then u.setMode .configure .boot
      else (u.setMode .idle .boot).portsEnter))
  ∧ (∀ (s : State), s.mode ≠ .off → s.mode ≠ .reset → s.power.handling = false → exec (.pfailDetect true) s = .next (
      let t := (s.setPower { s.power with handling := true, released := false, lastDet := true }).ownEntry 0x00F2 [1]
      { t with jnl := { t.jnl with frozen := true }
               woad := { t.woad with pfail := true, so := 0#8 } }))
  ∧ (∀ (s : State), s.mode ≠ .off → s.mode ≠ .reset → s.power.handling = false → exec (.pfailDetect false) s = .next (
      let t := (s.setPower { s.power with pfailN := false, handling := true, released := false, lastDet := false }).ownEntry 0x00F2 [0]
      { t with jnl := { t.jnl with frozen := true }
               woad := { t.woad with pfail := true, so := 0#8 } }))
  ∧ (∀ (s : State), s.mode = .reset → exec (.pfailDetect true) s = .next { s with woad := { s.woad with pfail := true, so := 0#8 } })
  ∧ (∀ (s : State), s.power.handling = true → exec .pfailRelease s = .next (
      (s.setPower { s.power with pfailN := true, released := true }).pfailOver))
  ∧ (∀ (s : State), s.mode = .reset → s.power.holdReset = true → s.power.pfailN = true →
      exec .pfailRestoreHoldExpiry s = .next (s.setPower { s.power with holdReset := false, kind := 1 }))
  ∧ (∀ (s : State), s.mode ≠ .off → exec (.jtagInstruction .idcode) s = .next (
        s.shiftOut (BitVec.ofNat 32 (s.stepping.toNat % 16 * 2 ^ 28 + 0x07256A73)) 32)
      ∧ (∀ j ∈ [JtagInstr.bypass, .sample, .extest], exec (.jtagInstruction j) s = .next s))
  ∧ (∀ (s : State) i, s.mode ≠ .off → s.mode ≠ .armed → s.mode ≠ .run → s.mode ≠ .degraded → i < s.cellCount →
      exec (.jtagInstruction (.debug i)) s = .next (s.setCell i { s.cell i with halted := true }))
  ∧ (∀ (s : State) i, (s.mode = .armed ∨ s.mode = .run ∨ s.mode = .degraded) → exec (.jtagInstruction (.debug i)) s = .next (
      let t := s.undefine .chip
      if i < s.cellCount then t.setCell i { t.cell i with halted := true } else t))
  ∧ (∀ (s : State) kind hold, s.toReset kind hold = (s.downEntry .reset kind).wiped kind hold
      ∧ (s.wiped kind hold).mode = .reset ∧ (s.wiped kind hold).pending = s.pending ∧ (s.wiped kind hold).flash = s.flash
      ∧ (s.wiped kind hold).sent = (if s.bypassN = some true then [.pin "BYPASS_N" false] else [])
          ++ (if s.time.ppsHigh = true then [.pin "PPS_OUT" false] else []) ++ s.sent
      ∧ (s.wiped 3 hold).woad = s.woad ∧ (kind ≠ 0 → (s.wiped kind hold).bypassSet = s.bypassSet))
  ∧ (∀ (s : State) m, s.downEntry m 3 = { s.ownEntry 0x00F1 [s.mode.code, m.code, 0] with modeCause := 0#2 })
  ∧ (∀ (s : State) m kind, kind ≠ 0 → kind ≠ 3 →
      s.downEntry m kind = { s.drew.ownEntry 0x00F1 [s.mode.code, m.code, s.freeW.toNat % 4] with modeCause := BitVec.ofNat 2 (s.freeW.toNat % 4) })
  ∧ (∀ (s : State) l, s.awake = true → exec (.thermalSensorRead l) s = .next (
      let a := thermalStep 140 l s.power.warm
      let b := thermalStep 150 l s.power.hot
      let t := s.setPower { s.power with warm := a.1, hot := b.1 }
      let u := if a.2 then t.raise 0xE5 1 0 0 else t
      if b.2 then u.raise 0xE6 3 0 0 else u))
  ∧ (∀ (s : State), s.awake = true → exec (.supplyOutOfRange false) s = .next (s.raise 0xE7 3 0 0))
  ∧ (∀ (s t : State), s.awake = true → exec (.pfailDetect true) s = .next t → exec (.supplyOutOfRange true) s = .next
      { t.foxRaise ⟨0xE7, 3, ⟨0, 0⟩⟩ false 3 with mode := t.mode, modeCause := t.modeCause, modeCycle := t.modeCycle })
  ∧ (∀ (s : State) i, s.awake = true → s.islandPresent i = true → (s.island i).locked = true → exec (.islandLockLoss i) s = .next (
      (s.setIsland i { s.island i with locked := false
                                       lockLosses := BitVec.ofNat 8 (satAdd (s.island i).lockLosses.toNat 1 255) }).raise 0xE2 1 10 i))
  ∧ (∀ (s : State) i, s.awake = true → s.islandPresent i = true →
      exec (.islandLockRegained i) s = .next (s.setIsland i { s.island i with locked := true }))

/-- What ends a level reset, a load, a store or a save (R379, R500, R502 to R505, R507, R508). -/
def Obligations.ConfigurationEnds : Prop :=
  (∀ (s : State) l k, s.power.unitResets.contains (l, k) = true → exec (.levelResetUnitEnd l k) s = .next (
      let ms := unitMems l k
      let slot := match s.power.source with | some (.slot _) => true | _ => false
      let t : State := { s with ram := s.ram.filter (fun c => !inMems ms c.1), flip1 := s.flip1.filter (fun a => !inMems ms a)
                                flip2 := s.flip2.filter (fun a => !inMems ms a) }
      let img := if slot then t.image else none
      let t := t.loadMem (((img.map Image.mem).getD []).filter (fun e => inMems ms e.1))
      let t := if slot then t.placeDescsIn (fun d => inMems ms (opPlace d)) else t
      let t := t.loadRegs (((img.map Image.regs).getD []).filter (fun e =>
        (unitCells l k).any (fun c => decide (cellRegs c ≤ e.1 ∧ e.1 < cellRegs c + 0x40))))
      let t := t.axesReload (unitCells l k) slot
      t.setPower { t.power with unitResets := t.power.unitResets.filter (fun u => u != (l, k)), resuming := t.power.resuming ++ [(l, k)] }))
  ∧ (∀ (s : State) f x, s.resultOf 0x0201 = some x → s.mode ≠ .configure → exec (.cfgLoadComplete f) s = .next (s.finish x 0x09 {}))
  ∧ (∀ (s : State) f x, s.resultOf 0x0201 = some x → s.mode = .configure →
      (f.bytes.length ≠ x.2.p32 8 ∨ s.imageFail f ≠ 0) →
      exec (.cfgLoadComplete f) s = .next (s.finish x 0x0A {}))
  ∧ (∀ (s : State) f x, s.resultOf 0x0201 = some x → s.mode = .configure →
      f.bytes.length = x.2.p32 8 → s.imageFail f = 0 → exec (.cfgLoadComplete f) s = .next (
      let t := s.setPower { s.power with source := some .host, file := some f }
      let t := (t.setFld Reg.chipBootStatResult 2).setFld Reg.chipBootStatUnsecured (bitN t.power.fuses.isNone)
      (t.loadImage (content f) false).finish x 0 {}))
  ∧ (∀ (s : State) f x, s.resultOf 0x0202 = some x → s.power.file = some f → exec (.cfgStoreComplete true) s = .next (
      let d := s.flash.dir
      let e : BootDir := if x.2.p8 0 = 0 then { d with crcOk := true, gen0 := d.gen1 + 1#32, valid0 := true }
        else { d with crcOk := true, gen1 := d.gen0 + 1#32, valid1 := true }
      let t := s.setSlot (x.2.p8 0) f
      ({ t with flash := { t.flash with dir0 := e, dir1 := e } } : State).finish x 0 {}))
  ∧ (∀ (s : State) f x, s.resultOf 0x0202 = some x → s.power.file = some f →
      exec (.cfgStoreComplete false) s = .next ((s.setSlot (x.2.p8 0) { f with readOk := false }).finish x 0x0A {}))
  ∧ (∀ (s : State) k f, s.setSlot k f = ({ s with flash := (s.setSlot k f).flash } : State).emit (.flash (0x01000000 + 0x04000000 * k) f.bytes)
      ∧ (s.setSlot 0 f).flash = { s.flash with slot0 := some f } ∧ (s.setSlot 1 f).flash = { s.flash with slot1 := some f })
  ∧ (∀ (f : FlashSt), f.dir = if f.dir0.crcOk = true then f.dir0 else if f.dir1.crcOk = true then f.dir1 else {})
  ∧ (∀ (s : State) ok x bs, s.resultOf 0x0203 = some x → s.power.saving = some bs → exec (.paramSaveComplete ok) s = .next (
      let last := s.power.bufLast
      let b : ParamBuf := { gen := bufGen (if last = 0 then s.flash.bufA else s.flash.bufB) + 1, crcOk := ok
                            check := (s.image.map Image.check).getD 0#64, axes := bs }
      ({ s with flash := if last = 0 then { s.flash with bufB := some b } else { s.flash with bufA := some b }
                power := { s.power with saving := none, bufLast := if ok then 1 - last else last } } : State).finish x (if ok then 0 else 0x0A) {}))


/-! ### Safety and the twin -/

/-- Woad's rows: its safety cycle, the safe inputs and outputs, telegrams and the line (R397 to R415). -/
def Obligations.SafetyRows : Prop :=
  (∀ (s : State) x p, s.sfSet = some p → s.woad.due = true → s.woadOn = true →
      (s.tapWaits p = false → exec (.safetyCycleStart x) s = .next (s.safetyCycle p x))
      ∧ (s.tapWaits p = true → exec (.safetyCycleStart x) s = .next s))
  ∧ (∀ (s : State), (s.awake = true → s.woadOn = true) ∧ (s.mode = .reset → s.power.kind = 3 → s.woadOn = true))
  ∧ (∀ (s : State) pins, s.woadOn = true → exec (.safeInputSample pins) s = .next (
      let t := (List.range 16).foldl (fun s k => s.siSample pins k) s
      match t.woad.pulse with
      | none => t
      | some (ch, n) =>
        if n ≤ 1 then ({ t with woad := { t.woad with pulse := none } } : State).emit (.pin (tpName ch) true)
        else { t with woad := { t.woad with pulse := some (ch, n - 1) } }))
  ∧ (∀ (s : State) k g t, k < 16 → s.woadOn = true → s.siCfg k = some g → (s.si k).apart = some t →
      exec (.safeInputDiscrepancy k) s = .next ((s.advanceTo (t + ns16 (g.disc * 1000000))).siFault k))
  ∧ (∀ (s : State) ch, s.woadOn = true →
      exec (.testPulse ch) s = .next (({ s with woad := { s.woad with pulse := some (ch, 6) } } : State).emit (.pin (tpName ch) false)))
  ∧ (∀ (s : State) k ch c n, k < 16 → s.woadOn = true → s.siCfg k = some c → c.test = true → s.woad.pulse = some (ch, n) →
      exec (.testPulseCheck k ch false) s = .next (s.siFault k) ∧ exec (.testPulseCheck k ch true) s = .next s)
  ∧ (∀ (s : State) k t, k < 8 → s.woadOn = true → s.woad.so.getLsbD k = true → (t.offReadsOn = true ∨ t.onReadsOff = true) →
      exec (.safeOutputTest k t) s = .next (
        let m := BitVec.ofNat 8 (2 ^ k)
        ({ s with woad := { s.woad with so := s.woad.so &&& ~~~m, soFault := s.woad.soFault ||| m } } : State).raise 0x72 1 13 k))
  ∧ (∀ (s : State) line t, s.woadOn = true → exec (.woadTelegramReceive line t) s = .next (s.telegramIn line t.bytes))
  ∧ (∀ (s : State) p k c, s.sfSet = some p → p.conns[k]? = some c → c.kind ≠ 1 → (s.conn k).wdRaised = false → c.wd ≤ (s.conn k).miss →
      exec (.woadWatchdogExpiry k) s = .next ((s.setConnSt k { s.conn k with expired := true, wdRaised := true }).raise 0x74 1 14 k))
  ∧ (∀ (s : State) port f, s.awake = true → exec (.woadLineFrameReceive port f) s = .next (
      let t := s.emit (.woadLine (if port = 0 then 2 else 1) (wlBytes f).1 (wlBytes f).2)
      match f with
      | .telegram m => t.telegramIn true m.bytes
      | .command p => t.wait (CmdIn.ofPacket .woadLine p.bytes none)
      | .heartbeat b => t.beatIn b
      | _ => t))
  ∧ (∀ (s : State) cyc pos active resign ready, s.beatIn (lineBeat cyc pos active resign ready) = s.lineHeartbeat cyc pos active resign ready)
  ∧ (∀ (s : State) b, b.length = 8 → slice b 4 4 ≠ leBytes 4 (crc32c (slice b 0 4)) → s.beatIn b = s)
  ∧ (∀ (s : State) slot, s.woadOn = true → s.lineSlot slot = none → exec (.woadLineSlot slot) s = .next s)
  ∧ (∀ (s : State) slot e, s.lineSlot slot = some e → e.1 ∉ s.woad.lineUsed ∧ e.1 ∈ (s.openLine e).woad.lineUsed ∧ e.2.slot = slot)
  ∧ (∀ (s : State) i p c e, s.woadOn = true → s.sfSet = some p → p.conns[i]? = some c → c.kind = 1 → (s.conn i).out ≠ [] →
      (s.conn i).sentLine = false → s.lsp.role ≠ .standby → s.lineSlot (.telegram i) = some e →
      exec (.woadLineSlot (.telegram i)) s = .next (
        let t := s.openLine e
        (t.setConnSt i { s.conn i with sentLine := true }).emit (.woadLine 3 1 (s.conn i).out)))
  ∧ (∀ (s : State) b e, s.woadOn = true → s.woad.reply = some b → s.lineSlot .reply = some e → exec (.woadLineSlot .reply) s = .next (
      let t := s.openLine e
      ({ t with woad := { t.woad with reply := none } } : State).emit (.woadReply b)))
  ∧ (∀ (s : State) e, s.woadOn = true → s.lsp.role ≠ .unpaired → s.lineSlot .heartbeat = some e → exec (.woadLineSlot .heartbeat) s = .next (
      let t := s.openLine e
      t.emit (.woadLine 3 4 (lineBeat ((t.cycle + 1#32).setWidth 16) t.lsp.pos (decide (t.lsp.role = .active)) t.lsp.resign t.lsp.ready))))

/-- Larkspur's rows: what the twin link brings, the takeover watch, synchronisation (R422 to R443). -/
def Obligations.TwinRows : Prop :=
  (∀ (s : State) h, s.isA = true → s.awake = true → s.lsp.linkUp = true → h.crcOk = true → s.mode ≠ .standby →
      exec (.twinHeartbeatReceive h) s = .next (
        let same := match s.image with | some i => decide (i.check = h.checkValue) | none => false
        let t := s.setLsp { s.lsp with hb := some h, hbNow := true, hbMiss := some 0, imageOk := same, partnerReady := h.ready, lostRaised := false }
        if t.pairs h = true ∧ t.lsp.role = .unpaired then t.setLsp { t.lsp with role := .active } else t))
  ∧ (∀ (s : State) h, s.isA = true → s.awake = true → s.lsp.linkUp = true → h.crcOk = true → s.mode = .standby →
      h.mode = BitVec.ofNat 8 Mode.standby.code → exec (.twinHeartbeatReceive h) s = .next (
        let same := match s.image with | some i => decide (i.check = h.checkValue) | none => false
        s.setLsp { s.lsp with hb := some h, hbNow := true, hbMiss := some 0, imageOk := same, partnerReady := h.ready, lostRaised := false }))
  ∧ (∀ (s : State) t, s.mode = .standby → s.lsp.linkUp = true → s.lsp.sync = .syncing →
      ((s.image.map Image.axes).getD []).find? (fun c => c.srcQ == t.queue) = none →
      exec (.twinMirrorReceive t) s = .next (s.setLsp { s.lsp with heldToks := s.lsp.heldToks ++ [t] }))
  ∧ (∀ (s : State) t, s.mode = .standby → s.lsp.linkUp = true → s.lsp.sync = .inStep →
      ((s.image.map Image.axes).getD []).find? (fun c => c.srcQ == t.queue) = none → t.tok.cycle = s.cycle →
      s.mad.samples.any (fun r => r.queue == t.queue && decide (r.tok.cycle = t.tok.cycle)) = false →
      exec (.twinMirrorReceive t) s = .next ((s.push t.queue t.tok).note))
  ∧ (∀ (s : State) e, s.isA = true → s.awake = true → s.lsp.linkUp = true → s.mode ≠ .standby → exec (.twinJournalReceive e) s = .next (s.applyTwin e))
  ∧ (∀ (s : State) e, s.isA = true → s.awake = true → s.lsp.linkUp = true → s.mode = .standby → s.jnlOpen = true →
      exec (.twinJournalReceive e) s = .next (
        let t := State.mirrorTest { s with jnl := s.jnl.add { e with seq := s.jnl.head + 1 } }
        let u := (t.sendTwin 6 t.cycle (leBytes 8 e.seq)).applyTwin e
        match u.lsp.sync with
        | .inStep => u.applyEntry e
        | .syncing => u.setLsp { u.lsp with heldJnl := u.lsp.heldJnl ++ [e] }
        | .none => u.applyEntry e))
  ∧ (∀ (s : State) c, s.mode = .standby → s.lsp.linkUp = true → c.crcOk = false → exec (.twinCopyReceive c) s = .next (s.mismatch 3 c.cycle))
  ∧ (∀ (s : State) c bs, s.mode = .standby → s.lsp.linkUp = true → c.crcOk = true → s.lsp.sync = .syncing → s.lsp.loaded = false →
      (s.lsp.copyCycle ≠ c.cycle ∨ s.lsp.copySize ≠ c.size) → copyBytes c.size [(c.offset, c.data)] = some bs →
      exec (.twinCopyReceive c) s = .next (
        let t := (s.setLsp { s.lsp with copyCycle := c.cycle, copySize := c.size, copy := [] }).loadCopy c.cycle bs
        t.setLsp { t.lsp with loaded := true, caught := 0, catching := false
                              heldToks := t.lsp.heldToks.filter (fun r => cycLater r.tok.cycle c.cycle) }))
  ∧ (∀ (s : State) n d, s.mode = .standby → s.lsp.linkUp = true →
      exec (.twinDigestReceive n d) s = .next ((s.setLsp { s.lsp with digestIn := some (n, d) }).digestTest))
  ∧ (∀ (s : State) n, s.lsp.role = .active → s.lsp.linkUp = true → exec (.twinAckReceive n) s = .next (
      (s.setLsp { s.lsp with acked := max s.lsp.acked n }).releaseAcks (fun k => decide (k ≤ max s.lsp.acked n))))
  ∧ (∀ (s : State) n, s.lsp.role = .active → s.lsp.linkUp = true → cycLater n (s.cycle + 1#32) = false →
      exec (.twinSyncReceive n) s = .next (s.setLsp { s.lsp with partnerReady := false }))
  ∧ (∀ (s : State), s.isA = true → s.awake = true → exec .twinLinkDown s = .next (
      (s.setLsp { s.lsp with linkUp := false, copy := [], partnerReady := false }).releaseAcks (fun _ => true)))
  ∧ (∀ (s : State), s.isA = true → s.awake = true → exec .twinLinkUp s = .next (
      s.drew.setLsp { s.lsp with linkUp := true, linkDelay := s.freeW.toNat }))
  ∧ (∀ (s : State) x, s.mode = .standby → s.edgesRun = true → s.instant (s.cycle + 1#32) (-((s.timing.tCs : Int) - s.timing.tWatch)) = some x →
      s.lsp.watched = false → s.lsp.ready = true → (s.advanceTo x).bit Reg.lspCtrlInhibit = false → s.lsp.wNow.resign = true → exec .takeoverWatch s = .next (
        let t := s.advanceTo x
        (t.setLsp { t.lsp with wPrev := s.lsp.wNow, wNow := {}, watched := true, csSeen := s.lsp.wNow.cs }).takeover (s.cycle + 1#32)))
  ∧ (∀ (s : State), s.mode = .standby → s.lsp.sync = .syncing → s.lsp.loaded = true → s.lsp.caught < 128 →
      cycLater (s.closeCaught.catchCycle + 1#32) s.closeCaught.cycle = true →
      exec .syncCatchUpCycle s = .next (s.closeCaught.setLsp { s.closeCaught.lsp with catching := false }))
  ∧ (∀ (s : State), s.mode = .standby → s.lsp.sync = .syncing → s.lsp.loaded = true → s.lsp.caught < 128 →
      cycLater (s.closeCaught.catchCycle + 1#32) s.closeCaught.cycle = false → s.closeCaught.catchCycle + 1#32 ≠ s.closeCaught.cycle →
      exec .syncCatchUpCycle s = .next (
        let t := s.closeCaught
        let c := t.catchCycle + 1#32
        let u := t.setLsp { t.lsp with caught := t.lsp.caught + 1, catching := true }
        let v := ((((u.heldEntriesNow c).fencedEffects c).dropTokens c).deliverBoxes c).heldSources c true
        (v.setLsp { v.lsp with heldToks := v.lsp.heldToks.filter (fun (r : TokenRec) => cycLater r.tok.cycle c) }).note))
  ∧ (∀ (s : State), s.mode = .standby → s.lsp.sync = .syncing → s.lsp.loaded = true → 128 ≤ s.lsp.caught → exec .syncGiveUp s = .next (
      (s.setLsp { s.lsp with loaded := false, caught := 0, catching := false, heldToks := [], heldJnl := [] }).lspRaise 0x84))


/-! ### Foxglove, Indigo, the engines -/

/-- A fault state that ends, an alarm window that closes; Indigo's group, its timers and trigger pins; the engines, scrubbing and scans
(R454, R458, R461 to R478, R484, R487 to R491); and the arbiters that an engine's accesses pass: who asks gets a turn, the owner of a
slot before all others, LOOP traffic its slots alone, a port as many turns as its weight (R32 to R34); at a cell's memories the core,
then a write-back, then a DMA request, but a write-back after 4 clocks and a request after 64 before it (R30, R31). -/
def Obligations.UnitRows : Prop :=
  (∀ (s : State) l src x, s.fox.states.find? (fun y => y.is l src) = some x → exec (.faultQuietExpiry l src) s = .next (
      let w := s.runTo (x.since + 50000 * s.fld Reg.foxQuiet0Quiet (4 * l))
      let t : State := { w with fox := { w.fox with states := w.fox.states.filter (fun y => !y.is l src) } }
      let u := match l with
        | 0 => t.incFld Reg.foxRecovLoL0
        | 1 => t.incFld Reg.foxRecovLoL1
        | 2 => t.incFld Reg.foxRecovHiL2
        | _ => t.incFld Reg.foxRecovHiL3
      if u.mode = .degraded ∧ u.regionL2 = false then u.setMode .run .fault else u))
  ∧ (∀ (s : State) src w, s.fox.windows.find? (fun x => decide (x.src = src)) = some w → exec (.alarmWindowExpiry src) s = .next (
      let u := s.runTo (w.since + 500000)
      let rest := u.fox.windows.filter (fun x => !decide (x.src = src))
      if w.changed = [] then { u with fox := { u.fox with windows := rest } }
      else (w.changed.mergeSort (· ≤ ·)).foldl (fun t no => match t.fox.queue.find? (fun r => r.no == no) with
          | some r => t.sendAlarm r
          | none => t) ({ u with fox := { u.fox with windows := rest ++ [⟨src, [], u.time.ran⟩] } } : State)))
  ∧ (∀ (s : State), s.awake = true → s.isA = true → s.edgesRun = true → s.ind.shut = false → exec .indigoGroupClose s = .next ((s.toInstant 100).indClose (s.cycle - 1#32)))
  ∧ (∀ (s : State) k, s.awake = true → s.isA = true → exec (.sequencerTimerExpiry k) s = .next (s.timerTest k)
      ∧ exec .trigFireEdge s = .next (s.setInd { s.ind with cur := { s.ind.cur with fire := true } })
      ∧ exec (.trigArmChange true) s = .next (s.trigArm true) ∧ exec (.trigArmChange false) s = .next (s.trigArm false))
  ∧ (∀ (s : State), s.ind.firing = true → exec .trigFireRelease s = .next (
      ((s.toInstant 140).setInd { s.ind with firing := false }).emit (.pin "TRIG_FIRE" true)))
  ∧ (∀ (s : State) g rest, s.ind.staged = g :: rest → exec .indigoGroupWritten s = .next (
      (s.setInd { s.ind with staged := rest, wr := BitVec.ofNat 54 (g.off + g.bytes.length) }).indWrite g.off g.bytes))
  ∧ (∀ (s : State) o bs, bs.length ≤ s.indSize - o % s.indSize → s.indWrite o bs = s.emit (.hostWrite (s.indBase + o % s.indSize) bs))
  ∧ (∀ (s : State) o bs, s.indSize - o % s.indSize < bs.length → s.indWrite o bs =
      (s.emit (.hostWrite (s.indBase + o % s.indSize) (bs.take (s.indSize - o % s.indSize)))).emit
        (.hostWrite s.indBase (bs.drop (s.indSize - o % s.indSize))))
  ∧ (∀ (s : State) e d, e < 8 → s.awake = true → s.bit Reg.dmaECtrlEn (dmaBase e) = true → s.bit Reg.dmaEStatBusy (dmaBase e) = false →
      s.fld Reg.dmaEHeadHead (dmaBase e) ≠ s.fld Reg.dmaETailTail (dmaBase e) % max 1 (s.fld Reg.dmaECtrlLen (dmaBase e)) →
      exec (.dmaDescriptorStart e d) s = .next (
        let f := DescFields.of d.bytes
        let addr := s.dmaAddr e (s.fld Reg.dmaEHeadHead (dmaBase e))
        let u := s.markControl f
        if u.descStatus f ≠ 0 then u.dmaDone e addr (u.descStatus f)
        else
          let t := if f.restart then u.chRestart f.ch else u
          (t.addRun e ⟨addr, d.bytes⟩).setFld Reg.dmaEStatBusy 1 (dmaBase e)))
  ∧ (∀ (s : State) (f : DescFields) a b, f.formOk = true → a ∈ f.onChip → b ∈ controlUnits a f.len → .unit b ∈ (s.markControl f).undef)
  ∧ (∀ (s : State) (f : DescFields), s.markControl f = { s with undef := (s.markControl f).undef }
      ∧ (f.formOk = false → s.markControl f = s))
  ∧ (∀ (s : State) (f : DescFields) host n, f.feeds = true → s.dmaBound f.ch = false → f.srcHost = true → f.crcOnly = true →
      s.dmaMove f host n = (s.setBit Reg.crcChCfgConflict true (chBase f.ch), false))
  ∧ (∀ (s : State) e x k r, s.dma.runs.find? (fun r => r.1 == e) = some (k, r) → x.hostFailed = false →
      exec (.dmaDescriptorEnd e x) s = .next (
        let f := DescFields.of r.bytes
        let y := s.dmaMove f x.hostData f.len
        if y.2 then (y.1.dmaDone e r.addr 0x0A).dmaPoison else y.1.dmaDone e r.addr 0))
  ∧ (∀ (s : State) e x k r, s.dma.runs.find? (fun r => r.1 == e) = some (k, r) → x.hostFailed = true →
      exec (.dmaDescriptorEnd e x) s = .next (
        let f := DescFields.of r.bytes
        let y := if f.srcHost = true ∨ (f.dstHost = true ∧ f.crcOnly = false) then s.drew.dmaMove f x.hostData (s.freeBlocks f.len)
          else s.dmaMove f x.hostData f.len
        ((y.1.dmaDone e r.addr 9).setFld Reg.dmaECtrlEn 0 (dmaBase e)).raise 0xA0 1 10 106))
  ∧ (∀ (s : State) e x, s.dma.runs.find? (fun r => r.1 == e) = none → x.hostFailed = true → s.dmaWaits e = true →
      exec (.dmaDescriptorEnd e x) s = .next (((s.dmaDone e (s.dmaAddr e (s.fld Reg.dmaEHeadHead (dmaBase e))) 9).setFld
        Reg.dmaECtrlEn 0 (dmaBase e)).raise 0xA0 1 10 106))
  ∧ (∀ req wb dma, CellReq.core ∈ req → wb < 4 → dma < 64 → cellGrant req wb dma = some .core)
  ∧ (∀ req wb dma, CellReq.writeBack ∈ req → 4 ≤ wb ∨ (.core ∉ req ∧ dma < 64) → cellGrant req wb dma = some .writeBack)
  ∧ (∀ req wb dma, CellReq.dma ∈ req → (64 ≤ dma ∧ (wb < 4 ∨ .writeBack ∉ req)) ∨ (.core ∉ req ∧ .writeBack ∉ req) → cellGrant req wb dma = some .dma)
  ∧ (∀ (w : WheelSt) len n slots held req p, (w.grant len n slots held req).1 = some p → p ∈ req)
  ∧ (∀ (w : WheelSt) len n slots held req p, w.owner slots held = some p → p ∈ req → (w.grant len n slots held req).1 = some p)
  ∧ (∀ (w : WheelSt) len n slots held p, p < n → (w.grant len n slots held [p]).1 = some p
      ∧ (w.grant len n slots held [p]).2.slot = (w.slot + 1) % len)
  ∧ (∀ (w : WheelSt) slots weight loop, w.owner slots false = none → (w.grantLoop slots false weight loop []).1 = none)
  ∧ (∀ (w : WheelSt) slots held weight loop p, w.owner slots held = some p → p ∈ loop → (w.grantLoop slots held weight loop []).1 = some p)
  ∧ (∀ (w : WheelSt) n weight req, w.last ∈ req → 0 < w.spent → w.spent < weight w.last →
      w.weighted n weight req = (some w.last, { w with spent := w.spent + 1 }))
  ∧ (∀ (s : State) single double, s.awake = true → exec (.scrubPeriod single double) s = .next (
      let r := s.runTo (s.dma.scrubAt + 500000 * s.fld Reg.dmaScrubPeriodMs)
      let r : State := { r with dma := { r.dma with scrubAt := r.time.ran } }
      let word := fun a : Nat => a - a % 8
      let t : State := { r with
        flip1 := r.flip1 ++ (((single.filter scrubbed).map word).eraseDups).filter (fun a => !s.flip1.contains a)
        flip2 := r.flip2 ++ (((double.filter scrubbed).map word).eraseDups).filter (fun a => !r.flip2.contains a) }
      let u := t.correct (t.flip1.filter scrubbed)
      (((u.flip2.filter scrubbed).map word).eraseDups).foldl State.scrubRaise u))
  ∧ (∀ (s : State) x z rest, s.dma.scan2 = x :: rest → s.resultOf 0x0D01 = some z → exec (.scanComplete true) s = .next (
      let y := s.scan x.2.1 x.2.2.1 x.2.2.2
      let t : State := { y.1 with dma := { y.1.dma with scan2 := [] } }
      if y.2.2 then t.dmaPoison.finish z 0x0A {} else t.finish z 0 { data := leBytes 8 y.2.1 }))
  ∧ (∀ (s : State) start n poly, s.dma.scan = some (start, n, poly) → exec (.scanComplete false) s = .next (
      let y := s.scan start n poly
      let v := BitVec.ofNat 64 y.2.1
      let t : State := { y.1 with dma := { y.1.dma with scan := none } }
      let t := ((t.setReg 0x800114 (v.setWidth 32)).setReg 0x800118 (v.extractLsb' 32 32)).setFld Reg.crcScanCtrlBusy 0
      let t := t.setFld Reg.crcScanCtrlStatus (if y.2.2 then 0x0A else 0)
      let t := if y.2.2 then t.dmaPoison else t
      if t.bit Reg.crcScanCtrlCmp = true ∧ (t.reg 0x800110) ++ (t.reg 0x80010C) ≠ v then (t.setFld Reg.crcScanCtrlMismatch 1).raise 0xA2 1 10 106
      else t))


/-! ### Axes -/

/-- R171, R172, R175, R176: an axis with a fault takes a request to OFF alone, and only OFF leads from SAFE or STEP; while Foxglove's
latch or Woad keeps it safe its mode is SAFE and its record says so; nothing but AXIS_RESET takes it out of SAFE, and that leaves it in
OFF with its fault flags, its refusals and their count cleared. -/
def Obligations.AxisModes : Prop :=
  (∀ (x : AxisSt) m hold ok, x.faults ≠ 0#7 → m ≠ x.mode → m ≠ .off → x.allowed m hold ok = false)
  ∧ (∀ (x : AxisSt) m hold ok, x.mode = .safe → (x.allowed m hold ok = true ↔ m = .safe))
  ∧ (∀ (x : AxisSt) m hold ok, x.mode = .step → (x.allowed m hold ok = true ↔ m = .off ∨ m = .step))
  ∧ (∀ (x : AxisSt) hold ok, x.faults = 0#7 → x.mode = .off → x.stepper = false →
      (x.allowed .sixStep hold ok = true ↔ x.src = 1 ∨ (x.src = 3 ∧ Fp.gt (x.pw 11) (x.pw 10) = true))
      ∧ (∀ m, m = .current ∨ m = .velocity ∨ m = .position → (x.allowed m hold ok = true ↔
          (x.src = 0 ∧ x.posValid hold ok = true) ∨ (x.src = 2 ∧ x.posValid hold ok = true ∧ Fp.gt (x.pw 11) (x.pw 10) = true)
            ∨ (x.src = 3 ∧ Fp.gt (x.pw 11) (x.pw 10) = true))))
  ∧ (∀ (x : AxisSt) (c : InIn), (c.latch = true ∨ c.energise = false) →
      (x.inner c).x.mode = .safe ∧ (x.stepper = false → (x.inner c).sink = some [0#32, 0#32, 0x400#32]))
  ∧ (∀ (x : AxisSt) (c : InIn), x.mode = .safe → (x.inner c).x.mode = .safe)
  ∧ (∀ (x : AxisSt) (n : Word), (x.reset n).mode = .off ∧ (x.reset n).faults = 0#7 ∧ (x.reset n).reqRefused = false
      ∧ (x.reset n).refusals = 0 ∧ (x.reset n).params = x.params)
end

