-- ==== Sys2Proof/Laws/Tab.lean ====
section
/-! SUPPORT. The laws of sparse tables: what a key reads as after a write, and that a write keeps the canonical form. -/

namespace Sys2Proof

variable {α : Type}

/-- A dropped key is not found; every other is found as before. -/
@[simp] theorem Tab.find_drop (t : List (Nat × α)) (k j : Nat) :
    Tab.find (Tab.drop t k) j = if j = k then none else Tab.find t j := by
  induction t with
  | nil => simp [Tab.drop, Tab.find]
  | cons e r ih =>
    obtain ⟨k', v⟩ := e
    by_cases h : k' = k <;> by_cases h' : j = k <;> by_cases h'' : k' = j <;>
      simp_all [Tab.drop, Tab.find]

/-- An inserted key is found with its value, where it was not listed before. -/
theorem Tab.find_ins (t : List (Nat × α)) (k j : Nat) (v : α) (h : Tab.find t k = none) :
    Tab.find (Tab.ins t k v) j = if j = k then some v else Tab.find t j := by
  induction t with
  | nil => simp [Tab.ins, Tab.find, eq_comm]
  | cons e r ih =>
    obtain ⟨k', v'⟩ := e
    have hne : k' ≠ k := by
      intro hk; simp [Tab.find, hk] at h
    have hr : Tab.find r k = none := by simpa [Tab.find, hne] using h
    by_cases hlt : k < k'
    · by_cases h' : k = j
      · subst h'; simp [Tab.ins, hlt, Tab.find]
      · have h'' : j ≠ k := fun x => h' x.symm
        simp [Tab.ins, hlt, Tab.find, h', h'']
    · by_cases h'' : k' = j
      · have h' : j ≠ k := fun x => hne (h''.trans x)
        subst h''; simp [Tab.ins, hlt, Tab.find, h']
      · simp [Tab.ins, hlt, Tab.find, h'', ih hr]

/-- What a key reads as after a write of a key. -/
theorem Tab.get_put [DecidableEq α] (d : α) (t : List (Nat × α)) (k j : Nat) (v : α) :
    Tab.get d (Tab.put d t k v) j = if j = k then v else Tab.get d t j := by
  unfold Tab.put
  split
  · by_cases h : j = k <;> simp_all [Tab.get]
  · rename_i hv
    have hn : Tab.find (Tab.drop t k) k = none := by simp
    by_cases h : j = k <;> simp [Tab.get, Tab.find_ins _ _ _ _ hn, h]

@[simp] theorem Tab.get_put_same [DecidableEq α] (d : α) (t : List (Nat × α)) (k : Nat) (v : α) :
    Tab.get d (Tab.put d t k v) k = v := by simp [Tab.get_put]

theorem Tab.get_put_other [DecidableEq α] (d : α) (t : List (Nat × α)) (k j : Nat) (v : α) (h : j ≠ k) :
    Tab.get d (Tab.put d t k v) j = Tab.get d t j := by simp [Tab.get_put, h]

/-- A bound below a table's keys stays one when a key is dropped. -/
theorem Tab.above_drop (b : Nat) (t : List (Nat × α)) (k : Nat) (h : Tab.above b t = true) :
    Tab.above b (Tab.drop t k) = true := by
  induction t with
  | nil => rfl
  | cons e r ih =>
    obtain ⟨k', v⟩ := e
    simp only [Tab.above, Bool.and_eq_true, decide_eq_true_eq] at h
    by_cases hk : k' = k
    · simp [Tab.drop, hk]; exact ih h.2
    · simp [Tab.drop, hk, Tab.above, h.1]; exact ih h.2

/-- A bound below a table's keys and a new key stays one. -/
theorem Tab.above_ins (b : Nat) (t : List (Nat × α)) (k : Nat) (v : α) (h : Tab.above b t = true) (hb : b < k) :
    Tab.above b (Tab.ins t k v) = true := by
  induction t with
  | nil => simp [Tab.ins, Tab.above, hb]
  | cons e r ih =>
    obtain ⟨k', v'⟩ := e
    simp only [Tab.above, Bool.and_eq_true, decide_eq_true_eq] at h
    by_cases hlt : k < k'
    · simp [Tab.ins, hlt, Tab.above, hb, h.1, h.2]
    · simp [Tab.ins, hlt, Tab.above, h.1]; exact ih h.2

theorem Tab.above_trans (a b : Nat) (t : List (Nat × α)) (hab : a < b) (h : Tab.above b t = true) :
    Tab.above a t = true := by
  induction t with
  | nil => rfl
  | cons e r ih =>
    obtain ⟨k', v⟩ := e
    simp only [Tab.above, Bool.and_eq_true, decide_eq_true_eq] at h ⊢
    exact ⟨by omega, ih h.2⟩

theorem Tab.wf_drop [DecidableEq α] (d : α) (t : List (Nat × α)) (k : Nat) (h : Tab.wf d t = true) :
    Tab.wf d (Tab.drop t k) = true := by
  induction t with
  | nil => rfl
  | cons e r ih =>
    obtain ⟨k', v⟩ := e
    simp only [Tab.wf, Bool.and_eq_true, decide_eq_true_eq] at h
    by_cases hk : k' = k
    · simp [Tab.drop, hk]; exact ih h.2
    · simp [Tab.drop, hk, Tab.wf, h.1.2, ih h.2, Tab.above_drop _ _ _ h.1.1]

theorem Tab.wf_ins [DecidableEq α] (d : α) (t : List (Nat × α)) (k : Nat) (v : α) (h : Tab.wf d t = true) (hv : v ≠ d)
    (hn : Tab.find t k = none) : Tab.wf d (Tab.ins t k v) = true := by
  induction t with
  | nil => simp [Tab.ins, Tab.wf, Tab.above, hv]
  | cons e r ih =>
    obtain ⟨k', v'⟩ := e
    simp only [Tab.wf, Bool.and_eq_true, decide_eq_true_eq] at h
    have hne : k' ≠ k := by
      intro hk; simp [Tab.find, hk] at hn
    have hr : Tab.find r k = none := by simpa [Tab.find, hne] using hn
    by_cases hlt : k < k'
    · simp [Tab.ins, hlt, Tab.wf, Tab.above, h.1.1, h.1.2, h.2, hv, Tab.above_trans _ _ _ hlt h.1.1]
    · simp [Tab.ins, hlt, Tab.wf, h.1.2, ih h.2 hr, Tab.above_ins k' r k v h.1.1 (by omega)]

/-- A write keeps the canonical form. -/
theorem Tab.wf_put [DecidableEq α] (d : α) (t : List (Nat × α)) (k : Nat) (v : α) (h : Tab.wf d t = true) :
    Tab.wf d (Tab.put d t k v) = true := by
  unfold Tab.put
  split
  · exact Tab.wf_drop _ _ _ h
  · rename_i hv
    exact Tab.wf_ins _ _ _ _ (Tab.wf_drop _ _ _ h) hv (by simp)

end Sys2Proof
end

