-- ==== Sys2Proof/Laws/State.lean ====
section
/-! SUPPORT. What each shared update of the state leaves of every field and of every accessor, so that no proof unfolds a
record update. -/

namespace Sys2Proof.Machine

/-! ### The updated thing itself -/

theorem State.cell_setCell (s : State) (n j : Nat) (c : CellSt) :
    (s.setCell n c).cell j = if j = n then c else s.cell j := Tab.get_put _ _ _ _ _
@[simp] theorem State.cell_setCell_same (s : State) (n : Nat) (c : CellSt) : (s.setCell n c).cell n = c := by
  simp [State.cell_setCell]
theorem State.island_setIsland (s : State) (n j : Nat) (i : IslandSt) :
    (s.setIsland n i).island j = if j = n then i else s.island j := Tab.get_put _ _ _ _ _
theorem State.queue_setQueue (s : State) (n j : Nat) (q : QueueSt) :
    (s.setQueue n q).queue j = if j = n then q else s.queue j := Tab.get_put _ _ _ _ _
theorem State.op_setOp (s : State) (n j : Nat) (o : OpSt) :
    (s.setOp n o).op j = if j = n then o else s.op j := Tab.get_put _ _ _ _ _
theorem State.chan_setChan (s : State) (n j : Nat) (c : ChanSt) :
    (s.setChan n c).chan j = if j = n then c else s.chan j := Tab.get_put _ _ _ _ _
theorem State.qp_setQp (s : State) (n j : Nat) (q : QpSt) :
    (s.setQp n q).qp j = if j = n then q else s.qp j := Tab.get_put _ _ _ _ _
@[simp] theorem State.sent_emit (s : State) (o : Output) : (s.emit o).sent = o :: s.sent := rfl
@[simp] theorem State.freeCtr_drew (s : State) : s.drew.freeCtr = s.freeCtr + 1 := rfl

/-- A register holds what was put into it; every other holds what it held. -/
theorem State.reg_setReg (s : State) (o j : Nat) (w : Word) :
    (s.setReg o w).reg j = if j = o then w else s.reg j := by
  unfold State.setReg State.reg
  by_cases hw : w = regReset o
  · by_cases h : j = o
    · subst h; simp [hw]
    · simp [hw, h]
  · by_cases h : j = o
    · subst h; simp [hw, Tab.find_ins]
    · simp [hw, h, Tab.find_ins]
@[simp] theorem State.reg_setReg_same (s : State) (o : Nat) (w : Word) : (s.setReg o w).reg o = w := by
  simp [State.reg_setReg]
theorem State.reg_setReg_other (s : State) (o j : Nat) (w : Word) (h : j ≠ o) : (s.setReg o w).reg j = s.reg j := by
  simp [State.reg_setReg, h]

/-! ### Everything else -/

@[simp] theorem State.pending_setCell (s : State) (n : Nat) (c : CellSt) : (s.setCell n c).pending = s.pending := by rfl
@[simp] theorem State.variant_setCell (s : State) (n : Nat) (c : CellSt) : (s.setCell n c).variant = s.variant := by rfl
@[simp] theorem State.stepping_setCell (s : State) (n : Nat) (c : CellSt) : (s.setCell n c).stepping = s.stepping := by rfl
@[simp] theorem State.mode_setCell (s : State) (n : Nat) (c : CellSt) : (s.setCell n c).mode = s.mode := by rfl
@[simp] theorem State.modeCause_setCell (s : State) (n : Nat) (c : CellSt) : (s.setCell n c).modeCause = s.modeCause := by rfl
@[simp] theorem State.modeCycle_setCell (s : State) (n : Nat) (c : CellSt) : (s.setCell n c).modeCycle = s.modeCycle := by rfl
@[simp] theorem State.cycle_setCell (s : State) (n : Nat) (c : CellSt) : (s.setCell n c).cycle = s.cycle := by rfl
@[simp] theorem State.regs_setCell (s : State) (n : Nat) (c : CellSt) : (s.setCell n c).regs = s.regs := by rfl
@[simp] theorem State.chipWarn_setCell (s : State) (n : Nat) (c : CellSt) : (s.setCell n c).chipWarn = s.chipWarn := by rfl
@[simp] theorem State.fbWarn_setCell (s : State) (n : Nat) (c : CellSt) : (s.setCell n c).fbWarn = s.fbWarn := by rfl
@[simp] theorem State.ram_setCell (s : State) (n : Nat) (c : CellSt) : (s.setCell n c).ram = s.ram := by rfl
@[simp] theorem State.flip1_setCell (s : State) (n : Nat) (c : CellSt) : (s.setCell n c).flip1 = s.flip1 := by rfl
@[simp] theorem State.flip2_setCell (s : State) (n : Nat) (c : CellSt) : (s.setCell n c).flip2 = s.flip2 := by rfl
@[simp] theorem State.islands_setCell (s : State) (n : Nat) (c : CellSt) : (s.setCell n c).islands = s.islands := by rfl
@[simp] theorem State.image_setCell (s : State) (n : Nat) (c : CellSt) : (s.setCell n c).image = s.image := by rfl
@[simp] theorem State.mad_setCell (s : State) (n : Nat) (c : CellSt) : (s.setCell n c).mad = s.mad := by rfl
@[simp] theorem State.loops_setCell (s : State) (n : Nat) (c : CellSt) : (s.setCell n c).loops = s.loops := by rfl
@[simp] theorem State.host_setCell (s : State) (n : Nat) (c : CellSt) : (s.setCell n c).host = s.host := by rfl
@[simp] theorem State.jnl_setCell (s : State) (n : Nat) (c : CellSt) : (s.setCell n c).jnl = s.jnl := by rfl
@[simp] theorem State.fox_setCell (s : State) (n : Nat) (c : CellSt) : (s.setCell n c).fox = s.fox := by rfl
@[simp] theorem State.flash_setCell (s : State) (n : Nat) (c : CellSt) : (s.setCell n c).flash = s.flash := by rfl
@[simp] theorem State.power_setCell (s : State) (n : Nat) (c : CellSt) : (s.setCell n c).power = s.power := by rfl
@[simp] theorem State.time_setCell (s : State) (n : Nat) (c : CellSt) : (s.setCell n c).time = s.time := by rfl
@[simp] theorem State.bb_setCell (s : State) (n : Nat) (c : CellSt) : (s.setCell n c).bb = s.bb := by rfl
@[simp] theorem State.rings_setCell (s : State) (n : Nat) (c : CellSt) : (s.setCell n c).rings = s.rings := by rfl
@[simp] theorem State.axes_setCell (s : State) (n : Nat) (c : CellSt) : (s.setCell n c).axes = s.axes := by rfl
@[simp] theorem State.axShown_setCell (s : State) (n : Nat) (c : CellSt) : (s.setCell n c).axShown = s.axShown := by rfl
@[simp] theorem State.axCycle_setCell (s : State) (n : Nat) (c : CellSt) : (s.setCell n c).axCycle = s.axCycle := by rfl
@[simp] theorem State.lgs_setCell (s : State) (n : Nat) (c : CellSt) : (s.setCell n c).lgs = s.lgs := by rfl
@[simp] theorem State.adcs_setCell (s : State) (n : Nat) (c : CellSt) : (s.setCell n c).adcs = s.adcs := by rfl
@[simp] theorem State.adc_setCell (s : State) (n : Nat) (c : CellSt) : (s.setCell n c).adc = s.adc := by rfl
@[simp] theorem State.fbs_setCell (s : State) (n : Nat) (c : CellSt) : (s.setCell n c).fbs = s.fbs := by rfl
@[simp] theorem State.dma_setCell (s : State) (n : Nat) (c : CellSt) : (s.setCell n c).dma = s.dma := by rfl
@[simp] theorem State.woad_setCell (s : State) (n : Nat) (c : CellSt) : (s.setCell n c).woad = s.woad := by rfl
@[simp] theorem State.ind_setCell (s : State) (n : Nat) (c : CellSt) : (s.setCell n c).ind = s.ind := by rfl
@[simp] theorem State.lsp_setCell (s : State) (n : Nat) (c : CellSt) : (s.setCell n c).lsp = s.lsp := by rfl
@[simp] theorem State.bypassSet_setCell (s : State) (n : Nat) (c : CellSt) : (s.setCell n c).bypassSet = s.bypassSet := by rfl
@[simp] theorem State.arb_setCell (s : State) (n : Nat) (c : CellSt) : (s.setCell n c).arb = s.arb := by rfl
@[simp] theorem State.undef_setCell (s : State) (n : Nat) (c : CellSt) : (s.setCell n c).undef = s.undef := by rfl
@[simp] theorem State.sent_setCell (s : State) (n : Nat) (c : CellSt) : (s.setCell n c).sent = s.sent := by rfl
@[simp] theorem State.freeCtr_setCell (s : State) (n : Nat) (c : CellSt) : (s.setCell n c).freeCtr = s.freeCtr := by rfl
@[simp] theorem State.island_setCell (s : State) (n : Nat) (c : CellSt) (j : Nat) : (s.setCell n c).island j = s.island j := by rfl
@[simp] theorem State.reg_setCell (s : State) (n : Nat) (c : CellSt) (j : Nat) : (s.setCell n c).reg j = s.reg j := by rfl
@[simp] theorem State.queue_setCell (s : State) (n : Nat) (c : CellSt) (j : Nat) : (s.setCell n c).queue j = s.queue j := by rfl
@[simp] theorem State.op_setCell (s : State) (n : Nat) (c : CellSt) (j : Nat) : (s.setCell n c).op j = s.op j := by rfl
@[simp] theorem State.chan_setCell (s : State) (n : Nat) (c : CellSt) (j : Nat) : (s.setCell n c).chan j = s.chan j := by rfl
@[simp] theorem State.qp_setCell (s : State) (n : Nat) (c : CellSt) (j : Nat) : (s.setCell n c).qp j = s.qp j := by rfl
@[simp] theorem State.ramByte_setCell (s : State) (n : Nat) (c : CellSt) (j : Nat) : (s.setCell n c).ramByte j = s.ramByte j := by rfl
@[simp] theorem State.ramWord_setCell (s : State) (n : Nat) (c : CellSt) (j : Nat) : (s.setCell n c).ramWord j = s.ramWord j := by rfl
@[simp] theorem State.pending_setIsland (s : State) (n : Nat) (i : IslandSt) : (s.setIsland n i).pending = s.pending := by rfl
@[simp] theorem State.variant_setIsland (s : State) (n : Nat) (i : IslandSt) : (s.setIsland n i).variant = s.variant := by rfl
@[simp] theorem State.stepping_setIsland (s : State) (n : Nat) (i : IslandSt) : (s.setIsland n i).stepping = s.stepping := by rfl
@[simp] theorem State.mode_setIsland (s : State) (n : Nat) (i : IslandSt) : (s.setIsland n i).mode = s.mode := by rfl
@[simp] theorem State.modeCause_setIsland (s : State) (n : Nat) (i : IslandSt) : (s.setIsland n i).modeCause = s.modeCause := by rfl
@[simp] theorem State.modeCycle_setIsland (s : State) (n : Nat) (i : IslandSt) : (s.setIsland n i).modeCycle = s.modeCycle := by rfl
@[simp] theorem State.cycle_setIsland (s : State) (n : Nat) (i : IslandSt) : (s.setIsland n i).cycle = s.cycle := by rfl
@[simp] theorem State.regs_setIsland (s : State) (n : Nat) (i : IslandSt) : (s.setIsland n i).regs = s.regs := by rfl
@[simp] theorem State.chipWarn_setIsland (s : State) (n : Nat) (i : IslandSt) : (s.setIsland n i).chipWarn = s.chipWarn := by rfl
@[simp] theorem State.fbWarn_setIsland (s : State) (n : Nat) (i : IslandSt) : (s.setIsland n i).fbWarn = s.fbWarn := by rfl
@[simp] theorem State.ram_setIsland (s : State) (n : Nat) (i : IslandSt) : (s.setIsland n i).ram = s.ram := by rfl
@[simp] theorem State.flip1_setIsland (s : State) (n : Nat) (i : IslandSt) : (s.setIsland n i).flip1 = s.flip1 := by rfl
@[simp] theorem State.flip2_setIsland (s : State) (n : Nat) (i : IslandSt) : (s.setIsland n i).flip2 = s.flip2 := by rfl
@[simp] theorem State.image_setIsland (s : State) (n : Nat) (i : IslandSt) : (s.setIsland n i).image = s.image := by rfl
@[simp] theorem State.cells_setIsland (s : State) (n : Nat) (i : IslandSt) : (s.setIsland n i).cells = s.cells := by rfl
@[simp] theorem State.mad_setIsland (s : State) (n : Nat) (i : IslandSt) : (s.setIsland n i).mad = s.mad := by rfl
@[simp] theorem State.loops_setIsland (s : State) (n : Nat) (i : IslandSt) : (s.setIsland n i).loops = s.loops := by rfl
@[simp] theorem State.host_setIsland (s : State) (n : Nat) (i : IslandSt) : (s.setIsland n i).host = s.host := by rfl
@[simp] theorem State.jnl_setIsland (s : State) (n : Nat) (i : IslandSt) : (s.setIsland n i).jnl = s.jnl := by rfl
@[simp] theorem State.fox_setIsland (s : State) (n : Nat) (i : IslandSt) : (s.setIsland n i).fox = s.fox := by rfl
@[simp] theorem State.flash_setIsland (s : State) (n : Nat) (i : IslandSt) : (s.setIsland n i).flash = s.flash := by rfl
@[simp] theorem State.power_setIsland (s : State) (n : Nat) (i : IslandSt) : (s.setIsland n i).power = s.power := by rfl
@[simp] theorem State.time_setIsland (s : State) (n : Nat) (i : IslandSt) : (s.setIsland n i).time = s.time := by rfl
@[simp] theorem State.bb_setIsland (s : State) (n : Nat) (i : IslandSt) : (s.setIsland n i).bb = s.bb := by rfl
@[simp] theorem State.rings_setIsland (s : State) (n : Nat) (i : IslandSt) : (s.setIsland n i).rings = s.rings := by rfl
@[simp] theorem State.axes_setIsland (s : State) (n : Nat) (i : IslandSt) : (s.setIsland n i).axes = s.axes := by rfl
@[simp] theorem State.axShown_setIsland (s : State) (n : Nat) (i : IslandSt) : (s.setIsland n i).axShown = s.axShown := by rfl
@[simp] theorem State.axCycle_setIsland (s : State) (n : Nat) (i : IslandSt) : (s.setIsland n i).axCycle = s.axCycle := by rfl
@[simp] theorem State.lgs_setIsland (s : State) (n : Nat) (i : IslandSt) : (s.setIsland n i).lgs = s.lgs := by rfl
@[simp] theorem State.adcs_setIsland (s : State) (n : Nat) (i : IslandSt) : (s.setIsland n i).adcs = s.adcs := by rfl
@[simp] theorem State.adc_setIsland (s : State) (n : Nat) (i : IslandSt) : (s.setIsland n i).adc = s.adc := by rfl
@[simp] theorem State.fbs_setIsland (s : State) (n : Nat) (i : IslandSt) : (s.setIsland n i).fbs = s.fbs := by rfl
@[simp] theorem State.dma_setIsland (s : State) (n : Nat) (i : IslandSt) : (s.setIsland n i).dma = s.dma := by rfl
@[simp] theorem State.woad_setIsland (s : State) (n : Nat) (i : IslandSt) : (s.setIsland n i).woad = s.woad := by rfl
@[simp] theorem State.ind_setIsland (s : State) (n : Nat) (i : IslandSt) : (s.setIsland n i).ind = s.ind := by rfl
@[simp] theorem State.lsp_setIsland (s : State) (n : Nat) (i : IslandSt) : (s.setIsland n i).lsp = s.lsp := by rfl
@[simp] theorem State.bypassSet_setIsland (s : State) (n : Nat) (i : IslandSt) : (s.setIsland n i).bypassSet = s.bypassSet := by rfl
@[simp] theorem State.arb_setIsland (s : State) (n : Nat) (i : IslandSt) : (s.setIsland n i).arb = s.arb := by rfl
@[simp] theorem State.undef_setIsland (s : State) (n : Nat) (i : IslandSt) : (s.setIsland n i).undef = s.undef := by rfl
@[simp] theorem State.sent_setIsland (s : State) (n : Nat) (i : IslandSt) : (s.setIsland n i).sent = s.sent := by rfl
@[simp] theorem State.freeCtr_setIsland (s : State) (n : Nat) (i : IslandSt) : (s.setIsland n i).freeCtr = s.freeCtr := by rfl
@[simp] theorem State.cell_setIsland (s : State) (n : Nat) (i : IslandSt) (j : Nat) : (s.setIsland n i).cell j = s.cell j := by rfl
@[simp] theorem State.reg_setIsland (s : State) (n : Nat) (i : IslandSt) (j : Nat) : (s.setIsland n i).reg j = s.reg j := by rfl
@[simp] theorem State.queue_setIsland (s : State) (n : Nat) (i : IslandSt) (j : Nat) : (s.setIsland n i).queue j = s.queue j := by rfl
@[simp] theorem State.op_setIsland (s : State) (n : Nat) (i : IslandSt) (j : Nat) : (s.setIsland n i).op j = s.op j := by rfl
@[simp] theorem State.chan_setIsland (s : State) (n : Nat) (i : IslandSt) (j : Nat) : (s.setIsland n i).chan j = s.chan j := by rfl
@[simp] theorem State.qp_setIsland (s : State) (n : Nat) (i : IslandSt) (j : Nat) : (s.setIsland n i).qp j = s.qp j := by rfl
@[simp] theorem State.ramByte_setIsland (s : State) (n : Nat) (i : IslandSt) (j : Nat) : (s.setIsland n i).ramByte j = s.ramByte j := by rfl
@[simp] theorem State.ramWord_setIsland (s : State) (n : Nat) (i : IslandSt) (j : Nat) : (s.setIsland n i).ramWord j = s.ramWord j := by rfl
@[simp] theorem State.pending_setReg (s : State) (o : Nat) (w : Word) : (s.setReg o w).pending = s.pending := by rfl
@[simp] theorem State.variant_setReg (s : State) (o : Nat) (w : Word) : (s.setReg o w).variant = s.variant := by rfl
@[simp] theorem State.stepping_setReg (s : State) (o : Nat) (w : Word) : (s.setReg o w).stepping = s.stepping := by rfl
@[simp] theorem State.mode_setReg (s : State) (o : Nat) (w : Word) : (s.setReg o w).mode = s.mode := by rfl
@[simp] theorem State.modeCause_setReg (s : State) (o : Nat) (w : Word) : (s.setReg o w).modeCause = s.modeCause := by rfl
@[simp] theorem State.modeCycle_setReg (s : State) (o : Nat) (w : Word) : (s.setReg o w).modeCycle = s.modeCycle := by rfl
@[simp] theorem State.cycle_setReg (s : State) (o : Nat) (w : Word) : (s.setReg o w).cycle = s.cycle := by rfl
@[simp] theorem State.chipWarn_setReg (s : State) (o : Nat) (w : Word) : (s.setReg o w).chipWarn = s.chipWarn := by rfl
@[simp] theorem State.fbWarn_setReg (s : State) (o : Nat) (w : Word) : (s.setReg o w).fbWarn = s.fbWarn := by rfl
@[simp] theorem State.ram_setReg (s : State) (o : Nat) (w : Word) : (s.setReg o w).ram = s.ram := by rfl
@[simp] theorem State.flip1_setReg (s : State) (o : Nat) (w : Word) : (s.setReg o w).flip1 = s.flip1 := by rfl
@[simp] theorem State.flip2_setReg (s : State) (o : Nat) (w : Word) : (s.setReg o w).flip2 = s.flip2 := by rfl
@[simp] theorem State.islands_setReg (s : State) (o : Nat) (w : Word) : (s.setReg o w).islands = s.islands := by rfl
@[simp] theorem State.image_setReg (s : State) (o : Nat) (w : Word) : (s.setReg o w).image = s.image := by rfl
@[simp] theorem State.cells_setReg (s : State) (o : Nat) (w : Word) : (s.setReg o w).cells = s.cells := by rfl
@[simp] theorem State.mad_setReg (s : State) (o : Nat) (w : Word) : (s.setReg o w).mad = s.mad := by rfl
@[simp] theorem State.loops_setReg (s : State) (o : Nat) (w : Word) : (s.setReg o w).loops = s.loops := by rfl
@[simp] theorem State.host_setReg (s : State) (o : Nat) (w : Word) : (s.setReg o w).host = s.host := by rfl
@[simp] theorem State.jnl_setReg (s : State) (o : Nat) (w : Word) : (s.setReg o w).jnl = s.jnl := by rfl
@[simp] theorem State.fox_setReg (s : State) (o : Nat) (w : Word) : (s.setReg o w).fox = s.fox := by rfl
@[simp] theorem State.flash_setReg (s : State) (o : Nat) (w : Word) : (s.setReg o w).flash = s.flash := by rfl
@[simp] theorem State.power_setReg (s : State) (o : Nat) (w : Word) : (s.setReg o w).power = s.power := by rfl
@[simp] theorem State.time_setReg (s : State) (o : Nat) (w : Word) : (s.setReg o w).time = s.time := by rfl
@[simp] theorem State.bb_setReg (s : State) (o : Nat) (w : Word) : (s.setReg o w).bb = s.bb := by rfl
@[simp] theorem State.rings_setReg (s : State) (o : Nat) (w : Word) : (s.setReg o w).rings = s.rings := by rfl
@[simp] theorem State.axes_setReg (s : State) (o : Nat) (w : Word) : (s.setReg o w).axes = s.axes := by rfl
@[simp] theorem State.axShown_setReg (s : State) (o : Nat) (w : Word) : (s.setReg o w).axShown = s.axShown := by rfl
@[simp] theorem State.axCycle_setReg (s : State) (o : Nat) (w : Word) : (s.setReg o w).axCycle = s.axCycle := by rfl
@[simp] theorem State.lgs_setReg (s : State) (o : Nat) (w : Word) : (s.setReg o w).lgs = s.lgs := by rfl
@[simp] theorem State.adcs_setReg (s : State) (o : Nat) (w : Word) : (s.setReg o w).adcs = s.adcs := by rfl
@[simp] theorem State.adc_setReg (s : State) (o : Nat) (w : Word) : (s.setReg o w).adc = s.adc := by rfl
@[simp] theorem State.fbs_setReg (s : State) (o : Nat) (w : Word) : (s.setReg o w).fbs = s.fbs := by rfl
@[simp] theorem State.dma_setReg (s : State) (o : Nat) (w : Word) : (s.setReg o w).dma = s.dma := by rfl
@[simp] theorem State.woad_setReg (s : State) (o : Nat) (w : Word) : (s.setReg o w).woad = s.woad := by rfl
@[simp] theorem State.ind_setReg (s : State) (o : Nat) (w : Word) : (s.setReg o w).ind = s.ind := by rfl
@[simp] theorem State.lsp_setReg (s : State) (o : Nat) (w : Word) : (s.setReg o w).lsp = s.lsp := by rfl
@[simp] theorem State.bypassSet_setReg (s : State) (o : Nat) (w : Word) : (s.setReg o w).bypassSet = s.bypassSet := by rfl
@[simp] theorem State.arb_setReg (s : State) (o : Nat) (w : Word) : (s.setReg o w).arb = s.arb := by rfl
@[simp] theorem State.undef_setReg (s : State) (o : Nat) (w : Word) : (s.setReg o w).undef = s.undef := by rfl
@[simp] theorem State.sent_setReg (s : State) (o : Nat) (w : Word) : (s.setReg o w).sent = s.sent := by rfl
@[simp] theorem State.freeCtr_setReg (s : State) (o : Nat) (w : Word) : (s.setReg o w).freeCtr = s.freeCtr := by rfl
@[simp] theorem State.cell_setReg (s : State) (o : Nat) (w : Word) (j : Nat) : (s.setReg o w).cell j = s.cell j := by rfl
@[simp] theorem State.island_setReg (s : State) (o : Nat) (w : Word) (j : Nat) : (s.setReg o w).island j = s.island j := by rfl
@[simp] theorem State.queue_setReg (s : State) (o : Nat) (w : Word) (j : Nat) : (s.setReg o w).queue j = s.queue j := by rfl
@[simp] theorem State.op_setReg (s : State) (o : Nat) (w : Word) (j : Nat) : (s.setReg o w).op j = s.op j := by rfl
@[simp] theorem State.chan_setReg (s : State) (o : Nat) (w : Word) (j : Nat) : (s.setReg o w).chan j = s.chan j := by rfl
@[simp] theorem State.qp_setReg (s : State) (o : Nat) (w : Word) (j : Nat) : (s.setReg o w).qp j = s.qp j := by rfl
@[simp] theorem State.ramByte_setReg (s : State) (o : Nat) (w : Word) (j : Nat) : (s.setReg o w).ramByte j = s.ramByte j := by rfl
@[simp] theorem State.ramWord_setReg (s : State) (o : Nat) (w : Word) (j : Nat) : (s.setReg o w).ramWord j = s.ramWord j := by rfl
@[simp] theorem State.pending_setQueue (s : State) (n : Nat) (q : QueueSt) : (s.setQueue n q).pending = s.pending := by rfl
@[simp] theorem State.variant_setQueue (s : State) (n : Nat) (q : QueueSt) : (s.setQueue n q).variant = s.variant := by rfl
@[simp] theorem State.stepping_setQueue (s : State) (n : Nat) (q : QueueSt) : (s.setQueue n q).stepping = s.stepping := by rfl
@[simp] theorem State.mode_setQueue (s : State) (n : Nat) (q : QueueSt) : (s.setQueue n q).mode = s.mode := by rfl
@[simp] theorem State.modeCause_setQueue (s : State) (n : Nat) (q : QueueSt) : (s.setQueue n q).modeCause = s.modeCause := by rfl
@[simp] theorem State.modeCycle_setQueue (s : State) (n : Nat) (q : QueueSt) : (s.setQueue n q).modeCycle = s.modeCycle := by rfl
@[simp] theorem State.cycle_setQueue (s : State) (n : Nat) (q : QueueSt) : (s.setQueue n q).cycle = s.cycle := by rfl
@[simp] theorem State.regs_setQueue (s : State) (n : Nat) (q : QueueSt) : (s.setQueue n q).regs = s.regs := by rfl
@[simp] theorem State.chipWarn_setQueue (s : State) (n : Nat) (q : QueueSt) : (s.setQueue n q).chipWarn = s.chipWarn := by rfl
@[simp] theorem State.fbWarn_setQueue (s : State) (n : Nat) (q : QueueSt) : (s.setQueue n q).fbWarn = s.fbWarn := by rfl
@[simp] theorem State.ram_setQueue (s : State) (n : Nat) (q : QueueSt) : (s.setQueue n q).ram = s.ram := by rfl
@[simp] theorem State.flip1_setQueue (s : State) (n : Nat) (q : QueueSt) : (s.setQueue n q).flip1 = s.flip1 := by rfl
@[simp] theorem State.flip2_setQueue (s : State) (n : Nat) (q : QueueSt) : (s.setQueue n q).flip2 = s.flip2 := by rfl
@[simp] theorem State.islands_setQueue (s : State) (n : Nat) (q : QueueSt) : (s.setQueue n q).islands = s.islands := by rfl
@[simp] theorem State.image_setQueue (s : State) (n : Nat) (q : QueueSt) : (s.setQueue n q).image = s.image := by rfl
@[simp] theorem State.cells_setQueue (s : State) (n : Nat) (q : QueueSt) : (s.setQueue n q).cells = s.cells := by rfl
@[simp] theorem State.loops_setQueue (s : State) (n : Nat) (q : QueueSt) : (s.setQueue n q).loops = s.loops := by rfl
@[simp] theorem State.host_setQueue (s : State) (n : Nat) (q : QueueSt) : (s.setQueue n q).host = s.host := by rfl
@[simp] theorem State.jnl_setQueue (s : State) (n : Nat) (q : QueueSt) : (s.setQueue n q).jnl = s.jnl := by rfl
@[simp] theorem State.fox_setQueue (s : State) (n : Nat) (q : QueueSt) : (s.setQueue n q).fox = s.fox := by rfl
@[simp] theorem State.flash_setQueue (s : State) (n : Nat) (q : QueueSt) : (s.setQueue n q).flash = s.flash := by rfl
@[simp] theorem State.power_setQueue (s : State) (n : Nat) (q : QueueSt) : (s.setQueue n q).power = s.power := by rfl
@[simp] theorem State.time_setQueue (s : State) (n : Nat) (q : QueueSt) : (s.setQueue n q).time = s.time := by rfl
@[simp] theorem State.bb_setQueue (s : State) (n : Nat) (q : QueueSt) : (s.setQueue n q).bb = s.bb := by rfl
@[simp] theorem State.rings_setQueue (s : State) (n : Nat) (q : QueueSt) : (s.setQueue n q).rings = s.rings := by rfl
@[simp] theorem State.axes_setQueue (s : State) (n : Nat) (q : QueueSt) : (s.setQueue n q).axes = s.axes := by rfl
@[simp] theorem State.axShown_setQueue (s : State) (n : Nat) (q : QueueSt) : (s.setQueue n q).axShown = s.axShown := by rfl
@[simp] theorem State.axCycle_setQueue (s : State) (n : Nat) (q : QueueSt) : (s.setQueue n q).axCycle = s.axCycle := by rfl
@[simp] theorem State.lgs_setQueue (s : State) (n : Nat) (q : QueueSt) : (s.setQueue n q).lgs = s.lgs := by rfl
@[simp] theorem State.adcs_setQueue (s : State) (n : Nat) (q : QueueSt) : (s.setQueue n q).adcs = s.adcs := by rfl
@[simp] theorem State.adc_setQueue (s : State) (n : Nat) (q : QueueSt) : (s.setQueue n q).adc = s.adc := by rfl
@[simp] theorem State.fbs_setQueue (s : State) (n : Nat) (q : QueueSt) : (s.setQueue n q).fbs = s.fbs := by rfl
@[simp] theorem State.dma_setQueue (s : State) (n : Nat) (q : QueueSt) : (s.setQueue n q).dma = s.dma := by rfl
@[simp] theorem State.woad_setQueue (s : State) (n : Nat) (q : QueueSt) : (s.setQueue n q).woad = s.woad := by rfl
@[simp] theorem State.ind_setQueue (s : State) (n : Nat) (q : QueueSt) : (s.setQueue n q).ind = s.ind := by rfl
@[simp] theorem State.lsp_setQueue (s : State) (n : Nat) (q : QueueSt) : (s.setQueue n q).lsp = s.lsp := by rfl
@[simp] theorem State.bypassSet_setQueue (s : State) (n : Nat) (q : QueueSt) : (s.setQueue n q).bypassSet = s.bypassSet := by rfl
@[simp] theorem State.arb_setQueue (s : State) (n : Nat) (q : QueueSt) : (s.setQueue n q).arb = s.arb := by rfl
@[simp] theorem State.undef_setQueue (s : State) (n : Nat) (q : QueueSt) : (s.setQueue n q).undef = s.undef := by rfl
@[simp] theorem State.sent_setQueue (s : State) (n : Nat) (q : QueueSt) : (s.setQueue n q).sent = s.sent := by rfl
@[simp] theorem State.freeCtr_setQueue (s : State) (n : Nat) (q : QueueSt) : (s.setQueue n q).freeCtr = s.freeCtr := by rfl
@[simp] theorem State.cell_setQueue (s : State) (n : Nat) (q : QueueSt) (j : Nat) : (s.setQueue n q).cell j = s.cell j := by rfl
@[simp] theorem State.island_setQueue (s : State) (n : Nat) (q : QueueSt) (j : Nat) : (s.setQueue n q).island j = s.island j := by rfl
@[simp] theorem State.reg_setQueue (s : State) (n : Nat) (q : QueueSt) (j : Nat) : (s.setQueue n q).reg j = s.reg j := by rfl
@[simp] theorem State.op_setQueue (s : State) (n : Nat) (q : QueueSt) (j : Nat) : (s.setQueue n q).op j = s.op j := by rfl
@[simp] theorem State.chan_setQueue (s : State) (n : Nat) (q : QueueSt) (j : Nat) : (s.setQueue n q).chan j = s.chan j := by rfl
@[simp] theorem State.qp_setQueue (s : State) (n : Nat) (q : QueueSt) (j : Nat) : (s.setQueue n q).qp j = s.qp j := by rfl
@[simp] theorem State.ramByte_setQueue (s : State) (n : Nat) (q : QueueSt) (j : Nat) : (s.setQueue n q).ramByte j = s.ramByte j := by rfl
@[simp] theorem State.ramWord_setQueue (s : State) (n : Nat) (q : QueueSt) (j : Nat) : (s.setQueue n q).ramWord j = s.ramWord j := by rfl
@[simp] theorem State.pending_setOp (s : State) (n : Nat) (o : OpSt) : (s.setOp n o).pending = s.pending := by rfl
@[simp] theorem State.variant_setOp (s : State) (n : Nat) (o : OpSt) : (s.setOp n o).variant = s.variant := by rfl
@[simp] theorem State.stepping_setOp (s : State) (n : Nat) (o : OpSt) : (s.setOp n o).stepping = s.stepping := by rfl
@[simp] theorem State.mode_setOp (s : State) (n : Nat) (o : OpSt) : (s.setOp n o).mode = s.mode := by rfl
@[simp] theorem State.modeCause_setOp (s : State) (n : Nat) (o : OpSt) : (s.setOp n o).modeCause = s.modeCause := by rfl
@[simp] theorem State.modeCycle_setOp (s : State) (n : Nat) (o : OpSt) : (s.setOp n o).modeCycle = s.modeCycle := by rfl
@[simp] theorem State.cycle_setOp (s : State) (n : Nat) (o : OpSt) : (s.setOp n o).cycle = s.cycle := by rfl
@[simp] theorem State.regs_setOp (s : State) (n : Nat) (o : OpSt) : (s.setOp n o).regs = s.regs := by rfl
@[simp] theorem State.chipWarn_setOp (s : State) (n : Nat) (o : OpSt) : (s.setOp n o).chipWarn = s.chipWarn := by rfl
@[simp] theorem State.fbWarn_setOp (s : State) (n : Nat) (o : OpSt) : (s.setOp n o).fbWarn = s.fbWarn := by rfl
@[simp] theorem State.ram_setOp (s : State) (n : Nat) (o : OpSt) : (s.setOp n o).ram = s.ram := by rfl
@[simp] theorem State.flip1_setOp (s : State) (n : Nat) (o : OpSt) : (s.setOp n o).flip1 = s.flip1 := by rfl
@[simp] theorem State.flip2_setOp (s : State) (n : Nat) (o : OpSt) : (s.setOp n o).flip2 = s.flip2 := by rfl
@[simp] theorem State.islands_setOp (s : State) (n : Nat) (o : OpSt) : (s.setOp n o).islands = s.islands := by rfl
@[simp] theorem State.image_setOp (s : State) (n : Nat) (o : OpSt) : (s.setOp n o).image = s.image := by rfl
@[simp] theorem State.cells_setOp (s : State) (n : Nat) (o : OpSt) : (s.setOp n o).cells = s.cells := by rfl
@[simp] theorem State.loops_setOp (s : State) (n : Nat) (o : OpSt) : (s.setOp n o).loops = s.loops := by rfl
@[simp] theorem State.host_setOp (s : State) (n : Nat) (o : OpSt) : (s.setOp n o).host = s.host := by rfl
@[simp] theorem State.jnl_setOp (s : State) (n : Nat) (o : OpSt) : (s.setOp n o).jnl = s.jnl := by rfl
@[simp] theorem State.fox_setOp (s : State) (n : Nat) (o : OpSt) : (s.setOp n o).fox = s.fox := by rfl
@[simp] theorem State.flash_setOp (s : State) (n : Nat) (o : OpSt) : (s.setOp n o).flash = s.flash := by rfl
@[simp] theorem State.power_setOp (s : State) (n : Nat) (o : OpSt) : (s.setOp n o).power = s.power := by rfl
@[simp] theorem State.time_setOp (s : State) (n : Nat) (o : OpSt) : (s.setOp n o).time = s.time := by rfl
@[simp] theorem State.bb_setOp (s : State) (n : Nat) (o : OpSt) : (s.setOp n o).bb = s.bb := by rfl
@[simp] theorem State.rings_setOp (s : State) (n : Nat) (o : OpSt) : (s.setOp n o).rings = s.rings := by rfl
@[simp] theorem State.axes_setOp (s : State) (n : Nat) (o : OpSt) : (s.setOp n o).axes = s.axes := by rfl
@[simp] theorem State.axShown_setOp (s : State) (n : Nat) (o : OpSt) : (s.setOp n o).axShown = s.axShown := by rfl
@[simp] theorem State.axCycle_setOp (s : State) (n : Nat) (o : OpSt) : (s.setOp n o).axCycle = s.axCycle := by rfl
@[simp] theorem State.lgs_setOp (s : State) (n : Nat) (o : OpSt) : (s.setOp n o).lgs = s.lgs := by rfl
@[simp] theorem State.adcs_setOp (s : State) (n : Nat) (o : OpSt) : (s.setOp n o).adcs = s.adcs := by rfl
@[simp] theorem State.adc_setOp (s : State) (n : Nat) (o : OpSt) : (s.setOp n o).adc = s.adc := by rfl
@[simp] theorem State.fbs_setOp (s : State) (n : Nat) (o : OpSt) : (s.setOp n o).fbs = s.fbs := by rfl
@[simp] theorem State.dma_setOp (s : State) (n : Nat) (o : OpSt) : (s.setOp n o).dma = s.dma := by rfl
@[simp] theorem State.woad_setOp (s : State) (n : Nat) (o : OpSt) : (s.setOp n o).woad = s.woad := by rfl
@[simp] theorem State.ind_setOp (s : State) (n : Nat) (o : OpSt) : (s.setOp n o).ind = s.ind := by rfl
@[simp] theorem State.lsp_setOp (s : State) (n : Nat) (o : OpSt) : (s.setOp n o).lsp = s.lsp := by rfl
@[simp] theorem State.bypassSet_setOp (s : State) (n : Nat) (o : OpSt) : (s.setOp n o).bypassSet = s.bypassSet := by rfl
@[simp] theorem State.arb_setOp (s : State) (n : Nat) (o : OpSt) : (s.setOp n o).arb = s.arb := by rfl
@[simp] theorem State.undef_setOp (s : State) (n : Nat) (o : OpSt) : (s.setOp n o).undef = s.undef := by rfl
@[simp] theorem State.sent_setOp (s : State) (n : Nat) (o : OpSt) : (s.setOp n o).sent = s.sent := by rfl
@[simp] theorem State.freeCtr_setOp (s : State) (n : Nat) (o : OpSt) : (s.setOp n o).freeCtr = s.freeCtr := by rfl
@[simp] theorem State.cell_setOp (s : State) (n : Nat) (o : OpSt) (j : Nat) : (s.setOp n o).cell j = s.cell j := by rfl
@[simp] theorem State.island_setOp (s : State) (n : Nat) (o : OpSt) (j : Nat) : (s.setOp n o).island j = s.island j := by rfl
@[simp] theorem State.reg_setOp (s : State) (n : Nat) (o : OpSt) (j : Nat) : (s.setOp n o).reg j = s.reg j := by rfl
@[simp] theorem State.queue_setOp (s : State) (n : Nat) (o : OpSt) (j : Nat) : (s.setOp n o).queue j = s.queue j := by rfl
@[simp] theorem State.chan_setOp (s : State) (n : Nat) (o : OpSt) (j : Nat) : (s.setOp n o).chan j = s.chan j := by rfl
@[simp] theorem State.qp_setOp (s : State) (n : Nat) (o : OpSt) (j : Nat) : (s.setOp n o).qp j = s.qp j := by rfl
@[simp] theorem State.ramByte_setOp (s : State) (n : Nat) (o : OpSt) (j : Nat) : (s.setOp n o).ramByte j = s.ramByte j := by rfl
@[simp] theorem State.ramWord_setOp (s : State) (n : Nat) (o : OpSt) (j : Nat) : (s.setOp n o).ramWord j = s.ramWord j := by rfl
@[simp] theorem State.pending_setChan (s : State) (n : Nat) (c : ChanSt) : (s.setChan n c).pending = s.pending := by rfl
@[simp] theorem State.variant_setChan (s : State) (n : Nat) (c : ChanSt) : (s.setChan n c).variant = s.variant := by rfl
@[simp] theorem State.stepping_setChan (s : State) (n : Nat) (c : ChanSt) : (s.setChan n c).stepping = s.stepping := by rfl
@[simp] theorem State.mode_setChan (s : State) (n : Nat) (c : ChanSt) : (s.setChan n c).mode = s.mode := by rfl
@[simp] theorem State.modeCause_setChan (s : State) (n : Nat) (c : ChanSt) : (s.setChan n c).modeCause = s.modeCause := by rfl
@[simp] theorem State.modeCycle_setChan (s : State) (n : Nat) (c : ChanSt) : (s.setChan n c).modeCycle = s.modeCycle := by rfl
@[simp] theorem State.cycle_setChan (s : State) (n : Nat) (c : ChanSt) : (s.setChan n c).cycle = s.cycle := by rfl
@[simp] theorem State.regs_setChan (s : State) (n : Nat) (c : ChanSt) : (s.setChan n c).regs = s.regs := by rfl
@[simp] theorem State.chipWarn_setChan (s : State) (n : Nat) (c : ChanSt) : (s.setChan n c).chipWarn = s.chipWarn := by rfl
@[simp] theorem State.fbWarn_setChan (s : State) (n : Nat) (c : ChanSt) : (s.setChan n c).fbWarn = s.fbWarn := by rfl
@[simp] theorem State.ram_setChan (s : State) (n : Nat) (c : ChanSt) : (s.setChan n c).ram = s.ram := by rfl
@[simp] theorem State.flip1_setChan (s : State) (n : Nat) (c : ChanSt) : (s.setChan n c).flip1 = s.flip1 := by rfl
@[simp] theorem State.flip2_setChan (s : State) (n : Nat) (c : ChanSt) : (s.setChan n c).flip2 = s.flip2 := by rfl
@[simp] theorem State.islands_setChan (s : State) (n : Nat) (c : ChanSt) : (s.setChan n c).islands = s.islands := by rfl
@[simp] theorem State.image_setChan (s : State) (n : Nat) (c : ChanSt) : (s.setChan n c).image = s.image := by rfl
@[simp] theorem State.cells_setChan (s : State) (n : Nat) (c : ChanSt) : (s.setChan n c).cells = s.cells := by rfl
@[simp] theorem State.loops_setChan (s : State) (n : Nat) (c : ChanSt) : (s.setChan n c).loops = s.loops := by rfl
@[simp] theorem State.host_setChan (s : State) (n : Nat) (c : ChanSt) : (s.setChan n c).host = s.host := by rfl
@[simp] theorem State.jnl_setChan (s : State) (n : Nat) (c : ChanSt) : (s.setChan n c).jnl = s.jnl := by rfl
@[simp] theorem State.fox_setChan (s : State) (n : Nat) (c : ChanSt) : (s.setChan n c).fox = s.fox := by rfl
@[simp] theorem State.flash_setChan (s : State) (n : Nat) (c : ChanSt) : (s.setChan n c).flash = s.flash := by rfl
@[simp] theorem State.power_setChan (s : State) (n : Nat) (c : ChanSt) : (s.setChan n c).power = s.power := by rfl
@[simp] theorem State.time_setChan (s : State) (n : Nat) (c : ChanSt) : (s.setChan n c).time = s.time := by rfl
@[simp] theorem State.bb_setChan (s : State) (n : Nat) (c : ChanSt) : (s.setChan n c).bb = s.bb := by rfl
@[simp] theorem State.rings_setChan (s : State) (n : Nat) (c : ChanSt) : (s.setChan n c).rings = s.rings := by rfl
@[simp] theorem State.axes_setChan (s : State) (n : Nat) (c : ChanSt) : (s.setChan n c).axes = s.axes := by rfl
@[simp] theorem State.axShown_setChan (s : State) (n : Nat) (c : ChanSt) : (s.setChan n c).axShown = s.axShown := by rfl
@[simp] theorem State.axCycle_setChan (s : State) (n : Nat) (c : ChanSt) : (s.setChan n c).axCycle = s.axCycle := by rfl
@[simp] theorem State.lgs_setChan (s : State) (n : Nat) (c : ChanSt) : (s.setChan n c).lgs = s.lgs := by rfl
@[simp] theorem State.adcs_setChan (s : State) (n : Nat) (c : ChanSt) : (s.setChan n c).adcs = s.adcs := by rfl
@[simp] theorem State.adc_setChan (s : State) (n : Nat) (c : ChanSt) : (s.setChan n c).adc = s.adc := by rfl
@[simp] theorem State.fbs_setChan (s : State) (n : Nat) (c : ChanSt) : (s.setChan n c).fbs = s.fbs := by rfl
@[simp] theorem State.dma_setChan (s : State) (n : Nat) (c : ChanSt) : (s.setChan n c).dma = s.dma := by rfl
@[simp] theorem State.woad_setChan (s : State) (n : Nat) (c : ChanSt) : (s.setChan n c).woad = s.woad := by rfl
@[simp] theorem State.ind_setChan (s : State) (n : Nat) (c : ChanSt) : (s.setChan n c).ind = s.ind := by rfl
@[simp] theorem State.lsp_setChan (s : State) (n : Nat) (c : ChanSt) : (s.setChan n c).lsp = s.lsp := by rfl
@[simp] theorem State.bypassSet_setChan (s : State) (n : Nat) (c : ChanSt) : (s.setChan n c).bypassSet = s.bypassSet := by rfl
@[simp] theorem State.arb_setChan (s : State) (n : Nat) (c : ChanSt) : (s.setChan n c).arb = s.arb := by rfl
@[simp] theorem State.undef_setChan (s : State) (n : Nat) (c : ChanSt) : (s.setChan n c).undef = s.undef := by rfl
@[simp] theorem State.sent_setChan (s : State) (n : Nat) (c : ChanSt) : (s.setChan n c).sent = s.sent := by rfl
@[simp] theorem State.freeCtr_setChan (s : State) (n : Nat) (c : ChanSt) : (s.setChan n c).freeCtr = s.freeCtr := by rfl
@[simp] theorem State.cell_setChan (s : State) (n : Nat) (c : ChanSt) (j : Nat) : (s.setChan n c).cell j = s.cell j := by rfl
@[simp] theorem State.island_setChan (s : State) (n : Nat) (c : ChanSt) (j : Nat) : (s.setChan n c).island j = s.island j := by rfl
@[simp] theorem State.reg_setChan (s : State) (n : Nat) (c : ChanSt) (j : Nat) : (s.setChan n c).reg j = s.reg j := by rfl
@[simp] theorem State.queue_setChan (s : State) (n : Nat) (c : ChanSt) (j : Nat) : (s.setChan n c).queue j = s.queue j := by rfl
@[simp] theorem State.op_setChan (s : State) (n : Nat) (c : ChanSt) (j : Nat) : (s.setChan n c).op j = s.op j := by rfl
@[simp] theorem State.qp_setChan (s : State) (n : Nat) (c : ChanSt) (j : Nat) : (s.setChan n c).qp j = s.qp j := by rfl
@[simp] theorem State.ramByte_setChan (s : State) (n : Nat) (c : ChanSt) (j : Nat) : (s.setChan n c).ramByte j = s.ramByte j := by rfl
@[simp] theorem State.ramWord_setChan (s : State) (n : Nat) (c : ChanSt) (j : Nat) : (s.setChan n c).ramWord j = s.ramWord j := by rfl
@[simp] theorem State.pending_setQp (s : State) (n : Nat) (q : QpSt) : (s.setQp n q).pending = s.pending := by rfl
@[simp] theorem State.variant_setQp (s : State) (n : Nat) (q : QpSt) : (s.setQp n q).variant = s.variant := by rfl
@[simp] theorem State.stepping_setQp (s : State) (n : Nat) (q : QpSt) : (s.setQp n q).stepping = s.stepping := by rfl
@[simp] theorem State.mode_setQp (s : State) (n : Nat) (q : QpSt) : (s.setQp n q).mode = s.mode := by rfl
@[simp] theorem State.modeCause_setQp (s : State) (n : Nat) (q : QpSt) : (s.setQp n q).modeCause = s.modeCause := by rfl
@[simp] theorem State.modeCycle_setQp (s : State) (n : Nat) (q : QpSt) : (s.setQp n q).modeCycle = s.modeCycle := by rfl
@[simp] theorem State.cycle_setQp (s : State) (n : Nat) (q : QpSt) : (s.setQp n q).cycle = s.cycle := by rfl
@[simp] theorem State.regs_setQp (s : State) (n : Nat) (q : QpSt) : (s.setQp n q).regs = s.regs := by rfl
@[simp] theorem State.chipWarn_setQp (s : State) (n : Nat) (q : QpSt) : (s.setQp n q).chipWarn = s.chipWarn := by rfl
@[simp] theorem State.fbWarn_setQp (s : State) (n : Nat) (q : QpSt) : (s.setQp n q).fbWarn = s.fbWarn := by rfl
@[simp] theorem State.ram_setQp (s : State) (n : Nat) (q : QpSt) : (s.setQp n q).ram = s.ram := by rfl
@[simp] theorem State.flip1_setQp (s : State) (n : Nat) (q : QpSt) : (s.setQp n q).flip1 = s.flip1 := by rfl
@[simp] theorem State.flip2_setQp (s : State) (n : Nat) (q : QpSt) : (s.setQp n q).flip2 = s.flip2 := by rfl
@[simp] theorem State.islands_setQp (s : State) (n : Nat) (q : QpSt) : (s.setQp n q).islands = s.islands := by rfl
@[simp] theorem State.image_setQp (s : State) (n : Nat) (q : QpSt) : (s.setQp n q).image = s.image := by rfl
@[simp] theorem State.cells_setQp (s : State) (n : Nat) (q : QpSt) : (s.setQp n q).cells = s.cells := by rfl
@[simp] theorem State.mad_setQp (s : State) (n : Nat) (q : QpSt) : (s.setQp n q).mad = s.mad := by rfl
@[simp] theorem State.loops_setQp (s : State) (n : Nat) (q : QpSt) : (s.setQp n q).loops = s.loops := by rfl
@[simp] theorem State.jnl_setQp (s : State) (n : Nat) (q : QpSt) : (s.setQp n q).jnl = s.jnl := by rfl
@[simp] theorem State.fox_setQp (s : State) (n : Nat) (q : QpSt) : (s.setQp n q).fox = s.fox := by rfl
@[simp] theorem State.flash_setQp (s : State) (n : Nat) (q : QpSt) : (s.setQp n q).flash = s.flash := by rfl
@[simp] theorem State.power_setQp (s : State) (n : Nat) (q : QpSt) : (s.setQp n q).power = s.power := by rfl
@[simp] theorem State.time_setQp (s : State) (n : Nat) (q : QpSt) : (s.setQp n q).time = s.time := by rfl
@[simp] theorem State.bb_setQp (s : State) (n : Nat) (q : QpSt) : (s.setQp n q).bb = s.bb := by rfl
@[simp] theorem State.rings_setQp (s : State) (n : Nat) (q : QpSt) : (s.setQp n q).rings = s.rings := by rfl
@[simp] theorem State.axes_setQp (s : State) (n : Nat) (q : QpSt) : (s.setQp n q).axes = s.axes := by rfl
@[simp] theorem State.axShown_setQp (s : State) (n : Nat) (q : QpSt) : (s.setQp n q).axShown = s.axShown := by rfl
@[simp] theorem State.axCycle_setQp (s : State) (n : Nat) (q : QpSt) : (s.setQp n q).axCycle = s.axCycle := by rfl
@[simp] theorem State.lgs_setQp (s : State) (n : Nat) (q : QpSt) : (s.setQp n q).lgs = s.lgs := by rfl
@[simp] theorem State.adcs_setQp (s : State) (n : Nat) (q : QpSt) : (s.setQp n q).adcs = s.adcs := by rfl
@[simp] theorem State.adc_setQp (s : State) (n : Nat) (q : QpSt) : (s.setQp n q).adc = s.adc := by rfl
@[simp] theorem State.fbs_setQp (s : State) (n : Nat) (q : QpSt) : (s.setQp n q).fbs = s.fbs := by rfl
@[simp] theorem State.dma_setQp (s : State) (n : Nat) (q : QpSt) : (s.setQp n q).dma = s.dma := by rfl
@[simp] theorem State.woad_setQp (s : State) (n : Nat) (q : QpSt) : (s.setQp n q).woad = s.woad := by rfl
@[simp] theorem State.ind_setQp (s : State) (n : Nat) (q : QpSt) : (s.setQp n q).ind = s.ind := by rfl
@[simp] theorem State.lsp_setQp (s : State) (n : Nat) (q : QpSt) : (s.setQp n q).lsp = s.lsp := by rfl
@[simp] theorem State.bypassSet_setQp (s : State) (n : Nat) (q : QpSt) : (s.setQp n q).bypassSet = s.bypassSet := by rfl
@[simp] theorem State.arb_setQp (s : State) (n : Nat) (q : QpSt) : (s.setQp n q).arb = s.arb := by rfl
@[simp] theorem State.undef_setQp (s : State) (n : Nat) (q : QpSt) : (s.setQp n q).undef = s.undef := by rfl
@[simp] theorem State.sent_setQp (s : State) (n : Nat) (q : QpSt) : (s.setQp n q).sent = s.sent := by rfl
@[simp] theorem State.freeCtr_setQp (s : State) (n : Nat) (q : QpSt) : (s.setQp n q).freeCtr = s.freeCtr := by rfl
@[simp] theorem State.cell_setQp (s : State) (n : Nat) (q : QpSt) (j : Nat) : (s.setQp n q).cell j = s.cell j := by rfl
@[simp] theorem State.island_setQp (s : State) (n : Nat) (q : QpSt) (j : Nat) : (s.setQp n q).island j = s.island j := by rfl
@[simp] theorem State.reg_setQp (s : State) (n : Nat) (q : QpSt) (j : Nat) : (s.setQp n q).reg j = s.reg j := by rfl
@[simp] theorem State.queue_setQp (s : State) (n : Nat) (q : QpSt) (j : Nat) : (s.setQp n q).queue j = s.queue j := by rfl
@[simp] theorem State.op_setQp (s : State) (n : Nat) (q : QpSt) (j : Nat) : (s.setQp n q).op j = s.op j := by rfl
@[simp] theorem State.chan_setQp (s : State) (n : Nat) (q : QpSt) (j : Nat) : (s.setQp n q).chan j = s.chan j := by rfl
@[simp] theorem State.ramByte_setQp (s : State) (n : Nat) (q : QpSt) (j : Nat) : (s.setQp n q).ramByte j = s.ramByte j := by rfl
@[simp] theorem State.ramWord_setQp (s : State) (n : Nat) (q : QpSt) (j : Nat) : (s.setQp n q).ramWord j = s.ramWord j := by rfl
@[simp] theorem State.pending_emit (s : State) (o : Output) : (s.emit o).pending = s.pending := by rfl
@[simp] theorem State.variant_emit (s : State) (o : Output) : (s.emit o).variant = s.variant := by rfl
@[simp] theorem State.stepping_emit (s : State) (o : Output) : (s.emit o).stepping = s.stepping := by rfl
@[simp] theorem State.mode_emit (s : State) (o : Output) : (s.emit o).mode = s.mode := by rfl
@[simp] theorem State.modeCause_emit (s : State) (o : Output) : (s.emit o).modeCause = s.modeCause := by rfl
@[simp] theorem State.modeCycle_emit (s : State) (o : Output) : (s.emit o).modeCycle = s.modeCycle := by rfl
@[simp] theorem State.cycle_emit (s : State) (o : Output) : (s.emit o).cycle = s.cycle := by rfl
@[simp] theorem State.regs_emit (s : State) (o : Output) : (s.emit o).regs = s.regs := by rfl
@[simp] theorem State.chipWarn_emit (s : State) (o : Output) : (s.emit o).chipWarn = s.chipWarn := by rfl
@[simp] theorem State.fbWarn_emit (s : State) (o : Output) : (s.emit o).fbWarn = s.fbWarn := by rfl
@[simp] theorem State.ram_emit (s : State) (o : Output) : (s.emit o).ram = s.ram := by rfl
@[simp] theorem State.flip1_emit (s : State) (o : Output) : (s.emit o).flip1 = s.flip1 := by rfl
@[simp] theorem State.flip2_emit (s : State) (o : Output) : (s.emit o).flip2 = s.flip2 := by rfl
@[simp] theorem State.islands_emit (s : State) (o : Output) : (s.emit o).islands = s.islands := by rfl
@[simp] theorem State.image_emit (s : State) (o : Output) : (s.emit o).image = s.image := by rfl
@[simp] theorem State.cells_emit (s : State) (o : Output) : (s.emit o).cells = s.cells := by rfl
@[simp] theorem State.mad_emit (s : State) (o : Output) : (s.emit o).mad = s.mad := by rfl
@[simp] theorem State.loops_emit (s : State) (o : Output) : (s.emit o).loops = s.loops := by rfl
@[simp] theorem State.host_emit (s : State) (o : Output) : (s.emit o).host = s.host := by rfl
@[simp] theorem State.jnl_emit (s : State) (o : Output) : (s.emit o).jnl = s.jnl := by rfl
@[simp] theorem State.fox_emit (s : State) (o : Output) : (s.emit o).fox = s.fox := by rfl
@[simp] theorem State.flash_emit (s : State) (o : Output) : (s.emit o).flash = s.flash := by rfl
@[simp] theorem State.power_emit (s : State) (o : Output) : (s.emit o).power = s.power := by rfl
@[simp] theorem State.time_emit (s : State) (o : Output) : (s.emit o).time = s.time := by rfl
@[simp] theorem State.bb_emit (s : State) (o : Output) : (s.emit o).bb = s.bb := by rfl
@[simp] theorem State.rings_emit (s : State) (o : Output) : (s.emit o).rings = s.rings := by rfl
@[simp] theorem State.axes_emit (s : State) (o : Output) : (s.emit o).axes = s.axes := by rfl
@[simp] theorem State.axShown_emit (s : State) (o : Output) : (s.emit o).axShown = s.axShown := by rfl
@[simp] theorem State.axCycle_emit (s : State) (o : Output) : (s.emit o).axCycle = s.axCycle := by rfl
@[simp] theorem State.lgs_emit (s : State) (o : Output) : (s.emit o).lgs = s.lgs := by rfl
@[simp] theorem State.adcs_emit (s : State) (o : Output) : (s.emit o).adcs = s.adcs := by rfl
@[simp] theorem State.adc_emit (s : State) (o : Output) : (s.emit o).adc = s.adc := by rfl
@[simp] theorem State.fbs_emit (s : State) (o : Output) : (s.emit o).fbs = s.fbs := by rfl
@[simp] theorem State.dma_emit (s : State) (o : Output) : (s.emit o).dma = s.dma := by rfl
@[simp] theorem State.woad_emit (s : State) (o : Output) : (s.emit o).woad = s.woad := by rfl
@[simp] theorem State.ind_emit (s : State) (o : Output) : (s.emit o).ind = s.ind := by rfl
@[simp] theorem State.lsp_emit (s : State) (o : Output) : (s.emit o).lsp = s.lsp := by rfl
@[simp] theorem State.bypassSet_emit (s : State) (o : Output) : (s.emit o).bypassSet = s.bypassSet := by rfl
@[simp] theorem State.arb_emit (s : State) (o : Output) : (s.emit o).arb = s.arb := by rfl
@[simp] theorem State.undef_emit (s : State) (o : Output) : (s.emit o).undef = s.undef := by rfl
@[simp] theorem State.freeCtr_emit (s : State) (o : Output) : (s.emit o).freeCtr = s.freeCtr := by rfl
@[simp] theorem State.cell_emit (s : State) (o : Output) (j : Nat) : (s.emit o).cell j = s.cell j := by rfl
@[simp] theorem State.island_emit (s : State) (o : Output) (j : Nat) : (s.emit o).island j = s.island j := by rfl
@[simp] theorem State.reg_emit (s : State) (o : Output) (j : Nat) : (s.emit o).reg j = s.reg j := by rfl
@[simp] theorem State.queue_emit (s : State) (o : Output) (j : Nat) : (s.emit o).queue j = s.queue j := by rfl
@[simp] theorem State.op_emit (s : State) (o : Output) (j : Nat) : (s.emit o).op j = s.op j := by rfl
@[simp] theorem State.chan_emit (s : State) (o : Output) (j : Nat) : (s.emit o).chan j = s.chan j := by rfl
@[simp] theorem State.qp_emit (s : State) (o : Output) (j : Nat) : (s.emit o).qp j = s.qp j := by rfl
@[simp] theorem State.ramByte_emit (s : State) (o : Output) (j : Nat) : (s.emit o).ramByte j = s.ramByte j := by rfl
@[simp] theorem State.ramWord_emit (s : State) (o : Output) (j : Nat) : (s.emit o).ramWord j = s.ramWord j := by rfl
@[simp] theorem State.pending_raise (s : State) (c l k i : Nat) : (s.raise c l k i).pending = s.pending := by rfl
@[simp] theorem State.variant_raise (s : State) (c l k i : Nat) : (s.raise c l k i).variant = s.variant := by rfl
@[simp] theorem State.stepping_raise (s : State) (c l k i : Nat) : (s.raise c l k i).stepping = s.stepping := by rfl
@[simp] theorem State.mode_raise (s : State) (c l k i : Nat) : (s.raise c l k i).mode = s.mode := by rfl
@[simp] theorem State.modeCause_raise (s : State) (c l k i : Nat) : (s.raise c l k i).modeCause = s.modeCause := by rfl
@[simp] theorem State.modeCycle_raise (s : State) (c l k i : Nat) : (s.raise c l k i).modeCycle = s.modeCycle := by rfl
@[simp] theorem State.cycle_raise (s : State) (c l k i : Nat) : (s.raise c l k i).cycle = s.cycle := by rfl
@[simp] theorem State.regs_raise (s : State) (c l k i : Nat) : (s.raise c l k i).regs = s.regs := by rfl
@[simp] theorem State.chipWarn_raise (s : State) (c l k i : Nat) : (s.raise c l k i).chipWarn = s.chipWarn := by rfl
@[simp] theorem State.fbWarn_raise (s : State) (c l k i : Nat) : (s.raise c l k i).fbWarn = s.fbWarn := by rfl
@[simp] theorem State.ram_raise (s : State) (c l k i : Nat) : (s.raise c l k i).ram = s.ram := by rfl
@[simp] theorem State.flip1_raise (s : State) (c l k i : Nat) : (s.raise c l k i).flip1 = s.flip1 := by rfl
@[simp] theorem State.flip2_raise (s : State) (c l k i : Nat) : (s.raise c l k i).flip2 = s.flip2 := by rfl
@[simp] theorem State.islands_raise (s : State) (c l k i : Nat) : (s.raise c l k i).islands = s.islands := by rfl
@[simp] theorem State.image_raise (s : State) (c l k i : Nat) : (s.raise c l k i).image = s.image := by rfl
@[simp] theorem State.cells_raise (s : State) (c l k i : Nat) : (s.raise c l k i).cells = s.cells := by rfl
@[simp] theorem State.mad_raise (s : State) (c l k i : Nat) : (s.raise c l k i).mad = s.mad := by rfl
@[simp] theorem State.loops_raise (s : State) (c l k i : Nat) : (s.raise c l k i).loops = s.loops := by rfl
@[simp] theorem State.host_raise (s : State) (c l k i : Nat) : (s.raise c l k i).host = s.host := by rfl
@[simp] theorem State.jnl_raise (s : State) (c l k i : Nat) : (s.raise c l k i).jnl = s.jnl := by rfl
@[simp] theorem State.flash_raise (s : State) (c l k i : Nat) : (s.raise c l k i).flash = s.flash := by rfl
@[simp] theorem State.power_raise (s : State) (c l k i : Nat) : (s.raise c l k i).power = s.power := by rfl
@[simp] theorem State.time_raise (s : State) (c l k i : Nat) : (s.raise c l k i).time = s.time := by rfl
@[simp] theorem State.bb_raise (s : State) (c l k i : Nat) : (s.raise c l k i).bb = s.bb := by rfl
@[simp] theorem State.rings_raise (s : State) (c l k i : Nat) : (s.raise c l k i).rings = s.rings := by rfl
@[simp] theorem State.axes_raise (s : State) (c l k i : Nat) : (s.raise c l k i).axes = s.axes := by rfl
@[simp] theorem State.axShown_raise (s : State) (c l k i : Nat) : (s.raise c l k i).axShown = s.axShown := by rfl
@[simp] theorem State.axCycle_raise (s : State) (c l k i : Nat) : (s.raise c l k i).axCycle = s.axCycle := by rfl
@[simp] theorem State.lgs_raise (s : State) (c l k i : Nat) : (s.raise c l k i).lgs = s.lgs := by rfl
@[simp] theorem State.adcs_raise (s : State) (c l k i : Nat) : (s.raise c l k i).adcs = s.adcs := by rfl
@[simp] theorem State.adc_raise (s : State) (c l k i : Nat) : (s.raise c l k i).adc = s.adc := by rfl
@[simp] theorem State.fbs_raise (s : State) (c l k i : Nat) : (s.raise c l k i).fbs = s.fbs := by rfl
@[simp] theorem State.dma_raise (s : State) (c l k i : Nat) : (s.raise c l k i).dma = s.dma := by rfl
@[simp] theorem State.woad_raise (s : State) (c l k i : Nat) : (s.raise c l k i).woad = s.woad := by rfl
@[simp] theorem State.ind_raise (s : State) (c l k i : Nat) : (s.raise c l k i).ind = s.ind := by rfl
@[simp] theorem State.lsp_raise (s : State) (c l k i : Nat) : (s.raise c l k i).lsp = s.lsp := by rfl
@[simp] theorem State.bypassSet_raise (s : State) (c l k i : Nat) : (s.raise c l k i).bypassSet = s.bypassSet := by rfl
@[simp] theorem State.arb_raise (s : State) (c l k i : Nat) : (s.raise c l k i).arb = s.arb := by rfl
@[simp] theorem State.undef_raise (s : State) (c l k i : Nat) : (s.raise c l k i).undef = s.undef := by rfl
@[simp] theorem State.sent_raise (s : State) (c l k i : Nat) : (s.raise c l k i).sent = s.sent := by rfl
@[simp] theorem State.freeCtr_raise (s : State) (c l k i : Nat) : (s.raise c l k i).freeCtr = s.freeCtr := by rfl
@[simp] theorem State.cell_raise (s : State) (c l k i : Nat) (j : Nat) : (s.raise c l k i).cell j = s.cell j := by rfl
@[simp] theorem State.island_raise (s : State) (c l k i : Nat) (j : Nat) : (s.raise c l k i).island j = s.island j := by rfl
@[simp] theorem State.reg_raise (s : State) (c l k i : Nat) (j : Nat) : (s.raise c l k i).reg j = s.reg j := by rfl
@[simp] theorem State.queue_raise (s : State) (c l k i : Nat) (j : Nat) : (s.raise c l k i).queue j = s.queue j := by rfl
@[simp] theorem State.op_raise (s : State) (c l k i : Nat) (j : Nat) : (s.raise c l k i).op j = s.op j := by rfl
@[simp] theorem State.chan_raise (s : State) (c l k i : Nat) (j : Nat) : (s.raise c l k i).chan j = s.chan j := by rfl
@[simp] theorem State.qp_raise (s : State) (c l k i : Nat) (j : Nat) : (s.raise c l k i).qp j = s.qp j := by rfl
@[simp] theorem State.ramByte_raise (s : State) (c l k i : Nat) (j : Nat) : (s.raise c l k i).ramByte j = s.ramByte j := by rfl
@[simp] theorem State.ramWord_raise (s : State) (c l k i : Nat) (j : Nat) : (s.raise c l k i).ramWord j = s.ramWord j := by rfl
@[simp] theorem State.pending_drew (s : State) : (s.drew).pending = s.pending := by rfl
@[simp] theorem State.variant_drew (s : State) : (s.drew).variant = s.variant := by rfl
@[simp] theorem State.stepping_drew (s : State) : (s.drew).stepping = s.stepping := by rfl
@[simp] theorem State.mode_drew (s : State) : (s.drew).mode = s.mode := by rfl
@[simp] theorem State.modeCause_drew (s : State) : (s.drew).modeCause = s.modeCause := by rfl
@[simp] theorem State.modeCycle_drew (s : State) : (s.drew).modeCycle = s.modeCycle := by rfl
@[simp] theorem State.cycle_drew (s : State) : (s.drew).cycle = s.cycle := by rfl
@[simp] theorem State.regs_drew (s : State) : (s.drew).regs = s.regs := by rfl
@[simp] theorem State.chipWarn_drew (s : State) : (s.drew).chipWarn = s.chipWarn := by rfl
@[simp] theorem State.fbWarn_drew (s : State) : (s.drew).fbWarn = s.fbWarn := by rfl
@[simp] theorem State.ram_drew (s : State) : (s.drew).ram = s.ram := by rfl
@[simp] theorem State.flip1_drew (s : State) : (s.drew).flip1 = s.flip1 := by rfl
@[simp] theorem State.flip2_drew (s : State) : (s.drew).flip2 = s.flip2 := by rfl
@[simp] theorem State.islands_drew (s : State) : (s.drew).islands = s.islands := by rfl
@[simp] theorem State.image_drew (s : State) : (s.drew).image = s.image := by rfl
@[simp] theorem State.cells_drew (s : State) : (s.drew).cells = s.cells := by rfl
@[simp] theorem State.mad_drew (s : State) : (s.drew).mad = s.mad := by rfl
@[simp] theorem State.loops_drew (s : State) : (s.drew).loops = s.loops := by rfl
@[simp] theorem State.host_drew (s : State) : (s.drew).host = s.host := by rfl
@[simp] theorem State.jnl_drew (s : State) : (s.drew).jnl = s.jnl := by rfl
@[simp] theorem State.fox_drew (s : State) : (s.drew).fox = s.fox := by rfl
@[simp] theorem State.flash_drew (s : State) : (s.drew).flash = s.flash := by rfl
@[simp] theorem State.power_drew (s : State) : (s.drew).power = s.power := by rfl
@[simp] theorem State.time_drew (s : State) : (s.drew).time = s.time := by rfl
@[simp] theorem State.bb_drew (s : State) : (s.drew).bb = s.bb := by rfl
@[simp] theorem State.rings_drew (s : State) : (s.drew).rings = s.rings := by rfl
@[simp] theorem State.axes_drew (s : State) : (s.drew).axes = s.axes := by rfl
@[simp] theorem State.axShown_drew (s : State) : (s.drew).axShown = s.axShown := by rfl
@[simp] theorem State.axCycle_drew (s : State) : (s.drew).axCycle = s.axCycle := by rfl
@[simp] theorem State.lgs_drew (s : State) : (s.drew).lgs = s.lgs := by rfl
@[simp] theorem State.adcs_drew (s : State) : (s.drew).adcs = s.adcs := by rfl
@[simp] theorem State.adc_drew (s : State) : (s.drew).adc = s.adc := by rfl
@[simp] theorem State.fbs_drew (s : State) : (s.drew).fbs = s.fbs := by rfl
@[simp] theorem State.dma_drew (s : State) : (s.drew).dma = s.dma := by rfl
@[simp] theorem State.woad_drew (s : State) : (s.drew).woad = s.woad := by rfl
@[simp] theorem State.ind_drew (s : State) : (s.drew).ind = s.ind := by rfl
@[simp] theorem State.lsp_drew (s : State) : (s.drew).lsp = s.lsp := by rfl
@[simp] theorem State.bypassSet_drew (s : State) : (s.drew).bypassSet = s.bypassSet := by rfl
@[simp] theorem State.arb_drew (s : State) : (s.drew).arb = s.arb := by rfl
@[simp] theorem State.undef_drew (s : State) : (s.drew).undef = s.undef := by rfl
@[simp] theorem State.sent_drew (s : State) : (s.drew).sent = s.sent := by rfl
@[simp] theorem State.cell_drew (s : State) (j : Nat) : (s.drew).cell j = s.cell j := by rfl
@[simp] theorem State.island_drew (s : State) (j : Nat) : (s.drew).island j = s.island j := by rfl
@[simp] theorem State.reg_drew (s : State) (j : Nat) : (s.drew).reg j = s.reg j := by rfl
@[simp] theorem State.queue_drew (s : State) (j : Nat) : (s.drew).queue j = s.queue j := by rfl
@[simp] theorem State.op_drew (s : State) (j : Nat) : (s.drew).op j = s.op j := by rfl
@[simp] theorem State.chan_drew (s : State) (j : Nat) : (s.drew).chan j = s.chan j := by rfl
@[simp] theorem State.qp_drew (s : State) (j : Nat) : (s.drew).qp j = s.qp j := by rfl
@[simp] theorem State.ramByte_drew (s : State) (j : Nat) : (s.drew).ramByte j = s.ramByte j := by rfl
@[simp] theorem State.ramWord_drew (s : State) (j : Nat) : (s.drew).ramWord j = s.ramWord j := by rfl
@[simp] theorem State.pending_ramWrite (s : State) (a : Nat) (bs : List Byte) : (s.ramWrite a bs).pending = s.pending := by rfl
@[simp] theorem State.variant_ramWrite (s : State) (a : Nat) (bs : List Byte) : (s.ramWrite a bs).variant = s.variant := by rfl
@[simp] theorem State.stepping_ramWrite (s : State) (a : Nat) (bs : List Byte) : (s.ramWrite a bs).stepping = s.stepping := by rfl
@[simp] theorem State.mode_ramWrite (s : State) (a : Nat) (bs : List Byte) : (s.ramWrite a bs).mode = s.mode := by rfl
@[simp] theorem State.modeCause_ramWrite (s : State) (a : Nat) (bs : List Byte) : (s.ramWrite a bs).modeCause = s.modeCause := by rfl
@[simp] theorem State.modeCycle_ramWrite (s : State) (a : Nat) (bs : List Byte) : (s.ramWrite a bs).modeCycle = s.modeCycle := by rfl
@[simp] theorem State.cycle_ramWrite (s : State) (a : Nat) (bs : List Byte) : (s.ramWrite a bs).cycle = s.cycle := by rfl
@[simp] theorem State.regs_ramWrite (s : State) (a : Nat) (bs : List Byte) : (s.ramWrite a bs).regs = s.regs := by rfl
@[simp] theorem State.chipWarn_ramWrite (s : State) (a : Nat) (bs : List Byte) : (s.ramWrite a bs).chipWarn = s.chipWarn := by rfl
@[simp] theorem State.fbWarn_ramWrite (s : State) (a : Nat) (bs : List Byte) : (s.ramWrite a bs).fbWarn = s.fbWarn := by rfl
@[simp] theorem State.islands_ramWrite (s : State) (a : Nat) (bs : List Byte) : (s.ramWrite a bs).islands = s.islands := by rfl
@[simp] theorem State.image_ramWrite (s : State) (a : Nat) (bs : List Byte) : (s.ramWrite a bs).image = s.image := by rfl
@[simp] theorem State.cells_ramWrite (s : State) (a : Nat) (bs : List Byte) : (s.ramWrite a bs).cells = s.cells := by rfl
@[simp] theorem State.mad_ramWrite (s : State) (a : Nat) (bs : List Byte) : (s.ramWrite a bs).mad = s.mad := by rfl
@[simp] theorem State.loops_ramWrite (s : State) (a : Nat) (bs : List Byte) : (s.ramWrite a bs).loops = s.loops := by rfl
@[simp] theorem State.host_ramWrite (s : State) (a : Nat) (bs : List Byte) : (s.ramWrite a bs).host = s.host := by rfl
@[simp] theorem State.jnl_ramWrite (s : State) (a : Nat) (bs : List Byte) : (s.ramWrite a bs).jnl = s.jnl := by rfl
@[simp] theorem State.fox_ramWrite (s : State) (a : Nat) (bs : List Byte) : (s.ramWrite a bs).fox = s.fox := by rfl
@[simp] theorem State.flash_ramWrite (s : State) (a : Nat) (bs : List Byte) : (s.ramWrite a bs).flash = s.flash := by rfl
@[simp] theorem State.power_ramWrite (s : State) (a : Nat) (bs : List Byte) : (s.ramWrite a bs).power = s.power := by rfl
@[simp] theorem State.time_ramWrite (s : State) (a : Nat) (bs : List Byte) : (s.ramWrite a bs).time = s.time := by rfl
@[simp] theorem State.bb_ramWrite (s : State) (a : Nat) (bs : List Byte) : (s.ramWrite a bs).bb = s.bb := by rfl
@[simp] theorem State.rings_ramWrite (s : State) (a : Nat) (bs : List Byte) : (s.ramWrite a bs).rings = s.rings := by rfl
@[simp] theorem State.axes_ramWrite (s : State) (a : Nat) (bs : List Byte) : (s.ramWrite a bs).axes = s.axes := by rfl
@[simp] theorem State.axShown_ramWrite (s : State) (a : Nat) (bs : List Byte) : (s.ramWrite a bs).axShown = s.axShown := by rfl
@[simp] theorem State.axCycle_ramWrite (s : State) (a : Nat) (bs : List Byte) : (s.ramWrite a bs).axCycle = s.axCycle := by rfl
@[simp] theorem State.lgs_ramWrite (s : State) (a : Nat) (bs : List Byte) : (s.ramWrite a bs).lgs = s.lgs := by rfl
@[simp] theorem State.adcs_ramWrite (s : State) (a : Nat) (bs : List Byte) : (s.ramWrite a bs).adcs = s.adcs := by rfl
@[simp] theorem State.adc_ramWrite (s : State) (a : Nat) (bs : List Byte) : (s.ramWrite a bs).adc = s.adc := by rfl
@[simp] theorem State.fbs_ramWrite (s : State) (a : Nat) (bs : List Byte) : (s.ramWrite a bs).fbs = s.fbs := by rfl
@[simp] theorem State.dma_ramWrite (s : State) (a : Nat) (bs : List Byte) : (s.ramWrite a bs).dma = s.dma := by rfl
@[simp] theorem State.woad_ramWrite (s : State) (a : Nat) (bs : List Byte) : (s.ramWrite a bs).woad = s.woad := by rfl
@[simp] theorem State.ind_ramWrite (s : State) (a : Nat) (bs : List Byte) : (s.ramWrite a bs).ind = s.ind := by rfl
@[simp] theorem State.lsp_ramWrite (s : State) (a : Nat) (bs : List Byte) : (s.ramWrite a bs).lsp = s.lsp := by rfl
@[simp] theorem State.bypassSet_ramWrite (s : State) (a : Nat) (bs : List Byte) : (s.ramWrite a bs).bypassSet = s.bypassSet := by rfl
@[simp] theorem State.arb_ramWrite (s : State) (a : Nat) (bs : List Byte) : (s.ramWrite a bs).arb = s.arb := by rfl
@[simp] theorem State.undef_ramWrite (s : State) (a : Nat) (bs : List Byte) : (s.ramWrite a bs).undef = s.undef := by rfl
@[simp] theorem State.sent_ramWrite (s : State) (a : Nat) (bs : List Byte) : (s.ramWrite a bs).sent = s.sent := by rfl
@[simp] theorem State.freeCtr_ramWrite (s : State) (a : Nat) (bs : List Byte) : (s.ramWrite a bs).freeCtr = s.freeCtr := by rfl
@[simp] theorem State.cell_ramWrite (s : State) (a : Nat) (bs : List Byte) (j : Nat) : (s.ramWrite a bs).cell j = s.cell j := by rfl
@[simp] theorem State.island_ramWrite (s : State) (a : Nat) (bs : List Byte) (j : Nat) : (s.ramWrite a bs).island j = s.island j := by rfl
@[simp] theorem State.reg_ramWrite (s : State) (a : Nat) (bs : List Byte) (j : Nat) : (s.ramWrite a bs).reg j = s.reg j := by rfl
@[simp] theorem State.queue_ramWrite (s : State) (a : Nat) (bs : List Byte) (j : Nat) : (s.ramWrite a bs).queue j = s.queue j := by rfl
@[simp] theorem State.op_ramWrite (s : State) (a : Nat) (bs : List Byte) (j : Nat) : (s.ramWrite a bs).op j = s.op j := by rfl
@[simp] theorem State.chan_ramWrite (s : State) (a : Nat) (bs : List Byte) (j : Nat) : (s.ramWrite a bs).chan j = s.chan j := by rfl
@[simp] theorem State.qp_ramWrite (s : State) (a : Nat) (bs : List Byte) (j : Nat) : (s.ramWrite a bs).qp j = s.qp j := by rfl

/-! ### Fields of registers -/

/-- A write of a field is a write of its register. -/
theorem State.setFld_eq (s : State) (f : Fld) (v b : Nat) :
    s.setFld f v b = s.setReg (b + f.off) (BitVec.ofNat 32 (withBits (s.reg (b + f.off)).toNat f.hi f.lo v)) := rfl
theorem State.reg_setFld_other (s : State) (f : Fld) (v b j : Nat) (h : j ≠ b + f.off) :
    (s.setFld f v b).reg j = s.reg j := State.reg_setReg_other _ _ _ _ h
theorem State.reg_setBit_other (s : State) (f : Fld) (x : Bool) (b j : Nat) (h : j ≠ b + f.off) :
    (s.setBit f x b).reg j = s.reg j := State.reg_setReg_other _ _ _ _ h
theorem State.reg_addFld_other (s : State) (f : Fld) (n b j : Nat) (h : j ≠ b + f.off) :
    (s.addFld f n b).reg j = s.reg j := State.reg_setReg_other _ _ _ _ h
theorem State.reg_incFld_other (s : State) (f : Fld) (b j : Nat) (h : j ≠ b + f.off) :
    (s.incFld f b).reg j = s.reg j := State.reg_setReg_other _ _ _ _ h
theorem State.setReg_eq (s : State) (o : Nat) (w : Word) : s.setReg o w = { s with regs := (s.setReg o w).regs } := rfl
theorem State.setFld_rest (s : State) (f : Fld) (v b : Nat) :
    s.setFld f v b = { s with regs := (s.setFld f v b).regs } := rfl
theorem State.addFld_rest (s : State) (f : Fld) (k b : Nat) :
    s.addFld f k b = { s with regs := (s.addFld f k b).regs } := rfl
theorem State.incFld_rest (s : State) (f : Fld) (b : Nat) :
    s.incFld f b = { s with regs := (s.incFld f b).regs } := rfl
theorem State.setBit_rest (s : State) (f : Fld) (x : Bool) (b : Nat) :
    s.setBit f x b = { s with regs := (s.setBit f x b).regs } := rfl

@[simp] theorem State.pending_setFld (s : State) (f : Fld) (v b : Nat) : (s.setFld f v b).pending = s.pending := by rfl
@[simp] theorem State.variant_setFld (s : State) (f : Fld) (v b : Nat) : (s.setFld f v b).variant = s.variant := by rfl
@[simp] theorem State.stepping_setFld (s : State) (f : Fld) (v b : Nat) : (s.setFld f v b).stepping = s.stepping := by rfl
@[simp] theorem State.mode_setFld (s : State) (f : Fld) (v b : Nat) : (s.setFld f v b).mode = s.mode := by rfl
@[simp] theorem State.modeCause_setFld (s : State) (f : Fld) (v b : Nat) : (s.setFld f v b).modeCause = s.modeCause := by rfl
@[simp] theorem State.modeCycle_setFld (s : State) (f : Fld) (v b : Nat) : (s.setFld f v b).modeCycle = s.modeCycle := by rfl
@[simp] theorem State.cycle_setFld (s : State) (f : Fld) (v b : Nat) : (s.setFld f v b).cycle = s.cycle := by rfl
@[simp] theorem State.chipWarn_setFld (s : State) (f : Fld) (v b : Nat) : (s.setFld f v b).chipWarn = s.chipWarn := by rfl
@[simp] theorem State.fbWarn_setFld (s : State) (f : Fld) (v b : Nat) : (s.setFld f v b).fbWarn = s.fbWarn := by rfl
@[simp] theorem State.ram_setFld (s : State) (f : Fld) (v b : Nat) : (s.setFld f v b).ram = s.ram := by rfl
@[simp] theorem State.flip1_setFld (s : State) (f : Fld) (v b : Nat) : (s.setFld f v b).flip1 = s.flip1 := by rfl
@[simp] theorem State.flip2_setFld (s : State) (f : Fld) (v b : Nat) : (s.setFld f v b).flip2 = s.flip2 := by rfl
@[simp] theorem State.islands_setFld (s : State) (f : Fld) (v b : Nat) : (s.setFld f v b).islands = s.islands := by rfl
@[simp] theorem State.image_setFld (s : State) (f : Fld) (v b : Nat) : (s.setFld f v b).image = s.image := by rfl
@[simp] theorem State.cells_setFld (s : State) (f : Fld) (v b : Nat) : (s.setFld f v b).cells = s.cells := by rfl
@[simp] theorem State.mad_setFld (s : State) (f : Fld) (v b : Nat) : (s.setFld f v b).mad = s.mad := by rfl
@[simp] theorem State.loops_setFld (s : State) (f : Fld) (v b : Nat) : (s.setFld f v b).loops = s.loops := by rfl
@[simp] theorem State.host_setFld (s : State) (f : Fld) (v b : Nat) : (s.setFld f v b).host = s.host := by rfl
@[simp] theorem State.jnl_setFld (s : State) (f : Fld) (v b : Nat) : (s.setFld f v b).jnl = s.jnl := by rfl
@[simp] theorem State.fox_setFld (s : State) (f : Fld) (v b : Nat) : (s.setFld f v b).fox = s.fox := by rfl
@[simp] theorem State.flash_setFld (s : State) (f : Fld) (v b : Nat) : (s.setFld f v b).flash = s.flash := by rfl
@[simp] theorem State.power_setFld (s : State) (f : Fld) (v b : Nat) : (s.setFld f v b).power = s.power := by rfl
@[simp] theorem State.time_setFld (s : State) (f : Fld) (v b : Nat) : (s.setFld f v b).time = s.time := by rfl
@[simp] theorem State.bb_setFld (s : State) (f : Fld) (v b : Nat) : (s.setFld f v b).bb = s.bb := by rfl
@[simp] theorem State.rings_setFld (s : State) (f : Fld) (v b : Nat) : (s.setFld f v b).rings = s.rings := by rfl
@[simp] theorem State.axes_setFld (s : State) (f : Fld) (v b : Nat) : (s.setFld f v b).axes = s.axes := by rfl
@[simp] theorem State.axShown_setFld (s : State) (f : Fld) (v b : Nat) : (s.setFld f v b).axShown = s.axShown := by rfl
@[simp] theorem State.axCycle_setFld (s : State) (f : Fld) (v b : Nat) : (s.setFld f v b).axCycle = s.axCycle := by rfl
@[simp] theorem State.lgs_setFld (s : State) (f : Fld) (v b : Nat) : (s.setFld f v b).lgs = s.lgs := by rfl
@[simp] theorem State.adcs_setFld (s : State) (f : Fld) (v b : Nat) : (s.setFld f v b).adcs = s.adcs := by rfl
@[simp] theorem State.adc_setFld (s : State) (f : Fld) (v b : Nat) : (s.setFld f v b).adc = s.adc := by rfl
@[simp] theorem State.fbs_setFld (s : State) (f : Fld) (v b : Nat) : (s.setFld f v b).fbs = s.fbs := by rfl
@[simp] theorem State.dma_setFld (s : State) (f : Fld) (v b : Nat) : (s.setFld f v b).dma = s.dma := by rfl
@[simp] theorem State.woad_setFld (s : State) (f : Fld) (v b : Nat) : (s.setFld f v b).woad = s.woad := by rfl
@[simp] theorem State.ind_setFld (s : State) (f : Fld) (v b : Nat) : (s.setFld f v b).ind = s.ind := by rfl
@[simp] theorem State.lsp_setFld (s : State) (f : Fld) (v b : Nat) : (s.setFld f v b).lsp = s.lsp := by rfl
@[simp] theorem State.bypassSet_setFld (s : State) (f : Fld) (v b : Nat) : (s.setFld f v b).bypassSet = s.bypassSet := by rfl
@[simp] theorem State.arb_setFld (s : State) (f : Fld) (v b : Nat) : (s.setFld f v b).arb = s.arb := by rfl
@[simp] theorem State.undef_setFld (s : State) (f : Fld) (v b : Nat) : (s.setFld f v b).undef = s.undef := by rfl
@[simp] theorem State.sent_setFld (s : State) (f : Fld) (v b : Nat) : (s.setFld f v b).sent = s.sent := by rfl
@[simp] theorem State.freeCtr_setFld (s : State) (f : Fld) (v b : Nat) : (s.setFld f v b).freeCtr = s.freeCtr := by rfl
@[simp] theorem State.cell_setFld (s : State) (f : Fld) (v b : Nat) (j : Nat) : (s.setFld f v b).cell j = s.cell j := by rfl
@[simp] theorem State.island_setFld (s : State) (f : Fld) (v b : Nat) (j : Nat) : (s.setFld f v b).island j = s.island j := by rfl
@[simp] theorem State.queue_setFld (s : State) (f : Fld) (v b : Nat) (j : Nat) : (s.setFld f v b).queue j = s.queue j := by rfl
@[simp] theorem State.op_setFld (s : State) (f : Fld) (v b : Nat) (j : Nat) : (s.setFld f v b).op j = s.op j := by rfl
@[simp] theorem State.chan_setFld (s : State) (f : Fld) (v b : Nat) (j : Nat) : (s.setFld f v b).chan j = s.chan j := by rfl
@[simp] theorem State.qp_setFld (s : State) (f : Fld) (v b : Nat) (j : Nat) : (s.setFld f v b).qp j = s.qp j := by rfl
@[simp] theorem State.ramByte_setFld (s : State) (f : Fld) (v b : Nat) (j : Nat) : (s.setFld f v b).ramByte j = s.ramByte j := by rfl
@[simp] theorem State.ramWord_setFld (s : State) (f : Fld) (v b : Nat) (j : Nat) : (s.setFld f v b).ramWord j = s.ramWord j := by rfl
@[simp] theorem State.pending_setBit (s : State) (f : Fld) (x : Bool) (b : Nat) : (s.setBit f x b).pending = s.pending := by rfl
@[simp] theorem State.variant_setBit (s : State) (f : Fld) (x : Bool) (b : Nat) : (s.setBit f x b).variant = s.variant := by rfl
@[simp] theorem State.stepping_setBit (s : State) (f : Fld) (x : Bool) (b : Nat) : (s.setBit f x b).stepping = s.stepping := by rfl
@[simp] theorem State.mode_setBit (s : State) (f : Fld) (x : Bool) (b : Nat) : (s.setBit f x b).mode = s.mode := by rfl
@[simp] theorem State.modeCause_setBit (s : State) (f : Fld) (x : Bool) (b : Nat) : (s.setBit f x b).modeCause = s.modeCause := by rfl
@[simp] theorem State.modeCycle_setBit (s : State) (f : Fld) (x : Bool) (b : Nat) : (s.setBit f x b).modeCycle = s.modeCycle := by rfl
@[simp] theorem State.cycle_setBit (s : State) (f : Fld) (x : Bool) (b : Nat) : (s.setBit f x b).cycle = s.cycle := by rfl
@[simp] theorem State.chipWarn_setBit (s : State) (f : Fld) (x : Bool) (b : Nat) : (s.setBit f x b).chipWarn = s.chipWarn := by rfl
@[simp] theorem State.fbWarn_setBit (s : State) (f : Fld) (x : Bool) (b : Nat) : (s.setBit f x b).fbWarn = s.fbWarn := by rfl
@[simp] theorem State.ram_setBit (s : State) (f : Fld) (x : Bool) (b : Nat) : (s.setBit f x b).ram = s.ram := by rfl
@[simp] theorem State.flip1_setBit (s : State) (f : Fld) (x : Bool) (b : Nat) : (s.setBit f x b).flip1 = s.flip1 := by rfl
@[simp] theorem State.flip2_setBit (s : State) (f : Fld) (x : Bool) (b : Nat) : (s.setBit f x b).flip2 = s.flip2 := by rfl
@[simp] theorem State.islands_setBit (s : State) (f : Fld) (x : Bool) (b : Nat) : (s.setBit f x b).islands = s.islands := by rfl
@[simp] theorem State.image_setBit (s : State) (f : Fld) (x : Bool) (b : Nat) : (s.setBit f x b).image = s.image := by rfl
@[simp] theorem State.cells_setBit (s : State) (f : Fld) (x : Bool) (b : Nat) : (s.setBit f x b).cells = s.cells := by rfl
@[simp] theorem State.mad_setBit (s : State) (f : Fld) (x : Bool) (b : Nat) : (s.setBit f x b).mad = s.mad := by rfl
@[simp] theorem State.loops_setBit (s : State) (f : Fld) (x : Bool) (b : Nat) : (s.setBit f x b).loops = s.loops := by rfl
@[simp] theorem State.host_setBit (s : State) (f : Fld) (x : Bool) (b : Nat) : (s.setBit f x b).host = s.host := by rfl
@[simp] theorem State.jnl_setBit (s : State) (f : Fld) (x : Bool) (b : Nat) : (s.setBit f x b).jnl = s.jnl := by rfl
@[simp] theorem State.fox_setBit (s : State) (f : Fld) (x : Bool) (b : Nat) : (s.setBit f x b).fox = s.fox := by rfl
@[simp] theorem State.flash_setBit (s : State) (f : Fld) (x : Bool) (b : Nat) : (s.setBit f x b).flash = s.flash := by rfl
@[simp] theorem State.power_setBit (s : State) (f : Fld) (x : Bool) (b : Nat) : (s.setBit f x b).power = s.power := by rfl
@[simp] theorem State.time_setBit (s : State) (f : Fld) (x : Bool) (b : Nat) : (s.setBit f x b).time = s.time := by rfl
@[simp] theorem State.bb_setBit (s : State) (f : Fld) (x : Bool) (b : Nat) : (s.setBit f x b).bb = s.bb := by rfl
@[simp] theorem State.rings_setBit (s : State) (f : Fld) (x : Bool) (b : Nat) : (s.setBit f x b).rings = s.rings := by rfl
@[simp] theorem State.axes_setBit (s : State) (f : Fld) (x : Bool) (b : Nat) : (s.setBit f x b).axes = s.axes := by rfl
@[simp] theorem State.axShown_setBit (s : State) (f : Fld) (x : Bool) (b : Nat) : (s.setBit f x b).axShown = s.axShown := by rfl
@[simp] theorem State.axCycle_setBit (s : State) (f : Fld) (x : Bool) (b : Nat) : (s.setBit f x b).axCycle = s.axCycle := by rfl
@[simp] theorem State.lgs_setBit (s : State) (f : Fld) (x : Bool) (b : Nat) : (s.setBit f x b).lgs = s.lgs := by rfl
@[simp] theorem State.adcs_setBit (s : State) (f : Fld) (x : Bool) (b : Nat) : (s.setBit f x b).adcs = s.adcs := by rfl
@[simp] theorem State.adc_setBit (s : State) (f : Fld) (x : Bool) (b : Nat) : (s.setBit f x b).adc = s.adc := by rfl
@[simp] theorem State.fbs_setBit (s : State) (f : Fld) (x : Bool) (b : Nat) : (s.setBit f x b).fbs = s.fbs := by rfl
@[simp] theorem State.dma_setBit (s : State) (f : Fld) (x : Bool) (b : Nat) : (s.setBit f x b).dma = s.dma := by rfl
@[simp] theorem State.woad_setBit (s : State) (f : Fld) (x : Bool) (b : Nat) : (s.setBit f x b).woad = s.woad := by rfl
@[simp] theorem State.ind_setBit (s : State) (f : Fld) (x : Bool) (b : Nat) : (s.setBit f x b).ind = s.ind := by rfl
@[simp] theorem State.lsp_setBit (s : State) (f : Fld) (x : Bool) (b : Nat) : (s.setBit f x b).lsp = s.lsp := by rfl
@[simp] theorem State.bypassSet_setBit (s : State) (f : Fld) (x : Bool) (b : Nat) : (s.setBit f x b).bypassSet = s.bypassSet := by rfl
@[simp] theorem State.arb_setBit (s : State) (f : Fld) (x : Bool) (b : Nat) : (s.setBit f x b).arb = s.arb := by rfl
@[simp] theorem State.undef_setBit (s : State) (f : Fld) (x : Bool) (b : Nat) : (s.setBit f x b).undef = s.undef := by rfl
@[simp] theorem State.sent_setBit (s : State) (f : Fld) (x : Bool) (b : Nat) : (s.setBit f x b).sent = s.sent := by rfl
@[simp] theorem State.freeCtr_setBit (s : State) (f : Fld) (x : Bool) (b : Nat) : (s.setBit f x b).freeCtr = s.freeCtr := by rfl
@[simp] theorem State.cell_setBit (s : State) (f : Fld) (x : Bool) (b : Nat) (j : Nat) : (s.setBit f x b).cell j = s.cell j := by rfl
@[simp] theorem State.island_setBit (s : State) (f : Fld) (x : Bool) (b : Nat) (j : Nat) : (s.setBit f x b).island j = s.island j := by rfl
@[simp] theorem State.queue_setBit (s : State) (f : Fld) (x : Bool) (b : Nat) (j : Nat) : (s.setBit f x b).queue j = s.queue j := by rfl
@[simp] theorem State.op_setBit (s : State) (f : Fld) (x : Bool) (b : Nat) (j : Nat) : (s.setBit f x b).op j = s.op j := by rfl
@[simp] theorem State.chan_setBit (s : State) (f : Fld) (x : Bool) (b : Nat) (j : Nat) : (s.setBit f x b).chan j = s.chan j := by rfl
@[simp] theorem State.qp_setBit (s : State) (f : Fld) (x : Bool) (b : Nat) (j : Nat) : (s.setBit f x b).qp j = s.qp j := by rfl
@[simp] theorem State.ramByte_setBit (s : State) (f : Fld) (x : Bool) (b : Nat) (j : Nat) : (s.setBit f x b).ramByte j = s.ramByte j := by rfl
@[simp] theorem State.ramWord_setBit (s : State) (f : Fld) (x : Bool) (b : Nat) (j : Nat) : (s.setBit f x b).ramWord j = s.ramWord j := by rfl
@[simp] theorem State.pending_addFld (s : State) (f : Fld) (k b : Nat) : (s.addFld f k b).pending = s.pending := by rfl
@[simp] theorem State.variant_addFld (s : State) (f : Fld) (k b : Nat) : (s.addFld f k b).variant = s.variant := by rfl
@[simp] theorem State.stepping_addFld (s : State) (f : Fld) (k b : Nat) : (s.addFld f k b).stepping = s.stepping := by rfl
@[simp] theorem State.mode_addFld (s : State) (f : Fld) (k b : Nat) : (s.addFld f k b).mode = s.mode := by rfl
@[simp] theorem State.modeCause_addFld (s : State) (f : Fld) (k b : Nat) : (s.addFld f k b).modeCause = s.modeCause := by rfl
@[simp] theorem State.modeCycle_addFld (s : State) (f : Fld) (k b : Nat) : (s.addFld f k b).modeCycle = s.modeCycle := by rfl
@[simp] theorem State.cycle_addFld (s : State) (f : Fld) (k b : Nat) : (s.addFld f k b).cycle = s.cycle := by rfl
@[simp] theorem State.chipWarn_addFld (s : State) (f : Fld) (k b : Nat) : (s.addFld f k b).chipWarn = s.chipWarn := by rfl
@[simp] theorem State.fbWarn_addFld (s : State) (f : Fld) (k b : Nat) : (s.addFld f k b).fbWarn = s.fbWarn := by rfl
@[simp] theorem State.ram_addFld (s : State) (f : Fld) (k b : Nat) : (s.addFld f k b).ram = s.ram := by rfl
@[simp] theorem State.flip1_addFld (s : State) (f : Fld) (k b : Nat) : (s.addFld f k b).flip1 = s.flip1 := by rfl
@[simp] theorem State.flip2_addFld (s : State) (f : Fld) (k b : Nat) : (s.addFld f k b).flip2 = s.flip2 := by rfl
@[simp] theorem State.islands_addFld (s : State) (f : Fld) (k b : Nat) : (s.addFld f k b).islands = s.islands := by rfl
@[simp] theorem State.image_addFld (s : State) (f : Fld) (k b : Nat) : (s.addFld f k b).image = s.image := by rfl
@[simp] theorem State.cells_addFld (s : State) (f : Fld) (k b : Nat) : (s.addFld f k b).cells = s.cells := by rfl
@[simp] theorem State.mad_addFld (s : State) (f : Fld) (k b : Nat) : (s.addFld f k b).mad = s.mad := by rfl
@[simp] theorem State.loops_addFld (s : State) (f : Fld) (k b : Nat) : (s.addFld f k b).loops = s.loops := by rfl
@[simp] theorem State.host_addFld (s : State) (f : Fld) (k b : Nat) : (s.addFld f k b).host = s.host := by rfl
@[simp] theorem State.jnl_addFld (s : State) (f : Fld) (k b : Nat) : (s.addFld f k b).jnl = s.jnl := by rfl
@[simp] theorem State.fox_addFld (s : State) (f : Fld) (k b : Nat) : (s.addFld f k b).fox = s.fox := by rfl
@[simp] theorem State.flash_addFld (s : State) (f : Fld) (k b : Nat) : (s.addFld f k b).flash = s.flash := by rfl
@[simp] theorem State.power_addFld (s : State) (f : Fld) (k b : Nat) : (s.addFld f k b).power = s.power := by rfl
@[simp] theorem State.time_addFld (s : State) (f : Fld) (k b : Nat) : (s.addFld f k b).time = s.time := by rfl
@[simp] theorem State.bb_addFld (s : State) (f : Fld) (k b : Nat) : (s.addFld f k b).bb = s.bb := by rfl
@[simp] theorem State.rings_addFld (s : State) (f : Fld) (k b : Nat) : (s.addFld f k b).rings = s.rings := by rfl
@[simp] theorem State.axes_addFld (s : State) (f : Fld) (k b : Nat) : (s.addFld f k b).axes = s.axes := by rfl
@[simp] theorem State.axShown_addFld (s : State) (f : Fld) (k b : Nat) : (s.addFld f k b).axShown = s.axShown := by rfl
@[simp] theorem State.axCycle_addFld (s : State) (f : Fld) (k b : Nat) : (s.addFld f k b).axCycle = s.axCycle := by rfl
@[simp] theorem State.lgs_addFld (s : State) (f : Fld) (k b : Nat) : (s.addFld f k b).lgs = s.lgs := by rfl
@[simp] theorem State.adcs_addFld (s : State) (f : Fld) (k b : Nat) : (s.addFld f k b).adcs = s.adcs := by rfl
@[simp] theorem State.adc_addFld (s : State) (f : Fld) (k b : Nat) : (s.addFld f k b).adc = s.adc := by rfl
@[simp] theorem State.fbs_addFld (s : State) (f : Fld) (k b : Nat) : (s.addFld f k b).fbs = s.fbs := by rfl
@[simp] theorem State.dma_addFld (s : State) (f : Fld) (k b : Nat) : (s.addFld f k b).dma = s.dma := by rfl
@[simp] theorem State.woad_addFld (s : State) (f : Fld) (k b : Nat) : (s.addFld f k b).woad = s.woad := by rfl
@[simp] theorem State.ind_addFld (s : State) (f : Fld) (k b : Nat) : (s.addFld f k b).ind = s.ind := by rfl
@[simp] theorem State.lsp_addFld (s : State) (f : Fld) (k b : Nat) : (s.addFld f k b).lsp = s.lsp := by rfl
@[simp] theorem State.bypassSet_addFld (s : State) (f : Fld) (k b : Nat) : (s.addFld f k b).bypassSet = s.bypassSet := by rfl
@[simp] theorem State.arb_addFld (s : State) (f : Fld) (k b : Nat) : (s.addFld f k b).arb = s.arb := by rfl
@[simp] theorem State.undef_addFld (s : State) (f : Fld) (k b : Nat) : (s.addFld f k b).undef = s.undef := by rfl
@[simp] theorem State.sent_addFld (s : State) (f : Fld) (k b : Nat) : (s.addFld f k b).sent = s.sent := by rfl
@[simp] theorem State.freeCtr_addFld (s : State) (f : Fld) (k b : Nat) : (s.addFld f k b).freeCtr = s.freeCtr := by rfl
@[simp] theorem State.cell_addFld (s : State) (f : Fld) (k b : Nat) (j : Nat) : (s.addFld f k b).cell j = s.cell j := by rfl
@[simp] theorem State.island_addFld (s : State) (f : Fld) (k b : Nat) (j : Nat) : (s.addFld f k b).island j = s.island j := by rfl
@[simp] theorem State.queue_addFld (s : State) (f : Fld) (k b : Nat) (j : Nat) : (s.addFld f k b).queue j = s.queue j := by rfl
@[simp] theorem State.op_addFld (s : State) (f : Fld) (k b : Nat) (j : Nat) : (s.addFld f k b).op j = s.op j := by rfl
@[simp] theorem State.chan_addFld (s : State) (f : Fld) (k b : Nat) (j : Nat) : (s.addFld f k b).chan j = s.chan j := by rfl
@[simp] theorem State.qp_addFld (s : State) (f : Fld) (k b : Nat) (j : Nat) : (s.addFld f k b).qp j = s.qp j := by rfl
@[simp] theorem State.ramByte_addFld (s : State) (f : Fld) (k b : Nat) (j : Nat) : (s.addFld f k b).ramByte j = s.ramByte j := by rfl
@[simp] theorem State.ramWord_addFld (s : State) (f : Fld) (k b : Nat) (j : Nat) : (s.addFld f k b).ramWord j = s.ramWord j := by rfl
@[simp] theorem State.pending_incFld (s : State) (f : Fld) (b : Nat) : (s.incFld f b).pending = s.pending := by rfl
@[simp] theorem State.variant_incFld (s : State) (f : Fld) (b : Nat) : (s.incFld f b).variant = s.variant := by rfl
@[simp] theorem State.stepping_incFld (s : State) (f : Fld) (b : Nat) : (s.incFld f b).stepping = s.stepping := by rfl
@[simp] theorem State.mode_incFld (s : State) (f : Fld) (b : Nat) : (s.incFld f b).mode = s.mode := by rfl
@[simp] theorem State.modeCause_incFld (s : State) (f : Fld) (b : Nat) : (s.incFld f b).modeCause = s.modeCause := by rfl
@[simp] theorem State.modeCycle_incFld (s : State) (f : Fld) (b : Nat) : (s.incFld f b).modeCycle = s.modeCycle := by rfl
@[simp] theorem State.cycle_incFld (s : State) (f : Fld) (b : Nat) : (s.incFld f b).cycle = s.cycle := by rfl
@[simp] theorem State.chipWarn_incFld (s : State) (f : Fld) (b : Nat) : (s.incFld f b).chipWarn = s.chipWarn := by rfl
@[simp] theorem State.fbWarn_incFld (s : State) (f : Fld) (b : Nat) : (s.incFld f b).fbWarn = s.fbWarn := by rfl
@[simp] theorem State.ram_incFld (s : State) (f : Fld) (b : Nat) : (s.incFld f b).ram = s.ram := by rfl
@[simp] theorem State.flip1_incFld (s : State) (f : Fld) (b : Nat) : (s.incFld f b).flip1 = s.flip1 := by rfl
@[simp] theorem State.flip2_incFld (s : State) (f : Fld) (b : Nat) : (s.incFld f b).flip2 = s.flip2 := by rfl
@[simp] theorem State.islands_incFld (s : State) (f : Fld) (b : Nat) : (s.incFld f b).islands = s.islands := by rfl
@[simp] theorem State.image_incFld (s : State) (f : Fld) (b : Nat) : (s.incFld f b).image = s.image := by rfl
@[simp] theorem State.cells_incFld (s : State) (f : Fld) (b : Nat) : (s.incFld f b).cells = s.cells := by rfl
@[simp] theorem State.mad_incFld (s : State) (f : Fld) (b : Nat) : (s.incFld f b).mad = s.mad := by rfl
@[simp] theorem State.loops_incFld (s : State) (f : Fld) (b : Nat) : (s.incFld f b).loops = s.loops := by rfl
@[simp] theorem State.host_incFld (s : State) (f : Fld) (b : Nat) : (s.incFld f b).host = s.host := by rfl
@[simp] theorem State.jnl_incFld (s : State) (f : Fld) (b : Nat) : (s.incFld f b).jnl = s.jnl := by rfl
@[simp] theorem State.fox_incFld (s : State) (f : Fld) (b : Nat) : (s.incFld f b).fox = s.fox := by rfl
@[simp] theorem State.flash_incFld (s : State) (f : Fld) (b : Nat) : (s.incFld f b).flash = s.flash := by rfl
@[simp] theorem State.power_incFld (s : State) (f : Fld) (b : Nat) : (s.incFld f b).power = s.power := by rfl
@[simp] theorem State.time_incFld (s : State) (f : Fld) (b : Nat) : (s.incFld f b).time = s.time := by rfl
@[simp] theorem State.bb_incFld (s : State) (f : Fld) (b : Nat) : (s.incFld f b).bb = s.bb := by rfl
@[simp] theorem State.rings_incFld (s : State) (f : Fld) (b : Nat) : (s.incFld f b).rings = s.rings := by rfl
@[simp] theorem State.axes_incFld (s : State) (f : Fld) (b : Nat) : (s.incFld f b).axes = s.axes := by rfl
@[simp] theorem State.axShown_incFld (s : State) (f : Fld) (b : Nat) : (s.incFld f b).axShown = s.axShown := by rfl
@[simp] theorem State.axCycle_incFld (s : State) (f : Fld) (b : Nat) : (s.incFld f b).axCycle = s.axCycle := by rfl
@[simp] theorem State.lgs_incFld (s : State) (f : Fld) (b : Nat) : (s.incFld f b).lgs = s.lgs := by rfl
@[simp] theorem State.adcs_incFld (s : State) (f : Fld) (b : Nat) : (s.incFld f b).adcs = s.adcs := by rfl
@[simp] theorem State.adc_incFld (s : State) (f : Fld) (b : Nat) : (s.incFld f b).adc = s.adc := by rfl
@[simp] theorem State.fbs_incFld (s : State) (f : Fld) (b : Nat) : (s.incFld f b).fbs = s.fbs := by rfl
@[simp] theorem State.dma_incFld (s : State) (f : Fld) (b : Nat) : (s.incFld f b).dma = s.dma := by rfl
@[simp] theorem State.woad_incFld (s : State) (f : Fld) (b : Nat) : (s.incFld f b).woad = s.woad := by rfl
@[simp] theorem State.ind_incFld (s : State) (f : Fld) (b : Nat) : (s.incFld f b).ind = s.ind := by rfl
@[simp] theorem State.lsp_incFld (s : State) (f : Fld) (b : Nat) : (s.incFld f b).lsp = s.lsp := by rfl
@[simp] theorem State.bypassSet_incFld (s : State) (f : Fld) (b : Nat) : (s.incFld f b).bypassSet = s.bypassSet := by rfl
@[simp] theorem State.arb_incFld (s : State) (f : Fld) (b : Nat) : (s.incFld f b).arb = s.arb := by rfl
@[simp] theorem State.undef_incFld (s : State) (f : Fld) (b : Nat) : (s.incFld f b).undef = s.undef := by rfl
@[simp] theorem State.sent_incFld (s : State) (f : Fld) (b : Nat) : (s.incFld f b).sent = s.sent := by rfl
@[simp] theorem State.freeCtr_incFld (s : State) (f : Fld) (b : Nat) : (s.incFld f b).freeCtr = s.freeCtr := by rfl
@[simp] theorem State.cell_incFld (s : State) (f : Fld) (b : Nat) (j : Nat) : (s.incFld f b).cell j = s.cell j := by rfl
@[simp] theorem State.island_incFld (s : State) (f : Fld) (b : Nat) (j : Nat) : (s.incFld f b).island j = s.island j := by rfl
@[simp] theorem State.queue_incFld (s : State) (f : Fld) (b : Nat) (j : Nat) : (s.incFld f b).queue j = s.queue j := by rfl
@[simp] theorem State.op_incFld (s : State) (f : Fld) (b : Nat) (j : Nat) : (s.incFld f b).op j = s.op j := by rfl
@[simp] theorem State.chan_incFld (s : State) (f : Fld) (b : Nat) (j : Nat) : (s.incFld f b).chan j = s.chan j := by rfl
@[simp] theorem State.qp_incFld (s : State) (f : Fld) (b : Nat) (j : Nat) : (s.incFld f b).qp j = s.qp j := by rfl
@[simp] theorem State.ramByte_incFld (s : State) (f : Fld) (b : Nat) (j : Nat) : (s.incFld f b).ramByte j = s.ramByte j := by rfl
@[simp] theorem State.ramWord_incFld (s : State) (f : Fld) (b : Nat) (j : Nat) : (s.incFld f b).ramWord j = s.ramWord j := by rfl

/-! ### Equality of states, field by field -/

theorem State.ext_fields {s t : State} (h1 : s.pending = t.pending) (h2 : s.variant = t.variant) (h3 : s.stepping = t.stepping)
  (h4 : s.mode = t.mode) (h5 : s.modeCause = t.modeCause) (h6 : s.modeCycle = t.modeCycle) (h7 : s.cycle = t.cycle) (h8 : s.regs = t.regs)
  (h9 : s.chipWarn = t.chipWarn) (h10 : s.fbWarn = t.fbWarn) (h11 : s.ram = t.ram) (h12 : s.flip1 = t.flip1) (h13 : s.flip2 = t.flip2)
  (h14 : s.islands = t.islands) (h15 : s.image = t.image) (h16 : s.cells = t.cells) (h17 : s.mad = t.mad) (h18 : s.loops = t.loops)
  (h19 : s.host = t.host) (h20 : s.jnl = t.jnl) (h21 : s.fox = t.fox) (h22 : s.flash = t.flash) (h23 : s.power = t.power)
  (h24 : s.time = t.time) (h25 : s.bb = t.bb) (h26 : s.rings = t.rings) (h27 : s.axes = t.axes) (h28 : s.axShown = t.axShown)
  (h29 : s.axCycle = t.axCycle) (h30 : s.lgs = t.lgs) (h31 : s.adcs = t.adcs) (h32 : s.adc = t.adc) (h33 : s.fbs = t.fbs)
  (h34 : s.dma = t.dma) (h35 : s.woad = t.woad) (h36 : s.ind = t.ind) (h37 : s.lsp = t.lsp) (h38 : s.bypassSet = t.bypassSet)
  (h39 : s.arb = t.arb) (h40 : s.undef = t.undef) (h41 : s.sent = t.sent) (h42 : s.freeCtr = t.freeCtr) : s = t := by
  cases s; cases t; simp only at *; subst_vars; rfl

end Sys2Proof.Machine
end

