-- ==== Sys2Proof/Laws/Memory.lean ====
section
/-! SUPPORT. The laws of memory: a read after a write, and that every memory operation keeps the canonical form. -/

namespace Sys2Proof.Machine

theorem ramPut_get (m : List Host.Cell) (a : Nat) (bs : List Byte) (j : Nat) :
    Tab.get (0#8 : Byte) (ramPut m a bs) j
      = if a ≤ j ∧ j < a + bs.length then (bs[j - a]?).getD 0#8 else Tab.get (0#8 : Byte) m j := by
  induction bs generalizing m a with
  | nil => rw [ramPut, if_neg (by simp only [List.length_nil]; omega)]
  | cons b r ih =>
    simp only [ramPut, ih, List.length_cons, Tab.get_put]
    by_cases h1 : a + 1 ≤ j ∧ j < a + 1 + r.length
    · have h2 : a ≤ j ∧ j < a + (r.length + 1) := by omega
      have h3 : j - a = (j - (a + 1)) + 1 := by omega
      rw [if_pos h1, if_pos h2, h3, List.getElem?_cons_succ]
    · rw [if_neg h1]
      by_cases h4 : j = a
      · rw [if_pos h4, if_pos (by omega), h4, Nat.sub_self]; rfl
      · rw [if_neg h4, if_neg (by omega)]

/-- A byte reads as what was written there, and every other as before. -/
theorem State.ramByte_ramWrite (s : State) (a : Nat) (bs : List Byte) (j : Nat) :
    (s.ramWrite a bs).ramByte j
      = if a ≤ j ∧ j < a + bs.length then (bs[j - a]?).getD 0#8 else s.ramByte j := ramPut_get _ _ _ _

theorem State.ramByte_ramSetWord_other (s : State) (a j : Nat) (w : Word) (h : j < a ∨ a + 4 ≤ j) :
    (s.ramSetWord a w).ramByte j = s.ramByte j := by
  have : ¬ (a ≤ j ∧ j < a + 4) := by omega
  simp [State.ramSetWord, State.ramByte_ramWrite, wordBytes, this]

theorem State.ramWord_ramSetWord_same (s : State) (a : Nat) (w : Word) : (s.ramSetWord a w).ramWord a = w := by
  have h0 : (s.ramSetWord a w).ramByte a = w.extractLsb' 0 8 := by
    simp [State.ramSetWord, State.ramByte_ramWrite, wordBytes]
  have h1 : (s.ramSetWord a w).ramByte (a + 1) = w.extractLsb' 8 8 := by
    simp [State.ramSetWord, State.ramByte_ramWrite, wordBytes]
  have h2 : (s.ramSetWord a w).ramByte (a + 2) = w.extractLsb' 16 8 := by
    simp [State.ramSetWord, State.ramByte_ramWrite, wordBytes]
  have h3 : (s.ramSetWord a w).ramByte (a + 3) = w.extractLsb' 24 8 := by
    simp [State.ramSetWord, State.ramByte_ramWrite, wordBytes]
  unfold State.ramWord
  rw [h0, h1, h2, h3]
  ext i hi
  simp only [BitVec.getElem_append, BitVec.getElem_extractLsb']
  by_cases c1 : i < 8
  · simp [c1, ← BitVec.getLsbD_eq_getElem]
  · by_cases c2 : i < 16
    · have e2 : i - 8 < 8 := by omega
      have : 8 + (i - 8) = i := by omega
      simp [c1, e2, this, ← BitVec.getLsbD_eq_getElem]
    · by_cases c3 : i < 24
      · have e2 : ¬ i - 8 < 8 := by omega
        have e3 : i - 8 - 8 < 8 := by omega
        have : 16 + (i - 8 - 8) = i := by omega
        simp [c1, e2, e3, this, ← BitVec.getLsbD_eq_getElem]
      · have e2 : ¬ i - 8 < 8 := by omega
        have e3 : ¬ i - 8 - 8 < 8 := by omega
        have : 24 + (i - 8 - 8 - 8) = i := by omega
        simp [c1, e2, e3, this, ← BitVec.getLsbD_eq_getElem]

theorem State.ramWord_ramSetWord_other (s : State) (a j : Nat) (w : Word) (h : j + 4 ≤ a ∨ a + 4 ≤ j) :
    (s.ramSetWord a w).ramWord j = s.ramWord j := by
  unfold State.ramWord
  rw [State.ramByte_ramSetWord_other _ _ _ _ (by omega), State.ramByte_ramSetWord_other _ _ _ _ (by omega),
    State.ramByte_ramSetWord_other _ _ _ _ (by omega), State.ramByte_ramSetWord_other _ _ _ _ (by omega)]

/-- Memory operations keep the canonical form. -/
theorem ramPut_wf (m : List Host.Cell) (a : Nat) (bs : List Byte) (h : Memory.wf m = true) :
    Memory.wf (ramPut m a bs) = true := by
  induction bs generalizing m a with
  | nil => exact h
  | cons b r ih => exact ih _ _ (Tab.wf_put _ _ _ _ h)

theorem State.memWf_ramWrite (s : State) (a : Nat) (bs : List Byte) (h : s.memWf = true) :
    (s.ramWrite a bs).memWf = true := ramPut_wf _ _ _ h
theorem State.memWf_ramSetWord (s : State) (a : Nat) (w : Word) (h : s.memWf = true) :
    (s.ramSetWord a w).memWf = true := ramPut_wf _ _ _ h
/-! ### What a store does to the axes and to the descriptors -/

/-- A block word changes an axis alone. -/
theorem State.blockPut_eq (s : State) (w : Word) (b : BlockWord) : s.blockPut w b = { s with axes := (s.blockPut w b).axes } := by
  cases b <;> rfl
theorem State.blockStore_eq (s : State) (a : Nat) (w : Word) : s.blockStore a w = { s with axes := (s.blockStore a w).axes } := by
  unfold State.blockStore
  cases s.blockAt a with
  | none => rfl
  | some b => exact s.blockPut_eq w b
theorem State.blockStores_eq (l : List (Nat × Word)) (s : State) : s.blockStores l = { s with axes := (s.blockStores l).axes } := by
  induction l generalizing s with
  | nil => rfl
  | cons e r ih =>
    have h : s.blockStores (e :: r) = (s.blockStore e.1 e.2).blockStores r := rfl
    rw [h, ih, State.blockStore_eq]
theorem State.blockWrite_eq (s : State) (a : Nat) (bs : List Byte) : s.blockWrite a bs = { s with axes := (s.blockWrite a bs).axes } := by
  unfold State.blockWrite
  induction wordsIn a bs.length generalizing s with
  | nil => rfl
  | cons w r ih =>
    rw [List.foldl_cons, ih]
    cases s.blockAt w with
    | none => rfl
    | some b => simp only; rw [State.blockPut_eq]

/-- A word that belongs to no block leaves the axes. -/
theorem State.blockStore_none (s : State) (a : Nat) (w : Word) (h : s.blockAt a = none) : s.blockStore a w = s := by
  simp [State.blockStore, h]
theorem State.blockStores_none (l : List (Nat × Word)) (s : State) (h : ∀ x ∈ l, s.blockAt x.1 = none) : s.blockStores l = s := by
  induction l generalizing s with
  | nil => rfl
  | cons e r ih =>
    have hh : s.blockStores (e :: r) = (s.blockStore e.1 e.2).blockStores r := rfl
    rw [hh, State.blockStore_none _ _ _ (h e (by simp)), ih _ (fun x hx => h x (by simp [hx]))]

theorem State.memWf_blockStore (s : State) (a : Nat) (w : Word) : (s.blockStore a w).memWf = s.memWf := by
  rw [State.blockStore_eq]; rfl
theorem State.memWf_blockWrite (s : State) (a : Nat) (bs : List Byte) : (s.blockWrite a bs).memWf = s.memWf := by
  rw [State.blockWrite_eq]; rfl

theorem State.memWf_writeTrig (s : State) (n : Nat) (w : TrigDest × Word) (h : s.memWf = true) :
    (s.writeTrig n w).memWf = true := by
  unfold State.writeTrig; split
  · exact h
  · rw [State.memWf_blockStore]; exact State.memWf_ramSetWord _ _ _ h
theorem State.memWf_folded {α : Type} (l : List α) (f : State → α → State)
    (hf : ∀ s x, s.memWf = true → (f s x).memWf = true) (s : State) (h : s.memWf = true) : (l.foldl f s).memWf = true := by
  induction l generalizing s with
  | nil => exact h
  | cons e r ih => exact ih _ (hf _ _ h)
theorem State.memWf_descWrite (s : State) (a : Nat) (bs : List Byte) (h : s.memWf = true) :
    (s.descWrite a bs).memWf = true := by
  unfold State.descWrite
  split
  · exact State.memWf_ramWrite _ _ _ h
  · split
    · exact State.memWf_ramWrite s a bs h
    · apply State.memWf_folded _ _ _ _ h
      intro s e h
      split
      · exact h
      · exact State.memWf_ramWrite _ _ _ h
theorem State.memWf_portWrite (s : State) (a : Nat) (bs : List Byte) (h : s.memWf = true) :
    (s.portWrite a bs).memWf = true := by
  unfold State.portWrite; split
  · exact h
  · rw [State.memWf_blockWrite]; exact State.memWf_descWrite _ _ _ h
theorem State.memWf_stores (l : List (Nat × Word)) (s : State) (h : s.memWf = true) :
    (l.foldl (fun s x => s.ramSetWord x.1 x.2) s).memWf = true :=
  State.memWf_folded _ _ (fun _ _ h => State.memWf_ramSetWord _ _ _ h) s h

end Sys2Proof.Machine
end

