-- ==== Sys2Proof/Laws/Cell.lean ====
section
/-! SUPPORT. The laws of a cell's issue: what an instruction that has its own effect does, what a squashed and a suppressed
one leave, and what the shared effect operation writes. -/

namespace Sys2Proof.Machine

/-! ### The last write of a list -/

theorem lastAt_append {α : Type} (l m : List (Nat × α)) (k : Nat) :
    lastAt (l ++ m) k = (lastAt m k).or (lastAt l k) := by
  induction l with
  | nil => simp [lastAt]
  | cons e r ih => obtain ⟨j, v⟩ := e; simp [lastAt, ih, Option.or_assoc]

theorem lastAt_none {α : Type} (l : List (Nat × α)) (k : Nat) : lastAt l k = none ↔ ∀ x ∈ l, x.1 ≠ k := by
  induction l with
  | nil => simp [lastAt]
  | cons e r ih =>
    obtain ⟨j, v⟩ := e
    by_cases h : j = k <;> simp [lastAt, ih, h]

/-! ### Registers of a cell -/

theorem CellSt.pendingAt_nil (c : CellSt) (d : TrigDest) (h : c.trig = []) : c.pendingAt d = none := by
  simp [CellSt.pendingAt, h]

/-- No operation of a list has a value for a destination: nothing is pending for it. -/
theorem pending_none (l : List TrigOp) (d : TrigDest) (h : ∀ t ∈ l, t.value d = none) (a : Option Word) :
    l.foldl (fun acc t => (t.value d).or acc) a = a := by
  induction l generalizing a with
  | nil => rfl
  | cons t r ih =>
    have ht : t.value d = none := h t (by simp)
    simp only [List.foldl_cons, ht, Option.none_or]
    exact ih (fun t' h' => h t' (by simp [h'])) a

theorem find_filter_self (l : List (TrigDest × Word)) (d : TrigDest) :
    (l.filter (fun w => !decide (w.1 = d))).find? (fun w => decide (w.1 = d)) = none := by
  simp [List.find?_eq_none]

theorem find_filter_other (l : List (TrigDest × Word)) (d e : TrigDest) (h : e ≠ d) :
    (l.filter (fun w => !decide (w.1 = d))).find? (fun w => decide (w.1 = e)) = l.find? (fun w => decide (w.1 = e)) := by
  induction l with
  | nil => rfl
  | cons x r ih =>
    by_cases h1 : x.1 = d
    · have h2 : x.1 ≠ e := fun hh => h (hh.symm.trans h1)
      simp only [List.filter_cons, h1, List.find?_cons]
      have : ¬ (d = e) := fun hh => h hh.symm
      simp [this, ih]
    · simp only [List.filter_cons, h1, List.find?_cons, decide_false, Bool.not_false, if_true]
      split <;> simp_all

theorem CellSt.pendingAt_settle_same (c : CellSt) (d : TrigDest) : (c.settle d).pendingAt d = none := by
  unfold CellSt.pendingAt CellSt.settle
  refine pending_none _ _ ?_ _
  intro t ht
  simp only [List.mem_map] at ht
  obtain ⟨u, -, rfl⟩ := ht
  simp [TrigOp.value]

theorem CellSt.pendingAt_settle_other (c : CellSt) (d e : TrigDest) (h : e ≠ d) :
    (c.settle d).pendingAt e = c.pendingAt e := by
  simp [CellSt.pendingAt, CellSt.settle, List.foldl_map, TrigOp.value, find_filter_other _ _ _ h]

theorem CellSt.getF_putF (c : CellSt) (k j : Nat) (v : Word) :
    (c.putF k v).getF j = if j = k then v else c.getF j := by
  by_cases h : j = k
  · subst h
    have : (c.putF j v).pendingAt (.reg j) = none := CellSt.pendingAt_settle_same c (.reg j)
    simp [CellSt.getF, this]
    simp [CellSt.putF]
  · have h1 : TrigDest.reg j ≠ .reg k := by simpa using h
    have : (c.putF k v).pendingAt (.reg j) = c.pendingAt (.reg j) := CellSt.pendingAt_settle_other c _ _ h1
    simp only [CellSt.getF, this, h, if_false]
    simp [CellSt.putF, CellSt.settle, Tab.get_put, h]

theorem CellSt.getF_putFs (l : List (Nat × Word)) (c : CellSt) (j : Nat) :
    (c.putFs l).getF j = (lastAt l j).getD (c.getF j) := by
  induction l generalizing c with
  | nil => rfl
  | cons e r ih =>
    obtain ⟨k, v⟩ := e
    have : (c.putFs ((k, v) :: r)) = (c.putF k v).putFs r := rfl
    rw [this, ih, CellSt.getF_putF]
    simp only [lastAt]
    by_cases h : j = k
    · subst h; cases lastAt r j <;> simp
    · have h' : k ≠ j := fun x => h x.symm
      cases lastAt r j <;> simp [h, h']

theorem CellSt.getF_settle_mem (c : CellSt) (a j : Nat) : (c.settle (.mem a)).getF j = c.getF j := by
  have : (c.settle (.mem a)).pendingAt (.reg j) = c.pendingAt (.reg j) :=
    CellSt.pendingAt_settle_other c _ _ (by simp)
  simp [CellSt.getF, this]; rfl

theorem get_foldl_put {α : Type} [DecidableEq α] (d : α) (l : List (Nat × α)) (t : List (Nat × α)) (j : Nat) :
    Tab.get d (l.foldl (fun t x => Tab.put d t x.1 x.2) t) j = (lastAt l j).getD (Tab.get d t j) := by
  induction l generalizing t with
  | nil => rfl
  | cons e r ih =>
    obtain ⟨k, v⟩ := e
    rw [List.foldl_cons, ih, Tab.get_put]
    simp only [lastAt]
    by_cases h : j = k
    · subst h; cases lastAt r j <;> simp
    · have h' : k ≠ j := fun x => h x.symm
      cases lastAt r j <;> simp [h, h']

theorem CellSt.rdP_putPs (l : List (Nat × BitVec 16)) (c : CellSt) (j : Nat) :
    (c.putPs l).rdP j = (lastAt l j).getD (c.rdP j) := get_foldl_put _ _ _ _
theorem CellSt.rdM_putMs (l : List (Nat × Word)) (c : CellSt) (j : Nat) :
    (c.putMs l).rdM j = (lastAt l j).getD (c.rdM j) := get_foldl_put _ _ _ _

/-- What the fields other than `f` and the operations in flight are after writes of `f` registers. -/
theorem CellSt.putFs_eq (l : List (Nat × Word)) (c : CellSt) :
    c.putFs l = { c with f := (c.putFs l).f, trig := (c.putFs l).trig } := by
  induction l generalizing c with
  | nil => rfl
  | cons e r ih =>
    obtain ⟨k, v⟩ := e
    have h : (c.putFs ((k, v) :: r)) = (c.putF k v).putFs r := rfl
    rw [h, ih]; rfl

theorem CellSt.putFs_trig_length (l : List (Nat × Word)) (c : CellSt) : (c.putFs l).trig.length = c.trig.length := by
  induction l generalizing c with
  | nil => rfl
  | cons e r ih =>
    obtain ⟨k, v⟩ := e
    have h : (c.putFs ((k, v) :: r)) = (c.putF k v).putFs r := rfl
    rw [h, ih]; simp [CellSt.putF, CellSt.settle]

/-- Stored words are no longer pending: only the operations in flight change. -/
theorem CellSt.settles_eq (l : List (Nat × Word)) (c : CellSt) :
    l.foldl (fun c x => c.settle (.mem x.1)) c
      = { c with trig := (l.foldl (fun c x => c.settle (.mem x.1)) c).trig } := by
  induction l generalizing c with
  | nil => rfl
  | cons e r ih => rw [List.foldl_cons, ih]; rfl

theorem CellSt.settles_trig_length (l : List (Nat × Word)) (c : CellSt) :
    (l.foldl (fun c x => c.settle (.mem x.1)) c).trig.length = c.trig.length := by
  induction l generalizing c with
  | nil => rfl
  | cons e r ih => rw [List.foldl_cons, ih]; simp [CellSt.settle]

theorem CellSt.getF_settles (l : List (Nat × Word)) (c : CellSt) (j : Nat) :
    (l.foldl (fun c x => c.settle (.mem x.1)) c).getF j = c.getF j := by
  induction l generalizing c with
  | nil => rfl
  | cons e r ih => rw [List.foldl_cons, ih, CellSt.getF_settle_mem]

/-- A destination written by both gets its value from the free ones; one that only one names is not among them. -/
theorem lastAt_clash (e loads : List (Nat × Word)) (ctr k : Nat) (h : lastAt e k = none ∨ lastAt loads k = none) :
    lastAt (clash e loads ctr) k = none := by
  rw [lastAt_none]
  rintro ⟨j, v⟩ hx hj
  simp only [clash, List.mem_map, Prod.exists] at hx
  obtain ⟨a, b, hab, hjv⟩ := hx
  simp only [Prod.mk.injEq] at hjv
  have ha := List.of_mem_zip hab
  simp only [List.mem_map, List.mem_filter, List.any_eq_true, beq_iff_eq] at ha
  obtain ⟨⟨x, ⟨hxe, y, hy, hxy⟩, hxa⟩, -⟩ := ha
  have hk : a = k := hjv.1.trans hj
  rcases h with h | h
  · exact (lastAt_none _ _).1 h x hxe (hxa.trans hk)
  · exact (lastAt_none _ _).1 h y hy (by rw [hxy, hxa, hk])

theorem lastAt_clashP (e ptrs : List (Nat × BitVec 16)) (ctr k : Nat) (h : lastAt e k = none ∨ lastAt ptrs k = none) :
    lastAt (clashP e ptrs ctr) k = none := by
  rw [lastAt_none]
  rintro ⟨j, v⟩ hx hj
  simp only [clashP, List.mem_map, Prod.exists] at hx
  obtain ⟨a, b, hab, hjv⟩ := hx
  simp only [Prod.mk.injEq] at hjv
  have ha := List.of_mem_zip hab
  simp only [List.mem_map, List.mem_filter, List.any_eq_true, beq_iff_eq] at ha
  obtain ⟨⟨x, ⟨hxe, y, hy, hxy⟩, hxa⟩, -⟩ := ha
  have hk : a = k := hjv.1.trans hj
  rcases h with h | h
  · exact (lastAt_none _ _).1 h x hxe (hxa.trans hk)
  · exact (lastAt_none _ _).1 h y hy (by rw [hxy, hxa, hk])

/-! ### One instruction counted -/

theorem State.cell_countIssue (s : State) (n : Nat) (r : RunCtx) :
    (s.countIssue n r).cell n = { s.cell n with run := some { r with issued := r.issued + 1 } } := by
  unfold State.countIssue; rw [State.cell_setCell_same, State.cell_incFld]

theorem State.cell_countIssue_other (s : State) (n j : Nat) (r : RunCtx) (h : j ≠ n) :
    (s.countIssue n r).cell j = s.cell j := by
  unfold State.countIssue; rw [State.cell_setCell, if_neg h, State.cell_incFld]

theorem State.reg_countIssue (s : State) (n o : Nat) (r : RunCtx) (h : o ≠ cellRegs n + Reg.cellIssuedIssued.off) :
    (s.countIssue n r).reg o = s.reg o := by
  unfold State.countIssue; rw [State.reg_setCell, State.reg_incFld_other _ _ _ _ h]

theorem countIssue_rest (s : State) (f : Fld) (b n : Nat) (c : State → CellSt) :
    (s.incFld f b).setCell n (c (s.incFld f b))
      = { s with cells := ((s.incFld f b).setCell n (c (s.incFld f b))).cells
                 regs := ((s.incFld f b).setCell n (c (s.incFld f b))).regs } := rfl

theorem State.countIssue_eq (s : State) (n : Nat) (r : RunCtx) :
    s.countIssue n r = { s with cells := (s.countIssue n r).cells, regs := (s.countIssue n r).regs } := by
  exact countIssue_rest s Reg.cellIssuedIssued (cellRegs n) n (fun s => { s.cell n with run := some { r with issued := r.issued + 1 } })

@[simp] theorem State.ram_countIssue (s : State) (n : Nat) (r : RunCtx) : (s.countIssue n r).ram = s.ram := by
  unfold State.countIssue; rw [State.ram_setCell, State.ram_incFld]
@[simp] theorem State.flip1_countIssue (s : State) (n : Nat) (r : RunCtx) : (s.countIssue n r).flip1 = s.flip1 := by
  unfold State.countIssue; rw [State.flip1_setCell, State.flip1_incFld]
@[simp] theorem State.flip2_countIssue (s : State) (n : Nat) (r : RunCtx) : (s.countIssue n r).flip2 = s.flip2 := by
  unfold State.countIssue; rw [State.flip2_setCell, State.flip2_incFld]
@[simp] theorem State.image_countIssue (s : State) (n : Nat) (r : RunCtx) : (s.countIssue n r).image = s.image := by
  unfold State.countIssue; rw [State.image_setCell, State.image_incFld]
@[simp] theorem State.mad_countIssue (s : State) (n : Nat) (r : RunCtx) : (s.countIssue n r).mad = s.mad := by
  unfold State.countIssue; rw [State.mad_setCell, State.mad_incFld]
theorem State.ramByte_countIssue (s : State) (n : Nat) (r : RunCtx) (a : Nat) : (s.countIssue n r).ramByte a = s.ramByte a := by
  unfold State.ramByte; rw [State.ram_countIssue]
theorem State.ramWord_countIssue (s : State) (n : Nat) (r : RunCtx) (a : Nat) : (s.countIssue n r).ramWord a = s.ramWord a := by
  unfold State.ramWord; simp only [State.ramByte_countIssue]

/-! ### Errors of a fetch corrected -/

/-- What correcting words of cell `n` changes: their errors and the cell's count. -/
structure OnlyEcc (s t : State) (n : Nat) : Prop where
  rest : t = { s with flip1 := t.flip1, regs := t.regs }
  regs : ∀ o, o ≠ cellRegs n + Reg.cellEccCorrected.off → t.reg o = s.reg o

theorem OnlyEcc.cells {s t : State} {n : Nat} (h : OnlyEcc s t n) : t.cells = s.cells := by rw [h.rest]
theorem OnlyEcc.trans {s t u : State} {n : Nat} (h : OnlyEcc s t n) (g : OnlyEcc t u n) : OnlyEcc s u n := by
  refine ⟨?_, fun o ho => (g.regs o ho).trans (h.regs o ho)⟩
  have a := h.rest
  have b := g.rest
  rw [b, a]

/-- A raise of one field read at another place. -/
theorem reg_issued_kept (s u t : State) (n : Nat) (r : RunCtx) (h : u = s.countIssue n r) (o : Nat) (e : t.reg o = u.reg o) :
    t.reg o = (s.incFld Reg.cellIssuedIssued (cellRegs n)).reg o := by
  rw [e, h]; unfold State.countIssue; exact State.reg_setCell _ _ _ _

theorem incFld_flip1 (s : State) (f : Fld) (b : Nat) :
    s.incFld f b = { s with flip1 := (s.incFld f b).flip1, regs := (s.incFld f b).regs } := rfl
theorem OnlyEcc.inc (s : State) (n : Nat) : OnlyEcc s (s.incFld Reg.cellEccCorrected (cellRegs n)) n :=
  ⟨incFld_flip1 _ _ _, fun _ ho => State.reg_incFld_other _ _ _ _ ho⟩

/-- One error counted. -/
def countEcc (s : State) (x : Nat) : State :=
  match memCell x with
  | some c => s.incFld Reg.cellEccCorrected (cellRegs c)
  | none => s.incFld Reg.dmaEccCorrected

theorem OnlyEcc.counts (l : List Nat) (n : Nat) (hl : ∀ x ∈ l, memCell x = some n) (s : State) : OnlyEcc s (l.foldl countEcc s) n := by
  induction l generalizing s with
  | nil => exact ⟨rfl, fun _ _ => rfl⟩
  | cons x r ih =>
    have hx : countEcc s x = s.incFld Reg.cellEccCorrected (cellRegs n) := by unfold countEcc; rw [hl x (by simp)]
    rw [List.foldl_cons, hx]
    exact (OnlyEcc.inc s n).trans (ih (fun y hy => hl y (by simp [hy])) _)

theorem State.correct_counts (s : State) (ws : List Nat) :
    s.correct ws = (s.flip1.filter (fun x => ws.contains x)).foldl countEcc { s with flip1 := s.flip1.filter (fun x => !ws.contains x) } := rfl

theorem OnlyEcc.correct (s : State) (ws : List Nat) (n : Nat) (h : ∀ x ∈ ws, memCell x = some n) : OnlyEcc s (s.correct ws) n := by
  rw [State.correct_counts]
  have a : OnlyEcc s { s with flip1 := s.flip1.filter (fun x => !ws.contains x) } n := ⟨rfl, fun _ _ => rfl⟩
  refine a.trans (OnlyEcc.counts _ n ?_ _)
  intro x hx
  exact h x (by simpa using (List.mem_filter.1 hx).2)

theorem window_parts (r x a : Nat) (hx : x < 0x1000000) (h : a = 0x04000000 + (r * 0x1000000 + x)) :
    (a - 0x04000000) / 0x1000000 = r ∧ (a - 0x04000000) % 0x1000000 = x := by
  have : a - 0x04000000 = r * 0x1000000 + x := by omega
  rw [this]; constructor <;> omega

/-- The unit of an offset from its parts: a region, an offset in its cells' window. -/
theorem memUnit_parts (r x a : Nat) (hr : r < 4) (h1 : 0x600000 ≤ x) (h2 : x < 0xA00000) (h : a = 0x04000000 + (r * 0x1000000 + x)) :
    memUnit a = some (32 * r + 5 + (x - 0x600000) / 0x40000) := by
  obtain ⟨hd, hm⟩ := window_parts r x a (by omega) h
  have h3 : ¬ (a < 0x04000000 ∨ 0x08000000 ≤ a) := by omega
  unfold memUnit
  simp only [Bool.or_eq_true, decide_eq_true_eq]
  rw [if_neg h3, hd, hm, if_neg (by omega), if_neg (by omega), if_pos h2]

theorem memCell_parts (n x a : Nat) (hn : n < 64) (hx : x < 0x40000) (h : a = cellBase n + x) : memCell a = some n := by
  have e : a = 0x04000000 + (n / 16 * 0x1000000 + (0x600000 + n % 16 * 0x40000 + x)) := by
    rw [h]; unfold cellBase regionBase; omega
  clear h
  generalize hw : 0x600000 + n % 16 * 0x40000 + x = w at e
  have hq : (w - 0x600000) / 0x40000 = n % 16 := by omega
  have hu := memUnit_parts (n / 16) w a (by omega) (by omega) (by omega) e
  rw [hq] at hu
  have h1 : 5 ≤ (32 * (n / 16) + 5 + n % 16) % 32 := by omega
  have h2 : 16 * ((32 * (n / 16) + 5 + n % 16) / 32) + (32 * (n / 16) + 5 + n % 16) % 32 - 5 = n := by omega
  simp only [memCell, hu, h1, h2, if_true]

/-- A fetch reads words of its own cell. -/
theorem memCell_insAddr (n : Nat) (pc : BitVec 14) (hn : n < 64) : ∀ x ∈ insWords n pc.toNat, memCell x = some n := by
  have hi := pc.isLt
  intro x hx
  simp only [insWords, List.mem_cons, List.not_mem_nil, or_false] at hx
  rcases hx with rfl | rfl
  · exact memCell_parts n (8 * pc.toNat) _ hn (by omega) rfl
  · exact memCell_parts n (8 * pc.toNat + 4) _ hn (by omega) (Nat.add_assoc _ _ _)

theorem State.issues_lt (s : State) (n : Nat) (r : RunCtx) (h : s.issues n = some r) : n < 64 := by
  unfold State.issues at h
  simp only at h
  split at h
  · rename_i hc
    have : n < s.cellCount := by simp only [Bool.and_eq_true, decide_eq_true_eq] at hc; exact hc.1.1
    have hr : s.regions ≤ 4 := by unfold State.regions; split <;> omega
    unfold State.cellCount at this; omega
  · cases h

theorem State.cell_congr {s t : State} (h : t.cells = s.cells) (j : Nat) : t.cell j = s.cell j := by unfold State.cell; rw [h]

/-- The state an instruction acts on: it is counted, and its fetch corrected. -/
def State.atIssue (s : State) (n : Nat) (r : RunCtx) : State := (s.countIssue n r).correct (insWords n (s.cell n).pc.toNat)

/-- What counting and fetching an instruction changes. -/
structure AtIssue (s t : State) (n : Nat) (r : RunCtx) : Prop where
  rest : t = { s with cells := t.cells, regs := t.regs, flip1 := t.flip1 }
  cell : t.cell n = { s.cell n with run := some { r with issued := r.issued + 1 } }
  others : ∀ j, j ≠ n → t.cell j = s.cell j
  regs : ∀ o, o ≠ cellRegs n + Reg.cellIssuedIssued.off → o ≠ cellRegs n + Reg.cellEccCorrected.off → t.reg o = s.reg o
  issued : t.reg (cellRegs n + Reg.cellIssuedIssued.off)
    = (s.incFld Reg.cellIssuedIssued (cellRegs n)).reg (cellRegs n + Reg.cellIssuedIssued.off)

theorem State.atIssue_ecc (s : State) (n : Nat) (r : RunCtx) (h : n < 64) : OnlyEcc (s.countIssue n r) (s.atIssue n r) n :=
  OnlyEcc.correct _ _ _ (memCell_insAddr n _ h)

theorem eccOff_ne (n : Nat) : cellRegs n + Reg.cellIssuedIssued.off ≠ cellRegs n + Reg.cellEccCorrected.off := by
  have : Reg.cellIssuedIssued.off ≠ Reg.cellEccCorrected.off := by decide
  omega

/-- What two changes of these parts leave. -/
theorem atIssue_rest {s u t : State} (a : t = { u with flip1 := t.flip1, regs := t.regs })
    (b : u = { s with cells := u.cells, regs := u.regs }) : t = { s with cells := t.cells, regs := t.regs, flip1 := t.flip1 } := by
  rw [a, b]

theorem State.atIssue_did (s : State) (n : Nat) (r : RunCtx) (h : n < 64) : AtIssue s (s.atIssue n r) n r := by
  have e := s.atIssue_ecc n r h
  have hc : ∀ j, (s.atIssue n r).cell j = (s.countIssue n r).cell j := fun j => State.cell_congr e.cells j
  refine ⟨atIssue_rest e.rest (State.countIssue_eq s n r), (hc n).trans (State.cell_countIssue s n r),
    fun j hj => (hc j).trans (State.cell_countIssue_other s n j r hj),
    fun o h1 h2 => (e.regs o h2).trans (State.reg_countIssue s n o r h1),
    reg_issued_kept s _ _ n r rfl _ (e.regs _ (eccOff_ne n))⟩

/-- An instruction that has its own effect: the effect, then what its faults or their absence bring. -/
theorem issue_ready (s : State) (n : Nat) (stg : BitVec 3) (q : Bool) (act : State → Done) (r : RunCtx)
    (hi : s.issues n = some r) (h : s.ready n stg) :
    issue s n stg q act =
      (let pc := (s.cell n).pc.toNat
       let d := act (s.atIssue n r)
       let code := lowest d.faults
       if code = 0 then d.s.advance n pc d.after
       else if code = 6 then (d.s.noteNonfinite n pc).advance n pc d.after
       else d.s.faultAt n code pc) := by
  obtain ⟨⟨r', hr, h1, h2, hb⟩, hs, hsup⟩ := h
  obtain rfl : r' = r := by rw [hr] at hi; simpa using hi
  have F := s.atIssue_did n r' (s.issues_lt n r' hi)
  have hbud : (s.atIssue n r').fld Reg.cellCtrlOpBudget (cellRegs n) = s.fld Reg.cellCtrlOpBudget (cellRegs n) := by
    unfold State.fld
    rw [F.regs _ (by simp [Reg.cellIssuedIssued, Reg.cellCtrlOpBudget]) (by simp [Reg.cellEccCorrected, Reg.cellCtrlOpBudget])]
  have hf2 : (s.atIssue n r').flip2 = s.flip2 := by rw [F.rest]
  have hsup' : CellSt.suppressed ((s.atIssue n r').cell n) stg.toNat = false := by rw [F.cell]; exact hsup
  have hsh : ((s.atIssue n r').cell n).shadow = none := by rw [F.cell]; exact hs
  have hov : (s.atIssue n r').overBudget n r' = false := by
    unfold State.overBudget; rw [hbud]
    have hnb : ¬ (s.fld Reg.cellCtrlOpBudget (cellRegs n) ≠ 0 ∧ s.fld Reg.cellCtrlOpBudget (cellRegs n) < r'.issued + 1) := by omega
    simpa using hnb
  have hany : (insWords n (s.cell n).pc.toNat).any (fun a => s.flip2.contains a) = false := by simp [insWords, h1, h2]
  have hunf : issue s n stg q act =
      (let v := s.atIssue n r'
       match (v.cell n).shadow with
       | some t => v.setCell n (if q then { v.cell n with shadow := none, pc := t }.startTrig ⟨[], true⟩ else { v.cell n with shadow := none, pc := t })
       | none =>
         if (v.cell n).suppressed stg.toNat then v.advance n (s.cell n).pc.toNat .seq
         else if (insWords n (s.cell n).pc.toNat).any (fun a => v.flip2.contains a) then v.faultAt n 1 (s.cell n).pc.toNat
         else
           let d := act v
           if v.overBudget n r' then v.faultAt n (lowest (5 :: d.faults)) (s.cell n).pc.toNat
           else
             let code := lowest d.faults
             if code = 0 then d.s.advance n (s.cell n).pc.toNat d.after
             else if code = 6 then (d.s.noteNonfinite n (s.cell n).pc.toNat).advance n (s.cell n).pc.toNat d.after
             else d.s.faultAt n code (s.cell n).pc.toNat) := by
    unfold issue; rw [hr]; rfl
  rw [hunf]
  simp only [hsh, hsup', hf2, hany, hov, Bool.false_eq_true, if_false]

/-! ### Results that land before an effect -/

theorem pending_all (l : List TrigOp) (d : TrigDest) (a : Option Word) :
    l.foldl (fun acc t => (t.value d).or acc) a = none ↔ a = none ∧ ∀ t ∈ l, t.value d = none := by
  induction l generalizing a with
  | nil => simp
  | cons t r ih => rw [List.foldl_cons, ih]; cases ht : t.value d <;> simp [ht]

theorem CellSt.pendingAt_none (c : CellSt) (d : TrigDest) : c.pendingAt d = none ↔ ∀ t ∈ c.trig, t.value d = none := by
  unfold CellSt.pendingAt; rw [pending_all]; simp

theorem State.blockAt_congr {s t : State} (h : t.image = s.image) (g : t.axes = s.axes) (a : Nat) : t.blockAt a = s.blockAt a := by
  unfold State.blockAt State.ops State.stateAt State.axis
  rw [h, g]

/-- What may have changed when results of cell `n` whose destinations `P` admits were written. -/
structure Landed (P : TrigDest → Prop) (s t : State) (n : Nat) : Prop where
  rest : t = { s with cells := t.cells, ram := t.ram, flip1 := t.flip1, flip2 := t.flip2, axes := t.axes }
  cell : t.cell n = { s.cell n with f := (t.cell n).f, trig := (t.cell n).trig }
  others : ∀ j, j ≠ n → t.cell j = s.cell j
  f : ∀ k, ¬ P (.reg k) → Tab.get 0#32 (t.cell n).f k = Tab.get 0#32 (s.cell n).f k
  bytes : ∀ b, (∀ a, P (.mem a) → b < a ∨ a + 4 ≤ b) → t.ramByte b = s.ramByte b
  axes : (∀ a, P (.mem a) → s.blockAt a = none) → t.axes = s.axes
  flip2 : ∀ x ∈ t.flip2, x ∈ s.flip2

theorem Landed.image {P : TrigDest → Prop} {s t : State} {n : Nat} (h : Landed P s t n) : t.image = s.image := by rw [h.rest]

theorem Landed.refl (P : TrigDest → Prop) (s : State) (n : Nat) : Landed P s s n :=
  ⟨rfl, rfl, fun _ _ => rfl, fun _ _ => rfl, fun _ _ => rfl, fun _ => rfl, fun _ h => h⟩

theorem Landed.trans {P : TrigDest → Prop} {s t u : State} {n : Nat} (h : Landed P s t n) (g : Landed P t u n) : Landed P s u n := by
  refine ⟨?_, ?_, fun j hj => (g.others j hj).trans (h.others j hj), fun k hk => (g.f k hk).trans (h.f k hk),
    fun b hb => (g.bytes b hb).trans (h.bytes b hb), fun hP => ?_, fun x hx => h.flip2 x (g.flip2 x hx)⟩
  · have a := h.rest
    have b := g.rest
    rw [b, a]
  · have a := h.cell
    have b := g.cell
    rw [b, a]
  · have ha := h.axes hP
    exact (g.axes (fun a p => by rw [State.blockAt_congr h.image ha]; exact hP a p)).trans ha

/-- One part of a cell's operations in flight changed. -/
theorem Landed.setTrig (P : TrigDest → Prop) (s : State) (n : Nat) (l : List TrigOp) :
    Landed P s (s.setCell n { s.cell n with trig := l }) n := by
  refine ⟨rfl, by rw [State.cell_setCell_same], fun j hj => by rw [State.cell_setCell, if_neg hj],
    fun k _ => by rw [State.cell_setCell_same], fun _ _ => rfl, fun _ => rfl, fun _ h => h⟩

/-- One word written to X or Y, with the block it may belong to. -/
theorem Landed.store (P : TrigDest → Prop) (s : State) (n a : Nat) (v : Word) (h : P (.mem a)) :
    Landed P s ((s.ramSetWord a v).blockStore a v) n := by
  have e := State.blockStore_eq (s.ramSetWord a v) a v
  have hax : (∀ a, P (.mem a) → s.blockAt a = none) → ((s.ramSetWord a v).blockStore a v).axes = s.axes := by
    intro hP
    rw [State.blockStore_none (s.ramSetWord a v) a v ((State.blockAt_congr (s := s) (t := s.ramSetWord a v) rfl rfl a).trans (hP a h))]; rfl
  generalize (s.ramSetWord a v).blockStore a v = t at e hax
  have hram : t.ram = (s.ramSetWord a v).ram := by rw [e]
  have hcells : t.cells = s.cells := by rw [e]; rfl
  have hc : ∀ j, t.cell j = s.cell j := State.cell_congr hcells
  refine ⟨by rw [e]; rfl, by rw [hc], fun j _ => hc j, fun k _ => by rw [hc], fun b hb => ?_, hax, fun x hx => ?_⟩
  · have := State.ramByte_ramSetWord_other s a b v (hb a h)
    unfold State.ramByte at this ⊢
    rw [hram]; exact this
  · have : t.flip2 = (s.ramSetWord a v).flip2 := by rw [e]
    rw [this] at hx
    exact (List.mem_filter.1 hx).1

theorem Landed.writeTrig (P : TrigDest → Prop) (s : State) (n : Nat) (w : TrigDest × Word) (h : P w.1) :
    Landed P s (s.writeTrig n w) n := by
  obtain ⟨d, v⟩ := w
  cases d with
  | reg k =>
    refine ⟨rfl, ?_, fun j hj => ?_, fun j hj => ?_, fun _ _ => rfl, fun _ => rfl, fun _ h => h⟩
    · simp only [State.writeTrig, State.cell_setCell_same]
    · simp only [State.writeTrig]; rw [State.cell_setCell, if_neg hj]
    · simp only [State.writeTrig, State.cell_setCell_same]
      exact Tab.get_put_other _ _ _ _ _ (fun e => hj (by rw [e]; exact h))
  | mem a => exact Landed.store P s n a v h

theorem Landed.writes (P : TrigDest → Prop) (n : Nat) (l : List (TrigDest × Word)) (h : ∀ w ∈ l, P w.1) (s : State) :
    Landed P s (l.foldl (fun s w => s.writeTrig n w) s) n := by
  induction l generalizing s with
  | nil => exact Landed.refl P s n
  | cons w r ih => exact (Landed.writeTrig P s n w (h w (by simp))).trans (ih (fun x hx => h x (by simp [hx])) _)

theorem TrigOp.value_none (t : TrigOp) (d : TrigDest) (h : t.value d = none) : t.squashed = true ∨ ∀ w ∈ t.writes, w.1 ≠ d := by
  unfold TrigOp.value at h
  split at h
  · exact .inl ‹_›
  · exact .inr (by simpa [List.find?_eq_none] using h)

/-- The writes of an operation in flight are pending. -/
theorem CellSt.writes_pending (c : CellSt) (t : TrigOp) (ht : t ∈ c.trig) (hs : t.squashed = false) (w : TrigDest × Word)
    (hw : w ∈ t.writes) : c.pendingAt w.1 ≠ none := by
  intro hn
  rcases TrigOp.value_none t w.1 ((CellSt.pendingAt_none c w.1).1 hn t ht) with h | h
  · rw [hs] at h; cases h
  · exact h w hw rfl

/-- The operations in flight of a cell after others landed: no more than before, and nothing newly pending. -/
structure Fewer (c d : CellSt) : Prop where
  len : d.trig.length ≤ c.trig.length
  pend : ∀ x, c.pendingAt x = none → d.pendingAt x = none

theorem Fewer.refl (c : CellSt) : Fewer c c := ⟨Nat.le_refl _, fun _ h => h⟩
theorem Fewer.trans {c d e : CellSt} (h : Fewer c d) (g : Fewer d e) : Fewer c e :=
  ⟨Nat.le_trans g.len h.len, fun x hx => g.pend x (h.pend x hx)⟩
theorem Fewer.tail (c d : CellSt) (t : TrigOp) (r : List TrigOp) (h : c.trig = t :: r) (g : d.trig = r) : Fewer c d :=
  ⟨by rw [g, h]; simp, fun x hx => by
    rw [CellSt.pendingAt_none] at hx ⊢
    intro y hy; exact hx y (by rw [h, List.mem_cons]; exact .inr (g ▸ hy))⟩
theorem Fewer.settle (c d : CellSt) (x : TrigDest) (h : d.trig = (c.settle x).trig) : Fewer c d := by
  have hp : ∀ y, d.pendingAt y = (c.settle x).pendingAt y := by intro y; unfold CellSt.pendingAt; rw [h]
  refine ⟨by rw [h]; simp [CellSt.settle], fun y hy => ?_⟩
  rw [hp]
  by_cases e : y = x
  · rw [e]; exact CellSt.pendingAt_settle_same c x
  · rw [CellSt.pendingAt_settle_other c x y e]; exact hy

theorem State.trig_writeTrig (s : State) (n : Nat) (w : TrigDest × Word) : ((s.writeTrig n w).cell n).trig = (s.cell n).trig := by
  obtain ⟨d, v⟩ := w
  cases d with
  | reg k => simp only [State.writeTrig, State.cell_setCell_same]
  | mem a =>
    have : ((s.ramSetWord a v).blockStore a v).cell n = s.cell n :=
      State.cell_congr ((congrArg State.cells (State.blockStore_eq (s.ramSetWord a v) a v)).trans rfl) n
    simp only [State.writeTrig, this]

theorem State.trig_writes (l : List (TrigDest × Word)) (s : State) (n : Nat) :
    ((l.foldl (fun s w => s.writeTrig n w) s).cell n).trig = (s.cell n).trig := by
  induction l generalizing s with
  | nil => rfl
  | cons w r ih => rw [List.foldl_cons, ih, State.trig_writeTrig]

/-- The oldest operation in flight ends. -/
theorem State.writeBack_did (P : TrigDest → Prop) (s : State) (n : Nat) (h : ∀ d, (s.cell n).pendingAt d ≠ none → P d) :
    Landed P s (s.writeBack n) n ∧ Fewer (s.cell n) ((s.writeBack n).cell n) := by
  unfold State.writeBack
  cases ht : (s.cell n).trig with
  | nil => exact ⟨Landed.refl P s n, Fewer.refl _⟩
  | cons t r =>
    dsimp only
    have a := Landed.setTrig P s n r
    split
    · exact ⟨a, Fewer.tail _ _ t r ht (by rw [State.cell_setCell_same])⟩
    · rename_i hs
      refine ⟨a.trans (Landed.writes P n t.writes (fun w hw => h _ ?_) _), Fewer.tail _ _ t r ht ?_⟩
      · exact CellSt.writes_pending _ t (by rw [ht]; simp) (by simpa using hs) w hw
      · rw [State.trig_writes, State.cell_setCell_same]

/-- Steps that each land something. -/
theorem landed_foldl {α : Type} (P : TrigDest → Prop) (n : Nat) (c0 : CellSt) (f : State → α → State) (l : List α)
    (hf : ∀ x ∈ l, ∀ s : State, Fewer c0 (s.cell n) → Landed P s (f s x) n ∧ Fewer (s.cell n) ((f s x).cell n)) (s : State)
    (h : Fewer c0 (s.cell n)) : Landed P s (l.foldl f s) n ∧ Fewer (s.cell n) ((l.foldl f s).cell n) := by
  induction l generalizing s with
  | nil => exact ⟨Landed.refl P s n, Fewer.refl _⟩
  | cons x r ih =>
    obtain ⟨a, b⟩ := hf x (by simp) s h
    obtain ⟨c, d⟩ := ih (fun y hy => hf y (by simp [hy])) (f s x) (h.trans b)
    exact ⟨a.trans c, b.trans d⟩

/-- A word that is read lands when a result is pending for it. -/
theorem State.landWord_did (P : TrigDest → Prop) (s : State) (n a : Nat) (h : (s.cell n).pendingAt (.mem a) ≠ none → P (.mem a)) :
    Landed P s (s.landWord n a) n ∧ Fewer (s.cell n) ((s.landWord n a).cell n) := by
  unfold State.landWord
  cases hp : (s.cell n).pendingAt (.mem a) with
  | none => exact ⟨Landed.refl P s n, Fewer.refl _⟩
  | some v =>
    have b := Landed.store P s n a v (h (by rw [hp]; simp))
    have hc : ((s.ramSetWord a v).blockStore a v).cell n = s.cell n :=
      State.cell_congr ((congrArg State.cells (State.blockStore_eq (s.ramSetWord a v) a v)).trans rfl) n
    have c := Landed.setTrig P ((s.ramSetWord a v).blockStore a v) n ((s.cell n).settle (.mem a)).trig
    rw [hc] at c
    refine ⟨b.trans c, Fewer.settle _ _ (.mem a) ?_⟩
    dsimp only; rw [State.cell_setCell_same]

/-- The state an effect acts on: what must land has landed. -/
def State.landed (s : State) (n : Nat) (e : Eff) (xa ya : AccRes) : State :=
  (xa.reads ++ ya.reads).foldl (fun s a => s.landWord n a) (if e.trig.isSome then s.trigRoom n else s)

/-- The destinations that may land before an effect. -/
def mayLand (s : State) (n : Nat) (e : Eff) (xa ya : AccRes) (d : TrigDest) : Prop :=
  (s.cell n).pendingAt d ≠ none ∧ (e.trig.isSome = true ∨ ∃ a ∈ xa.reads ++ ya.reads, d = .mem a)

theorem State.landed_did (s : State) (n : Nat) (e : Eff) (xa ya : AccRes) :
    Landed (mayLand s n e xa ya) s (s.landed n e xa ya) n ∧ Fewer (s.cell n) ((s.landed n e xa ya).cell n) := by
  have hroom : Landed (mayLand s n e xa ya) s (if e.trig.isSome then s.trigRoom n else s) n
      ∧ Fewer (s.cell n) ((if e.trig.isSome then s.trigRoom n else s).cell n) := by
    split
    · rename_i ht
      refine landed_foldl _ n (s.cell n) (fun s _ => s.writeBack n) _ (fun _ _ u hu => ?_) s (Fewer.refl _)
      exact State.writeBack_did _ u n (fun d hd => ⟨fun hn => hd (hu.pend d hn), .inl ht⟩)
    · exact ⟨Landed.refl _ _ _, Fewer.refl _⟩
  obtain ⟨a, b⟩ := hroom
  obtain ⟨c, d⟩ := landed_foldl (mayLand s n e xa ya) n (s.cell n) (fun s a => s.landWord n a) (xa.reads ++ ya.reads)
    (fun x hx u hu => State.landWord_did _ u n x (fun hp => ⟨fun hn => hp (hu.pend _ hn), .inr ⟨x, hx, rfl⟩⟩)) _ b
  exact ⟨a.trans c, b.trans d⟩

/-- Where no operation is started, the registers and the number of operations in flight are as before. -/
theorem State.landWords_cell (l : List Nat) (s : State) (n : Nat) :
    ((l.foldl (fun s a => s.landWord n a) s).cell n).trig.length = (s.cell n).trig.length
      ∧ ∀ k, ((l.foldl (fun s a => s.landWord n a) s).cell n).getF k = (s.cell n).getF k := by
  induction l generalizing s with
  | nil => exact ⟨rfl, fun _ => rfl⟩
  | cons a r ih =>
    rw [List.foldl_cons]
    have h : ((s.landWord n a).cell n).trig.length = (s.cell n).trig.length ∧ ∀ k, ((s.landWord n a).cell n).getF k = (s.cell n).getF k := by
      unfold State.landWord
      cases (s.cell n).pendingAt (.mem a) with
      | none => exact ⟨rfl, fun _ => rfl⟩
      | some v =>
        dsimp only
        rw [State.cell_setCell_same]
        exact ⟨by simp [CellSt.settle], fun k => CellSt.getF_settle_mem _ _ _⟩
    exact ⟨(ih _).1.trans h.1, fun k => ((ih _).2 k).trans (h.2 k)⟩

/-- A register reads after the landings what it read before, but one with a result pending where an operation is started. -/
theorem State.landed_getF (s : State) (n : Nat) (e : Eff) (xa ya : AccRes) (k : Nat)
    (h : e.trig = none ∨ (s.cell n).pendingAt (.reg k) = none) : ((s.landed n e xa ya).cell n).getF k = (s.cell n).getF k := by
  rcases h with h | h
  · unfold State.landed
    rw [h]
    exact (State.landWords_cell _ s n).2 k
  · obtain ⟨a, b⟩ := s.landed_did n e xa ya
    have hf := a.f k (fun hp => hp.1 h)
    unfold CellSt.getF
    rw [b.pend _ h, h, hf]

/-! ### The effect operation -/

/-- The cell that `apply` leaves, its parts in the order of R105. -/
def appliedCell (c : CellSt) (ctr : Nat) (e : Eff) (xa ya : AccRes) : CellSt :=
  let loads := xa.loads ++ ya.loads
  let ptrs := xa.ptr.toList ++ ya.ptr.toList
  let fx := clash e.f loads ctr
  let px := clashP e.p ptrs (ctr + fx.length)
  let c := ((c.putFs loads).putFs e.f).putFs fx
  let c := ((c.putPs e.p).putPs ptrs).putPs px
  let c := c.putMs e.m
  let c := { c with cc := e.cc.getD c.cc, rrb := e.rrb.getD c.rrb, run := e.run.or c.run }
  let c := match e.ch with
    | some (0, v) => { c with ch0 := v }
    | some (_, v) => { c with ch1 := v }
    | none => c
  let c := (xa.stores ++ ya.stores).foldl (fun c x => c.settle (.mem x.1)) c
  match e.trig with
    | some t => c.startTrig t
    | none => c

/-- The state after the stores of an instruction. -/
def storesPut (s : State) (l : List (Nat × Word)) : State := l.foldl (fun s x => s.ramSetWord x.1 x.2) s

theorem storesPut_eq (s : State) (l : List (Nat × Word)) :
    storesPut s l = { s with ram := (storesPut s l).ram, flip1 := (storesPut s l).flip1, flip2 := (storesPut s l).flip2 } := by
  induction l generalizing s with
  | nil => rfl
  | cons e r ih =>
    have h : storesPut s (e :: r) = storesPut (s.ramSetWord e.1 e.2) r := rfl
    rw [h, ih]; rfl

theorem storesPut_byte (l : List (Nat × Word)) (s : State) (b : Nat) (h : ∀ x ∈ l, b < x.1 ∨ x.1 + 4 ≤ b) :
    (storesPut s l).ramByte b = s.ramByte b := by
  induction l generalizing s with
  | nil => rfl
  | cons e r ih =>
    have hh : storesPut s (e :: r) = storesPut (s.ramSetWord e.1 e.2) r := rfl
    rw [hh, ih _ (fun x hx => h x (by simp [hx])), State.ramByte_ramSetWord_other _ _ _ _ (h e (by simp))]

theorem storesPut_word (l : List (Nat × Word)) (s : State) (a : Nat) (v : Word) (hal : ∀ x ∈ l, x.1 % 4 = 0)
    (h : lastAt l a = some v) : (storesPut s l).ramWord a = v := by
  induction l generalizing s with
  | nil => simp [lastAt] at h
  | cons e r ih =>
    have hh : storesPut s (e :: r) = storesPut (s.ramSetWord e.1 e.2) r := rfl
    rw [hh]
    cases hr : lastAt r a with
    | some w =>
      have : w = v := by simpa [lastAt, hr] using h
      exact ih _ (fun x hx => hal x (by simp [hx])) (by rw [hr, this])
    | none =>
      obtain ⟨j, w⟩ := e
      have hj : j = a ∧ w = v := by simpa [lastAt, hr] using h
      obtain ⟨rfl, rfl⟩ := hj
      have hn := (lastAt_none _ _).1 hr
      have hb : ∀ k, k < 4 → (storesPut (s.ramSetWord j w) r).ramByte (j + k) = (s.ramSetWord j w).ramByte (j + k) := by
        intro k hk
        refine storesPut_byte _ _ _ (fun x hx => ?_)
        have h1 := hal x (by simp [hx])
        have h2 := hal (j, w) (by simp)
        have h3 := hn x hx
        simp only at h2
        omega
      have := State.ramWord_ramSetWord_same s j w
      unfold State.ramWord at this ⊢
      rw [hb 3 (by omega), hb 2 (by omega), hb 1 (by omega)]
      rw [show (storesPut (s.ramSetWord j w) r).ramByte j = (s.ramSetWord j w).ramByte j from hb 0 (by omega)]
      exact this

/-- The state after the stores of an instruction, with the blocks they belong to. -/
def storesDone (s : State) (l : List (Nat × Word)) : State := (storesPut s l).blockStores l

theorem storesDone_eq (s : State) (l : List (Nat × Word)) :
    storesDone s l = { s with ram := (storesDone s l).ram, flip1 := (storesDone s l).flip1, flip2 := (storesDone s l).flip2
                              axes := (storesDone s l).axes } := by
  have a := State.blockStores_eq l (storesPut s l)
  have b := storesPut_eq s l
  unfold storesDone
  generalize (storesPut s l).blockStores l = t at a
  generalize storesPut s l = u at a b
  rw [a, b]
theorem storesDone_ram (s : State) (l : List (Nat × Word)) : (storesDone s l).ram = (storesPut s l).ram := by
  have a := State.blockStores_eq l (storesPut s l)
  unfold storesDone
  generalize (storesPut s l).blockStores l = t at a
  rw [a]
theorem storesDone_flip2 (s : State) (l : List (Nat × Word)) : (storesDone s l).flip2 = (storesPut s l).flip2 := by
  have a := State.blockStores_eq l (storesPut s l)
  unfold storesDone
  generalize (storesPut s l).blockStores l = t at a
  rw [a]
theorem storesDone_axes (s : State) (l : List (Nat × Word)) (h : ∀ x ∈ l, s.blockAt x.1 = none) : (storesDone s l).axes = s.axes := by
  have b := storesPut_eq s l
  unfold storesDone
  have hi : (storesPut s l).image = s.image := by rw [b]
  have ha : (storesPut s l).axes = s.axes := by rw [b]
  rw [State.blockStores_none _ _ (fun x hx => (State.blockAt_congr hi ha x.1).trans (h x hx)), ha]

/-- The state that `apply` leaves, but for its counts. -/
def appliedState (s : State) (n : Nat) (e : Eff) (xa ya : AccRes) : State :=
  let loads := xa.loads ++ ya.loads
  let ptrs := xa.ptr.toList ++ ya.ptr.toList
  let fx := clash e.f loads s.freeCtr
  let px := clashP e.p ptrs (s.freeCtr + fx.length)
  let reads := xa.reads ++ ya.reads
  let ones := reads.filter (fun a => s.flip1.contains a)
  let s := storesDone (s.setCell n (appliedCell (s.cell n) s.freeCtr e xa ya)) (xa.stores ++ ya.stores)
  let s := { s with freeCtr := s.freeCtr + e.draws + fx.length + px.length
                    flip1 := s.flip1.filter (fun a => !reads.contains a) }
  let s := s.addFld Reg.cellEccCorrected ones.length (cellRegs n)
  match e.conflict with
    | some j => s.setBit Reg.crcChCfgConflict true (chBase j)
    | none => s

theorem apply_s (s : State) (n : Nat) (e : Eff) (xa ya : AccRes) :
    (apply s n e xa ya).s = appliedState (s.landed n e xa ya) n e xa ya := by
  unfold apply appliedState appliedCell storesDone storesPut State.landed
  rfl

/-- The cell after its registers are written, before the running check values, the stores and a trig operation. -/
def writtenCell (c : CellSt) (ctr : Nat) (e : Eff) (xa ya : AccRes) : CellSt :=
  let loads := xa.loads ++ ya.loads
  let ptrs := xa.ptr.toList ++ ya.ptr.toList
  let fx := clash e.f loads ctr
  let px := clashP e.p ptrs (ctr + fx.length)
  ((((((c.putFs loads).putFs e.f).putFs fx).putPs e.p).putPs ptrs).putPs px).putMs e.m

theorem writtenCell_getF (c : CellSt) (ctr : Nat) (e : Eff) (xa ya : AccRes) (k : Nat) :
    Merged c.getF (writtenCell c ctr e xa ya).getF e.f (xa.loads ++ ya.loads) k := by
  have hg : (writtenCell c ctr e xa ya).getF k
      = (lastAt (clash e.f (xa.loads ++ ya.loads) ctr) k).getD
          ((lastAt e.f k).getD ((lastAt (xa.loads ++ ya.loads) k).getD (c.getF k))) := by
    rw [← CellSt.getF_putFs, ← CellSt.getF_putFs, ← CellSt.getF_putFs]; rfl
  refine ⟨fun v h1 h2 => ?_, fun v h1 h2 => ?_, fun h1 h2 => ?_⟩ <;>
    rw [hg, lastAt_clash _ _ _ _ (by simp [h1, h2]), h1, h2] <;> rfl

theorem writtenCell_rdP (c : CellSt) (ctr : Nat) (e : Eff) (xa ya : AccRes) (k : Nat) :
    Merged c.rdP (writtenCell c ctr e xa ya).rdP e.p (xa.ptr.toList ++ ya.ptr.toList) k := by
  have hp : (((c.putFs (xa.loads ++ ya.loads)).putFs e.f).putFs (clash e.f (xa.loads ++ ya.loads) ctr)).rdP k = c.rdP k := by
    rw [CellSt.putFs_eq (clash _ _ _)]
    show CellSt.rdP ((c.putFs (xa.loads ++ ya.loads)).putFs e.f) k = _
    rw [CellSt.putFs_eq e.f]
    show CellSt.rdP (c.putFs (xa.loads ++ ya.loads)) k = _
    rw [CellSt.putFs_eq]; rfl
  have hg : (writtenCell c ctr e xa ya).rdP k
      = (lastAt (clashP e.p (xa.ptr.toList ++ ya.ptr.toList) (ctr + (clash e.f (xa.loads ++ ya.loads) ctr).length)) k).getD
          ((lastAt (xa.ptr.toList ++ ya.ptr.toList) k).getD ((lastAt e.p k).getD (c.rdP k))) := by
    rw [← hp, ← CellSt.rdP_putPs, ← CellSt.rdP_putPs, ← CellSt.rdP_putPs]; rfl
  refine ⟨fun v h1 h2 => ?_, fun v h1 h2 => ?_, fun h1 h2 => ?_⟩ <;>
    rw [hg, lastAt_clashP _ _ _ _ (by simp [h1, h2]), h1, h2] <;> rfl

theorem CellSt.putFs_trig (l : List (Nat × Word)) (c : CellSt) : ∃ f t, c.putFs l = { c with f := f, trig := t } ∧ t.length = c.trig.length :=
  ⟨_, _, CellSt.putFs_eq l c, CellSt.putFs_trig_length l c⟩

/-- The parts of a written cell that no register write touches. -/
theorem writtenCell_eq (c : CellSt) (ctr : Nat) (e : Eff) (xa ya : AccRes) :
    ∃ f p t, writtenCell c ctr e xa ya = { c with f := f, p := p, trig := t, m := ((c.putMs e.m)).m } ∧ t.length = c.trig.length := by
  obtain ⟨f1, t1, h1, l1⟩ := CellSt.putFs_trig (xa.loads ++ ya.loads) c
  obtain ⟨f2, t2, h2, l2⟩ := CellSt.putFs_trig e.f { c with f := f1, trig := t1 }
  obtain ⟨f3, t3, h3, l3⟩ := CellSt.putFs_trig (clash e.f (xa.loads ++ ya.loads) ctr) { c with f := f2, trig := t2 }
  refine ⟨f3, (writtenCell c ctr e xa ya).p, t3, ?_, ?_⟩
  rotate_left
  · simp only at l2 l3; omega
  · unfold writtenCell
    simp only at h1 h2 h3 ⊢
    rw [h1, h2, h3]
    rfl

/-- What `apply` does to a cell, over the written one. -/
theorem appliedCell_eq (c : CellSt) (ctr : Nat) (e : Eff) (xa ya : AccRes) :
    ∃ tr, appliedCell c ctr e xa ya =
      { writtenCell c ctr e xa ya with
          cc := e.cc.getD c.cc, rrb := e.rrb.getD c.rrb, run := e.run.or c.run
          ch0 := (match e.ch with | some (0, v) => v | _ => c.ch0)
          ch1 := (match e.ch with | some (_ + 1, v) => v | _ => c.ch1)
          trig := tr } ∧ tr.length = c.trig.length + (if e.trig.isSome then 1 else 0) := by
  obtain ⟨f, p, t, hw, hl⟩ := writtenCell_eq c ctr e xa ya
  have hunf : appliedCell c ctr e xa ya =
    (let c1 := writtenCell c ctr e xa ya
     let c2 := { c1 with cc := e.cc.getD c1.cc, rrb := e.rrb.getD c1.rrb, run := e.run.or c1.run }
     let c3 := match e.ch with
      | some (0, v) => { c2 with ch0 := v }
      | some (_, v) => { c2 with ch1 := v }
      | none => c2
     let c4 := (xa.stores ++ ya.stores).foldl (fun c x => c.settle (.mem x.1)) c3
     match e.trig with
      | some t => c4.startTrig t
      | none => c4) := rfl
  rw [hunf]
  simp only
  rw [CellSt.settles_eq]
  have hlen := CellSt.settles_trig_length (xa.stores ++ ya.stores)
  rw [hw]
  rcases e.ch with _ | ⟨_ | k, v⟩ <;> rcases e.trig with _ | tt <;> simp only <;>
    refine ⟨_, rfl, ?_⟩ <;>
    simp only [List.length_append, List.length_singleton, hlen, hl, Option.isSome, if_true, Bool.false_eq_true,
      if_false, Nat.add_zero]

/-- The `f` registers after `apply`: those of the written cell. -/
theorem appliedCell_getF (c : CellSt) (ctr : Nat) (e : Eff) (xa ya : AccRes) (h : e.trig = none) (k : Nat) :
    (appliedCell c ctr e xa ya).getF k = (writtenCell c ctr e xa ya).getF k := by
  have hunf : appliedCell c ctr e xa ya =
    (let c1 := writtenCell c ctr e xa ya
     let c2 := { c1 with cc := e.cc.getD c1.cc, rrb := e.rrb.getD c1.rrb, run := e.run.or c1.run }
     let c3 := match e.ch with
      | some (0, v) => { c2 with ch0 := v }
      | some (_, v) => { c2 with ch1 := v }
      | none => c2
     (xa.stores ++ ya.stores).foldl (fun c x => c.settle (.mem x.1)) c3) := by
    unfold appliedCell; rw [h]; rfl
  rw [hunf]
  simp only
  rw [CellSt.getF_settles]
  rcases e.ch with _ | ⟨_ | k, v⟩ <;> rfl

theorem CellSt.pendingAt_startTrig (c : CellSt) (t : TrigOp) (d : TrigDest) :
    (c.startTrig t).pendingAt d = (t.value d).or (c.pendingAt d) := by
  simp [CellSt.pendingAt, CellSt.startTrig]

theorem CellSt.getF_startTrig (c : CellSt) (t : TrigOp) (k : Nat) (h : t.value (.reg k) = none) :
    (c.startTrig t).getF k = c.getF k := by
  simp only [CellSt.getF, CellSt.pendingAt_startTrig, h, Option.none_or]; rfl

theorem appliedCell_trig (c : CellSt) (ctr : Nat) (e : Eff) (xa ya : AccRes) (t : TrigOp) (h : e.trig = some t) :
    appliedCell c ctr e xa ya = (appliedCell c ctr { e with trig := none } xa ya).startTrig t := by
  unfold appliedCell; rw [h]

/-- A counter field raised, and a flag set besides, on a state whose cells, memory, error lists and axes have changed. -/
def OnlyIssue (s t : State) : Prop :=
  t = { s with cells := t.cells, ram := t.ram, regs := t.regs, flip1 := t.flip1, flip2 := t.flip2, axes := t.axes, freeCtr := t.freeCtr }

theorem OnlyIssue.trans {s t u : State} (h : OnlyIssue s t) (g : OnlyIssue t u) : OnlyIssue s u := by
  unfold OnlyIssue at *; rw [g, h]

/-- The counts of an instruction's accesses and the conflict flag of its running check value. -/
def counted (s : State) (n : Nat) (e : Eff) (reads ones : List Nat) (k : Nat) : State :=
  let s := { s with freeCtr := k, flip1 := s.flip1.filter (fun a => !reads.contains a) }
  let s := s.addFld Reg.cellEccCorrected ones.length (cellRegs n)
  match e.conflict with
    | some j => s.setBit Reg.crcChCfgConflict true (chBase j)
    | none => s

theorem addFld_only (s : State) (f : Fld) (k b : Nat) : OnlyIssue s (s.addFld f k b) := rfl
theorem setBit_only (s : State) (f : Fld) (x : Bool) (b : Nat) : OnlyIssue s (s.setBit f x b) := rfl

theorem counted_only (s : State) (n : Nat) (e : Eff) (reads ones : List Nat) (k : Nat) : OnlyIssue s (counted s n e reads ones k) := by
  unfold counted
  generalize hu : ({ s with freeCtr := k, flip1 := s.flip1.filter (fun a => !reads.contains a) } : State) = u
  have h : OnlyIssue s u := by rw [← hu]; rfl
  rcases e.conflict with _ | j
  · exact h.trans (addFld_only u _ _ _)
  · exact (h.trans (addFld_only u _ _ _)).trans (setBit_only _ _ _ _)

/-- The parts that a field of a register leaves. -/
def SameParts (s t : State) : Prop := t.cells = s.cells ∧ t.ram = s.ram ∧ t.flip2 = s.flip2 ∧ t.axes = s.axes

theorem SameParts.trans {s t u : State} (h : SameParts s t) (g : SameParts t u) : SameParts s u :=
  ⟨g.1.trans h.1, g.2.1.trans h.2.1, g.2.2.1.trans h.2.2.1, g.2.2.2.trans h.2.2.2⟩
theorem SameParts.addFld (s : State) (f : Fld) (k b : Nat) : SameParts s (s.addFld f k b) := ⟨rfl, rfl, rfl, rfl⟩
theorem SameParts.setBit (s : State) (f : Fld) (x : Bool) (b : Nat) : SameParts s (s.setBit f x b) := ⟨rfl, rfl, rfl, rfl⟩

theorem counted_keeps (s : State) (n : Nat) (e : Eff) (reads ones : List Nat) (k : Nat) :
    SameParts s (counted s n e reads ones k) := by
  unfold counted
  generalize hu : ({ s with freeCtr := k, flip1 := s.flip1.filter (fun a => !reads.contains a) } : State) = u
  have h : SameParts s u := by rw [← hu]; exact ⟨rfl, rfl, rfl, rfl⟩
  rcases e.conflict with _ | j
  · exact h.trans (SameParts.addFld u _ _ _)
  · exact (h.trans (SameParts.addFld u _ _ _)).trans (SameParts.setBit _ _ _ _)

theorem counted_reg (s : State) (n o : Nat) (e : Eff) (reads ones : List Nat) (k : Nat)
    (h1 : o ≠ cellRegs n + Reg.cellEccCorrected.off)
    (h2 : ∀ j, e.conflict = some j → o ≠ chBase j + Reg.crcChCfgConflict.off) : (counted s n e reads ones k).reg o = s.reg o := by
  unfold counted
  generalize hu : ({ s with freeCtr := k, flip1 := s.flip1.filter (fun a => !reads.contains a) } : State) = u
  have h : u.reg o = s.reg o := by rw [← hu]; rfl
  rcases hc : e.conflict with _ | j
  · exact (State.reg_addFld_other _ _ _ _ _ h1).trans h
  · exact (State.reg_setBit_other _ _ _ _ _ (h2 j hc)).trans ((State.reg_addFld_other _ _ _ _ _ h1).trans h)

/-- The state with the cell and the stores done, before the counts. -/
def storedState (s : State) (n : Nat) (e : Eff) (xa ya : AccRes) : State :=
  storesDone (s.setCell n (appliedCell (s.cell n) s.freeCtr e xa ya)) (xa.stores ++ ya.stores)

theorem appliedState_counted (s : State) (n : Nat) (e : Eff) (xa ya : AccRes) :
    ∃ reads ones k, appliedState s n e xa ya = counted (storedState s n e xa ya) n e reads ones k := ⟨_, _, _, rfl⟩

theorem appliedState_eq (s : State) (n : Nat) (e : Eff) (xa ya : AccRes) : OnlyIssue s (appliedState s n e xa ya) := by
  obtain ⟨reads, ones, k, h⟩ := appliedState_counted s n e xa ya
  have a : OnlyIssue s (s.setCell n (appliedCell (s.cell n) s.freeCtr e xa ya)) := rfl
  have c : ∀ (v : State) l, OnlyIssue v (storesDone v l) := by
    intro v l
    have b := storesDone_eq v l
    unfold OnlyIssue
    generalize storesDone v l = u at b
    rw [b]
  rw [h]
  exact (a.trans (c _ _)).trans (counted_only _ _ _ _ _ _)

theorem storedState_cells (s : State) (n : Nat) (e : Eff) (xa ya : AccRes) :
    (storedState s n e xa ya).cells = (s.setCell n (appliedCell (s.cell n) s.freeCtr e xa ya)).cells := by
  have b := storesDone_eq (s.setCell n (appliedCell (s.cell n) s.freeCtr e xa ya)) (xa.stores ++ ya.stores)
  unfold storedState
  generalize storesDone (s.setCell n (appliedCell (s.cell n) s.freeCtr e xa ya)) (xa.stores ++ ya.stores) = u at b
  rw [b]

theorem appliedState_cells (s : State) (n j : Nat) (e : Eff) (xa ya : AccRes) :
    (appliedState s n e xa ya).cell j = (s.setCell n (appliedCell (s.cell n) s.freeCtr e xa ya)).cell j := by
  obtain ⟨reads, ones, k, h⟩ := appliedState_counted s n e xa ya
  rw [h]
  exact State.cell_congr ((counted_keeps _ _ _ _ _ _).1.trans (storedState_cells s n e xa ya)) j

theorem appliedState_cell (s : State) (n : Nat) (e : Eff) (xa ya : AccRes) :
    (appliedState s n e xa ya).cell n = appliedCell (s.cell n) s.freeCtr e xa ya := by
  rw [appliedState_cells, State.cell_setCell_same]

theorem appliedState_cell_other (s : State) (n j : Nat) (e : Eff) (xa ya : AccRes) (h : j ≠ n) :
    (appliedState s n e xa ya).cell j = s.cell j := by
  rw [appliedState_cells, State.cell_setCell, if_neg h]

theorem storesPut_congr (l : List (Nat × Word)) (u v : State) (h : u.ram = v.ram) : (storesPut u l).ram = (storesPut v l).ram := by
  induction l generalizing u v with
  | nil => exact h
  | cons x r ih =>
    refine ih _ _ ?_
    show ramPut u.ram x.1 (wordBytes x.2) = ramPut v.ram x.1 (wordBytes x.2)
    rw [h]

theorem appliedState_ramByte (s : State) (n b : Nat) (e : Eff) (xa ya : AccRes) :
    (appliedState s n e xa ya).ramByte b = (storesPut s (xa.stores ++ ya.stores)).ramByte b := by
  obtain ⟨reads, ones, k, h⟩ := appliedState_counted s n e xa ya
  unfold State.ramByte
  rw [h, (counted_keeps _ _ _ _ _ _).2.1]
  unfold storedState
  rw [storesDone_ram, storesPut_congr _ _ s (State.ram_setCell _ _ _)]

theorem appliedState_axes (s : State) (n : Nat) (e : Eff) (xa ya : AccRes) (h : ∀ x ∈ xa.stores ++ ya.stores, s.blockAt x.1 = none) :
    (appliedState s n e xa ya).axes = s.axes := by
  obtain ⟨reads, ones, k, hc⟩ := appliedState_counted s n e xa ya
  rw [hc, (counted_keeps _ _ _ _ _ _).2.2.2]
  unfold storedState
  rw [storesDone_axes _ _ (fun x hx => (State.blockAt_congr (State.image_setCell s n _) (State.axes_setCell s n _) x.1).trans (h x hx)),
    State.axes_setCell]

theorem appliedState_reg (s : State) (n o : Nat) (e : Eff) (xa ya : AccRes)
    (h1 : o ≠ cellRegs n + Reg.cellEccCorrected.off)
    (h2 : ∀ j, e.conflict = some j → o ≠ chBase j + Reg.crcChCfgConflict.off) :
    (appliedState s n e xa ya).reg o = s.reg o := by
  obtain ⟨reads, ones, k, h⟩ := appliedState_counted s n e xa ya
  rw [h, counted_reg _ _ _ _ _ _ _ h1 h2]
  have b := storesDone_eq (s.setCell n (appliedCell (s.cell n) s.freeCtr e xa ya)) (xa.stores ++ ya.stores)
  unfold storedState
  generalize storesDone (s.setCell n (appliedCell (s.cell n) s.freeCtr e xa ya)) (xa.stores ++ ya.stores) = u at b
  rw [b]; exact State.reg_setCell s n (appliedCell (s.cell n) s.freeCtr e xa ya) o

/-- The next instruction after one at which no loop ends. -/
theorem loopEnd_none (c : CellSt) (pc : Nat) (l : List LoopEnt) (h : ∀ x ∈ l, x.last ≠ pc) :
    loopEnd c pc l = { c with pc := BitVec.ofNat 14 (pc + 1), loops := l } := by
  cases l with
  | nil => rfl
  | cons x r => simp only [loopEnd]; rw [if_neg (h x (by simp))]

/-- What `loopEnd` never touches. -/
theorem loopEnd_eq (c : CellSt) (pc : Nat) (l : List LoopEnt) :
    loopEnd c pc l = { c with pc := (loopEnd c pc l).pc, loops := (loopEnd c pc l).loops, c := (loopEnd c pc l).c,
                              rrb := (loopEnd c pc l).rrb } := by
  induction l generalizing c with
  | nil => rfl
  | cons x r ih =>
    simp only [loopEnd]
    split
    · split
      · simp only [passEnd]; cases x.rot <;> rfl
      · rw [ih]; simp only [passEnd]; cases x.rot <;> rfl
    · rfl

theorem pc_succ (p : BitVec 14) : BitVec.ofNat 14 (p.toNat + 1) = p + 1#14 := by
  apply BitVec.eq_of_toNat_eq; simp [BitVec.toNat_add]

theorem fld_issued (s : State) (f : Fld) (b : Nat) (hf : f.lo = 0) (hh : f.hi = 31) :
    (s.incFld f b).fld f b = satAdd (s.fld f b) 1 (2 ^ 32 - 1) := by
  unfold State.incFld State.addFld
  have hm : 2 ^ (f.hi + 1 - f.lo) - 1 = 2 ^ 32 - 1 := by rw [hf, hh]
  rw [hm]
  have hs : satAdd (s.fld f b) 1 (2 ^ 32 - 1) < 2 ^ 32 := by unfold satAdd; split <;> omega
  generalize satAdd (s.fld f b) 1 (2 ^ 32 - 1) = v at hs ⊢
  unfold State.fld
  rw [State.setFld_eq, State.reg_setReg_same, hf, hh]
  have hx : (s.reg (b + f.off)).toNat < 2 ^ 32 := (s.reg (b + f.off)).isLt
  generalize (s.reg (b + f.off)).toNat = x at hx
  have hb : bitsOf x 31 0 = x := by unfold bitsOf; simp; omega
  have hw : withBits x 31 0 v = v := by unfold withBits; rw [hb]; simp; omega
  rw [hw]
  rw [BitVec.toNat_ofNat, Nat.mod_eq_of_lt hs]
  unfold bitsOf; simp; omega

theorem apply_after (s : State) (n : Nat) (e : Eff) (xa ya : AccRes) : (apply s n e xa ya).after = .seq := rfl

theorem storesPut_flip2 (l : List (Nat × Word)) (s : State) (x : Nat) (h : x ∈ (storesPut s l).flip2) : x ∈ s.flip2 := by
  induction l generalizing s with
  | nil => exact h
  | cons e r ih =>
    have hh : storesPut s (e :: r) = storesPut (s.ramSetWord e.1 e.2) r := rfl
    rw [hh] at h
    exact (List.mem_filter.1 (ih _ h)).1

theorem appliedState_flip2 (s : State) (n : Nat) (e : Eff) (xa ya : AccRes) (x : Nat)
    (h : x ∈ (appliedState s n e xa ya).flip2) : x ∈ s.flip2 := by
  obtain ⟨reads, ones, k, hc⟩ := appliedState_counted s n e xa ya
  rw [hc, (counted_keeps _ _ _ _ _ _).2.2.1] at h
  unfold storedState at h
  rw [storesDone_flip2] at h
  simpa only [State.flip2_setCell] using storesPut_flip2 _ _ _ h

theorem apply_faults (s : State) (n : Nat) (e : Eff) (xa ya : AccRes) (he : e.faults = []) (hx : s.clean xa) (hy : s.clean ya) :
    (apply s n e xa ya).faults = [] := by
  have hb : (xa.reads ++ ya.reads).any (fun a => (apply s n e xa ya).s.flip2.contains a) = false := by
    rw [List.any_eq_false]
    intro a ha hc
    have hm : a ∈ (appliedState (s.landed n e xa ya) n e xa ya).flip2 := by rw [← apply_s]; simpa using hc
    have := (s.landed_did n e xa ya).1.flip2 a (appliedState_flip2 _ _ _ _ _ _ hm)
    rcases List.mem_append.1 ha with h | h
    · exact hx.2 a h this
    · exact hy.2 a h this
  have h : (apply s n e xa ya).faults = e.faults ++ xa.faults ++ ya.faults
    ++ (if (xa.reads ++ ya.reads).any (fun a => (apply s n e xa ya).s.flip2.contains a) then [1] else []) := rfl
  rw [h, hb, he, hx.1, hy.1]; rfl

/-- An instruction that has its own effect does what its effect and its accesses say, and nothing else. -/
theorem issue_did (s : State) (n : Nat) (stg : BitVec 3) (q : Bool) (act : State → Done) (r : RunCtx) (e : Eff)
    (xa ya : AccRes) (hi : s.issues n = some r) (h : s.ready n stg)
    (hact : act (s.atIssue n r) = apply (s.atIssue n r) n
      { e with run := e.run.map (fun x => { x with issued := r.issued + 1 }) } xa ya)
    (he : e.faults = []) (hx : s.clean xa) (hy : s.clean ya) (hal : ∀ x ∈ xa.stores ++ ya.stores, x.1 % 4 = 0) :
    Did s (issue s n stg q act) n e xa ya := by
  have hrun : (s.cell n).run = some r := by
    unfold State.issues at hi; simp only at hi; split at hi
    · exact hi
    · cases hi
  have hsh : (s.cell n).shadow = none := h.2.1
  have I := s.atIssue_did n r (s.issues_lt n r hi)
  rw [issue_ready s n stg q act r hi h]
  simp only [hact]
  generalize s.atIssue n r = v at I
  -- names for the effect, and what of it is as before
  generalize hE : ({ e with run := e.run.map (fun (x : RunCtx) => { x with issued := r.issued + 1 }) } : Eff) = E
  have hEf : E.f = e.f := by rw [← hE]
  have hEp : E.p = e.p := by rw [← hE]
  have hEm : E.m = e.m := by rw [← hE]
  have hEcc : E.cc = e.cc := by rw [← hE]
  have hErrb : E.rrb = e.rrb := by rw [← hE]
  have hEch : E.ch = e.ch := by rw [← hE]
  have hEtrig : E.trig = e.trig := by rw [← hE]
  have hEcon : E.conflict = e.conflict := by rw [← hE]
  have hErun : E.run = e.run.map (fun x => { x with issued := r.issued + 1 }) := by rw [← hE]
  have hEfaults : E.faults = [] := by rw [← hE]; exact he
  -- the state the instruction acts on
  have hfl : v.flip2 = s.flip2 := by rw [I.rest]
  have hram : v.ram = s.ram := by rw [I.rest]
  have himg : v.image = s.image := by rw [I.rest]
  have hax : v.axes = s.axes := by rw [I.rest]
  have hx' : v.clean xa := ⟨hx.1, by rw [hfl]; exact hx.2⟩
  have hy' : v.clean ya := ⟨hy.1, by rw [hfl]; exact hy.2⟩
  have hpend : ∀ d, (v.cell n).pendingAt d = (s.cell n).pendingAt d := by intro d; rw [I.cell]; rfl
  rw [apply_faults v n _ xa ya hEfaults hx' hy']
  simp only [lowest, List.foldl_nil, if_true]
  rw [apply_after, apply_s]
  -- what lands first
  obtain ⟨L, B⟩ := v.landed_did n E xa ya
  have hgl : ∀ k, (∀ x, e.trig = some x → (s.cell n).pendingAt (.reg k) = none) →
      ((v.landed n E xa ya).cell n).getF k = (s.cell n).getF k := by
    intro k hk
    rw [State.landed_getF]
    · rw [I.cell]; rfl
    · rcases ht : E.trig with _ | x
      · exact .inl rfl
      · rw [hEtrig] at ht
        exact .inr ((hpend _).trans (hk x ht))
  have hlen0 : E.trig = none → ((v.landed n E xa ya).cell n).trig.length = (s.cell n).trig.length := by
    intro ht
    have := (State.landWords_cell (xa.reads ++ ya.reads) v n).1
    unfold State.landed
    rw [ht]
    refine Eq.trans this ?_
    rw [I.cell]
  have hlen1 : ((v.landed n E xa ya).cell n).trig.length ≤ (s.cell n).trig.length := by
    have := B.len
    rw [I.cell] at this; exact this
  have hland : ∀ a, mayLand v n E xa ya (.mem a) → s.lands n e xa ya a := by
    intro a ha
    refine ⟨by rw [← hpend]; exact ha.1, ?_⟩
    rw [← hEtrig]
    rcases ha.2 with h1 | ⟨b, h1, h2⟩
    · exact .inl h1
    · have : a = b := by simpa using h2
      exact .inr (this ▸ h1)
  generalize hw : v.landed n E xa ya = w at L B hgl hlen0 hlen1
  -- the cell before and after
  have hcell := appliedState_cell w n E xa ya
  generalize hctr : w.freeCtr = ctr at hcell
  generalize hu : appliedState w n E xa ya = u at hcell
  have hc0 : w.cell n = { s.cell n with run := some { r with issued := r.issued + 1 }, f := (w.cell n).f, trig := (w.cell n).trig } := by
    have a := L.cell
    rw [I.cell] at a; exact a
  generalize hcw : w.cell n = c0 at hcell hc0 hgl hlen0 hlen1
  obtain ⟨tr, hap, htr⟩ := appliedCell_eq c0 ctr E xa ya
  obtain ⟨f', p', t', hwr, -⟩ := writtenCell_eq c0 ctr E xa ya
  have hgp : ∀ k, c0.rdP k = (s.cell n).rdP k := by intro k; rw [hc0]; rfl
  -- the state after the advance
  have hadv : u.advance n (s.cell n).pc.toNat .seq = u.setCell n (loopEnd (u.cell n) (s.cell n).pc.toNat (u.cell n).loops) := rfl
  rw [hadv]
  have hfin : (u.setCell n (loopEnd (u.cell n) (s.cell n).pc.toNat (u.cell n).loops)).cell n
      = loopEnd (u.cell n) (s.cell n).pc.toNat (u.cell n).loops := State.cell_setCell_same _ _ _
  have hle := loopEnd_eq (u.cell n) (s.cell n).pc.toNat (u.cell n).loops
  have hF : ∀ k, ((u.setCell n (loopEnd (u.cell n) (s.cell n).pc.toNat (u.cell n).loops)).cell n).getF k
      = (appliedCell c0 ctr E xa ya).getF k := by
    intro k; rw [hfin, hle, hcell]; rfl
  have hbyte : ∀ b, (u.setCell n (loopEnd (u.cell n) (s.cell n).pc.toNat (u.cell n).loops)).ramByte b
      = (storesPut w (xa.stores ++ ya.stores)).ramByte b := by
    intro b; rw [State.ramByte_setCell, ← hu, appliedState_ramByte]
  constructor
  case f =>
    intro k hk
    have hm : ((u.setCell n (loopEnd (u.cell n) (s.cell n).pc.toNat (u.cell n).loops)).cell n).getF k
        = (writtenCell c0 ctr E xa ya).getF k := by
      rw [hF]
      rcases ht : E.trig with _ | tt
      · rw [appliedCell_getF _ _ _ _ _ ht]
      · rw [appliedCell_trig _ _ _ _ _ _ ht, CellSt.getF_startTrig _ _ _ (hk tt (by rw [← hEtrig, ht])).2,
          appliedCell_getF _ _ _ _ _ rfl]; rfl
    have := writtenCell_getF c0 ctr E xa ya k
    rw [hEf] at this
    unfold Merged at this ⊢
    rw [hm, ← hgl k (fun x hx => (hk x hx).1)]; exact this
  case p =>
    intro k
    have hm : ((u.setCell n (loopEnd (u.cell n) (s.cell n).pc.toNat (u.cell n).loops)).cell n).rdP k
        = (writtenCell c0 ctr E xa ya).rdP k := by
      rw [hfin, hle, hcell, hap]; rfl
    have := writtenCell_rdP c0 ctr E xa ya k
    rw [hEp] at this
    unfold Merged at this ⊢
    rw [hm, ← hgp]; exact this
  case m =>
    intro k
    rw [hfin, hle, hcell, hap, hwr]
    have : CellSt.rdM (c0.putMs E.m) k = (lastAt E.m k).getD (c0.rdM k) := CellSt.rdM_putMs _ _ _
    rw [hEm] at this
    have h0 : c0.rdM k = (s.cell n).rdM k := by rw [hc0]; rfl
    rw [← h0, ← this]
    show Tab.get _ (c0.putMs E.m).m k = Tab.get _ (c0.putMs e.m).m k
    rw [hEm]
  case cc => rw [hfin, hle, hcell, hap]; show E.cc.getD c0.cc = _; rw [hEcc, hc0]
  case ch0 =>
    rw [hfin, hle, hcell, hap, hEch]
    have h0 : c0.ch0 = (s.cell n).ch0 := by rw [hc0]
    rw [← h0]
    all_goals rfl
  case ch1 =>
    rw [hfin, hle, hcell, hap, hEch]
    have h0 : c0.ch1 = (s.cell n).ch1 := by rw [hc0]
    rw [← h0]
    all_goals rfl
  case run =>
    rw [hfin, hle, hcell, hap]
    show E.run.or c0.run = _
    rw [hErun, hrun, hc0]
    rcases e.run with _ | x <;> rfl
  case held =>
    rw [hfin, hle, hcell, hap, hwr]
    rw [hc0]
    exact ⟨rfl, rfl, rfl, hsh⟩
  case next =>
    intro hl
    have hloops : (u.cell n).loops = (s.cell n).loops := by rw [hcell, hap, hwr, hc0]
    rw [hfin, hloops, loopEnd_none _ _ _ hl, hcell, hap, hwr]
    have h0 : c0.c = (s.cell n).c ∧ c0.rrb = (s.cell n).rrb := by rw [hc0]; exact ⟨rfl, rfl⟩
    refine ⟨pc_succ _, rfl, h0.1, ?_⟩
    show E.rrb.getD _ = _
    rw [hErrb, h0.2]
  case trig =>
    rw [hfin, hle, hcell, hap, ← hEtrig]
    show (_ → tr.length = _) ∧ (_ → ∃ k, _ ∧ tr.length = _)
    rw [htr]
    refine ⟨fun h0 => ?_, fun h0 => ⟨_, hlen1, ?_⟩⟩
    · rw [hlen0 h0, h0]; rfl
    · obtain ⟨x, hx⟩ := Option.ne_none_iff_exists'.1 h0
      rw [hx]; rfl
  case pend =>
    intro x d v hx hv
    have : ∀ c : CellSt, ((u.setCell n (loopEnd (u.cell n) (s.cell n).pc.toNat (u.cell n).loops)).cell n).pendingAt d
        = (appliedCell c0 ctr E xa ya).pendingAt d := by
      intro _; rw [hfin, hle, hcell]; rfl
    rw [this c0, appliedCell_trig _ _ _ _ _ x (by rw [hEtrig]; exact hx), CellSt.pendingAt_startTrig, hv]; rfl
  case stored =>
    intro a v ha
    have hw2 := storesPut_word (xa.stores ++ ya.stores) w a v hal ha
    unfold State.ramWord at hw2 ⊢
    rw [hbyte, hbyte, hbyte, hbyte]; exact hw2
  case bytes =>
    intro b hb hb2
    rw [hbyte, storesPut_byte _ _ _ hb, L.bytes b (fun a ha => hb2 a (hland a ha))]
    unfold State.ramByte; rw [hram]
  case axes =>
    intro h1 h2
    have hwa : w.axes = v.axes := L.axes (fun a ha => (State.blockAt_congr himg hax a).trans (h2 a (hland a ha)))
    rw [State.axes_setCell, ← hu, appliedState_axes, hwa, hax]
    intro x hx
    rw [State.blockAt_congr (L.image.trans himg) (hwa.trans hax)]; exact h1 x hx
  case issued =>
    have hr1 : (u.setCell n (loopEnd (u.cell n) (s.cell n).pc.toNat (u.cell n).loops)).reg (cellRegs n + Reg.cellIssuedIssued.off)
        = (s.incFld Reg.cellIssuedIssued (cellRegs n)).reg (cellRegs n + Reg.cellIssuedIssued.off) := by
      rw [State.reg_setCell, ← hu, appliedState_reg, ← I.issued]
      · unfold State.reg; rw [L.rest]
      · exact eccOff_ne n
      · intro j _
        simp only [cellRegs, regionBase, chBase, Reg.cellIssuedIssued, Reg.crcChCfgConflict]
        omega
    have h1 : ∀ v : State, v.reg (cellRegs n + Reg.cellIssuedIssued.off)
          = (s.incFld Reg.cellIssuedIssued (cellRegs n)).reg (cellRegs n + Reg.cellIssuedIssued.off) →
        v.fld Reg.cellIssuedIssued (cellRegs n) = (s.incFld Reg.cellIssuedIssued (cellRegs n)).fld Reg.cellIssuedIssued (cellRegs n) := by
      intro v hv
      unfold State.fld
      rw [hv]
    rw [h1 _ hr1, fld_issued _ _ _ (by rfl) (by rfl)]
  case regs =>
    intro o h1 h2 h3
    have hwv : w.reg o = v.reg o := by unfold State.reg; rw [L.rest]
    rw [State.reg_setCell, ← hu, appliedState_reg _ _ _ _ _ _ h2 (by rw [hEcon]; exact h3), hwv, I.regs o h1 h2]
  case cells =>
    intro j hj
    rw [State.cell_setCell, if_neg hj, ← hu, appliedState_cell_other _ _ _ _ _ _ hj, L.others j hj, I.others j hj]
  case rest =>
    have h1 := appliedState_eq w n E xa ya
    rw [hu] at h1
    have h2 : OnlyIssue v w := by
      have a := L.rest
      unfold OnlyIssue
      rw [a]
    have h3 : OnlyIssue s v := by
      have a := I.rest
      unfold OnlyIssue
      rw [a]
    have h4 := (h3.trans h2).trans h1
    generalize loopEnd (u.cell n) (s.cell n).pc.toNat (u.cell n).loops = d
    clear h1 h2 h3 hle hfin hadv hF hbyte hcell hap hwr L B I hu hw hact
    unfold OnlyIssue at h4
    rw [h4]; rfl

/-! ### The formats -/

theorem State.memWord_congr {s t : State} (h : t.image = s.image) (g : t.axes = s.axes) (m : t.ram = s.ram) (a : Nat) :
    t.memWord a = s.memWord a := by
  have hb : t.blockGet = s.blockGet := by
    funext b
    cases b <;> (unfold State.blockGet State.axis; rw [g])
  have hr : t.ramWord a = s.ramWord a := by unfold State.ramWord State.ramByte; rw [m]
  unfold State.memWord
  rw [State.blockAt_congr h g, hb, hr]

/-- An access is the same before the instruction is counted and where it acts. -/
theorem access_atIssue (s : State) (n : Nat) (r : RunCtx) (hi : s.issues n = some r) (b : Bank) (a : Access) :
    access (s.atIssue n r) n ((s.atIssue n r).cell n) b a = access s n (s.cell n) b a := by
  have I := s.atIssue_did n r (s.issues_lt n r hi)
  generalize s.atIssue n r = v at I
  have hw : ∀ x, coreWord v (v.cell n) x = coreWord s (s.cell n) x := by
    intro x
    unfold coreWord
    rw [State.memWord_congr (by rw [I.rest]) (by rw [I.rest]) (by rw [I.rest]), I.cell]; rfl
  unfold access
  simp only [hw]
  rw [I.cell]; rfl

theorem Bank.addr_aligned (b : Bank) (cell w : Nat) : b.addr cell w % 4 = 0 := by
  cases b <;> simp only [Bank.addr, xAddr, yAddr, cellBase, regionBase] <;> omega

/-- An access stores words at word addresses alone. -/
theorem access_aligned (s : State) (n : Nat) (c : CellSt) (b : Bank) (a : Access) :
    ∀ x ∈ (access s n c b a).stores, x.1 % 4 = 0 := by
  intro x hx
  unfold access at hx
  dsimp only at hx
  generalize (if a.pm then some (a.p.toNat, postMod (c.rdP a.p.toNat) (c.rdM a.m.toNat)) else none) = ptr at hx
  split at hx
  · simp at hx
  · split at hx
    · simp at hx
    · split at hx
      · simp at hx
      · split at hx
        · simp only [List.mem_singleton] at hx
          rw [hx]; exact Bank.addr_aligned _ _ _
        · simp at hx

/-- Format A: the effect with its two accesses. -/
theorem issueA_did (s : State) (i : FmtA) (eff : State → CellSt → Eff) (e : Eff) (r : RunCtx) (hi : s.issues i.cell = some r)
    (h : s.ready i.cell i.stg)
    (heff : eff (s.atIssue i.cell r) ((s.atIssue i.cell r).cell i.cell)
      = { e with run := e.run.map (fun x => { x with issued := r.issued + 1 }) })
    (he : e.faults = []) (hx : s.clean (s.xOf i)) (hy : s.clean (s.yOf i)) :
    Did s (issueA s i eff) i.cell e (s.xOf i) (s.yOf i) := by
  unfold issueA
  refine issue_did s i.cell i.stg false _ r e _ _ hi h ?_ he hx hy ?_
  · simp only [access_atIssue s i.cell r hi, heff]; rfl
  · intro x hx
    rcases List.mem_append.1 hx with h | h
    · exact access_aligned _ _ _ _ _ x h
    · exact access_aligned _ _ _ _ _ x h

/-- Format F: the effect with its one access. -/
theorem issueF_did (s : State) (i : FmtF) (eff : CellSt → Eff) (e : Eff) (r : RunCtx) (hi : s.issues i.cell = some r)
    (h : s.ready i.cell i.stg)
    (heff : eff ((s.atIssue i.cell r).cell i.cell)
      = { e with run := e.run.map (fun x => { x with issued := r.issued + 1 }) })
    (he : e.faults = []) (hx : s.clean (s.accOf i)) :
    Did s (issueF s i eff) i.cell e (s.accOf i) {} := by
  unfold issueF
  refine issue_did s i.cell i.stg false _ r e _ _ hi h ?_ he hx ⟨rfl, by simp⟩ ?_
  · simp only [access_atIssue s i.cell r hi, heff]; rfl
  · intro x hx
    rcases List.mem_append.1 hx with h | h
    · exact access_aligned _ _ _ _ _ x h
    · simp at h

/-- Format I: the effect alone. -/
theorem issueI_did (s : State) (i : FmtI) (eff : CellSt → Eff) (e : Eff) (r : RunCtx) (hi : s.issues i.cell = some r)
    (h : s.ready i.cell i.stg)
    (heff : eff ((s.atIssue i.cell r).cell i.cell)
      = { e with run := e.run.map (fun x => { x with issued := r.issued + 1 }) })
    (he : e.faults = []) :
    Did s (issueI s i eff) i.cell e {} {} := by
  unfold issueI
  refine issue_did s i.cell i.stg false _ r e _ _ hi h ?_ he ⟨rfl, by simp⟩ ⟨rfl, by simp⟩ (by simp)
  simp only [heff]

/-- Format M: the words loaded and stored. -/
theorem issueM_did (s : State) (i : FmtM) (acc : State → CellSt → AccRes) (a : AccRes) (r : RunCtx)
    (hi : s.issues i.cell = some r) (h : s.ready i.cell i.stg)
    (hacc : acc (s.atIssue i.cell r) ((s.atIssue i.cell r).cell i.cell) = a)
    (ha : s.clean a) (hal : ∀ x ∈ a.stores, x.1 % 4 = 0) :
    Did s (issueM s i acc) i.cell {} a {} := by
  unfold issueM
  refine issue_did s i.cell i.stg false _ r {} _ _ hi h ?_ rfl ha ⟨rfl, by simp⟩ ?_
  · simp only [hacc]; rfl
  · intro x hx
    rcases List.mem_append.1 hx with h | h
    · exact hal x h
    · simp at h

end Sys2Proof.Machine
end

