-- ==== Sys2Proof/Laws/Command.lean ====
section
/-! SUPPORT. What a journal entry, a reply and its way out of a port leave unchanged (R367, R388 to R391). -/

namespace Sys2Proof.Machine

/-! ### Replies -/

theorem State.setRegs_rest (s : State) (off : Nat) (l : List Word) : s.setRegs off l = { s with regs := (s.setRegs off l).regs } := by
  induction l generalizing s off with
  | nil => rfl
  | cons a r ih => unfold State.setRegs; rw [ih]; rfl

/-- A reply changes the host's side of its port, the registers, what was sent or waits at a backbone port, and the answer that Woad's
line awaits. -/
structure OnlyReply (s t : State) : Prop where
  rest : t = { s with host := t.host, regs := t.regs, bb := t.bb, woad := { s.woad with reply := t.woad.reply }, sent := t.sent }
  fenced : t.host.fenced = s.host.fenced
  waiting : t.host.waiting = s.host.waiting
  results : t.host.results = s.host.results

theorem OnlyReply.refl (s : State) : OnlyReply s s := ⟨rfl, rfl, rfl, rfl⟩

theorem OnlyReply.trans {s t u : State} (h : OnlyReply s t) (g : OnlyReply t u) : OnlyReply s u := by
  refine ⟨?_, g.fenced.trans h.fenced, g.waiting.trans h.waiting, g.results.trans h.results⟩
  have a := h.rest
  have b := g.rest
  have e : ∀ x : WoadSt, { t.woad with reply := x.reply } = { s.woad with reply := x.reply } := by
    intro x; rw [a]
  rw [b, e, a]

theorem OnlyReply.regs (s : State) (o : Nat) (w : Word) : OnlyReply s (s.setReg o w) := ⟨rfl, rfl, rfl, rfl⟩
theorem OnlyReply.setRegs (s : State) (o : Nat) (l : List Word) : OnlyReply s (s.setRegs o l) := by
  rw [State.setRegs_rest]; exact ⟨rfl, rfl, rfl, rfl⟩
theorem OnlyReply.setFld (s : State) (f : Fld) (v b : Nat) : OnlyReply s (s.setFld f v b) := ⟨rfl, rfl, rfl, rfl⟩
theorem OnlyReply.setBit (s : State) (f : Fld) (v : Bool) (b : Nat) : OnlyReply s (s.setBit f v b) := ⟨rfl, rfl, rfl, rfl⟩
theorem OnlyReply.emit (s : State) (o : Output) : OnlyReply s (s.emit o) := ⟨rfl, rfl, rfl, rfl⟩
theorem OnlyReply.sendFrame (s : State) (o : Output) : OnlyReply s (s.sendFrame o) := by
  unfold State.sendFrame; split <;> exact ⟨rfl, rfl, rfl, rfl⟩
theorem OnlyReply.bbSend (s : State) (p : Nat) (l : List Byte) : OnlyReply s (s.bbSend p l) := by
  unfold State.bbSend; split
  · exact ⟨rfl, rfl, rfl, rfl⟩
  · exact OnlyReply.sendFrame _ _
theorem OnlyReply.setQp (s : State) (q : Nat) (x : QpSt) : OnlyReply s (s.setQp q x) := ⟨rfl, rfl, rfl, rfl⟩
theorem OnlyReply.cqStat (s : State) (q : Nat) : OnlyReply s (s.cqStat q) := OnlyReply.setBit _ _ _ _
theorem OnlyReply.ite {s t u : State} {c : Prop} [Decidable c] (h : OnlyReply s t) (g : OnlyReply s u) : OnlyReply s (if c then t else u) := by
  split <;> assumption

theorem OnlyReply.writeReply (s : State) (q slot : Nat) (r : Reply) : OnlyReply s (s.writeReply q slot r) := by
  unfold State.writeReply
  refine OnlyReply.trans (OnlyReply.trans ?_ (OnlyReply.trans (OnlyReply.emit _ _) (OnlyReply.trans (OnlyReply.setFld _ _ _ _)
    (OnlyReply.trans (OnlyReply.setQp _ _ _) (OnlyReply.cqStat _ q))))) (OnlyReply.ite (OnlyReply.emit _ _) (OnlyReply.refl _))
  exact OnlyReply.ite (OnlyReply.refl _) (OnlyReply.emit _ _)

theorem OnlyReply.flushOwed (s : State) (q : Nat) (l : List Owed) : OnlyReply s (s.flushOwed q l) := by
  induction l generalizing s with
  | nil => exact OnlyReply.refl _
  | cons o r ih =>
    unfold State.flushOwed
    split
    · exact OnlyReply.refl _
    · exact (OnlyReply.setQp _ _ _).trans ((OnlyReply.writeReply _ _ _ _).trans (ih _))

theorem OnlyReply.keeperReply (s : State) (f : Nat) (r : Reply) : OnlyReply s (s.keeperReply f r) := by
  unfold State.keeperReply
  exact (OnlyReply.setRegs _ _ _).trans ((OnlyReply.setRegs _ _ _).trans ((OnlyReply.setFld _ _ _ _).trans
    ((OnlyReply.setFld _ _ _ _).trans (OnlyReply.emit _ _))))

/-- A reply on its way out. -/
theorem OnlyReply.deliver (s : State) (c : CmdIn) (r : Reply) : OnlyReply s (s.deliver c r) := by
  unfold State.deliver
  split
  · exact (OnlyReply.setQp _ _ _).trans (OnlyReply.flushOwed _ _ _)
  · exact OnlyReply.ite (OnlyReply.keeperReply _ _ _) (OnlyReply.refl _)
  · exact ⟨rfl, rfl, rfl, rfl⟩
  · refine OnlyReply.trans ?_ (OnlyReply.bbSend _ _ _); exact ⟨rfl, rfl, rfl, rfl⟩
  · exact ⟨rfl, rfl, rfl, rfl⟩
  · exact ⟨rfl, rfl, rfl, rfl⟩

/-- An answer, sent or held for the standby. -/
theorem OnlyReply.answer (s : State) (c : CmdIn) (status : Nat) (journaled : Bool) (seq : Nat) (cycle : Word) (o : CmdOut) :
    OnlyReply s (s.answer c status journaled seq cycle o) := by
  unfold State.answer
  split
  · exact ⟨rfl, rfl, rfl, rfl⟩
  · exact OnlyReply.deliver _ _ _

/-! ### Entries -/

/-- An entry changes Ochre, raisings on their way and what was sent. -/
def OnlyEntry (s t : State) : Prop :=
  t = { s with jnl := t.jnl, sent := t.sent, fox := { s.fox with inflight := t.fox.inflight } }

theorem OnlyEntry.trans {s t u : State} (h : OnlyEntry s t) (g : OnlyEntry t u) : OnlyEntry s u := by
  unfold OnlyEntry at *; rw [g, h]

theorem OnlyEntry.mirrorTest (s : State) : OnlyEntry s s.mirrorTest := by
  unfold State.mirrorTest; split <;> rfl

theorem ite_cases {α : Type} (b : Bool) (x y z : α) (h : z = if b = true then x else y) : z = y ∨ z = x := by
  cases b
  · exact .inl h
  · exact .inr h

theorem State.forward_cases (s : State) (e : JEntry) : s.forward e = s
    ∨ s.forward e = s.sendTwin 3 s.cycle (jBytes e) := by
  exact ite_cases _ _ _ _ rfl

theorem OnlyEntry.sendFrame (s : State) (o : Output) : OnlyEntry s (s.sendFrame o) := by
  unfold State.sendFrame; split <;> rfl

theorem OnlyEntry.forward (s : State) (e : JEntry) : OnlyEntry s (s.forward e) := by
  rcases s.forward_cases e with h | h <;> rw [h]
  · rfl
  · exact OnlyEntry.sendFrame _ _

theorem OnlyEntry.journal (s : State) (origin : BitVec 3) (index : Nat) (at_ : Bool) (opcode : Nat) (cycle : Word) (param : List Byte) :
    OnlyEntry s (s.journal origin index at_ opcode cycle param) := by
  unfold State.journal
  split
  · rfl
  · refine OnlyEntry.trans ?_ (OnlyEntry.forward _ _)
    refine OnlyEntry.trans ?_ (OnlyEntry.mirrorTest _)
    rfl

theorem OnlyEntry.journalCmd (s : State) (c : CmdIn) (cycle : Word) : OnlyEntry s (s.journalCmd c cycle) := OnlyEntry.journal _ _ _ _ _ _ _

@[simp] theorem State.host_journalCmd (s : State) (c : CmdIn) (w : Word) : (s.journalCmd c w).host = s.host := by
  rw [OnlyEntry.journalCmd s c w]
@[simp] theorem State.regs_journalCmd (s : State) (c : CmdIn) (w : Word) : (s.journalCmd c w).regs = s.regs := by
  rw [OnlyEntry.journalCmd s c w]
@[simp] theorem State.mode_journalCmd (s : State) (c : CmdIn) (w : Word) : (s.journalCmd c w).mode = s.mode := by
  rw [OnlyEntry.journalCmd s c w]
@[simp] theorem State.time_journalCmd (s : State) (c : CmdIn) (w : Word) : (s.journalCmd c w).time = s.time := by
  rw [OnlyEntry.journalCmd s c w]
@[simp] theorem State.ram_journalCmd (s : State) (c : CmdIn) (w : Word) : (s.journalCmd c w).ram = s.ram := by
  rw [OnlyEntry.journalCmd s c w]
@[simp] theorem State.edgesRun_journalCmd (s : State) (c : CmdIn) (w : Word) : (s.journalCmd c w).edgesRun = s.edgesRun := by
  unfold State.edgesRun; simp

/-- An entry written: its number, and where it stands. -/
theorem State.journal_jnl (s : State) (origin : BitVec 3) (index : Nat) (at_ : Bool) (opcode : Nat) (cycle : Word) (param : List Byte)
    (h : s.jnl.frozen = false) :
    (s.journal origin index at_ opcode cycle param).jnl.head = s.jnl.head + 1
      ∧ (s.journal origin index at_ opcode cycle param).jnl.entries
          = ({ seq := s.jnl.head + 1, tNs := s.time.ns, tS := s.time.s.setWidth 32, cycle := cycle, opcode := BitVec.ofNat 16 opcode
               origin := origin, at_ := at_, index := BitVec.ofNat 6 index, param := slice param 0 36 } :: s.jnl.entries).take 4096 := by
  have h' : s.jnlOpen = true := by simp [State.jnlOpen, h]
  have hm : ∀ t : State, t.mirrorTest.jnl.head = t.jnl.head ∧ t.mirrorTest.jnl.entries = t.jnl.entries := by
    intro t; unfold State.mirrorTest; split <;> exact ⟨rfl, rfl⟩
  have hf : ∀ (t : State) e, (t.forward e).jnl = t.jnl := by
    intro t e
    rcases t.forward_cases e with h | h <;> rw [h]
    rw [State.sendTwin, OnlyEntry.sendFrame]
    unfold State.sendFrame; split <;> rfl
  simp only [State.journal, h', hf, Bool.not_true, Bool.false_eq_true, if_false]
  exact ⟨(hm _).1, (hm _).2⟩

end Sys2Proof.Machine
end

