-- ==== Sys2Proof/Laws/Time.lean ====
section
/-! SUPPORT. What running the counter on to an instant, a register write and a row of a register leave unchanged (R330 to R333, R361). -/

namespace Sys2Proof.Machine

/-! ### The counter -/

theorem State.ticks_rest (s : State) (k : Nat) : s.ticks k = { s with time := (s.ticks k).time } := by
  unfold State.ticks; split <;> rfl

/-- What running on to an instant does: nothing when that has come, else another time, which TIME_STAT shows. -/
theorem State.advanceTo_cases (s : State) (x : Int) :
    s.advanceTo x = s ∨ ∃ t, s.advanceTo x = ({ s with time := t } : State).rampStat := by
  unfold State.advanceTo
  dsimp only
  split
  · exact .inl rfl
  · exact .inr ⟨_, rfl⟩

/-- The counter run on changes the time and TIME_STAT alone. -/
theorem State.advanceTo_rest (s : State) (x : Int) :
    s.advanceTo x = { s with time := (s.advanceTo x).time, regs := (s.advanceTo x).regs } := by
  rcases State.advanceTo_cases s x with h | ⟨t, h⟩ <;> rw [h]
  rfl

theorem State.toInstant_rest (s : State) (x : Int) :
    s.toInstant x = { s with time := (s.toInstant x).time, regs := (s.toInstant x).regs } := by
  unfold State.toInstant
  split
  · exact State.advanceTo_rest _ _
  · rfl

@[simp] theorem State.mode_advanceTo (s : State) (x : Int) : (s.advanceTo x).mode = s.mode := by rw [State.advanceTo_rest]
@[simp] theorem State.lsp_advanceTo (s : State) (x : Int) : (s.advanceTo x).lsp = s.lsp := by rw [State.advanceTo_rest]
@[simp] theorem State.mad_advanceTo (s : State) (x : Int) : (s.advanceTo x).mad = s.mad := by rw [State.advanceTo_rest]
@[simp] theorem State.ram_advanceTo (s : State) (x : Int) : (s.advanceTo x).ram = s.ram := by rw [State.advanceTo_rest]
@[simp] theorem State.cycle_advanceTo (s : State) (x : Int) : (s.advanceTo x).cycle = s.cycle := by rw [State.advanceTo_rest]
@[simp] theorem State.mode_toInstant (s : State) (x : Int) : (s.toInstant x).mode = s.mode := by rw [State.toInstant_rest]
@[simp] theorem State.lsp_toInstant (s : State) (x : Int) : (s.toInstant x).lsp = s.lsp := by rw [State.toInstant_rest]
@[simp] theorem State.mad_toInstant (s : State) (x : Int) : (s.toInstant x).mad = s.mad := by rw [State.toInstant_rest]
@[simp] theorem State.ram_toInstant (s : State) (x : Int) : (s.toInstant x).ram = s.ram := by rw [State.toInstant_rest]
@[simp] theorem State.cycle_toInstant (s : State) (x : Int) : (s.toInstant x).cycle = s.cycle := by rw [State.toInstant_rest]

/-- A register other than TIME_STAT keeps its value while the counter runs on. -/
theorem State.reg_advanceTo (s : State) (x : Int) (o : Nat) (h : o ≠ Reg.timeStatRamping.off) : (s.advanceTo x).reg o = s.reg o := by
  rcases State.advanceTo_cases s x with e | ⟨t, e⟩ <;> rw [e]
  rw [State.rampStat, State.reg_setBit_other _ _ _ _ _ (by simpa using h)]; rfl

/-! ### Rows of registers -/

/-- A write that a row acts on, of a register that may be written and is there, is its effect. -/
theorem State.ownWrite_taken (s : State) (w : RegWrite) (f : State → State) (h : s.awake = true) (m : mayWrite w.fn w.off = true)
    (p : s.shutAt w.off = false) : s.ownWrite w true f = f s := by simp [State.ownWrite, h, m, p]

/-- One that the function may not write is counted. -/
theorem State.ownWrite_refused (s : State) (w : RegWrite) (f : State → State) (h : s.awake = true) (m : mayWrite w.fn w.off = false) :
    s.ownWrite w true f = s.incFld Reg.cmdAuthErrPf1Wr := by simp [State.ownWrite, h, m]

/-- One of a register that the variant lacks or whose cell is held, or that the row does not act on, does nothing. -/
theorem State.ownWrite_absent (s : State) (w : RegWrite) (f : State → State) (h : s.awake = true) (m : mayWrite w.fn w.off = true)
    (p : s.shutAt w.off = true) : s.ownWrite w true f = s := by simp [State.ownWrite, h, m, p]
theorem State.ownWrite_other (s : State) (w : RegWrite) (f : State → State) : s.ownWrite w false f = s := by simp [State.ownWrite]

end Sys2Proof.Machine
end

