-- ==== Sys2Proof/WellFormed.lean ====
section
/-! DEFINITION. When a command is well formed: its indices name units of the T256, its packets and parameter areas have their
lengths, offsets are those of words in BAR0 (R10, R52, R363). Bit fields need no check: their widths bound them.
Log: DESIGN CHOICE 52, 186. -/

namespace Sys2Proof

/-- A write or read of BAR0: a PCIe function, a word of its 128 MiB (R10, R361). -/
def RegWrite.wf (w : RegWrite) : Bool := decide (w.fn < 2) && decide (w.off % 4 = 0) && decide (w.off < 0x08000000)
def RegRead.wf (r : RegRead) : Bool := decide (r.fn < 2) && decide (r.off % 4 = 0) && decide (r.off < 0x08000000)

/-- A port that exists (R357, R381). -/
def Port.wf : Port → Bool
  | .qp q => decide (q < 64)
  | .keeper fn => decide (fn < 2)
  | .spi => true
  | .backbone port _ => decide (port < 2)
  | .woadLine => true
  | .workItem ch => decide (ch < 64)

/-- A command packet has 64 bytes, 40 of them parameters (R363). -/
def CmdReq.wf (r : CmdReq) : Bool := r.port.wf && decide (r.param.length = 40)
def Packet.wf (p : Packet) : Bool := decide (p.bytes.length = 64)

/-- A ring that exists. -/
def RingSide.wf (r : RingSide) : Bool := decide (r.ring < 8)

/-- A receiver that exists (R271, R339). -/
def Receiver.wf : Receiver → Bool
  | .ring rs => rs.wf
  | .backbone p => decide (p < 2)

/-- A loop of a cell: its counter is c0 to c7 by width; a rotating loop has 1 to 5 stages coded 0 to 4 (R65, R100). -/
def FmtL.wf (i : FmtL) : Bool := decide (i.cell < 64)

/-- A backbone frame's length is that of its bytes at least (R339). -/
def BbFrame.wf (f : BbFrame) : Bool := decide (f.payload.length + 18 = f.length)

/-- A raising: a class of eight bits, a level of L0 to L3 (R446). -/
def Raising.wf (r : Raising) : Bool := decide (r.cls < 256) && decide (r.level < 4)

/-- A DMA descriptor has 32 bytes (R488). -/
def DmaDesc.wf (d : DmaDesc) : Bool := decide (d.bytes.length = 32)

/-- A journal entry records 36 parameter bytes and a number of 64 bits (R389). -/
def JEntry.wf (e : JEntry) : Bool := decide (e.param.length = 36) && decide (e.seq < 2 ^ 64)

/-- A token has 1 to 64 words, on a queue that exists (R132, R166). -/
def TokenRec.wf (t : TokenRec) : Bool := decide (t.queue < 8192) && decide (1 ≤ t.tok.words.length ∧ t.tok.words.length ≤ 64)

/-- What a replay cycle reads (R159). -/
def ReplayIn.wf (x : ReplayIn) : Bool := x.journal.all JEntry.wf

/-- A comparator edge names a phase (R302). -/
def MaskEdge.wf : MaskEdge → Bool
  | .zc phase _ => decide (phase < 3)
  | .hall _ => true

/-- A COPY frame carries 1 to 248 bytes (R429). -/
def TwinCopy.wf (c : TwinCopy) : Bool := decide (1 ≤ c.data.length ∧ c.data.length ≤ 248)

/-- A Woad line frame (R412). -/
def WlFrame.wf : WlFrame → Bool
  | .telegram _ => true
  | .command p => p.wf
  | .reply _ => true
  | .heartbeat b => b.length == 8
  | .other _ b => decide (b.length ≤ 255)

/-- The ranges of a queue, an operation and a work-item channel on a part of some regions (R131, R152, R166). -/
def QDesc.fits (regions : Nat) (d : QDesc) : Bool :=
  decide (d.id < 2048 * regions ∧ d.kind ≤ 5)
    && (decide (3 < d.kind) || decide (1 ≤ d.depth ∧ d.depth ≤ 64 ∧ 1 ≤ d.words ∧ d.words ≤ 64 ∧ d.lag ≤ 3))
    && (d.kind != 3 || decide (2 ≤ d.words ∧ d.words ≤ 17))
def OpDesc.fits (regions : Nat) (d : OpDesc) : Bool :=
  decide (d.cell < 16 * regions ∧ d.entry < 16384 ∧ d.prio < 8 ∧ d.ports.length ≤ 16)
def WicDesc.fits (regions : Nat) (d : WicDesc) : Bool :=
  decide (d.id < 64 ∧ d.owner ≤ 3 ∧ d.home < 4 * regions ∧ 1 ≤ d.depth ∧ d.depth ≤ 256 ∧ d.prio < 8 ∧ d.ports.length ≤ 4)

/-- Wheels of the lengths and weights of R30 and R33. -/
def Wheels.fits (w : Wheels) : Bool :=
  w.blocks.all (fun e => decide (e.2.length = 16) && e.2.all (fun x => x.all (fun p => decide (p < 4))))
    && w.regions.all (fun e => decide (e.2.length = 64) && e.2.all (fun x => x.all (fun p => decide (p < 5))))
    && w.weights.all (fun e => decide (e.2.length = 5) && e.2.all (fun k => decide (1 ≤ k ∧ k ≤ 15)))
    && decide (w.chip.length = 0 ∨ w.chip.length = 256)

/-- The ranges of a slot, a schedule entry and a ring (R239, R256, R288). -/
def SlotDesc.fits (d : SlotDesc) : Bool :=
  decide (d.node < 16 ∧ 1 ≤ d.hop ∧ d.hop ≤ 16 ∧ 1 ≤ d.axes ∧ d.axes ≤ 8 ∧ 1 ≤ d.holdLimit ∧ d.holdLimit ≤ 255)
def SchedEntry.fits (e : SchedEntry) : Bool :=
  decide (e.kind < 10 ∧ e.topo < 3 ∧ e.rate < 3 ∧ e.side < 3 ∧ e.node < 16 ∧ e.per ≤ 6 ∧ e.phase < 2 ^ e.per ∧ e.dur < 16384
    ∧ -67108864 ≤ e.offset ∧ e.offset < 67108864)
def RingCfg.fits (regions : Nat) (c : RingCfg) : Bool :=
  decide (c.ring < 2 * regions) && c.slots.all SlotDesc.fits && decide (c.slots.length ≤ 16) && decide (c.slots.map SlotDesc.node).Nodup
    && decide ((c.slots.map SlotDesc.axes).foldl (· + ·) 0 ≤ 64) && decide (c.sched.length ≤ 2048) && c.sched.all SchedEntry.fits

/-- The loop group of an axis: its ring half, by the slot that carries it, or its local group (R204). -/
def Image.loopOf (i : Image) (a : Nat) : Option Nat :=
  if 256 ≤ a then some (16 + (a - 256))
  else i.rings.findSome? (fun c => (c.slots.find? (fun d => decide (d.firstAxis ≤ a ∧ a < d.firstAxis + d.axes))).map (fun d =>
    2 * c.ring + (match d.side with | .east => 0 | .west => 1)))

/-- The axes of a K_INNER operation: one, or two of one loop group (R208). -/
def Image.innerFits (i : Image) : Kernel → Bool
  | .inner axes => decide (1 ≤ axes.length ∧ axes.length ≤ 2) && axes.all (fun a => decide (i.loopOf a = i.loopOf (axes.headD 0)))
  | _ => true

/-- The axes of an image: network axes by variant and cycle rate, and 8 local ones (R208). -/
def Image.axesFit (regions : Nat) (i : Image) : Bool :=
  let net := (i.axes.filter (fun c => decide (c.axis < 256))).length
  decide (net ≤ if i.f ≤ 64000 then 64 * regions else 32 * regions) && i.axes.all (fun c => decide (c.axis < 264 ∧ c.params.length ≤ 128))
    && decide (i.axes.map AxisCfg.axis).Nodup && i.ops.all (fun d => i.innerFits d.kernel)

/-- The ranges of a safety parameter set at a cycle rate (R399, R418): the safety cycle lasts 125 µs to 8 ms. -/
def SafetySet.fits (f : Nat) (p : SafetySet) : Bool :=
  decide (8 ≤ p.scDiv ∧ p.scDiv ≤ 1024 ∧ 125 * f ≤ p.scDiv * 1000000 ∧ p.scDiv * 1000000 ≤ 8000 * f)
    && decide (p.inputs.length ≤ 16 ∧ p.outputs.length ≤ 8)
    && p.inputs.all (fun x => decide (1 ≤ x.filt ∧ x.filt ≤ 32 ∧ 1 ≤ x.disc ∧ x.disc ≤ 500))
    && p.conns.all (fun x => decide (2 ≤ x.wd ∧ x.wd ≤ 16)) && p.line.all (fun e => decide (0 < e.per ∧ e.phase < e.per))

/-- The words of the state copy whose number an image gives (R428): state blocks of kernels of a cell's own, repetitive tables, tokens of
queues with a lag, mailbox values; at most 96 KiB of them (log entry 52). -/
def Image.copyWords (i : Image) : Nat :=
  (i.ops.map OpDesc.stateWords).foldl (· + ·) 0 + (i.axes.map (fun c => if ((c.params[64]?).getD 0#32).getLsbD 1 then ((c.params[75]?).getD 0#32).toNat else 0)).foldl (· + ·) 0
    + (i.queues.map (fun d => (if d.lag = 0 then 0 else d.depth * d.words) + (if d.kind = 3 then d.words else 0))).foldl (· + ·) 0

/-- An image within the capacities of a part of some regions (R5, R134, R166, R208, R288, R418, R445): queues and pool places by block,
operations by block, axes, rings, the safety parameter set, the state copy. -/
def Image.fits (regions : Nat) (i : Image) : Bool :=
  i.axesFit regions && i.rings.all (RingCfg.fits regions) && (i.safety.map (SafetySet.fits i.f)).getD true
    && decide (4 * i.copyWords ≤ 98304) && i.queues.all (QDesc.fits regions) && i.ops.all (OpDesc.fits regions) && i.wics.all (WicDesc.fits regions)
    && decide (i.queues.map QDesc.id).Nodup && decide (i.wics.map WicDesc.id).Nodup
    && (List.range (4 * regions)).all (fun b =>
      decide (i.pool (fun d => d.id / 512 == b) (fun d => d.home == b) ≤ 1024)
        && decide ((i.ops.filter (fun d => d.cell / 4 == b)).length ≤ 256))
    && decide (i.tokens ≤ 4096 * regions) && i.wheels.fits

/-- A command is well formed. -/
def Instr.wf : Instr → Bool
  | .nop i | .endOp i | .br i | .breq i | .brne i | .brlt i => decide (i.cell < 64)
  | .brge i | .brun i | .bror i | .brgt i | .brle i | .brts i => decide (i.cell < 64)
  | .brtc i => decide (i.cell < 64)
  | .loop i | .loopp i => i.wf
  | .setrrb i | .tsync i | .movfi i | .movpi i | .movmi i | .movpf i => decide (i.cell < 64)
  | .movfp i | .movmf i | .movfm i | .movfc i | .movfcc i | .movrrb i => decide (i.cell < 64)
  | .add i | .sub i | .mul i | .fmac i | .fmsc i | .minOp i => decide (i.cell < 64)
  | .maxOp i | .absOp i | .neg i | .mov i | .sat i | .muln i => decide (i.cell < 64)
  | .cvtfi i | .cvtif i | .fma i | .fms i | .fnma i | .fnms i => decide (i.cell < 64)
  | .selz i | .seln i | .cmp i | .cmpz i | .icmp i | .pcmp i => decide (i.cell < 64)
  | .iadd i | .isub i | .imul i | .andOp i | .orOp i | .xorOp i => decide (i.cell < 64)
  | .shl i | .shr i | .sar i | .imin i | .imax i | .isatu i => decide (i.cell < 64)
  | .notOp i | .clarke i | .clarke3 i | .park i | .ipark i | .svm3 i => decide (i.cell < 64)
  | .tap i | .tapn i | .tap0 i | .limv i | .angw i | .angadd i => decide (i.cell < 64)
  | .sin i | .cos i | .sincos i | .atan2 i | .sqrt i | .rsqrt i => decide (i.cell < 64)
  | .recip i | .exp2 i | .log2 i | .sinm i | .cosm i | .sincosm i => decide (i.cell < 64)
  | .atan2m i | .sqrtm i | .rsqrtm i | .recipm i | .exp2m i | .log2m i => decide (i.cell < 64)
  | .trigWriteback cell => decide (cell < 64)
  | .qget i | .qput i | .qputr i | .qhold i | .qish i | .qcyc i => decide (i.cell < 64)
  | .crc8_0 i | .crc8_1 i | .crc32_0 i | .crc32_1 i | .crcrd_0 i | .crcrd_1 i => decide (i.cell < 64)
  | .rnd i | .frac i | .sign i | .cpsgn i | .scale i | .deadz i => decide (i.cell < 64)
  | .lpf i | .dot2 i | .cross2 i | .mag2 i | .ldx i | .ldy i => decide (i.cell < 64)
  | .stx i | .sty i | .ldxp i | .ldyp i | .stxp i | .styp i => decide (i.cell < 64)
  | .movpp i | .movmm i | .addpm i | .addpi i | .movpc i | .popc i => decide (i.cell < 64)
  | .clz i | .bext i | .bins i | .andi i | .ori i | .xori i => decide (i.cell < 64)
  | .iaddi i | .icmpi i | .shli i | .shri i | .sari i | .addfi i => decide (i.cell < 64)
  | .mulfi i | .fmacfi i | .minfi i | .maxfi i | .satfi i | .cmpfi i => decide (i.cell < 64)
  | .diffw i | .ucvtf i | .cvtfu i | .pack16 i | .unpkl i | .unpkh i => decide (i.cell < 64)
  | .ints i | .rlim i | .maxabs i | .avg i | .sqdif i => decide (i.cell < 64)
  | .illegalOpcode cell _ _ => decide (cell < 64)
  | .regionWindowWrite w | .registerWrite w => w.wf
  | .cycleEdge | .cycleEndFence => true
  | .operationFence op => decide (op < 4096)
  | .operationDispatch cell => decide (cell < 64)
  | .delayListExpiry region => decide (region < 4)
  | .replayStart w | .replayStep w | .replayAbort w => w.wf
  | .replayCycle inp => inp.wf
  | .madWicPrioWrite w | .madWicCancelWrite w => w.wf
  | .madDigestCycleRead r => r.wf
  | .snapshotComplete _ => true
  | .workSubmit r | .workCancel r | .workComplRead r | .mailboxPost r | .snapshot r | .axisModeSet r => r.wf
  | .axisParamSet r | .axisParamGet r | .axisStatusGet r | .axisReset r | .axisCurRef r | .motionTarget r => r.wf
  | .motionParamSet r | .motionParamGet r | .motionStatusGet r | .motionPosGet r | .rcCtrl r | .microstepTableSet r => r.wf
  | .xwCtrlWrite w => w.wf
  | .ringLockChange rs _ => rs.wf
  | .ringRateTryExpiry ring => decide (ring < 8)
  | .rxPolarityCorrect x => x.wf
  | .ringCsInstant ring | .ringLoneEntry ring => decide (ring < 8)
  | .ringSampleDue rs | .ringCmdLaunch rs | .ringAsyncOutWindow rs | .ringSafetyOutWindow rs => rs.wf
  | .ringTopoWindow ring => decide (ring < 8)
  | .ringCycleStartReceive rs _ | .ringSampleSubframeReceive rs _ | .ringCommandTrainReceive rs _ | .ringAsyncReceive rs _ | .ringSafetyReceive rs _ | .ringTopoLoopReceive rs _ => rs.wf
  | .ringDiscoverReturn rs _ | .ringEchoReceive rs _ | .ringClaimReceive rs _ => rs.wf
  | .ringDiscoverRetry ring | .ringRecloseStart ring => decide (ring < 8)
  | .xwArspPopWrite w => w.wf
  | .ringStatusGet r | .ringAsyncPost r | .ringResetBcast r | .ringClaimSet r | .ringSlotRelease r | .ringReclose r => r.wf
  | .localCmdLaunch | .localApplyInstant => true
  | .delayLineCalibration _ => true
  | .maskEvent group e => decide (group < 8) && e.wf
  | .maskStep group => decide (group < 8)
  | .gateShortDetect group out => decide (group < 8) && decide (out < 8)
  | .adcTimedStart conv => decide (conv < 16)
  | .adcConversionComplete conv _ => decide (conv < 16)
  | .adcUrgWrite w => w.wf
  | .adcRecordDue => true
  | .adcCalComplete _ _ => true
  | .adcCalTimeout => true
  | .fbQuadEdge fb _ => decide (fb < 8)
  | .fbZEdge fb => decide (fb < 8)
  | .fbHallChange fb _ => decide (fb < 8)
  | .fbSerialRequest fb => decide (fb < 8)
  | .fbSerialFrame fb _ => decide (fb < 8)
  | .fbSerialDeadline fb => decide (fb < 8)
  | .fbPairLoss fb pair _ => decide (fb < 8) && decide (pair < 3)
  | .lgStatusGet r | .lgFaultClear r | .adcCalPoint r | .fbPosSet r => r.wf
  | .timeIncTgtCommit w => w.wf
  | .rampBoundary => true
  | .timeSlewWrite w | .timeHoldWrite w => w.wf
  | .holdoverExpiry => true
  | .timeNowSubRead r => r.wf
  | .ppsRise | .ppsFall => true
  | .clkOutCommit w => w.wf
  | .clkOutLock k => decide (k < 2)
  | .timeStatusGet r | .timeSet r => r.wf
  | .bbFrameReceive port f => decide (port < 2) && f.wf
  | .bbFrameTransmit port _ => decide (port < 2)
  | .bbTimedLaunch port => decide (port < 2)
  | .bbTxTailWrite w | .bbRxTailWrite w | .bbTsqPopWrite w => w.wf
  | .bbLockLoss port => decide (port < 2)
  | .bbBypassWrite w => w.wf
  | .bypassSwitchComplete sw => decide (sw < 9)
  | .qpSqTailWrite w | .qpCqHeadWrite w | .qpCtrlWrite w => w.wf
  | .qpCommandFetch qp p => decide (qp < 64) && p.wf
  | .commandProcess => true
  | .commandTimeout src => decide (src < 71)
  | .qpHostError qp => decide (qp < 64)
  | .functionLevelReset fn => decide (fn < 2)
  | .pcieLinkDown => true
  | .pcieLinkRetrain _ _ => true
  | .kprGoWrite w => w.wf
  | .spiCmd p => p.wf
  | .spiRpl => true
  | .spiRdreg off => decide (off % 4 = 0) && decide (off < 0x08000000)
  | .journalMirrorWrite _ _ => true
  | .vholdLow => true
  | .ping r | .statusGet r | .levelReset r => r.wf
  | .levelResetUnitEnd level index => decide (level < 4) && decide (index < 64)
  | .bypassSet r | .modeGet r | .safeStop r | .journalRead r | .faultRead r | .faultAck r => r.wf
  | .modeSet r | .runCtrl r | .rearm r | .cfgStatusGet r | .cfgLoad r => r.wf
  | .cfgLoadComplete f => ({ f.image with f := f.hz } : Image).fits (if f.variants.testBit 2 then 2 else 4)
  | .cfgStore r => r.wf
  | .cfgStoreComplete _ => true
  | .paramSave r => r.wf
  | .paramSaveComplete _ | .safetyCycleStart _ | .safeInputSample _ => true
  | .safeInputDiscrepancy k => decide (k < 16)
  | .testPulse _ => true
  | .testPulseCheck k _ _ => decide (k < 16)
  | .safeOutputTest k _ => decide (k < 8)
  | .woadTelegramReceive _ _ => true
  | .woadWatchdogExpiry _ => true
  | .woadLineFrameReceive port f => decide (port < 2) && f.wf
  | .woadLineSlot _ => true
  | .safetyStatusGet r | .safetyCrcGet r | .safetyConfirm r | .safetyReset r | .safetyUnlock r => r.wf
  | .twinHeartbeatReceive _ | .twinMirrorReceive _ => true
  | .twinJournalReceive e => e.wf
  | .twinCopyReceive c => c.wf
  | .twinDigestReceive _ _ => true
  | .twinAckReceive _ | .twinSyncReceive _ => true
  | .twinLinkDown | .takeoverWatch | .syncCatchUpCycle | .syncGiveUp => true
  | .twinStatusGet r | .twinSwitch r | .twinSync r | .twinInhibit r | .faultRaising r => r.wf
  | .faultQuietExpiry level _ => decide (level < 4)
  | .alarmWindowExpiry _ | .thermalSensorRead _ | .supplyOutOfRange _ => true
  | .islandLockLoss island => decide (island < 108)
  | .indigoGroupClose => true
  | .sequencerTimerExpiry k => decide (k < 4)
  | .trigFireRelease | .indigoGroupWritten | .trigFireEdge => true
  | .trigArmChange _ => true
  | .indStatusGet r | .indStart r | .indStop r | .indArm r | .indMark r => r.wf
  | .dmaETailWrite w | .dmaECtrlWrite w => w.wf
  | .dmaDescriptorStart e d => decide (e < 8) && d.wf
  | .dmaDescriptorEnd e _ => decide (e < 8)
  | .scrubPeriod _ _ => true
  | .crcScanGo w => w.wf
  | .scanComplete _ => true
  | .crcChValHiWrite w => w.wf
  | .crcChValLoRead r => r.wf
  | .crcChCfgWrite w => w.wf
  | .dmaStatusGet r | .memCheck r => r.wf
  | .powerOn _ => true
  | .supplyLoss | .resetNLow => true
  | .resetEnd _ => true
  | .bootSequenceEnd => true
  | .pfailDetect _ => true
  | .pfailRelease | .pfailRestoreHoldExpiry => true
  | .jtagInstruction _ => true
  | .registerRead r | .regionWindowRead r => r.wf
  | .bbBlockLock port => decide (port < 2)
  | .twinLinkUp => true
  | .islandLockRegained island => decide (island < 108)
  | .sampleTrainLaunch rs => rs.wf
  | .carrierPeriodStart group => decide (group < 8)
  | .mixedDecayEnd group _ => decide (group < 8)

end Sys2Proof
end

