-- ==== Sys2Proof/Tests/Slice0.lean ====
section
/-! SUPPORT. The ill-formed terms that `Instr.wf` refuses, words of each cell family, small tests of one step each with what the
manual gives, and for every obligation states and operands that meet its hypotheses. -/

namespace Sys2Proof.Tests

open Sys2Proof.Machine Sys2Proof.Spec

set_option Elab.async false

/-! ### Ill-formed commands, one for each check -/

/-- A command packet's row with parameters of length `n`. -/
def reqOf (port : Port) (n : Nat) : CmdReq := ⟨port, false, false, false, 0#16, 0#32, true, List.replicate n 0#8⟩

theorem test_wf_cell : Instr.wf (.operationDispatch 64) = false ∧ Instr.wf (.trigWriteback 64) = false
    ∧ Instr.wf (.illegalOpcode 64 0#3 0#8) = false ∧ Instr.wf (.br ⟨64, 0#3, 0#14⟩) = false
    ∧ Instr.wf (.loop ⟨64, 0#3, 0#3, false, 0#3, 0#16, 0#14⟩) = false := by decide
theorem test_wf_write_function : Instr.wf (.registerWrite ⟨2, 0, 0#32⟩) = false := by decide
theorem test_wf_write_word : Instr.wf (.registerWrite ⟨0, 2, 0#32⟩) = false := by decide
theorem test_wf_write_bar : Instr.wf (.regionWindowWrite ⟨0, 0x08000000, 0#32⟩) = false := by decide
theorem test_wf_read_function : Instr.wf (.registerRead ⟨2, 0⟩) = false := by decide
theorem test_wf_read_word : Instr.wf (.registerRead ⟨0, 1⟩) = false := by decide
theorem test_wf_read_bar : Instr.wf (.regionWindowRead ⟨1, 0x08000000⟩) = false := by decide
theorem test_wf_rdreg : Instr.wf (.spiRdreg 3) = false ∧ Instr.wf (.spiRdreg 0x08000000) = false := by decide
theorem test_wf_pair : Instr.wf (.ping (reqOf (.qp 64) 40)) = false ∧ Instr.wf (.ping (reqOf (.qp 63) 40)) = true := by decide
theorem test_wf_keeper : Instr.wf (.ping (reqOf (.keeper 2) 40)) = false := by decide
theorem test_wf_backbone_port : Instr.wf (.ping (reqOf (.backbone 2 0#48) 40)) = false := by decide
theorem test_wf_channel : Instr.wf (.ping (reqOf (.workItem 64) 40)) = false := by decide
theorem test_wf_parameters : Instr.wf (.ping (reqOf .spi 39)) = false ∧ Instr.wf (.ping (reqOf .spi 41)) = false := by decide
theorem test_wf_packet : Instr.wf (.spiCmd ⟨List.replicate 63 0#8⟩) = false := by decide
theorem test_wf_packet_line : Instr.wf (.woadLineFrameReceive 0 (.command ⟨[]⟩)) = false := by decide
theorem test_wf_ring : Instr.wf (.ringSampleDue ⟨8, .east⟩) = false ∧ Instr.wf (.ringCsInstant 8) = false := by decide
theorem test_wf_frame_length :
    Instr.wf (.bbFrameReceive 0 ⟨true, 65, 0#16, 0#48, 0#48, List.replicate 46 0#8, 0⟩) = false := by decide +kernel
theorem test_wf_backbone : Instr.wf (.bbLockLoss 2) = false ∧ Instr.wf (.bbBlockLock 2) = false := by decide
theorem test_wf_raising_class : Instr.wf (.faultRaising ⟨256, 0, ⟨0, 0⟩⟩) = false := by decide
theorem test_wf_raising_level : Instr.wf (.faultRaising ⟨0, 4, ⟨0, 0⟩⟩) = false
    ∧ Instr.wf (.faultQuietExpiry 4 ⟨0, 0⟩) = false := by decide
theorem test_wf_descriptor : Instr.wf (.dmaDescriptorStart 0 ⟨List.replicate 31 0#8⟩) = false := by decide
theorem test_wf_engine : Instr.wf (.dmaDescriptorEnd 8 ⟨[], false⟩) = false := by decide
theorem test_wf_entry : Instr.wf (.twinJournalReceive ⟨0, 0#32, 0#32, 0#32, 0#16, 0#3, false, 0#6, List.replicate 35 0#8⟩) = false
    ∧ Instr.wf (.twinJournalReceive ⟨2 ^ 64, 0#32, 0#32, 0#32, 0#16, 0#3, false, 0#6, List.replicate 36 0#8⟩) = false := by decide
theorem test_wf_token : TokenRec.wf ⟨8192, ⟨0#32, false, false, [0#32]⟩⟩ = false
    ∧ TokenRec.wf ⟨0, ⟨0#32, false, false, []⟩⟩ = false
    ∧ TokenRec.wf ⟨0, ⟨0#32, false, false, List.replicate 65 0#32⟩⟩ = false := by decide +kernel
theorem test_wf_replay : Instr.wf (.replayCycle ⟨[], true, [⟨0, 0#32, 0#32, 0#32, 0#16, 0#3, false, 0#6, []⟩], none, []⟩) = false := by
  decide
theorem test_wf_phase : Instr.wf (.maskEvent 0 (.zc 3 true)) = false := by decide
theorem test_wf_copy : Instr.wf (.twinCopyReceive ⟨true, 0#32, 0, 0, []⟩) = false
    ∧ Instr.wf (.twinCopyReceive ⟨true, 0#32, 0, 249, List.replicate 249 0#8⟩) = false := by decide +kernel
theorem test_wf_operation : Instr.wf (.operationFence 4096) = false := by decide
theorem test_wf_region : Instr.wf (.delayListExpiry 4) = false := by decide
theorem test_wf_group : Instr.wf (.maskStep 8) = false ∧ Instr.wf (.gateShortDetect 0 8) = false
    ∧ Instr.wf (.carrierPeriodStart 8) = false := by decide
theorem test_wf_converter : Instr.wf (.adcTimedStart 16) = false := by decide
theorem test_wf_feedback : Instr.wf (.fbZEdge 8) = false ∧ Instr.wf (.fbPairLoss 0 3 .shorted) = false
    ∧ Instr.wf (.rxPolarityCorrect (.backbone 2)) = false ∧ Instr.wf (.rxPolarityCorrect (.ring ⟨8, .east⟩)) = false := by decide
theorem test_wf_clock : Instr.wf (.clkOutLock 2) = false := by decide
theorem test_wf_switch : Instr.wf (.bypassSwitchComplete 9) = false := by decide
theorem test_wf_source : Instr.wf (.commandTimeout 71) = false ∧ Instr.wf (.qpHostError 64) = false
    ∧ Instr.wf (.functionLevelReset 2) = false := by decide
theorem test_wf_reset_unit : Instr.wf (.levelResetUnitEnd 4 0) = false ∧ Instr.wf (.levelResetUnitEnd 0 64) = false := by decide
theorem test_wf_safe : Instr.wf (.safeInputDiscrepancy 16) = false ∧ Instr.wf (.safeOutputTest 8 ⟨false, false⟩) = false := by decide
theorem test_wf_island : Instr.wf (.islandLockLoss 108) = false := by decide
theorem test_wf_timer : Instr.wf (.sequencerTimerExpiry 4) = false := by decide

/-! ### One word of each cell family, from the encodings of R94 to R101 and the opcode map of R106 -/

/-- No access. -/
def none' : Access := ⟨0#2, false, 0#4, 0#4, 0#6⟩
/-- Format A with registers d, a and b of cell 0, without accesses. -/
def fa (d a b : BitVec 6) : FmtA := ⟨0, 0#3, d, a, b, false, none', none'⟩

/-- Stage 5 in bits 55 to 53. -/
theorem test_word_nop : cellDecode 0 0x01A0000000000000#64 = .nop { fa 0 0 0 with stg := 5 } := by decide +kernel
theorem test_word_end : cellDecode 0 0x0200000000000000#64 = .endOp (fa 0 0 0) := by decide +kernel
/-- The target is the low 14 bits. -/
theorem test_word_brtc : cellDecode 9 0x0D00000000003FFF#64 = .brtc ⟨9, 0#3, 0x3FFF#14⟩ := by decide +kernel
theorem test_word_sub : cellDecode 0 0x211F820800000000#64 = .sub (fa 63 1 1) := by decide +kernel
theorem test_word_iadd : cellDecode 0 0x4000841800000000#64 = .iadd (fa 1 2 3) := by decide +kernel
/-- tm is bit 34. -/
theorem test_word_sinm : cellDecode 0 0x7000040400000000#64 = .sinm { fa 0 2 0 with tm := true } := by decide +kernel
theorem test_word_qget : cellDecode 0 0x8000800800000000#64 = .qget (fa 1 0 1) := by decide +kernel
theorem test_word_crc32 : cellDecode 0 0x8A00020000000000#64 = .crc32_0 (fa 0 1 0) := by decide +kernel
theorem test_word_rnd : cellDecode 0 0x9000820000000000#64 = .rnd (fa 1 1 0) := by decide +kernel
theorem test_word_sty : cellDecode 0 0xA301000000000123#64 = .sty ⟨0, 0#3, 2#6, 0x123#14⟩ := by decide +kernel
theorem test_word_addfi : cellDecode 0 0xC00082003F800000#64 = .addfi ⟨0, 0#3, 1#6, 1#6, 0x3F800000#32⟩ := by decide +kernel
theorem test_word_diffw : cellDecode 0 0xD000820800000000#64 = .diffw (fa 1 1 1) := by decide +kernel
/-- The rows 0xF_ of the map are not assigned. -/
theorem test_word_undefined : cellDecode 0 0xFF00000000000000#64 = .illegalOpcode 0 0#3 0xFF#8 := by decide +kernel

/-! ### Cells: one instruction each -/

/-- The part in IDLE, nothing loaded. -/
def idle : State := { State.reset with mode := .idle }
/-- With cell 0 as given. -/
def with0 (c : CellSt) : State := { idle with cells := [(0, c)] }
/-- Cell 0 runs a graph operation, with these `f` registers. -/
def cellOf (f : List (Nat × Word)) : CellSt := { f := f, run := some { job := .op 0, cycle := 5#32 } }
def runs (f : List (Nat × Word)) : State := with0 (cellOf f)
/-- Cell 0 after one command; register k of it, at once or once its trig unit has written. -/
def after (i : Instr) (s : State) : Option State := match exec i s with | .next t => some t | _ => none
def cell0 (i : Instr) (s : State) : Option CellSt := (after i s).map (fun t => t.cell 0)
def reg0 (k : Nat) (i : Instr) (s : State) : Option Word := (cell0 i s).map (fun c => c.getF k)

/-- 1.0 + 2.0 = 3.0. -/
theorem test_add : reg0 1 (.add (fa 1 2 3)) (runs [(2, 0x3F800000#32), (3, 0x40000000#32)]) = some 0x40400000#32 := by decide +kernel
/-- The worked values of R76: ties go to the value nearer +∞. -/
theorem test_add_ties : reg0 1 (.add (fa 1 2 3)) (runs [(2, 0x3F800000#32), (3, 0x33800000#32)]) = some 0x3F800001#32
    ∧ reg0 1 (.add (fa 1 2 3)) (runs [(2, 0xBF800000#32), (3, 0xB3800000#32)]) = some 0xBF800000#32
    ∧ reg0 1 (.add (fa 1 2 3)) (runs [(2, 0xBF800001#32), (3, 0xB3800000#32)]) = some 0xBF800001#32 := by decide +kernel
/-- R79: x − x is +0; the worked difference that is flushed. -/
theorem test_sub_zero : reg0 2 (.sub (fa 2 2 2)) (runs [(2, 0xBF800000#32)]) = some 0#32
    ∧ reg0 1 (.sub (fa 1 2 3)) (runs [(2, 0x00C00000#32), (3, 0x00800000#32)]) = some 0#32 := by decide +kernel
/-- The worked products: a tie, an underflow, a subnormal operand. -/
theorem test_mul_worked : reg0 1 (.mul (fa 1 2 3)) (runs [(2, 0x3F800800#32), (3, 0x3F800800#32)]) = some 0x3F801001#32
    ∧ reg0 1 (.mul (fa 1 2 3)) (runs [(2, 0x1F800000#32), (3, 0x20000000#32)]) = some 0#32
    ∧ reg0 1 (.mul (fa 1 2 3)) (runs [(2, 0x00400000#32), (3, 0x71800000#32)]) = some 0#32 := by decide +kernel
/-- The worked conversion of 2^24 + 1. -/
theorem test_cvtif_tie : reg0 1 (.cvtif (fa 1 2 0)) (runs [(2, 16777217#32)]) = some 0x4B800001#32 := by decide +kernel
/-- R107: −a × b is rounded once: −1.5 × (1 + 2^−23) is a tie and goes up. -/
theorem test_muln_tie : reg0 1 (.muln (fa 1 2 3)) (runs [(2, 0x3FC00000#32), (3, 0x3F800001#32)]) = some 0xBFC00001#32 := by
  decide +kernel
/-- d ← d + 2 × 3 with d = 1. -/
theorem test_fmac : reg0 1 (.fmac (fa 1 2 3)) (runs [(1, 0x3F800000#32), (2, 0x40000000#32), (3, 0x40400000#32)])
    = some 0x40E00000#32 := by decide +kernel
/-- R120: RND(2.5) = 3 and RND(−2.5) = −2. -/
theorem test_rnd : reg0 1 (.rnd (fa 1 2 0)) (runs [(2, 0x40200000#32)]) = some 0x40400000#32
    ∧ reg0 1 (.rnd (fa 1 2 0)) (runs [(2, 0xC0200000#32)]) = some 0xC0000000#32 := by decide +kernel
/-- The worked conversions of 2.5 and −2.5; a NaN gives 0 and 2^31 saturates (R81). -/
theorem test_cvtfi : reg0 1 (.cvtfi (fa 1 2 0)) (runs [(2, 0x40200000#32)]) = some 3#32
    ∧ reg0 1 (.cvtfi (fa 1 2 0)) (runs [(2, 0xC0200000#32)]) = some 0xFFFFFFFE#32
    ∧ reg0 1 (.cvtfi (fa 1 2 0)) (runs [(2, 0x7FC00000#32)]) = some 0#32
    ∧ reg0 1 (.cvtfi (fa 1 2 0)) (runs [(2, 0x4F000000#32)]) = some 0x7FFFFFFF#32 := by decide +kernel
theorem test_iadd_wraps : reg0 1 (.iadd (fa 1 2 3)) (runs [(2, 0xFFFFFFFF#32), (3, 2#32)]) = some 1#32 := by decide +kernel
theorem test_shl_count : reg0 1 (.shl (fa 1 2 3)) (runs [(2, 3#32), (3, 33#32)]) = some 6#32 := by decide +kernel
theorem test_sar_sign : reg0 1 (.sar (fa 1 2 3)) (runs [(2, 0x80000000#32), (3, 31#32)]) = some 0xFFFFFFFF#32 := by decide +kernel
theorem test_isatu_negative : reg0 1 (.isatu (fa 1 2 3)) (runs [(2, 0xFFFFFFFF#32), (3, 9#32)]) = some 0#32 := by decide +kernel
theorem test_popc_clz : reg0 1 (.popc (fa 1 2 0)) (runs [(2, 0xF0000001#32)]) = some 5#32
    ∧ reg0 1 (.clz (fa 1 2 0)) (runs []) = some 32#32 := by decide +kernel
/-- Width 8 from bit 4: imm[4:0] is the place, imm[9:5] the width less one. -/
theorem test_bext : reg0 1 (.bext ⟨0, 0#3, 1, 2, 0xE4#32⟩) (runs [(2, 0x12345678#32)]) = some 0x67#32 := by decide +kernel
theorem test_pack16 : reg0 1 (.pack16 (fa 1 2 3)) (runs [(2, 0x11112222#32), (3, 0x33334444#32)]) = some 0x44442222#32 := by decide +kernel
theorem test_unpkh_sign : reg0 1 (.unpkh (fa 1 2 0)) (runs [(2, 0x80000001#32)]) = some 0xFFFF8000#32 := by decide +kernel
/-- R117: the accumulator takes the product, register a + 1 the old a. -/
theorem test_tap : reg0 1 (.tap (fa 1 8 2)) (runs [(1, 0x3F800000#32), (2, 0x40000000#32), (8, 0x40400000#32)]) = some 0x40E00000#32
    ∧ reg0 9 (.tap (fa 1 8 2)) (runs [(1, 0x3F800000#32), (2, 0x40000000#32), (8, 0x40400000#32)]) = some 0x40400000#32 := by decide +kernel
/-- R109: a NaN operand sets u alone. -/
theorem test_cmp_unordered : (cell0 (.cmp (fa 0 2 3)) (runs [(2, 0x7FC00000#32)])).map CellSt.cc = some ⟨false, false, true, false⟩ := by
  decide +kernel
/-- An exact square root, power and logarithm; the unit's results are read before it has written (R73). -/
theorem test_sqrt : reg0 1 (.sqrt (fa 1 2 0)) (runs [(2, 0x40800000#32)]) = some 0x40000000#32 := by decide +kernel
theorem test_exp2 : reg0 1 (.exp2 (fa 1 2 0)) (runs [(2, 0x40400000#32)]) = some 0x41000000#32 := by decide +kernel
theorem test_log2 : reg0 1 (.log2 (fa 1 2 0)) (runs [(2, 0x41000000#32)]) = some 0x40400000#32 := by decide +kernel
theorem test_recip : reg0 1 (.recip (fa 1 2 0)) (runs [(2, 0x40800000#32)]) = some 0x3E800000#32 := by decide +kernel
/-- R69: the target waits in the shadow of the next instruction. -/
theorem test_br : (cell0 (.br ⟨0, 0#3, 100#14⟩) (runs [])).map (fun c => (c.pc, c.shadow)) = some (1#14, some 100#14) := by decide +kernel
/-- R62: a count of 0 goes past the body. -/
theorem test_loop_zero : (cell0 (.loop ⟨0, 0#3, 2#3, false, 0#3, 0#16, 9#14⟩) (runs [])).map (fun c => (c.pc, c.loops)) = some (10#14, []) := by
  decide +kernel
/-- R58: a buffer of 5 words at 8: from 12 a step of 3 comes round to 10. -/
theorem test_addpm : (cell0 (.addpm (fa 1 2 3)) (with0 { cellOf [] with p := [(2, 12#16)], m := [(3, 0x00050003#32)] })).map
    (fun c => c.rdP 1) = some 10#16 := by decide +kernel
/-- A store is read back through the window of the cell's X memory. -/
theorem test_stx : (after (.stx ⟨0, 0#3, 2, 7#14⟩) (runs [(2, 0xCAFEF00D#32)])).map (fun t => t.ramWord (xAddr 0 7)) = some 0xCAFEF00D#32 := by
  decide +kernel
/-- R60: an odd address moves the words a − 1 and a. -/
theorem test_stxp_odd : (after (.stxp ⟨0, 0#3, 2, 7#14⟩) (runs [(2, 1#32), (3, 2#32)])).map
    (fun t => (t.ramWord (xAddr 0 6), t.ramWord (xAddr 0 7))) = some (1#32, 2#32) := by decide +kernel
/-- R14: opcode 0x00 raises ILLEGAL, class 2, at L0 for the cell. -/
theorem test_illegal : (after (.illegalOpcode 0 0#3 0#8) (runs [])).map (fun t => t.fox.inflight) = some [⟨2, 0, ⟨1, 0⟩⟩] := by
  decide +kernel

/-! ### Witnesses: cells -/

/-- `State.ready` and `State.clean` as tests. -/
def readyB (s : State) (n : Nat) (stg : BitVec 3) : Bool :=
  match s.issues n with
  | none => false
  | some r => decide (insAddr n (s.cell n).pc.toNat ∉ s.flip2) && decide (insAddr n (s.cell n).pc.toNat + 4 ∉ s.flip2)
      && decide (s.fld Reg.cellCtrlOpBudget (cellRegs n) = 0 ∨ r.issued + 1 ≤ s.fld Reg.cellCtrlOpBudget (cellRegs n))
      && (s.cell n).shadow.isNone && !(s.cell n).suppressed stg.toNat
theorem ready_of (s : State) (n : Nat) (stg : BitVec 3) (h : readyB s n stg = true) : s.ready n stg := by
  unfold readyB at h
  split at h
  · cases h
  · rename_i r hr
    simp only [Bool.and_eq_true, decide_eq_true_eq, Option.isNone_iff_eq_none, Bool.not_eq_true'] at h
    exact ⟨⟨r, hr, h.1.1.1.1, h.1.1.1.2, h.1.1.2⟩, h.1.2, h.2⟩
def cleanB (s : State) (a : AccRes) : Bool := a.faults.isEmpty && a.reads.all (fun x => decide (x ∉ s.flip2))
theorem clean_of (s : State) (a : AccRes) (h : cleanB s a = true) : s.clean a := by
  simp only [cleanB, Bool.and_eq_true, List.isEmpty_iff, List.all_eq_true, decide_eq_true_eq] at h
  exact h
theorem cleans_of (s : State) (l : List AccRes) (h : l.all (cleanB s) = true) : ∀ a ∈ l, s.clean a :=
  fun a ha => clean_of s a (List.all_eq_true.mp h a ha)
/-- A cell is ready and both accesses of an instruction are clean, as a test and as it stands in the statements. -/
def readyA (s : State) (i : FmtA) : Prop := s.ready i.cell i.stg ∧ s.clean (s.xOf i) ∧ s.clean (s.yOf i)
theorem readyA_of (s : State) (i : FmtA) (h : (readyB s i.cell i.stg && cleanB s (s.xOf i) && cleanB s (s.yOf i)) = true) : readyA s i := by
  simp only [Bool.and_eq_true] at h
  exact ⟨ready_of _ _ _ h.1.1, clean_of _ _ h.1.2, clean_of _ _ h.2⟩

/-- A load of f40 by p1, modified by m1, and a store of f41 by p2. -/
def loadBy : Access := ⟨1#2, true, 1#4, 1#4, 40#6⟩
def storeBy : Access := ⟨2#2, true, 1#4, 2#4, 41#6⟩
/-- An instruction with both, on cell 63, the last, with p1 and p2 at the last word of X and Y. -/
def ia : FmtA := ⟨63, 0#3, 1, 2, 3, false, loadBy, storeBy⟩
def cellW : CellSt := { cellOf [(2, 0x40000000#32), (3, 0x40400000#32)] with p := [(1, 16383#16), (2, 16383#16)], m := [(1, 1#32)] }
def sw : State := { idle with cells := [(63, cellW)] }
def fw : FmtF := ⟨63, 0#3, 1, 2, 3, 4, true, loadBy⟩
/-- What a Format A instruction needs, Format F, Format I, Format M. -/
def NeedsA : Prop := ∃ (i : FmtA) (s : State), s.ready i.cell i.stg ∧ s.clean (s.xOf i) ∧ s.clean (s.yOf i)
def NeedsF : Prop := ∃ (i : FmtF) (s : State), s.ready i.cell i.stg ∧ s.clean (s.accOf i)
def NeedsI : Prop := ∃ (i : FmtI) (s : State), s.ready i.cell i.stg
theorem sw_ready (stg : BitVec 3) : sw.ready 63 stg := by
  apply ready_of; revert stg; decide +kernel
theorem sw_x : sw.clean (sw.xOf ia) := clean_of _ _ (by decide +kernel)
theorem sw_y : sw.clean (sw.yOf ia) := clean_of _ _ (by decide +kernel)
theorem needs_a : NeedsA := ⟨ia, sw, sw_ready _, sw_x, sw_y⟩
theorem needs_f : NeedsF := ⟨fw, sw, sw_ready _, clean_of _ _ (by decide +kernel)⟩
theorem needs_i : NeedsI := ⟨⟨63, 0#3, 1, 2, 3#32⟩, sw, sw_ready _⟩

theorem witness_FloatResults : NeedsA ∧ NeedsF := ⟨needs_a, needs_f⟩
theorem witness_CompareFlags : NeedsA ∧ NeedsI := ⟨needs_a, needs_i⟩
theorem witness_IntegerResults : NeedsA := needs_a
theorem witness_BitAndImmediateResults : NeedsA ∧ NeedsI ∧ (∃ k : Nat, k < 32) := ⟨needs_a, needs_i, 31, by decide⟩
theorem witness_DomainResults : NeedsA ∧ NeedsF := ⟨needs_a, needs_f⟩
theorem witness_FurtherFloatResults : NeedsA ∧ NeedsF ∧ NeedsI := ⟨needs_a, needs_f, needs_i⟩
theorem witness_MoveResults : NeedsA ∧ NeedsI := ⟨needs_a, needs_i⟩
theorem witness_CheckValueFeeds : NeedsA := needs_a
/-- LDX, LDY, LDXP, LDYP of the last word, and the four stores. -/
theorem witness_AbsoluteAccess :
    let i : FmtM := ⟨63, 0#3, 63, 16383⟩
    sw.ready i.cell i.stg
      ∧ ∀ a ∈ [({ loads := [], reads := [xAddr i.cell i.addr.toNat] } : AccRes), { loads := [], reads := [yAddr i.cell i.addr.toNat] },
          { reads := [xAddr 63 16382, xAddr 63 16382 + 4] }, { reads := [yAddr 63 16382, yAddr 63 16382 + 4] },
          { stores := [(xAddr i.cell i.addr.toNat, 0#32)] }], sw.clean a :=
  ⟨sw_ready _, cleans_of sw [_, _, _, _, _] (by decide)⟩

/-- A branch, not taken and taken, and in a loop whose body it leaves. -/
theorem witness_BranchOutcomes :
    let s := { sw with cells := [(63, { cellW with loops := [⟨0, 1, 5, false, 1, 2, 0⟩] })] }
    s.ready 63 0#3 ∧ (s.cell 63).cc.z = false ∧ (∀ l ∈ (s.cell 63).loops, l.last ≠ (s.cell 63).pc.toNat) ∧ (!(s.cell 63).cc.z) = true :=
  ⟨ready_of _ _ _ (by decide +kernel), by decide +kernel⟩
/-- A body that lies behind; a count of 0; a loop within a loop that ends with it. -/
theorem witness_LoopStarts :
    let s := { sw with cells := [(63, { cellW with loops := [⟨0, 1, 5, false, 1, 2, 0⟩], pc := 3#14, p := [(2, 7#16)] })] }
    s.ready 63 0#3
      ∧ (let i : FmtL := ⟨63, 0#3, 1#3, true, 4#3, 2#16, 3#14⟩; i.last.toNat ≤ (s.cell 63).pc.toNat ∧ ∀ l ∈ (s.cell 63).loops, l.last ≠ 3)
      ∧ (let i : FmtL := ⟨63, 0#3, 1#3, false, 0#3, 0#16, 4#14⟩; (s.cell 63).pc.toNat < i.last.toNat ∧ i.n.toNat = 0
          ∧ (∀ l ∈ (s.cell 63).loops, l.ctr ≠ i.k.toNat) ∧ ∀ l ∈ (s.cell 63).loops, l.last ≠ i.last.toNat)
      ∧ (let i : FmtL := ⟨63, 0#3, 7#3, true, 4#3, 2#16, 5#14⟩; (s.cell 63).pc.toNat < i.last.toNat ∧ 0 < i.n.toNat
          ∧ 0 < ((s.cell 63).rdP (i.n.toNat % 16)).toNat ∧ (∀ l ∈ (s.cell 63).loops, l.ctr ≠ i.k.toNat)
          ∧ ∀ l ∈ (s.cell 63).loops.head?, i.last.toNat ≤ l.last) :=
  ⟨ready_of _ _ _ (by decide +kernel), by decide +kernel⟩
/-- The last instruction of a rotating body, in a pass that comes again and in the last. -/
theorem witness_LoopPassEnds : ∀ x ∈ [(0, 0#3), (2, 1#3)],
    let l : LoopEnt := ⟨0, 1, 5, true, 2, 2, x.1⟩
    let s := { sw with cells := [(63, { cellW with loops := [l, ⟨1, 0, 9, false, 1, 2, 0⟩], pc := 5#14 })] }
    s.ready 63 x.2 ∧ (fa 0 0 0).xa.kind = 0#2 ∧ (s.cell 63).loops = l :: [⟨1, 0, 9, false, 1, 2, 0⟩] ∧ l.last = (s.cell 63).pc.toNat
      ∧ (∀ x ∈ [(⟨1, 0, 9, false, 1, 2, 0⟩ : LoopEnt)], x.last ≠ (s.cell 63).pc.toNat) := by
  intro x hx
  simp only [List.mem_cons, List.not_mem_nil, or_false] at hx
  rcases hx with rfl | rfl <;>
    exact ⟨ready_of _ _ _ (by decide +kernel), by decide +kernel⟩
/-- A SIN in the shadow of a branch to the last instruction. -/
theorem witness_ShadowSquashes :
    let s := { sw with cells := [(63, { cellW with shadow := some 16383#14 })] }
    (Instr.sin ia).cellStg = some (63, 0#3) ∧ ∃ r, s.issues 63 = some r ∧ (s.cell 63).shadow = some 16383#14 ∧ r.post = [] :=
  ⟨rfl, { job := .op 0, cycle := 5#32 }, by decide +kernel, by decide +kernel, rfl⟩
/-- Stage 3 in pass 2, which has not come to it, and stage 0 in pass 2 of a count of 2, which is past it. -/
theorem witness_StageSuppresses : ∀ stg ∈ [3#3, 0#3],
    let l : LoopEnt := ⟨0, 1, 5, true, 4, 2, 2⟩
    let s := { sw with cells := [(63, { cellW with loops := [l], pc := 2#14 })] }
    (Instr.nop { ia with stg := stg }).cellStg = some (63, stg) ∧ (∃ r, s.issues 63 = some r ∧ r.post = []) ∧ (s.cell 63).shadow = none
      ∧ (s.cell 63).loops.find? LoopEnt.rot = some l ∧ (l.pass < stg.toNat ∨ stg.toNat + l.n ≤ l.pass) ∧ l.last ≠ (s.cell 63).pc.toNat := by
  intro stg h
  simp only [List.mem_cons, List.not_mem_nil, or_false] at h
  rcases h with rfl | rfl <;>
    exact ⟨rfl, ⟨{ job := .op 0, cycle := 5#32 }, by decide +kernel, rfl⟩, by decide +kernel⟩
/-- The destination f1 is not f40, which the access loads. -/
theorem witness_TrigRegisterForms : NeedsA
    ∧ lastAt ((sw.xOf ia).loads ++ (sw.yOf ia).loads) ((sw.cell 63).phys ia.d.toNat) = none := ⟨needs_a, by decide +kernel⟩
/-- Both memory forms at the last word. -/
theorem witness_TrigMemoryForms : ∀ tm : Bool, sw.ready 63 0#3
    ∧ ((sw.cell 63).rdP (if tm then ia.xa.p.toNat else ia.ya.p.toNat)).toNat < 16384
    ∧ sw.clean (if tm then pointerOnly (sw.cell 63) ia.xa else sw.xOf ia) ∧ sw.clean (if tm then sw.yOf ia else pointerOnly (sw.cell 63) ia.ya) := by
  intro tm
  exact ⟨sw_ready _, by revert tm; decide +kernel, clean_of _ _ (by revert tm; decide +kernel), clean_of _ _ (by revert tm; decide +kernel)⟩
/-- An operation that writes a register and a word, and one that was squashed. -/
theorem witness_TrigWritesBack : ∀ q : Bool,
    let x : TrigOp := ⟨if q then [] else [(.reg 1, 5#32), (.mem (yAddr 63 16383), 6#32)], q⟩
    let s := { sw with cells := [(63, { cellW with trig := [x] })] }
    63 < s.cellCount ∧ (s.cell 63).trig = x :: [] ∧ (∀ w ∈ x.writes, ∀ a, w.1 = .mem a → a % 4 = 0) ∧ x.squashed = q := by
  intro q
  cases q
  · refine ⟨by decide +kernel, by decide +kernel, ?_, rfl⟩
    intro w hw a ha
    simp only [Bool.false_eq_true, if_false, List.mem_cons, List.not_mem_nil, or_false] at hw
    rcases hw with rfl | rfl
    · cases ha
    · cases ha; decide
  · exact ⟨by decide +kernel, by decide +kernel, by intro w hw; simp at hw, rfl⟩
theorem witness_TsyncDrains :
    let s := { sw with cells := [(63, { cellW with trig := [⟨[(.reg 1, 5#32), (.reg 2, 6#32)], false⟩] })] }
    readyA s ia ∧ (∀ x ∈ (s.cell 63).trig, (x.writes.map Prod.fst).Nodup)
      ∧ (∀ x ∈ (s.cell 63).trig, x.writes.all (fun w => match w.1 with | .mem a => a % 4 == 0 | .reg _ => true) = true)
      ∧ lastAt ((s.xOf ia).loads ++ (s.yOf ia).loads) 40 = some 0#32 ∧ lastAt ((s.xOf ia).loads ++ (s.yOf ia).loads) 1 = none :=
  ⟨readyA_of _ ia (by decide +kernel), by decide +kernel⟩
theorem witness_TrigFlag : NeedsA ∧ ((sw.cell 63).rdP ia.ya.p.toNat).toNat < 16384 ∧ (Instr.sin ia).isTrig = true
    ∧ (Instr.sin ia).cellStg = some (63, 0#3)
    ∧ ({ sw with cells := [(63, { cellW with shadow := some 0#14 })] } : State).issues 63 = some { job := .op 0, cycle := 5#32 } :=
  ⟨needs_a, by decide +kernel, rfl, rfl, by decide +kernel⟩
/-- A linear pointer; a buffer of 5 words, whose 2^b is 8. -/
theorem witness_PostModify : (0x0000FFFF#32).toNat / 65536 = 0
    ∧ (let len := (0x00050003#32).toNat / 65536; 0 < len ∧ len ≤ 2 ^ 3 ∧ ∀ j < 3, 2 ^ j < len) := by decide

/-! ### Witnesses: queue operations, the end of an operation, traps -/

/-- A queue by its number, kind, depth and words; an operation of cell 0. -/
def queue (id kind depth words : Nat) : QDesc := ⟨id, kind, 0, depth, words, 0, false, false⟩
def kernel0 : OpDesc := { cell := 0, entry := 0, inFrame := 0, outFrame := 0, params := 0, state := 0, prio := 1, group := none, ports := [], kernel := .custom }
/-- An image with one operation on cell 0 and one with a framed output, a work-item channel with a mailbox port, and queues. -/
def img : Image :=
  { check := 7#64, f := 20000, timing := ⟨25000, 1000, 40000, 30000, 2000, 35000⟩, mem := []
    queues := [queue 0 1 4 2, { queue 1 2 4 2 with lag := 1 }, { queue 2 3 1 2 with hostPost := true }]
    ops := [{ kernel0 with group := some 0, ports := [⟨true, true, 1, 0⟩, ⟨true, true, 2, 1⟩] },
      { kernel0 with outFrame := 16382, ports := [⟨true, false, 2, 1⟩] }]
    wics := [{ id := 0, owner := 1, home := 0, depth := 8, prio := 3, pool := 0, ports := [2] }], rings := [], regs := [], safety := none, hwr := [], axes := [], fbExt := [] }
/-- In RUN, with cell 0 as given and a token in the input queue. -/
def sq (c : CellSt) : State :=
  { State.reset with mode := .run, image := some img, cells := [(0, c)]
                     mad := { queues := [(0, { toks := [⟨5#32, false, true, [3#32, 4#32]⟩] })] } }
def cq : CellSt :=
  { f := [(2, 0x7F800000#32), (3, 0x40400000#32)], run := some { job := .op 0, cycle := 5#32, ins := [(0, ⟨5#32, false, true, [3#32, 4#32]⟩)] } }
/-- A work item's cell. -/
def item (period : Nat) : WorkItem := ⟨0, 9, 0, 0#16, 0#16, 0#16, 0#16, period, 0⟩
def ci (post : List (Nat × List Word)) : CellSt := { run := some { job := .item (item 0), cycle := 0#32, post := post } }

/-- Port 0 is an input, its first word is there; a work item has no cycle; port 1 is an output, written a number and an infinity. -/
theorem witness_QueueOperations :
    readyA (sq cq) (fa 1 2 0) ∧ (sq (ci [])).ready 0 0#3
      ∧ portOf (sq cq) ((sq cq).cell 0) 0#6 = .input 0 ∧ ((sq cq).cell 0).run = cq.run
      ∧ ((((sq cq).cell 0).run.bind (fun r => (r.tok 0).map Token.words)).getD [])[Tab.get 0 ([] : List (Nat × Nat)) 0]? = some 3#32
      ∧ ((sq (ci [])).cell 0).run.map RunCtx.job = some (.item (item 0))
      ∧ portOf (sq cq) ((sq cq).cell 0) 1#6 = .output 1
      ∧ (((sq cq).cell 0).rdF 3#6).toNat / 2 ^ 23 % 256 ≠ 255 ∧ (((sq cq).cell 0).rdF 2#6).toNat / 2 ^ 23 % 256 = 255 :=
  ⟨readyA_of _ _ (by decide +kernel), ready_of _ _ _ (by decide +kernel), by decide +kernel⟩
/-- A post of three words, its apply cycle among them: the second word, and the third. -/
theorem witness_WorkItemPosts : ∀ ws ∈ [[1#32], [1#32, 5#32]],
    let s : State := { sq (ci [(0, ws)]) with image := some { img with queues := [{ queue 2 3 1 3 with hostPost := true }] } }
    readyA s (fa 0 3 0) ∧ s.cellUndef 0 = false ∧ portOf s (s.cell 0) 0#6 = .mailbox 2
      ∧ (s.cell 0).run = (ci [(0, ws)]).run ∧ (s.qdesc 2).map QDesc.words = some 3
      ∧ (∀ x ∈ [(0, ws)], x.1 ≠ 0 → x.2.length < 3) ∧ (ws ++ [(s.cell 0).rdF 3#6]).length ≤ 3 := by
  intro ws h
  simp only [List.mem_cons, List.not_mem_nil, or_false] at h
  rcases h with rfl | rfl <;>
    exact ⟨readyA_of _ _ (by decide +kernel), by decide +kernel⟩
/-- A one-shot work item, a periodic one whose delay list is full; the operation with one framed output, whose queue has room. -/
theorem witness_EndCompletes :
    readyA (sq (ci [])) (fa 0 0 0)
      ∧ ((item 0).period = 0 ∧ ((sq (ci [])).cell 0).slot = none ∧ (sq (ci [])).recordsDown 0 = false
        ∧ ((sq (ci [])).cell 0).run.map RunCtx.job = some (.item (item 0)))
      ∧ (let s : State := (sq (ci [])).setDelay 0 { ents := List.replicate 1024 (item 1) }
         (item 1).period ≠ 0 ∧ s.regionDown (s.wicRegion 0) = false ∧ 1024 ≤ (s.delay (s.wicRegion 0)).ents.length)
      ∧ (let s := sq { ci [] with slot := some ⟨.op 1, 0, 0⟩ }
         s.ready 0 0#3 ∧ (s.cell 0).slot = some ⟨.op 1, 0, 0⟩ ∧ (s.opDesc 1).isSome = true)
    ∧ (let s := sq { run := some { job := .op 1, cycle := 5#32 } }
       s.ready 0 0#3 ∧ (s.cell 0).trig = [] ∧ (s.cell 0).slot = none
      ∧ (s.opDesc 1).map OpDesc.kernel = some .custom ∧ cycGe 5#32 (s.op 1).next = true
      ∧ (s.opDesc 1).map OpDesc.inputs = some [] ∧ (s.opDesc 1).map OpDesc.outputs = some [(0, ⟨true, false, 2, 1⟩)]
      ∧ (s.qdesc 1).isSome = true ∧ s.blockDown (blockOfQueue 1) = false ∧ (s.queue 1).done = none ∧ (s.queue 1).toks.length < 4
      ∧ s.consumer 1 = none ∧ s.cellUndef 0 = false ∧ (∀ j < 2, yAddr 0 ((16382 + j) % 16384) ∉ s.flip2)) :=
  ⟨readyA_of _ _ (by decide +kernel), by decide +kernel, by decide +kernel, ⟨ready_of _ _ _ (by decide +kernel), rfl, by decide +kernel⟩,
    ready_of _ _ _ (by decide +kernel), by decide +kernel⟩
/-- A word with a double-bit error, in either half; a budget of 1 at the second instruction; the two nesting faults; no port; the first
pointer value beyond the memory. -/
theorem witness_CellTraps :
    (∀ a ∈ [insAddr 63 0, insAddr 63 0 + 4], (Instr.nop ia).cellStg = some (63, 0#3)
      ∧ (({ sw with flip2 := [a] } : State).issues 63).map RunCtx.post = some [] ∧ (sw.cell 63).shadow = none
      ∧ (sw.cell 63).suppressed 0 = false ∧ (insAddr 63 0 ∈ [a] ∨ insAddr 63 0 + 4 ∈ [a]))
    ∧ (let s : State := ({ sw with cells := [(63, { cellW with run := some { job := .op 0, cycle := 5#32, issued := 1 } })] } : State).setFld
          Reg.cellCtrlOpBudget 1 (cellRegs 63)
       (s.issues 63).map RunCtx.issued = some 1 ∧ s.flip2 = [] ∧ s.fld Reg.cellCtrlOpBudget (cellRegs 63) = 1
        ∧ (s.cell 63).shadow = none ∧ (s.cell 63).suppressed 0 = false ∧ none'.kind = 0#2)
    ∧ (let s : State := { sw with cells := [(63, { cellW with loops := [⟨2, 1, 5, false, 1, 2, 0⟩] })] }
       s.ready 63 0#3 ∧ (s.cell 63).pc.toNat < (4#14).toNat ∧ (∃ l ∈ (s.cell 63).loops, l.ctr = (2#3).toNat)
        ∧ ((s.cell 63).loops.head?).map LoopEnt.last = some 5 ∧ 5 < (6#14).toNat ∧ 1#16 ≠ 0#16)
    ∧ portOf (sq cq) ((sq cq).cell 0) 2#6 = .none
    ∧ (let s : State := { sw with cells := [(63, { cellW with p := [(1, 16384#16)] })] }
       s.ready 63 0#3 ∧ s.clean (s.yOf ia) ∧ ia.xa.kind ≠ 0#2 ∧ 16384 ≤ ((s.cell 63).rdP 1).toNat) :=
  ⟨by decide +kernel, by decide +kernel,
    ⟨ready_of _ _ _ (by decide +kernel), by decide +kernel⟩, by decide +kernel, ready_of _ _ _ (by decide +kernel),
    clean_of _ _ (by decide +kernel), by decide +kernel⟩
theorem witness_UndefinedOpcodeTraps : sw.ready 63 0#3 ∧ definedOpcode (0xFF#8).toNat = false
    ∧ definedOpcode ((0xFF00000000000000#64).toNat / 2 ^ 56) = false ∧ (∀ k < 8, sw.ramByte (insAddr 63 (sw.cell 63).pc.toNat + k) = 0#8) :=
  ⟨sw_ready _, by decide, by decide, by decide +kernel⟩
theorem witness_CellWordsRoundTrip : (Instr.nop ia).cellStg = some (63, 0#3) ∧ (Instr.ldx ⟨0, 7#3, 63, 16383⟩).cellStg = some (0, 7#3) :=
  ⟨rfl, rfl⟩

/-! ### Witnesses: commands -/

/-- A command of keeper window 0 with these parameter bytes, zeros after them. -/
def req (bs : List Byte) : CmdReq := ⟨.keeper 0, false, false, false, 7#16, 0#32, true, bs ++ List.replicate (40 - bs.length) 0#8⟩
/-- The state and the command that `State.accepts` speaks of, where there are such. -/
def acc (k : CmdSpec) (r : CmdReq) (s : State) : Option (State × CmdIn) :=
  match s.arrive r.port r.tag with
  | (v, some slot) =>
    let c := { CmdIn.ofReq r k.opcode slot with era := v.eraOf r.port }
    let u := v.judged k c
    if v.mustWait k c = false ∧ u.verdict k c = 0 then some (u, c) else none
  | _ => none
theorem accepts_of {k : CmdSpec} {r : CmdReq} {s u : State} {c : CmdIn} (h : acc k r s = some (u, c)) : s.accepts k r u c := by
  unfold acc at h
  split at h
  · rename_i v slot hv
    simp only [Option.ite_none_right_eq_some, Option.some.injEq, Prod.mk.injEq] at h
    obtain ⟨⟨h1, h2⟩, rfl, rfl⟩ := h
    exact ⟨⟨v, slot, hv, rfl, h1, rfl⟩, h2⟩
  · cases h
/-- The command is accepted; it is while edges run, or while none do. -/
def Takes (k : CmdSpec) (bs : List Byte) (s : State) : Prop := ∃ u c, s.accepts k (req bs) u c
def TakesIn (e : Bool) (k : CmdSpec) (bs : List Byte) (s : State) : Prop := ∃ u c, s.accepts k (req bs) u c ∧ u.edgesRun = e
theorem takes {k : CmdSpec} {bs : List Byte} {s : State} (h : (acc k (req bs) s).isSome = true) : Takes k bs s := by
  obtain ⟨⟨u, c⟩, h⟩ := Option.isSome_iff_exists.mp h
  exact ⟨u, c, accepts_of h⟩
theorem takesIn {e : Bool} {k : CmdSpec} {bs : List Byte} {s : State} (h : (acc k (req bs) s).any (fun x => x.1.edgesRun == e) = true) :
    TakesIn e k bs s := by
  rw [Option.any_eq_true] at h
  obtain ⟨⟨u, c⟩, h, he⟩ := h
  exact ⟨u, c, accepts_of h, beq_iff_eq.mp he⟩
/-- Each of a list of commands is accepted. -/
def AllTake (l : List (CmdSpec × List Byte × State)) : Prop := ∀ x ∈ l, Takes x.1 x.2.1 x.2.2
def AllTakeIn (e : Bool) (l : List (CmdSpec × List Byte × State)) : Prop := ∀ x ∈ l, TakesIn e x.1 x.2.1 x.2.2
theorem allTake {l : List (CmdSpec × List Byte × State)} (h : l.all (fun x => (acc x.1 (req x.2.1) x.2.2).isSome) = true) : AllTake l :=
  fun x hx => takes (List.all_eq_true.mp h x hx)
theorem allTakeIn {e : Bool} {l : List (CmdSpec × List Byte × State)}
    (h : l.all (fun x => (acc x.1 (req x.2.1) x.2.2).any (fun y => y.1.edgesRun == e)) = true) : AllTakeIn e l :=
  fun x hx => takesIn (List.all_eq_true.mp h x hx)

/-- A drive axis and a stepper axis, their mailboxes, a channel of the host, a spare slot granted on ring 7. -/
def img2 : Image :=
  { check := 7#64, f := 20000, timing := ⟨25000, 1000, 40000, 30000, 2000, 35000⟩, mem := []
    queues := [queue 0 1 4 4, { queue 1 2 4 3 with lag := 1 }, { queue 2 3 1 9 with hostPost := true }, queue 4 3 1 5] ++ [3, 5, 6].map (queue · 3 1 3)
    ops := [], wics := [{ id := 63, owner := 3, home := 15, depth := 8, prio := 3, pool := 0, ports := [] }]
    rings := [{ ring := 7, mid := false, sched := [], tS := 0, tApplyH := 0
                slots := [⟨15, true, true, true, .east, 1, 2, 3, 224, 0#16, 0#16, 0#32, 0, 0⟩] }], regs := [], safety := none, hwr := []
    axes := [⟨0, [], 0, 1, 5, some 3, some 4, 0, 1⟩, ⟨263, [2#32], 0, 1, 6, none, none, 0, 1⟩], fbExt := [] }
def live (m : Mode) (e : Bool) : State :=
  { State.reset with mode := m, image := some img2, axes := [(263, { params := [(0, 2#32)] })]
                     rings := [(7, { slots := (img2.rings.map RingCfg.slots).flatten })]
                     time := { t0 := if e then some 1 else none } }
/-- With the port of ring 7 in a state. -/
def inXw (x : XwState) (s : State) : State := s.setXw 7 x

theorem witness_HostQueriesAnswer : AllTake
    [(specPing, [], State.reset), (specStatusGet, [], State.reset), (specModeGet, [], State.reset), (specCfgStatusGet, [], idle),
      (specFaultRead, [0, 0, 0, 0, 8, 1], State.reset)]
    ∧ ∀ m : Bool, Takes (specJournalRead m) [0, 0, 0, 0, 0, 0, 0, 0, 4, if m then 1 else 0]
        { idle with jnl := { head := 1, entries := [⟨1, 0#32, 0#32, 0#32, 0#16, 0#3, false, 0#6, []⟩]
                             mirror := [(1, some ⟨1, 0#32, 0#32, 0#32, 0#16, 0#3, false, 0#6, []⟩)] } } :=
  ⟨allTake (by decide +kernel), fun m => takes (by revert m; decide +kernel)⟩
/-- Axis 263, the last; the last words of either block; sixteen records of channel 63. -/
theorem witness_AxisQueriesAnswer : ∀ e : Bool, AllTake
    [(specAxisParamGet, [7, 1, 50, 0], live .run e), (specAxisStatusGet, [7, 1], live .run e),
      (specMotionParamGet, [7, 1, 91, 0], live .run e), (specMotionStatusGet, [7, 1], live .run e),
      (specMotionPosGet, [7, 1], live .run e), (specWorkComplRead, [63, 16], live .run e)] := by
  intro e; cases e <;> exact allTake (by decide +kernel)
theorem witness_UnitQueriesAnswer : AllTake
    [(specRingStatusGet, [7, 15], idle), (specLgStatusGet, [7], idle), (specTimeStatusGet, [], idle), (specDmaStatusGet, [], idle),
      (specSafetyStatusGet, [7, 1], idle), (specSafetyCrcGet, [], idle), (specTwinStatusGet, [], idle), (specIndStatusGet, [], idle)] := allTake (by decide +kernel)
/-- The last nanosecond of a second; both bypass values; a work item at once. -/
theorem witness_CommandsActAtOnce : AllTake
    [(specTimeSet, [0, 0, 0, 0, 0, 0, 0, 0, 0xFF, 0xC9, 0x9A, 0x3B], idle), (specBypassSet, [8, 1], State.reset),
      (specSafeStop, [], State.reset), (specFaultAck, [1], { idle with fox := { head := 1 } }), (specModeSet, [3], idle),
      (specModeSet, [7], inXw .intact { live .idle true with woad := { locked := true } }),
      (specRearm, [], { idle with mode := .safeHold }), (specWorkSubmit, [63, 0, 0, 0, 0xFF, 0x3F], live .run true),
      (specWorkCancel, [63, 0, 0xFF, 0xFF], live .run true)] := allTake (by decide +kernel)
theorem witness_UnitCommandsActAtOnce : AllTake
    [(specRingAsyncPost, [7, 0x4F, 0, 0, 0, 0, 30], inXw .intact (live .run true)),
      (specRingResetBcast, [7, 3], inXw .healed (live .run true)), (specRingReclose, [7], inXw .healed (live .run true)),
      (specSafetyReset, [0xFF, 0xFF], idle), (specSafetyConfirm, [1], { idle with mode := .commission }),
      (specSafetyUnlock, [1], { idle with mode := .commission }), (specTwinSync, [], { idle with mode := .standby }),
      (specTwinInhibit, [1], idle)] := allTake (by decide +kernel)
/-- Each while edges run and while none do, and pending alone with its own opcode. -/
theorem witness_CommandsFence : ∀ e : Bool, AllTakeIn e
    [(specAxisParamSet, [7, 1, 50, 0, 1], live .run e), (specAxisReset, [7, 1], live .run e),
      (specMotionParamSet, [7, 1, 91, 0, 1], live .run e), (specRcCtrl, [0, 0, 2], live .run e),
      (specMicrostepTableSet, [7, 1, 0xF8], live .idle e), (specRingClaimSet, [7, 1], live .run e),
      (specRingSlotRelease, [7, 15], live .run e), (specLgFaultClear, [7], live .run e),
      (specFbPosSet, [7, 0, 0, 0, 0xFF, 0xFF, 0xFF, 0xFF], live .run e), (specRunCtrl, [1], live .armed e),
      (specRunCtrl, [0], live .run e), (specTwinSwitch, [], { live .run e with lsp := { role := .active, partnerReady := true } }),
      (specIndStart, [], ((live .run e).setFld Reg.timeCycHzHz 20000).setReg 0x600024 5500#32),
      (specIndStop, [], { live .run e with ind := { st := .run } }), (specIndArm, [1], (live .run e).setFld Reg.indCtrlMaster 1),
      (specIndMark, [5], live .run e)] := by
  intro e; cases e <;> exact allTakeIn (by decide +kernel)
theorem witness_PostsReachMailboxes : ∀ e : Bool, AllTake
    [(specMailboxPost, [2, 0, 0, 8], live .run e), (specAxisModeSet, [0, 0, 1, 4], live .run e),
      (specAxisCurRef, [0, 0], live .run e), (specMotionTarget, [0, 0, 2], live .run e)] := by
  intro e; cases e <;> exact allTake (by decide +kernel)
/-- The last channel and code of a calibration; a scan; a snapshot that is told and one whose bytes are there; a cell's reset. -/
theorem witness_CommandsAwaitResults : AllTake
    [(specAdcCalPoint, [47, 1, 0xFF, 0x3F], { idle with mode := .configure }), (specMemCheck, [0, 0, 0, 4, 8], idle),
      (specCfgLoad, [], { idle with mode := .configure }), (specCfgStore, [1], { idle with mode := .configure }),
      (specParamSave, [], live .idle false), (specLevelReset, [0, 63], State.reset), (specLevelReset, [3], State.reset)]
    ∧ (∀ e : Bool, TakesIn e specSnapshot [64, 0, 0, 0, 0, 0, 0, 0, 0, 0, 1] (live .run e))
    ∧ (∃ (s : State) (x : SnapSt) (z : Nat × CmdIn), s.mad.snap = some x ∧ x.bytes = some [1#8] ∧ s.resultOf 0x0D14 = some z) := by
  refine ⟨allTake (by decide +kernel), fun e => takesIn (by revert e; decide +kernel), ?_⟩
  exact ⟨{ idle with mad := { snap := some ⟨1, 5#32, 64, some [1#8]⟩ },
                     host := { results := [(1, CmdIn.ofReq (req []) 0x0D14 none)] } }, _, (1, CmdIn.ofReq (req []) 0x0D14 none), rfl, rfl, rfl⟩

/-! ### Witnesses: the queue, the checks, the journal, records, axes -/

/-- A command with a parameter list, an apply cycle or none. -/
def cmdOf (k : CmdSpec) (at_ : Bool) (apply : Word) (bs : List Byte) : CmdIn :=
  { port := .keeper 0, opcode := k.opcode, irq := false, chk := false, at_ := at_, tag := 1#16, apply := apply, checkOk := true
    param := bs ++ List.replicate (40 - bs.length) 0#8 }
/-- In RUN while edges run, or while none do. -/
def onEdges : State := live .run true
def noEdges : State := live .run false

/-- Raisings on their way: two of cell 63's island, one of a lower island. -/
def flight : State := { State.reset with fox := { inflight := [⟨2, 0, ⟨1, 63⟩⟩, ⟨3, 0, ⟨1, 63⟩⟩, ⟨2, 0, ⟨1, 0⟩⟩] } }
theorem witness_StepRunsFrontCommand :
    State.reset.pending = [] ∧ { State.reset with mode := .off }.mode = .off ∧ { State.reset with mode := .reset }.mode = .reset
      ∧ State.reset.awake = true ∧ State.reset.tick.fox.inflight = []
      ∧ (flight.awake = true ∧ flight.tick.nextArrival = some ⟨2, 0, ⟨1, 0⟩⟩ ∧ flight.fox.inflight ≠ []) := by decide +kernel

/-- The checks 1 to 7 of R370 as tests. -/
def p5B (s : State) (k : CmdSpec) (c : CmdIn) : Bool :=
  (!c.tested || c.checkOk) && k.allowed c && !k.absent s c && !k.bad s c && !k.strayByte c
def p6B (s : State) (k : CmdSpec) (c : CmdIn) : Bool := p5B s k c && s.modeTakes k && !k.mode s c
def p7B (s : State) (k : CmdSpec) (c : CmdIn) : Bool := p6B s k c && (!c.at_ || (s.edgesRun && !s.lateFor c.apply))
theorem to5 {s : State} {k : CmdSpec} {c : CmdIn} (h : p5B s k c = true) : passesTo5 s k c := by
  simpa [p5B, passesTo5, and_assoc, Bool.eq_false_imp_eq_true, Decidable.imp_iff_not_or] using h
theorem to6 {s : State} {k : CmdSpec} {c : CmdIn} (h : p6B s k c = true) : passesTo6 s k c := by
  simp only [p6B, Bool.and_eq_true, Bool.not_eq_true'] at h
  exact ⟨to5 h.1.1, h.1.2, h.2⟩
theorem to7 {s : State} {k : CmdSpec} {c : CmdIn} (h : p7B s k c = true) : passesTo7 s k c := by
  rw [p7B, Bool.and_eq_true] at h
  exact ⟨to6 h.1, by simpa [Decidable.imp_iff_not_or] using h.2⟩

/-- An IND_MARK with an apply cycle half the range away. -/
theorem witness_CycleNumbers : (0 < 2147483647 ∧ 2147483647 < 2 ^ 31) ∧
    (let c := cmdOf specIndMark true (onEdges.cycle + 0x80000000#32) [1]
     passesTo6 onEdges specIndMark c ∧ specIndMark.fenced = true ∧ c.at_ = true ∧ onEdges.edgesRun = true) :=
  ⟨by decide, to6 (by decide +kernel), by decide +kernel⟩
theorem witness_NoEdges :
    passesTo5 noEdges specIndMark (cmdOf specIndMark true 5#32 [1]) ∧ noEdges.edgesRun = false
      ∧ (∀ x ∈ [(specIndMark, [1#8], false), (specSnapshot, [64, 0, 0, 0, 0, 0, 0, 0, 0, 0, 1], true)],
        x.1.fenced = true ∧ x.1.query = false ∧ x.1.early = false ∧ x.1.post = false ∧ x.1.later = x.2.2
        ∧ noEdges.verdict x.1 (cmdOf x.1 false 0#32 x.2.1) = 0)
      ∧ (specAxisCurRef.fenced = true ∧ specAxisCurRef.post = true ∧ noEdges.verdict specAxisCurRef (cmdOf specAxisCurRef false 0#32 []) = 0) :=
  ⟨to5 (by decide +kernel), by decide +kernel⟩
/-- 255 pending commands, and 256. -/
theorem witness_PendingList :
    let f : Nat → State := fun n => { onEdges with host := { fenced := List.replicate n ⟨cmdOf specIndMark true 5#32 [1], 5#32, 1⟩ } }
    passesTo7 (f 256) specIndMark (cmdOf specIndMark false 0#32 [1]) ∧ 256 ≤ (f 256).host.fenced.length
      ∧ specIndMark.fenced = true ∧ specIndMark.post = false ∧ specIndMark.query = false ∧ (f 255).edgesRun = true
      ∧ (f 255).verdict specIndMark (cmdOf specIndMark false 0#32 [1]) = 0 :=
  ⟨to7 (by decide +kernel), by decide +kernel⟩
/-- The row of PING, and a command for each check that fails. -/
theorem witness_ChecksTurnAway :
    (∃ u c, State.reset.judges specCfgStatusGet (req []) u c ∧ u.verdict specCfgStatusGet c ≠ 0)
    ∧ passesTo5 idle specRearm (cmdOf specRearm false 0#32 []) ∧ passesTo5 State.reset specRearm (cmdOf specRearm false 0#32 [])
    ∧ (passesTo6 onEdges specIndMark (cmdOf specIndMark true 0#32 [1]) ∧ onEdges.lateFor 0#32 = true)
    ∧ (let s : State := { onEdges with mad := { queues := [(3, { posts := List.replicate 8 ⟨9#32, [0#32, 0#32]⟩ })] } }
       passesTo7 s specAxisCurRef (cmdOf specAxisCurRef false 0#32 []) ∧ specAxisCurRef.busy s (cmdOf specAxisCurRef false 0#32 []) = true)
    ∧ (let s : State := { onEdges with jnl := { frozen := true } }
       passesTo7 s specIndMark (cmdOf specIndMark false 0#32 [1]) ∧ specIndMark.busy s (cmdOf specIndMark false 0#32 [1]) = false ∧ s.lagBusy = false
        ∧ s.host.fenced.length < 256 ∧ specIndMark.query = false ∧ s.jnl.frozen = true)
    ∧ specRearm.mode idle (cmdOf specRearm false 0#32 []) = true ∧ State.reset.modeTakes specRearm = false
    ∧ (let c : CmdIn := { cmdOf specPing false 0#32 [] with chk := true, checkOk := false }
       c.tested = true ∧ c.checkOk = false)
    ∧ specTimeSet.allowed { cmdOf specTimeSet false 0#32 [] with port := .qp 32 } = false
    ∧ (specTimeSet.allowed (cmdOf specTimeSet false 0#32 []) = true
      ∧ specRingReclose.absent { idle with variant := .c } (cmdOf specRingReclose false 0#32 [4]) = true)
    ∧ (specRingReclose.absent idle (cmdOf specRingReclose false 0#32 [8]) = false ∧ specRingReclose.bad idle (cmdOf specRingReclose false 0#32 [8]) = true
      ∧ specPing.strayByte (cmdOf specPing false 0#32 [1]) = true) :=
  ⟨⟨_, _, ⟨_, _, rfl, rfl, by decide +kernel, rfl⟩, by decide +kernel⟩, to5 (by decide +kernel), to5 (by decide +kernel),
    ⟨to6 (by decide +kernel), by decide +kernel⟩, ⟨to7 (by decide +kernel), by decide +kernel⟩, ⟨to7 (by decide +kernel), by decide +kernel⟩,
    by decide +kernel⟩
theorem witness_commandRow : CommandRow .ping specPing := by simp [CommandRow]
theorem witness_JournalWrites : State.reset.jnl.frozen = false
    ∧ ({ State.reset with jnl := { entries := List.replicate 4096 ⟨1, 0#32, 0#32, 0#32, 0#16, 0#3, false, 0#6, []⟩ } } : State).jnl.entries.length = 4096
    ∧ ({ State.reset with jnl := { frozen := true } } : State).jnl.frozen = true := ⟨rfl, List.length_replicate, rfl⟩
/-- OPERATION_BOUNDS of cell 0 open, and another source; a raising with one before it of its island, and alone of it. -/
theorem witness_FaultRecords :
    (∀ x ∈ flight.fox.inflight, flight.sender x.src = flight.sender ⟨1, 0⟩ → x = ⟨2, 0, ⟨1, 0⟩⟩)
    ∧ flight.fox.inflight.filter (fun x => flight.sender x.src == flight.sender ⟨1, 63⟩) = [⟨2, 0, ⟨1, 63⟩⟩] ++ ⟨3, 0, ⟨1, 63⟩⟩ :: []
    ∧ (⟨3, 0, ⟨1, 63⟩⟩ : Raising) ∉ [(⟨2, 0, ⟨1, 63⟩⟩ : Raising)] ∧
    let x : FoxRec := ⟨1, 4, 0, false, false, ⟨1, 0⟩, 65535, 0#32, 0#32, 0#32, 0#32, 0#32⟩
    let s : State := { State.reset with fox := { queue := [x], head := 1 } }
    State.reset.awake = true ∧ foxDefined 4 = true ∧ foxDefined 0xF0 = true ∧ (3 : Nat) ≤ 3
      ∧ s.fox.queue.find? (fun y => y.openAt 4 0 && decide (y.src = ⟨1, 0⟩)) = some x
      ∧ s.fox.queue.find? (fun y => y.openAt 4 0 && decide (y.src = ⟨1, 63⟩)) = none := by decide +kernel
/-- An axis with a fault; one in SAFE; one in STEP; drives in OFF by each angle source, with limits in order; the latch; no energising. -/
theorem witness_AxisModes :
    (let x : AxisSt := { faults := 1#7 }; x.faults ≠ 0#7 ∧ AxMode.current ≠ x.mode ∧ AxMode.current ≠ .off)
    ∧ ({ mode := .safe } : AxisSt).mode = .safe ∧ ({ mode := .step } : AxisSt).mode = .step
    ∧ (∀ src ∈ [0, 1, 2, 3], let x : AxisSt := { params := [(0, BitVec.ofNat 32 (16 * src)), (10, 0x3F800000#32), (11, 0x40000000#32)] }
        Fp.gt (x.pw 11) (x.pw 10) = true ∧ x.faults = 0#7 ∧ x.mode = .off ∧ x.stepper = false ∧ x.src = src)
    ∧ (∃ c : InIn, c.latch = true) ∧ (∃ c : InIn, c.energise = false) := by
  refine ⟨by decide, rfl, rfl, by decide, ?_, ?_⟩
  · exact ⟨⟨0#32, 0#32, ⟨0#32, false, true, []⟩, none, none, ⟨0#32, false, true, []⟩, true, true, false, true, 0⟩, rfl⟩
  · exact ⟨⟨0#32, 0#32, ⟨0#32, false, true, []⟩, none, none, ⟨0#32, false, true, []⟩, false, false, false, true, 0⟩, rfl⟩

/-! ### Witnesses: registers, reads, the cycle -/

/-- Writes of function 0 to registers that are there, while the part is awake, each of a row's own registers. -/
def AllOwn (l : List ((State → RegWrite → Bool) × Nat × Word)) : Prop :=
  ∀ x ∈ l, x.1 idle ⟨0, x.2.1, x.2.2⟩ = true ∧ idle.awake = true ∧ mayWrite 0 x.2.1 = true ∧ idle.shutAt x.2.1 = false
theorem allOwn {l : List ((State → RegWrite → Bool) × Nat × Word)} (ha : idle.awake = true)
    (h : l.all (fun x => x.1 idle ⟨0, x.2.1, x.2.2⟩ && mayWrite 0 x.2.1 && !idle.shutAt x.2.1) = true) : AllOwn l := by
  intro x hx
  have := List.all_eq_true.mp h x hx
  simp only [Bool.and_eq_true, Bool.not_eq_true'] at this
  exact ⟨this.1.1, ha, this.1.2, this.2⟩
/-- Every row's register, the first ring's and the last's, the last unit of each repeated register. -/
theorem witness_UnitRegisterWrites :
    AllOwn ([0x100034, 0x100044, 0x1000A0, 0x200000, 0x270000, 0x270028, 0x340008, 0x40002C, 0x400030, 0x400034, 0x400058, 0x400068, 0x400100,
        0x40103C, 0x40203C, 0x401058, 0x402058, 0x401014, 0x402014].map (fun o => (fun _ w => w.off == o && mayWrite 1 o == false, o, 0#32)))
    ∧ AllOwn ([0, 1, 4].map (fun k => (fun _ w => w.off == 0x1000A0 && dataBit w.data k, 0x1000A0, BitVec.ofNat 32 (2 ^ k))))
    ∧ AllOwn ([(0x270000, 0), (0x270028, 0x28)].map
        (fun x => (fun _ w => decide (0x200000 ≤ w.off ∧ w.off < 0x280000 ∧ w.off % 0x10000 = x.2), x.1, 1#32)))
    ∧ idle.mode ≠ .commission
    ∧ (mayWrite 0 0x240000 = true ∧ ({ idle with variant := .c } : State).shutAt 0x240000 = true) :=
  ⟨allOwn (by decide) (by decide +kernel), allOwn (by decide) (by decide +kernel), allOwn (by decide) (by decide +kernel), by decide +kernel⟩
/-- A group whose gates are enabled and whose kind a write changes; an engine that is disabled while it moves; cell 0 in RUN at the word
that a window writes. -/
def ub10 : State := ({ idle with mode := .configure } : State).setFld Reg.pwmGrpCfgEn 1 (lgBase 7)
def moving : State := ({ idle with dma := { runs := [(7, ⟨0, List.replicate 32 0#8⟩)] } } : State).setFld Reg.dmaECtrlEn 1 (dmaBase 7)
theorem witness_HostRegisterWrites :
    AllOwn [(fun _ w => isPair w.off 0x20, 0x5010E0, 5#32), (fun _ w => isPair w.off 0x24, 0x5010E4, 5#32),
      (fun _ w => isPair w.off 0x00, 0x5010C0, 0#32), (fun _ w => w.off == 0x502040 || w.off == 0x502240, 0x502240, 1#32),
      (fun s w => w.off != 0x502040 && w.off != 0x502240 && (s.rowWrite w).isNone && !s.kindUb w, 0x7FFFFC, 5#32),
      (fun _ w => isEngine w.off 0x10, 0x8011D0, 5#32), (fun _ w => isEngine w.off 0 && dataBit w.data 31, 0x8011C0, 0x80000000#32),
      (fun s w => isEngine w.off 0 && !dataBit w.data 31 && (s.dma.runs.find? (fun r => r.1 == (w.off - 0x801000) / 0x40)).isNone, 0x8011C0, 0#32),
      (fun _ w => w.off == 0x800100 && dataBit w.data 0, 0x800100, 1#32), (fun s w => isChan w.off 8 && s.chanHere w.off, 0x8087F8, 5#32),
      (fun s w => isChan w.off 0 && s.chanHere w.off, 0x8087F0, 5#32), (fun _ w => (memUnit w.off).isSome, 0x79FFFFC, 5#32)]
    ∧ mayWrite 1 0x5010C0 = true ∧ mayWrite 1 0x500100 = false
    ∧ ((0x100034 : Nat) ≠ 0x502040 ∧ (0x100034 : Nat) ≠ 0x502240 ∧ (idle.rowWrite ⟨0, 0x100034, 0#32⟩).isSome = true)
    ∧ (ub10.awake = true ∧ (ub10.rowWrite ⟨0, 0x3002C0, 0x10000#32⟩).isNone = true ∧ ub10.kindUb ⟨0, 0x3002C0, 0x10000#32⟩ = true
      ∧ mayWrite 0 0x3002C0 = true ∧ ub10.shutAt 0x3002C0 = false)
    ∧ (isEngine 0x8011C0 0 = true ∧ dataBit 0#32 31 = false ∧ moving.awake = true ∧ mayWrite 0 0x8011C0 = true ∧ moving.shutAt 0x8011C0 = false
      ∧ moving.bit Reg.dmaECtrlEn (dmaBase 7) = true ∧ moving.dma.runs.find? (fun r => r.1 == 7) = some (7, ⟨0, List.replicate 32 0#8⟩))
    ∧ ((sq cq).ub04 (insAddr 0 0) 4 = true ∧ memCell (insAddr 0 0) = some 0 ∧ (sq cq).ub01 (insAddr 0 0) 4 0 = true)
    ∧ idle.ub04 0x4000000 4 = false := by
  exact ⟨allOwn (by decide) (by decide +kernel), by decide +kernel⟩
theorem witness_ReadsAnswer :
    idle.awake = true ∧ ({ idle with variant := .c } : State).absentAt 0x600000 = true
      ∧ (idle.absentAt 0x340008 = false ∧ (idle.viewAt 0x340008).isNone = true ∧ (idle.readClear 0x340008).offUndef 0x340008 = false)
      ∧ (idle.absentAt 0x400010 = false ∧ (idle.viewAt 0x400010).any (fun y => !y.1.offUndef 0x400010) = true)
      ∧ (let s := idle.undefine .chip; s.absentAt 0x600000 = false ∧ (s.regShows 0x600000).1.offUndef 0x600000 = true)
      ∧ isChan 0x8087F4 4 = true ∧ (memUnit 0x79FFFFC).isSome = true
      ∧ idle.host.spiReply = none ∧ ({ idle with host := { spiReply := some [0#8] } } : State).host.spiReply = some [0#8] := by
  decide +kernel

/-- In a mode, with the edge grid at 20 kHz. -/
def clocked (m : Mode) : State := (live m true).setFld Reg.timeCycHzHz 20000
theorem witness_CycleRows :
    (∃ e, (clocked .run).edgeAt ((clocked .run).cycle + 1#32) = some e) ∧ noEdges.edgeAt (noEdges.cycle + 1#32) = none
    ∧ ((clocked .run).edgesRun = true ∧ (clocked .run).mad.replay.running = false ∧ (clocked .run).catchingUp = false)
    ∧ ((sq cq).graphsFire = true ∧ (sq cq).catchingUp = false ∧ ((sq cq).opDesc 1).isSome = true)
    ∧ (idle.awake = true ∧ idle.cellOpen 63 = true)
    ∧ (({ idle with mad := { delay := [(3, { ents := [item 0] })] } } : State).delay 3).ents = item 0 :: []
    ∧ (∀ st : Bool, let s : State := { idle with mode := .commission, mad := { replay := { running := true, stepping := st, go := st } } }
        s.mad.replay.running = true ∧ s.mode = .commission ∧ s.mad.replay.busy = false ∧ (s.mad.replay.stepping = true → s.mad.replay.go = true))
    ∧ (let w : Waiting := ⟨70, cmdOf specPing false 0#32 [], none, 0, 0⟩
       let s : State := { idle with host := { waiting := [w] } }
       s.nextTurn = some 70 ∧ s.host.waiting.find? (fun w => w.src == 70) = some w) :=
  ⟨Option.isSome_iff_exists.mp (by decide +kernel), by decide +kernel, by decide +kernel, by decide +kernel, by decide +kernel, by decide +kernel,
    by intro st; cases st <;> decide, by decide +kernel⟩

/-! ### Witnesses: rings -/

/-- Port 7 in a state, with one schedule entry of a kind for both sides, at `off` ns. -/
def sched7 (kind : Nat) (x : XwState) (m : Mode) (off : Nat) : State :=
  ((inXw x (clocked m)).setReg 0x278000 (BitVec.ofNat 32 (31 * 2 ^ 27 + off))).setReg 0x278004 (BitVec.ofNat 32 (kind * 2 ^ 28 + 2 * 2 ^ 22))
/-- Port 7's own record changed. -/
def with7 (s : State) (f : RingSt → RingSt) : State := s.setRing 7 (f (s.ringSt 7))
def e7 : RingSide := ⟨7, .east⟩
def safe1 : SafetySet := ⟨[1#8], [1#8], 8, [], [⟨true, 2, true, 3⟩], [.sto], [⟨1, 2, 1, [0], 4⟩, ⟨2, 1, 0, [0], 4⟩],
  [⟨.telegram 0, true, 8, 0, 5000⟩, ⟨.reply, true, 8, 0, 6000⟩, ⟨.heartbeat, false, 8, 7, 7000⟩]⟩
def woadOn (s : State) : State := { s with woad := { s.woad with accepted := true, set := some safe1 } }

/-- A state in which port 7 waits for a row, and what the row asks for besides. -/
theorem witness_RingInstants :
    (∀ x ∈ [(inXw .intact onEdges, fun s => decide (s.xw 7 = .intact) && !s.ringLock 7 (s.role 7 .east)),
        ((inXw .link onEdges).setFld Reg.xwCtrlPhy 2 (ringBase 7), fun s => decide (s.xw 7 = .link) && s.fld Reg.xwCtrlPhy (ringBase 7) == 2
          && !(s.ringSt 7).rateHeld),
        ((inXw .intact onEdges).setRingLock 7 .east true, fun s => s.ringLock 7 (s.role 7 .east)),
        (sched7 1 .intact .run 0, fun s => decide (s.mode ≠ .standby ∧ s.lsp.role ≠ .active ∧ s.lsp.switchAt = none)
          && (s.edgeAt (s.cycle + 1#32)).isSome && s.sendsCs 7
          && ((s.sched 7).find? (fun e => e.kind == 1 && s.entryApplies 7 (s.topoNow 7) (s.cycle + 1#32) e)).isSome),
        (with7 (inXw .healed onEdges) (fun y => { y with sentRun := 16 }), fun s => decide (s.xw 7 = .healed ∧ 16 ≤ (s.ringSt 7).sentRun)),
        (sched7 3 .intact .run 0, fun s => s.edgesRun && decide (s.xw 7 = .intact) && (s.windowNext 7 3 (s.role 7 .east)).isSome),
        (inXw .discover onEdges, fun s => decide (s.xw 7 = .discover)),
        (woadOn (sched7 5 .healed .run 0), fun s => s.sfSet.isSome && s.xwRuns 7 && decide (s.lsp.role ≠ .standby)
          && (s.windowNext 7 5 (s.role 7 .east)).isSome),
        (with7 (sched7 7 .intact .run 0) (fun y => { y with verify := true }), fun s => (s.topoNext 7).isSome),
        (with7 (inXw .discover onEdges) (fun y => { y with discFor := 1024 }),
          fun s => decide (s.xw 7 = .discover ∧ (s.ringSt 7).step ≠ .done ∧ 1024 ≤ (s.ringSt 7).discFor)),
        (with7 (inXw .healed onEdges) (fun y => { y with farRun := 256, permit := true }),
          fun s => decide (s.xw 7 = .healed ∧ 256 ≤ (s.ringSt 7).farRun ∧ (s.ringSt 7).permit = true ∧ (s.ringSt 7).evid = [])),
        (with7 (inXw .pass (clocked .standby)) (fun y => { y with csLaunch := some 0#32 }), fun s => decide (s.xw 7 = .pass)
          && decide ((s.ringSt 7).csLaunch = some s.cycle) && !(s.ringSt 7).launched.contains (s.role 7 .east) && (s.launchAt 7 (s.role 7 .east)).isSome),
        (with7 (inXw .pass (clocked .standby)) (fun y => { y with launched := [.east] }),
          fun s => (s.ringSt 7).launched.contains (s.role 7 .east))],
      x.1.ringAwake 7 = true ∧ x.2 x.1 = true)
    ∧ 7 < idle.ringCount ∧ (let s := idle.setFld Reg.bbStatLock 1 (bbBase 1); s.awake = true ∧ s.bit Reg.bbStatLock (bbBase 1) = true) := by
  decide +kernel

/-- A good frame's head, and each kind of frame with a head. -/
def own7 : RxHead := ⟨true, true, 7⟩
def cs0 (h : RxHead) : CsFrame := { h with looped := false, node := 0, cycle := 0#32, edgeNs := 0#32, edgeS := 0#64, edgeSub := 0#16
                                           healed := false, safeAll := false, scStart := false, activeId := false, twinLaunch := false
                                           launchE := 0, launchW := 0, grant := none, hop := 0#8 }
def blk0 : NodeBlock := ⟨false, false, 0#8, 0#16, 0#32, 0#32, 0#16, 0#16⟩
def sub0 (h : RxHead) : SampleSub := { h with node := 15, cycle := 0#16, filled := true, block := blk0, axes := [] }
def async0 (h : RxHead) (w : Bool) : AsyncFrame := { h with inWindow := w, node := 15, cyc := 0#16, sub := 6, body := [] }
def safety0 (h : RxHead) (w : Bool) : SafetyFrame := { h with inWindow := w, node := 15, body := [] }
def loop0 (h : RxHead) : LoopFrame := { h with addr := 15, west := false, hop := 0 }
def disc0 (h : RxHead) : DiscoverFrame := { h with entries := [] }
def echo0 (h : RxHead) : EchoFrame := { h with node := 15, hop := 0, west := false, returned := true, rttSixteenths := 0 }
def claim0 (h : RxHead) (w : Bool) : ClaimFrame :=
  { h with inWindow := w, vendor := 0#16, model := 0#16, serial := 0#32, nonce := 0#16, side := .west, hop := 1, any := false, addr := 15, axesM1 := 0 }
def heads (h : RxHead) : List RxHead := [(cs0 h).toRxHead, (sub0 h).toRxHead, (async0 h false).toRxHead, (safety0 h false).toRxHead,
  (loop0 h).toRxHead, (disc0 h).toRxHead, (echo0 h).toRxHead, (claim0 h false).toRxHead]
/-- A bad check, a reserved type, a foreign ring, no window; a frame of this ring's own in each state it has a meaning in. -/
theorem witness_RingFrames :
    (inXw .intact onEdges).ringAwake 7 = true
    ∧ ((heads ⟨false, true, 7⟩).all (fun h => !h.crcOk) = true
      ∧ ∀ x ∈ [⟨true, false, 7⟩, (⟨true, true, 6⟩ : RxHead)], ∀ h ∈ heads x, h.crcOk = true ∧ (h.typeOk = false ∨ h.ringNo ≠ 7))
    ∧ ((∀ h ∈ heads own7, h = own7) ∧ (async0 own7 false).inWindow = false ∧ (safety0 own7 true).inWindow = true)
    ∧ ((inXw .pass (live .standby true)).ringAwake 7 = true ∧ (inXw .pass (live .standby true)).xw 7 = .pass)
    ∧ ((inXw .intact onEdges).xw 7 = .intact ∧ (cs0 own7).activeId = (inXw .intact onEdges).activeId ∧ (inXw .intact onEdges).xwRuns 7 = true)
    ∧ (let s : State := { inXw .intact onEdges with lsp := { role := .active } }
       s.ringAwake 7 = true ∧ s.xw 7 = .intact ∧ ({ cs0 own7 with activeId := !s.activeId } : CsFrame).activeId ≠ s.activeId ∧ s.lsp.role ≠ .unpaired
        ∧ s.lsp.tookOver = false ∧ s.mode = .run)
    ∧ (({ cs0 own7 with activeId := true } : CsFrame).activeId ≠ (inXw .intact onEdges).activeId ∧ (inXw .intact onEdges).lsp.role = .unpaired)
    ∧ (inXw .discover onEdges).xw 7 = .discover := by
  decide +kernel

/-! ### Witnesses: local drives -/

/-- Group 7, interface 7 and converter 15 of a state changed. -/
def lg7 (s : State) (x : LgSt) : State := (s.setLg 7 x).setFld Reg.pwmGrpCfgEn 1 (lgBase 7)
def fb7 (mode : Nat) (s : State) (x : FbSt) : State := (s.setFb 7 x).setFld Reg.fbCfgMode mode (fbBase 7)
/-- Group 7 enabled, its carrier running, with a record whose enable bit and whose mask are as given. -/
def wave (masked safe5 enable : Bool) : State :=
  lg7 onEdges { rec_ := [0#32, 0#32, if enable then 0x200#32 else 0#32], started := true, masked := masked, safe5 := safe5 }
theorem witness_GateTimerRows :
    (onEdges.edgesRun = true ∧ onEdges.awake = true ∧ (∃ k, k < 8 ∧ (onEdges.lg k).taken = false))
    ∧ (let s := clocked .run
       (s.applyTap s.cycle).isSome = true ∧ (s.applyTap (s.cycle + 1#32)).isSome = true ∧ (∀ k < 8, (s.lg k).started = false))
    ∧ (let s := lg7 onEdges { started := true, left := 1 }
       s.awake = true ∧ (s.lg 7).started = true ∧ (s.lg 7).left ≠ 0 ∧ s.bit Reg.pwmGrpCfgEn (lgBase 7) = true)
    ∧ (∀ b : Bool, let s := lg7 onEdges { coilA := { ph := .fast, mixEnd := some 5 }, coilB := { ph := .fast, mixEnd := some 5 } }
        ((s.lg 7).coil b).ph = .fast ∧ ((s.lg 7).coil b).mixEnd = some 5)
    ∧ (let s := idle.setFld Reg.pwmGrpMaskSrc 1 (lgBase 7)
       s.bit Reg.pwmGrpMaskSrc (lgBase 7) = true ∧ s.fld Reg.pwmGrpCfgFb (lgBase 7) < 8)
    ∧ (∀ b : Bool, let s := lg7 onEdges { masked := true, stepAt := if b then none else some (onEdges.now16 + 1) }
        let e : MaskEdge := .zc (sixStep 0).2.2.1 (sixStep 0).2.2.2
        s.bit Reg.pwmGrpCfgEn (lgBase 7) = true ∧ (s.lg 7).masked = true ∧ s.qualified 7 e = true ∧ recForced (s.lg 7).rec_ = false
          ∧ s.blanked 7 = b ∧ (s.lg 7).delay = none)
    ∧ (let s := lg7 onEdges { masked := true, delay := some 9 }
       s.awake = true ∧ (s.lg 7).masked = true ∧ (s.lg 7).delay = some 9)
    ∧ ((wave true false true).lgOrder 7 = 7 ∧ (wave false false true).lgOrder 7 = 8 ∧ (wave false false false).lgOrder 7 = 6
      ∧ (wave false true true).lgOrder 7 = 5 ∧ onEdges.lgOrder 7 = 4 ∧ (lg7 onEdges { fault := true }).lgOrder 7 = 3
      ∧ onEdges.groupUndef 7 = false ∧ onEdges.stoOff 7 = false ∧ onEdges.power.handling = false)
    ∧ (({ onEdges with power := { handling := true } } : State).power.handling = true ∧ ({ onEdges with fox := { latch := true } } : State).fox.latch = true)
    ∧ (onEdges.setFld Reg.pwmGrpCfgKind 1 (lgBase 7)).bit Reg.pwmGrpCfgKind (lgBase 7) = true
    ∧ (let f : State → State := fun s => { s with fox := { s.fox with latch := true } }
       (f onEdges).lgSafe 7 = true ∧ onEdges.lgSafe 7 = false) :=
  ⟨⟨by decide, by decide, 0, by decide +kernel⟩, by decide +kernel⟩

theorem witness_ConverterRows :
    (let s := ((clocked .run).setFld Reg.adcCtrlRunning 1).setConv 15 { idx := 63 }
     s.bit Reg.adcCtrlRunning = true ∧ s.awake = true ∧ s.timedNext 15 = some (63, false) ∧ (s.conv 15).run = none)
    ∧ (let s := ((clocked .run).setFld Reg.adcCtrlRunning 1).setConv 15 { idx := 63, run := some ⟨62, 45, false, false, false, 0⟩ }
       s.timedNext 15 = some (63, false) ∧ (s.conv 15).run = some ⟨62, 45, false, false, false, 0⟩)
    ∧ (let s := (clocked .run).setConv 15 { run := some ⟨64, 47, true, false, false, 0⟩ }
       s.awake = true ∧ (s.conv 15).run = some ⟨64, 47, true, false, false, 0⟩ ∧ (s.conv 15).urgent = [] ∧ (s.conv 15).aborted = none)
    ∧ (onEdges.edgesRun = true ∧ onEdges.awake = true ∧ onEdges.adc.sent = false)
    ∧ (∀ pt : Fin 2, let s : State := { idle with mode := .configure, adc := { points := [(47, (64 * 1000, 1000))], cal := some (1, 47, pt.val, 15000) },
                                                  host := { results := [(1, cmdOf specAdcCalPoint false 0#32 [])] } }
       s.calCmd = some ((1, cmdOf specAdcCalPoint false 0#32 []), 47, pt.val, 15000) ∧ Tab.find s.adc.points 47 = some (64 * 1000, 1000))
    ∧ ((64 * 1000 + 65536 : Nat) ≤ 64 * 15000 ∧ 0x8000 ≤ calGain (64 * 1000, 1000) (64 * 15000, 15000) ∧ calGain (64 * 1000, 1000) (64 * 15000, 15000) ≤ 0x1FFFF) :=
  by decide +kernel
/-- Interface 7 as an encoder with and without Hall inputs, as a serial interface that may ask, and that waits for a frame. -/
theorem witness_FeedbackRows :
    (let s := (fb7 1 onEdges {}).setFld Reg.fbCfgZMode 3 (fbBase 7)
     s.awake = true ∧ s.fbMode 7 = 1 ∧ s.fld Reg.fbCfgZMode (fbBase 7) ≠ 0 ∧ s.bit Reg.fbCfgHallEn (fbBase 7) = false)
    ∧ (let s := (fb7 1 onEdges {}).setFld Reg.fbCfgHallEn 1 (fbBase 7)
       s.awake = true ∧ s.bit Reg.fbCfgHallEn (fbBase 7) = true ∧ (s.fb 7).valid = none ∧ (7#3).toNat ≠ (s.fb 7).hall ∧ (1#3).toNat ≠ (s.fb 7).hall)
    ∧ (let s := fb7 2 onEdges {}
       s.awake = true ∧ 2 ≤ s.fbMode 7 ∧ (s.fb 7).waits = false ∧ s.edgesRun = true)
    ∧ (∀ e : Bool, let s := fb7 (if e then 3 else 2) onEdges { waits := true, passed := true }
       (s.fb 7).waits = true ∧ (s.fb 7).passed = true ∧ 2 ≤ s.fbMode 7 ∧ s.frameGood 7 ⟨0, e, false, 0#6, true, true⟩ = !e ∧ (s.fb 7).prev = none) := by
  decide +kernel

/-! ### Witnesses: time, backbone, host links -/

/-- Port 1 of the backbone up. -/
def bbOn (s : State) : State := ((s.setFld Reg.bbCtrlEn 1 (bbBase 1)).setFld Reg.bbStatLock 1 (bbBase 1)).setBit Reg.bbPairCtrlClosed false
def txd : BbTxDesc := ⟨64, true, true, 1#16, 0#32, 1#64, []⟩
def frame64 : BbFrame := ⟨true, 64, 0#16, 0#48, 0#48, List.replicate 46 0#8, 0⟩
/-- Its launch far ahead, at hand, beyond a second; what the port does in each. -/
def txAt (s : Nat) : BbTxDesc := { txd with launchS := BitVec.ofNat 64 s }
theorem witness_TimeAndBackboneRows :
    (idle.awake = true ∧ (idle.setFld Reg.timeHoldStaleMs 1).fld Reg.timeHoldStaleMs ≠ 0 ∧ (idle.setFld Reg.timeHoldStaleMs 1).bit Reg.timeStatStale = false)
    ∧ (0 < idle.time.left ∧ 0 < 499 ∧ 499 < idle.time.left ∧ idle.time.total + 499 * idle.time.taken.inc.toNat < 2 ^ 40 * (1000000000 * 2 ^ 64))
    ∧ (idle.time.ppsHigh = false ∧ ({ idle with time := { ppsHigh := true } } : State).time.ppsHigh = true)
    ∧ Tab.find ({ idle with time := { clkNext := [(1, ⟨2#32, 0#32⟩)] } } : State).time.clkNext 1 = some ⟨2#32, 0#32⟩
    ∧ ((bbOn idle).awake = true ∧ (bbOn idle).bbUp 1 = true ∧ (frame64.fcsOk = true ∧ frame64.length = 64)
      ∧ (1522 < ({ frame64 with length := 1523 } : BbFrame).length) ∧ (bbOn idle).power.handling = false)
    ∧ (let s := (bbOn idle).setBbSt 1 { timed := some (txAt 0) }
       s.bbUp 1 = true ∧ s.bbGuard 1 = true ∧ (s.bbSt 1).timed = some (txAt 0))
    ∧ (∀ x ∈ [none, some (txAt 1)], let s := (bbOn idle).setBbSt 1 { timed := x, fwd := [⟨false, 0, []⟩] }
       s.bbUp 1 = true ∧ s.bbGuard 1 = false ∧ s.txWaits 1 = false ∧ (s.bbSt 1).fwd = ⟨false, 0, []⟩ :: [])
    ∧ (let s := ((bbOn idle).setFld Reg.bbTxLen 8 (bbBase 1)).setFld Reg.bbTxTail 1 (bbBase 1)
       s.bbUp 1 = true ∧ (s.bbSt 1).timed = none ∧ s.txWaits 1 = true)
    ∧ ((txLaunch (txAt 0) - 0) * 100 < idle.maxFrame100 1 ∧ idle.maxFrame100 1 ≤ (txLaunch (txAt 1) - 0) * 100 ∧ txLaunch (txAt 1) - 0 ≤ sec16 1
      ∧ idle.maxFrame100 1 ≤ (txLaunch (txAt 2) - 0) * 100 ∧ sec16 1 < txLaunch (txAt 2) - 0)
    ∧ ((bbOn idle).bit Reg.bbStatLock (bbBase 1) = true ∧ (bbOn idle).bit Reg.bbPairCtrlClosed = false ∧ (bbOn idle).bit Reg.bbCtrlEn (bbBase 1) = true) := by
  decide +kernel
/-- Pair 63 on, with one command in its ring. -/
def qp63 : State := ((idle.setFld Reg.qpCtrlEn 1 (qpBase 63)).setFld Reg.qpSqTailTail 1 (qpBase 63)).setFld Reg.qpCtrlSizeLog2 4 (qpBase 63)
theorem witness_HostLinkRows :
    (∃ t n, qp63.arrive (.qp 63) 5#16 = (t, some n)) ∧ (∃ t n, idle.arrive .spi 5#16 = (t, some n))
    ∧ (qp63.awake = true ∧ qp63.bit Reg.qpCtrlEn (qpBase 63) = true)
    ∧ (idle.isA = true ∧ linkRate 1 1 ≠ 0 ∧ linkRate 4 4 ≠ 0) ∧ idle.mode ≠ .off := by
  refine ⟨⟨_, _, Prod.ext rfl (Option.some_get (by decide +kernel : (qp63.arrive (.qp 63) 5#16).2.isSome = true)).symm⟩,
    ⟨_, _, rfl⟩, by decide +kernel, by decide +kernel, by decide⟩

/-! ### Witnesses: power, configuration, safety, the twin, the engines -/

/-- Every bypass switch open. -/
def allOpen : State := (List.range 8).foldl (fun s r => s.setBit Reg.xwStatBypassClosed false (ringBase r)) (idle.setBit Reg.bbPairCtrlClosed false)
/-- A state in which each row does what it is for. -/
theorem witness_PowerRows :
    ({ idle with mode := .off } : State).mode = .off ∧ (idle.mode ≠ .off ∧ idle.mode ≠ .reset ∧ idle.power.handling = false ∧ idle.awake = true)
    ∧ (({ idle with mode := .reset } : State).mode = .reset ∧ ({ idle with mode := .reset } : State).power.holdReset = false) ∧ State.reset.mode = .boot
    ∧ ({ idle with power := { handling := true } } : State).power.handling = true
    ∧ (let s : State := { idle with mode := .reset, power := { holdReset := true } }
       s.mode = .reset ∧ s.power.holdReset = true ∧ s.power.pfailN = true)
    ∧ (idle.mode ≠ .armed ∧ idle.mode ≠ .run ∧ idle.mode ≠ .degraded ∧ 63 < idle.cellCount) ∧ onEdges.mode = .run
    ∧ (idle.bypassN ≠ some true ∧ ({ allOpen with power := { vholdOk := true } } : State).bypassN = some true)
    ∧ (idle.islandPresent 107 = true ∧ ((idle.setIsland 107 { idle.island 107 with locked := true }).island 107).locked = true
      ∧ (idle.setIsland 107 { idle.island 107 with locked := true }).islandPresent 107 = true) := by
  decide +kernel
/-- The supplies fail and PFAIL is detected with them. -/
theorem witness_supplyAtPfail : ∃ t, exec (.pfailDetect true) idle = .next t := ⟨_, rfl⟩
/-- An image file whose fields all hold. -/
def table1 : List Byte := leBytes 4 10 ++ leBytes 4 272 ++ leBytes 4 24 ++ leBytes 4 0 ++ [1000, 1000, 40000, 40000, 0, 35000].flatMap (leBytes 4)
def file1 : ImageFile := ⟨true, leBytes 4 0x72561A6E ++ leBytes 2 1 ++ leBytes 2 3 ++ leBytes 4 296 ++ leBytes 4 1 ++ leBytes 8 (crc64 table1)
  ++ leBytes 4 20000 ++ List.replicate 228 0#8 ++ table1, img2⟩
theorem test_image_fits : ({ idle with mode := .configure } : State).imageFail file1 = 0 := by decide +kernel
/-- An image within the capacities, and one for each that does not fit: a queue's depth, an operation's ports, a channel's block, a wheel's
length. -/
theorem test_wf_image : Instr.wf (.cfgLoadComplete file1) = true
    ∧ ∀ i ∈ [{ img2 with queues := [queue 0 1 65 2] }, { img2 with ops := [{ kernel0 with ports := List.replicate 17 ⟨true, true, 1, 0⟩ }] },
        { img2 with wics := [{ id := 63, owner := 3, home := 16, depth := 8, prio := 3, pool := 0, ports := [] }] },
        { img2 with wheels := { blocks := [(0, [none])] } }],
      Instr.wf (.cfgLoadComplete { file1 with image := i }) = false := by decide +kernel
/-- A load that ended outside CONFIGURE, in it with a bad image, in it with a good one. -/
theorem witness_ConfigurationEnds :
    ({ idle with power := { unitResets := [(0, 63)] } } : State).power.unitResets.contains (0, 63) = true
    ∧ (∀ op ∈ [0x0201, 0x0202, 0x0203], ∀ m ∈ [Mode.idle, .configure], let c : CmdIn := { cmdOf specCfgLoad false 0#32 [] with opcode := op }
        ({ idle with mode := m, host := { results := [(1, c)] } } : State).resultOf op = some (1, c))
    ∧ ({ idle with mode := .configure } : State).imageFail { file1 with readOk := false } ≠ 0
    ∧ ({ idle with power := { file := some file1 } } : State).power.file = some file1
    ∧ ({ idle with power := { saving := some [] } } : State).power.saving = some [] := by
  decide +kernel
theorem witness_SafetyRows :
    (let s := woadOn { idle with woad := { due := true } }
     s.sfSet = some safe1 ∧ s.woad.due = true ∧ s.awake = true)
    ∧ (let s := (woadOn idle).setSi 0 { a := { level := true }, apart := some 16 }
       s.awake = true ∧ s.siCfg 0 = some ⟨true, 2, true, 3⟩ ∧ (s.si 0).apart = some 16)
    ∧ (let s := woadOn { idle with woad := { pulse := some (true, 6) } }
       s.siCfg 0 = some ⟨true, 2, true, 3⟩ ∧ s.woad.pulse = some (true, 6))
    ∧ (let s : State := { idle with woad := { so := 0x80#8 } }
       s.awake = true ∧ s.woad.so.getLsbD 7 = true ∧ (⟨true, false⟩ : OutTest).offReadsOn = true)
    ∧ (let s := (woadOn idle).setConnSt 1 { expired := false, miss := 4 }
       s.sfSet = some safe1 ∧ safe1.conns[1]? = some ⟨2, 1, 0, [0], 4⟩ ∧ (s.conn 1).expired = false ∧ 4 ≤ (s.conn 1).miss)
    ∧ (let s := (woadOn idle).setConnSt 0 { out := [1#8] }
       s.sfSet = some safe1 ∧ safe1.conns[0]? = some ⟨1, 2, 1, [0], 4⟩ ∧ (s.conn 0).out ≠ [] ∧ s.lsp.role ≠ .standby)
    ∧ ({ idle with woad := { reply := some [1#8] } } : State).woad.reply = some [1#8]
    ∧ ({ idle with lsp := { role := .standby } } : State).lsp.role ≠ .unpaired := by
  decide +kernel
/-- A standby with the link up, in a state of synchronisation; a copy of two words in one frame. -/
def stand (y : LspSync) (l : LspSt) : State := { clocked .standby with lsp := { l with linkUp := true, sync := y, role := .standby } }
def hb1 : TwinHeartbeat := ⟨true, 0#32, true, 0#32, 0#16, 5#8, false, false, false, true, 0, 7#64⟩
theorem witness_TwinRows :
    (let s : State := { idle with lsp := { linkUp := true } }
     s.isA = true ∧ s.awake = true ∧ s.lsp.linkUp = true ∧ hb1.crcOk = true ∧ s.mode ≠ .standby)
    ∧ ((stand .syncing {}).mode = .standby ∧ (stand .syncing {}).lsp.linkUp = true ∧ (stand .syncing {}).lsp.sync = .syncing
      ∧ (((stand .syncing {}).image.map Image.axes).getD []).find? (fun c => c.srcQ == 9) = none)
    ∧ ((stand .inStep {}).lsp.sync = .inStep ∧ (⟨9, ⟨(stand .inStep {}).cycle, false, false, [1#32]⟩⟩ : TokenRec).tok.cycle = (stand .inStep {}).cycle
      ∧ (stand .inStep {}).mad.samples.any (fun r => r.queue == 9) = false)
    ∧ ((stand .none {}).isA = true ∧ (stand .none {}).awake = true ∧ (stand .none {}).jnlOpen = true)
    ∧ ((⟨true, 5#32, 0, 1, [1#8]⟩ : TwinCopy).crcOk = true ∧ (stand .syncing {}).lsp.loaded = false ∧ (stand .syncing {}).lsp.copyCycle ≠ 5#32
      ∧ copyBytes 1 [(0, [1#8])] = some [1#8])
    ∧ (let s : State := { onEdges with lsp := { role := .active, linkUp := true } }
       s.lsp.role = .active ∧ s.lsp.linkUp = true ∧ cycLater 1#32 (s.cycle + 1#32) = false)
    ∧ (let s := stand .inStep { ready := true, wNow := { resign := true } }
       s.mode = .standby ∧ s.edgesRun = true ∧ (s.instant (s.cycle + 1#32) (-((s.timing.tCs : Int) - s.timing.tWatch))).isSome = true ∧ s.lsp.ready = true
        ∧ ((s.instant (s.cycle + 1#32) (-((s.timing.tCs : Int) - s.timing.tWatch))).map (fun x => (s.advanceTo x).bit Reg.lspCtrlInhibit)) = some false
        ∧ s.lsp.wNow.resign = true ∧ s.lsp.watched = false)
    ∧ (let s := stand .syncing { loaded := true, caught := 127 }
       s.mode = .standby ∧ s.lsp.sync = .syncing ∧ s.lsp.loaded = true ∧ s.lsp.caught < 128
        ∧ cycLater (s.closeCaught.catchCycle + 1#32) s.closeCaught.cycle = true)
    ∧ (let s : State := { stand .syncing { loaded := true, caught := 0 } with cycle := 9#32 }
       cycLater (s.closeCaught.catchCycle + 1#32) s.closeCaught.cycle = false ∧ s.closeCaught.catchCycle + 1#32 ≠ s.closeCaught.cycle)
    ∧ 128 ≤ (stand .syncing { loaded := true, caught := 128 }).lsp.caught := by
  decide +kernel
/-- Descriptors: one that only takes a check value of host data on channel 0, and one from a control window to Indigo's, on no channel. -/
def desc0 (bs : List Byte) : List Byte := bs ++ List.replicate (32 - bs.length) 0#8
def descHost : List Byte := desc0 (List.replicate 20 0#8 ++ [17#8])
/-- The three requesters of a cell's memory where each is served. -/
theorem witness_cellGrant : (CellReq.core ∈ [CellReq.core, .dma] ∧ 3 < 4 ∧ 63 < 64) ∧ (CellReq.writeBack ∈ [CellReq.core, .writeBack] ∧ 4 ≤ 4)
    ∧ (CellReq.dma ∈ [CellReq.core, .dma] ∧ CellReq.writeBack ∉ [CellReq.core, .dma] ∧ 64 ≤ 64) := by decide
/-- A run of engine 7. -/
def runOf (bs : List Byte) : State := { idle with dma := { runs := [(7, ⟨0, bs⟩)] } }
theorem witness_UnitRows :
    ({ idle with fox := { states := [⟨3, ⟨0, 0⟩, 7⟩] } } : State).fox.states.find? (fun y => y.is 3 ⟨0, 0⟩) = some ⟨3, ⟨0, 0⟩, 7⟩
    ∧ (({ idle with fox := { windows := [⟨⟨1, 63⟩, [], 0⟩] } } : State).fox.windows.find? (fun x => decide (x.src = ⟨1, 63⟩))) = some ⟨⟨1, 63⟩, [], 0⟩
    ∧ (onEdges.awake = true ∧ onEdges.isA = true ∧ onEdges.edgesRun = true ∧ onEdges.ind.shut = false)
    ∧ (let s := idle.setFld Reg.indCfgSizeLog2 20
       [0#8].length ≤ s.indSize - 5 % s.indSize ∧ s.indSize - 1048575 % s.indSize < [0#8, 1#8].length)
    ∧ ({ idle with ind := { firing := true } } : State).ind.firing = true
    ∧ ({ idle with ind := { staged := [⟨0, []⟩] } } : State).ind.staged = ⟨0, []⟩ :: []
    ∧ (let s := ((idle.setFld Reg.dmaECtrlEn 1 (dmaBase 7)).setFld Reg.dmaECtrlLen 8 (dmaBase 7)).setFld Reg.dmaETailTail 1 (dmaBase 7)
       s.awake = true ∧ s.bit Reg.dmaECtrlEn (dmaBase 7) = true ∧ s.bit Reg.dmaEStatBusy (dmaBase 7) = false
        ∧ s.fld Reg.dmaEHeadHead (dmaBase 7) ≠ s.fld Reg.dmaETailTail (dmaBase 7) % max 1 (s.fld Reg.dmaECtrlLen (dmaBase 7))
        ∧ s.dmaWaits 7 = true ∧ s.dma.runs = [])
    ∧ (let f := DescFields.of (desc0 []); f.formOk = true ∧ f.onChip ≠ [] ∧ (f.onChip.flatMap (fun a => controlUnits a f.len)).isEmpty = false)
    ∧ (let f := DescFields.of descHost; f.feeds = true ∧ idle.dmaBound f.ch = false ∧ f.srcHost = true ∧ f.crcOnly = true)
    ∧ (∀ b : Bool, let x : DmaEnd := ⟨[], b⟩; x.hostFailed = b ∧ ((runOf descHost).dma.runs.find? (fun r => r.1 == 7)).isSome = true)
    ∧ (let w : WheelSt := { last := 1, spent := 1 }
       w.owner [some 1] false = some 1 ∧ w.owner [none] false = none ∧ 1 ∈ [1] ∧ w.last ∈ [1] ∧ 0 < w.spent ∧ w.spent < 2 ∧ 1 < 4)
    ∧ (({ idle with dma := { scan2 := [(1, 0, 8, 0)] } } : State).dma.scan2 = (1, 0, 8, 0) :: []
      ∧ ({ idle with host := { results := [(1, cmdOf specMemCheck false 0#32 [])] } } : State).resultOf 0x0D01 = some (1, cmdOf specMemCheck false 0#32 []))
    ∧ ({ idle with dma := { scan := some (0, 8, 0) } } : State).dma.scan = some (0, 8, 0) := by
  decide +kernel

/-! ### Other commands: one step each -/

/-- The front command runs, the rest waits. -/
theorem test_step_front : (match step { idle with pending := [.ppsRise, .cycleEdge] } with | .next t => some t.pending | _ => none)
    = some [.cycleEdge] := by decide +kernel
/-- R331: an idle tick adds the increment, 2 ns at reset. -/
theorem test_tick : (match step idle with | .next t => some t.time.ns | _ => none) = some 2#32 := by decide +kernel
/-- R446, R450: the first record has number 1. -/
theorem test_fault_raising : (after (.faultRaising ⟨0xE5, 1, ⟨0, 0⟩⟩) idle).map (fun t => t.fox.queue.map (fun r => (r.no, r.cls, r.level, r.count)))
    = some [(1, 0xE5, 1, 1)] := by decide +kernel
/-- R456, R498: SAFE_STOP at L3 is on its way to Foxglove. -/
theorem test_safe_stop : (after (.safeStop (req [])) idle).map (fun t => t.fox.inflight) = some [⟨0xF0, 3, ⟨0, 0⟩⟩] := by decide +kernel
/-- R338: the time value set. -/
theorem test_time_set : (after (.timeSet (req [9, 0, 0, 0, 0, 0, 0, 0, 5])) idle).map (fun t => (t.time.s, t.time.ns)) = some (9#64, 5#32) := by
  decide +kernel
/-- R388: the first accepted command is entry 1, with its opcode. -/
theorem test_journal : (after (.safeStop (req [])) idle).map (fun t => t.jnl.entries.map (fun e => (e.seq, e.opcode))) = some [(1, 0x0102#16)] := by
  decide +kernel
/-- A query is not journaled. -/
theorem test_query : (after (.ping (req [])) idle).map (fun t => t.jnl.entries) = some [] := by decide +kernel
/-- R361: function 1 may not write a pair of function 0; the attempt is counted. -/
theorem test_authority : (after (.qpSqTailWrite ⟨1, 0x500120, 5#32⟩) idle).map (fun t => (t.fld Reg.qpSqTailTail 0, t.fld Reg.cmdAuthErrPf1Wr)) = some (0, 1) := by
  decide +kernel
/-- R498, R512: a power-fail entry freezes the journal after its own entry. -/
theorem test_pfail : (after (.pfailDetect false) idle).map (fun t => (t.jnl.frozen, t.power.handling, t.jnl.head)) = some (true, true, 1) := by
  decide +kernel
/-- R498: loss of the supplies. -/
theorem test_supply_loss : (after .supplyLoss idle).map (fun t => t.mode) = some .off := by decide +kernel
/-- R409: a faulted output is switched off at once. -/
theorem test_output_fault : (after (.safeOutputTest 7 ⟨true, false⟩) { idle with woad := { so := 0x81#8 } }).map (fun t => (t.woad.so, t.woad.soFault))
    = some (1#8, 0x80#8) := by decide +kernel
/-- R454: a unit recovers 10 ms after its last raising. -/
theorem test_quiet : (after (.faultQuietExpiry 1 ⟨0, 0⟩) { idle with fox := { states := [⟨1, ⟨0, 0⟩, 5⟩] } }).map
    (fun t => (t.fox.states, t.fld Reg.foxRecovLoL1, t.time.ran)) = some ([], 1, 5000005) := by decide +kernel
/-- UB_16: debug access to a cell in RUN halts it and leaves what the chip puts out undefined. -/
theorem test_debug_in_run : (after (.jtagInstruction (.debug 0)) { idle with mode := .run }).map (fun t => ((t.cell 0).halted, t.undef))
    = some (true, [.chip]) := by decide +kernel
/-- R28: the older raising of an island is taken before a later one of the same island. -/
theorem test_raising_order : (after (.faultRaising ⟨3, 0, ⟨1, 63⟩⟩) { flight with mode := .idle }).map (fun t => t.fox.queue.map FoxRec.cls)
    = some [2, 3] := by decide +kernel
/-- R343: a PTP event message by its bytes. -/
theorem test_ptp : ptpEvent (List.replicate 12 0#8 ++ [0x88#8, 0xF7#8, 0#8, 2#8]) = true
    ∧ ptpEvent (List.replicate 12 0#8 ++ [0x88#8, 0xF7#8, 8#8, 2#8]) = false := by decide +kernel

/-! ### Witnesses: further clauses -/

theorem witness_foxSent : foxSent ⟨2, 0, ⟨1, 63⟩⟩ = true ∧ foxSent ⟨2, 1, ⟨1, 63⟩⟩ = false := by decide
/-- A group outside FAULT under the latch, and in FAULT; the delay line at its limit and not. -/
theorem witness_gateOrders :
    (let s : State := { idle with fox := { latch := true } }
     s.stoOff 7 = false ∧ s.power.handling = false ∧ s.fox.latch = true ∧ s.mode ≠ .fault)
    ∧ ({ idle with mode := .fault } : State).mode = .fault ∧ idle.groupUndef 7 = false
    ∧ idle.bit Reg.pwmDlyStatDlyErr = false ∧ (idle.setBit Reg.pwmDlyStatDlyErr true).bit Reg.pwmDlyStatDlyErr = true := by decide +kernel
/-- Converter 15 at its first entry, a timed one, before and after the entry's start. -/
def timed15 (t : Nat) : State :=
  let s := { clocked .run with adcs := [(15, { idx := 0 })], time := { (clocked .run).time with s := 1#64, ns := BitVec.ofNat 32 t } }
  { s with cycle := s.time.n0 }
theorem witness_seqNext :
    ((timed15 0).seqAt 15 65 ((timed15 0).conv 15).idx = 0 ∧ (timed15 0).seqAt 15 65 ((timed15 0).conv 15).idx ≠ 1)
    ∧ ((timed15 0).seqKind 15 0 = 0 ∧ ((timed15 0).conv 15).due = false)
    ∧ (∃ t, (timed15 40000).instant (timed15 40000).cycle ((timed15 40000).seqSample 15 0 - 30) = some t ∧ t < (timed15 40000).now16) := by
  refine ⟨by decide +kernel, by decide +kernel, ?_⟩
  obtain ⟨t, ht⟩ := Option.isSome_iff_exists.mp (by decide +kernel : ((timed15 40000).instant (timed15 40000).cycle ((timed15 40000).seqSample 15 0 - 30)).isSome = true)
  refine ⟨t, ht, ?_⟩
  have h : ((timed15 40000).instant (timed15 40000).cycle ((timed15 40000).seqSample 15 0 - 30)).all (fun t => decide (t < (timed15 40000).now16)) = true := by
    decide +kernel
  simpa [ht] using h
/-- Woad B's inputs in a reset that Woad outlives; its counter below its counts; Hall inputs that are not read, read and unchanged, read first. -/
theorem witness_shadowAndHall :
    (let s : State := { idle with mode := .reset, power := { kind := 3 } }
     s.woadOn = true ∧ s.awake = false ∧ s.mode = .reset ∧ s.power.kind = 3)
    ∧ ((Tab.get 0#32 idle.woad.shadow 7).toNat < idle.shadowCpr 7 ∧ idle.shadowCpr 7 ≤ 2 ^ 32)
    ∧ idle.bit Reg.fbCfgHallEn (fbBase 7) = false
    ∧ (let s := (idle.setBit Reg.fbCfgHallEn true (fbBase 7)).setFb 7 { hall := 5, hallRead := true }
       s.awake = true ∧ s.bit Reg.fbCfgHallEn (fbBase 7) = true ∧ (s.fb 7).hallRead = true ∧ (5#3).toNat = (s.fb 7).hall)
    ∧ (let s := idle.setBit Reg.fbCfgHallEn true (fbBase 7)
       s.awake = true ∧ s.bit Reg.fbCfgHallEn (fbBase 7) = true ∧ (s.fb 7).hallRead = false ∧ (s.fb 7).valid = none) := by
  decide +kernel
/-- An output that is to stop. -/
def stopping : List ClkSeg := [⟨⟨2#32, 0#32⟩, 0, some 5⟩]
theorem witness_clkTake : (clkLive stopping 3).getLast? = some ⟨⟨2#32, 0#32⟩, 0, some 5⟩ := by decide
/-- The first cycle of a safety cycle, before an axis has passed the tap and with none monitored; the line's slots in their cycles. -/
def sfOn (s : State) : State := woadOn { s with image := some { img2 with safety := some safe1 } }
def lineAt (n : Nat) (l : LspSt) : State := { sfOn idle with woad := { (sfOn idle).woad with edges := n, reply := some [1#8] }, lsp := l }
theorem witness_lineSlots :
    ((lineAt 1 {}).lineSlot (.telegram 0)).map Prod.fst = some 0 ∧ ((lineAt 9 {}).lineSlot .reply).map Prod.fst = some 1
    ∧ ((lineAt 8 { role := .standby }).lineSlot .heartbeat).map Prod.fst = some 2 ∧ (lineAt 8 {}).lineSlot (.telegram 0) = none
    ∧ (lineAt 9 {}).woadOn = true ∧ (lineAt 9 {}).woad.reply = some [1#8] ∧ (lineAt 8 { role := .standby }).lsp.role ≠ .unpaired := by
  decide +kernel
def monitored (tapped : Bool) : State :=
  let p : SafetySet := { safe1 with axes := [⟨7, [], false, false, 4, 0, 0, 0, 0, 0, 0, 0, 0, 0, 0, 0, false, 0⟩] }
  { idle with image := some { img2 with safety := some p }
              woad := { accepted := true, set := some p, due := true, openAt := some 0#32, axes := [(7, { tapped := tapped })] } }
theorem witness_tapWaits : ∀ e : Bool, (monitored e).sfSet.map (monitored e).tapWaits = some !e ∧ (monitored e).woad.due = true ∧ (monitored e).woadOn = true := by
  decide +kernel
theorem witness_beatIn : (List.replicate 8 1#8).length = 8
    ∧ slice (List.replicate 8 1#8) 4 4 ≠ leBytes 4 (crc32c (slice (List.replicate 8 1#8) 0 4)) := by decide +kernel
theorem witness_ofStandby :
    ({ hb1 with mode := BitVec.ofNat 8 Mode.standby.code } : TwinHeartbeat).crcOk = true ∧ (stand .inStep {}).mode = .standby
    ∧ (stand .inStep {}).lsp.linkUp = true ∧ (stand .inStep {}).isA = true ∧ (stand .inStep {}).awake = true := by decide +kernel
/-- A load whose length is the command's, and one that ends outside CONFIGURE; a turn taken. -/
theorem witness_cfgLength :
    (let c := cmdOf specCfgLoad false 0#32 ([0, 0, 0, 0, 0, 0, 0, 0, 0x28, 0x01].map (BitVec.ofNat 8))
     let s : State := { idle with mode := .configure, host := { results := [(1, { c with opcode := 0x0201 })] } }
     s.resultOf 0x0201 = some (1, { c with opcode := 0x0201 }) ∧ file1.bytes.length = ({ c with opcode := 0x0201 } : CmdIn).p32 8
       ∧ s.imageFail file1 = 0)
    ∧ specTimeSet.keepers (cmdOf specTimeSet false 0#32 []) = false := by decide +kernel

end Sys2Proof.Tests
end

section
/-! PROOF. The state after reset (R10, R107, R498). -/

namespace Sys2Proof.Machine

/-- Settles O35: the state after reset is the record of defaults, whose tables are empty, so that every register reads as its reset value
and no cell runs. -/
theorem resetState : Obligations.ResetState := by
  unfold Obligations.ResetState
  refine ⟨rfl, rfl, rfl, rfl, rfl, rfl, rfl, rfl, rfl, rfl, fun off => rfl, fun n => ?_⟩
  have hrun : (State.reset.cell n).run = none := rfl
  unfold State.issues
  simp only [hrun, ite_self]

end Sys2Proof.Machine
end

section
/-! PROOF. What a fault of a cell does: the fault is recorded and sent, the trig unit drained, the job abandoned and the cell freed (R75, R88 to
R90, R136). -/

namespace Sys2Proof.Machine

open Spec

/-! ### A field read after it was written -/

/-- Bits at and above the width of a word do not reach a field within it. -/
theorem bitsOf_mod (x hi lo : Nat) (h : hi < 32) : bitsOf (x % 2 ^ 32) hi lo = bitsOf x hi lo := by
  unfold bitsOf
  by_cases hl : lo ≤ hi + 1
  · have e : 2 ^ 32 = 2 ^ lo * 2 ^ (32 - lo) := by rw [← Nat.pow_add]; congr 1; omega
    rw [e, Nat.mod_mul_right_div_self, Nat.mod_mod_of_dvd _ (Nat.pow_dvd_pow 2 (by omega))]
  · rw [show hi + 1 - lo = 0 by omega, Nat.pow_zero, Nat.mod_one, Nat.mod_one]

/-- A field reads as what was put into it. -/
theorem bitsOf_withBits (x hi lo v : Nat) : bitsOf (withBits x hi lo v) hi lo = v % 2 ^ (hi + 1 - lo) := by
  unfold withBits bitsOf
  generalize 2 ^ (hi + 1 - lo) = m
  have hp : 0 < 2 ^ lo := Nat.two_pow_pos lo
  generalize 2 ^ lo = p at hp
  have hx : x - x / p % m * p = m * (x / p / m) * p + x % p := by
    have h1 := Nat.div_add_mod x p
    have h2 := Nat.div_add_mod (x / p) m
    generalize x / p / m = c at *
    generalize x / p % m = d at *
    rw [← h2] at h1
    rw [Nat.mul_comm p, Nat.add_mul] at h1
    omega
  have hs : x - x / p % m * p + v % m * p = x % p + (m * (x / p / m) + v % m) * p := by rw [hx, Nat.add_mul]; omega
  rw [hs, Nat.add_mul_div_right _ _ hp, Nat.div_eq_of_lt (Nat.mod_lt _ hp), Nat.zero_add, Nat.mul_add_mod, Nat.mod_mod]

theorem State.fld_setFld_same (s : State) (f : Fld) (v b : Nat) (h : f.hi < 32) :
    (s.setFld f v b).fld f b = v % 2 ^ (f.hi + 1 - f.lo) := by
  rw [State.fld, State.setFld_eq, State.reg_setReg_same, BitVec.toNat_ofNat, bitsOf_mod _ _ _ h, bitsOf_withBits]

/-! ### What ending a job leaves of the cells, of CELL_FAULT and of the raisings on their way -/

/-- The faults of every cell stand as they did: its CELL_FAULT, and each raising that is on its way (R88, R90). -/
structure KeepsFaults (s t : State) : Prop where
  reg : ∀ n, t.reg (cellRegs n + 8) = s.reg (cellRegs n + 8)
  raised : ∀ x ∈ s.fox.inflight, x ∈ t.fox.inflight

/-- Besides, no cell has changed. -/
structure KeepsCells (s t : State) : Prop extends KeepsFaults s t where
  cells : t.cells = s.cells

theorem KeepsFaults.refl (s : State) : KeepsFaults s s := ⟨fun _ => rfl, fun _ h => h⟩
theorem KeepsFaults.trans {s t u : State} (h : KeepsFaults s t) (g : KeepsFaults t u) : KeepsFaults s u :=
  ⟨fun n => (g.reg n).trans (h.reg n), fun x hx => g.raised x (h.raised x hx)⟩
theorem KeepsFaults.setCell (s : State) (n : Nat) (c : CellSt) : KeepsFaults s (s.setCell n c) := ⟨fun _ => rfl, fun _ h => h⟩

/-- A change of neither a cell, a register nor Foxglove. -/
theorem KeepsCells.of_same {s t : State} (c : t.cells = s.cells) (r : t.regs = s.regs) (f : t.fox = s.fox) : KeepsCells s t :=
  { cells := c, reg := fun n => by unfold State.reg; rw [r], raised := fun x h => by rw [f]; exact h }

theorem KeepsCells.refl (s : State) : KeepsCells s s := .of_same rfl rfl rfl
theorem KeepsCells.trans {s t u : State} (h : KeepsCells s t) (g : KeepsCells t u) : KeepsCells s u :=
  { toKeepsFaults := h.toKeepsFaults.trans g.toKeepsFaults, cells := g.cells.trans h.cells }
theorem KeepsCells.cell {s t : State} (h : KeepsCells s t) (n : Nat) : t.cell n = s.cell n := State.cell_congr h.cells n
theorem KeepsCells.ite {s t u : State} {c : Prop} [Decidable c] (h : KeepsCells s t) (g : KeepsCells s u) :
    KeepsCells s (if c then t else u) := by split <;> assumption
/-- One more step, taken where a condition holds. -/
theorem KeepsCells.step {s t u : State} {c : Prop} [Decidable c] (h : KeepsCells s t) (g : KeepsCells t u) :
    KeepsCells s (if c then u else t) := .ite (h.trans g) h
theorem KeepsCells.foldl {α : Type} (f : State → α → State) (hf : ∀ s x, KeepsCells s (f s x)) (l : List α) (s : State) :
    KeepsCells s (l.foldl f s) := by
  induction l generalizing s with
  | nil => exact .refl s
  | cons x r ih => exact (hf s x).trans (ih _)

theorem KeepsCells.raise (s : State) (c l k i : Nat) : KeepsCells s (s.raise c l k i) :=
  { cells := rfl, reg := fun _ => rfl, raised := fun _ h => List.mem_append_left _ h }

/-- A counter of another register than a CELL_FAULT. -/
theorem KeepsCells.incFld (s : State) (f : Fld) (b : Nat) (h : ∀ n, cellRegs n + 8 ≠ b + f.off) : KeepsCells s (s.incFld f b) :=
  { cells := rfl, reg := fun n => State.reg_incFld_other _ _ _ _ (h n), raised := fun _ h => h }

/-! ### Errors of memory corrected -/

theorem KeepsCells.countEcc (s : State) (x : Nat) : KeepsCells s (countEcc s x) := by
  unfold Machine.countEcc
  split
  · refine .incFld _ _ _ fun n => ?_
    simp only [cellRegs, regionBase, Reg.cellEccCorrected]; omega
  · refine .incFld _ _ _ fun n => ?_
    simp only [cellRegs, regionBase, Reg.dmaEccCorrected]; omega

theorem KeepsCells.correct (s : State) (ws : List Nat) : KeepsCells s (s.correct ws) := by
  rw [State.correct_counts]
  exact KeepsCells.trans (t := { s with flip1 := s.flip1.filter (fun x => !ws.contains x) }) (.of_same rfl rfl rfl)
    (.foldl _ .countEcc _ _)

theorem KeepsCells.correctHead (s : State) (q : Nat) : KeepsCells s (s.correctHead q) := by
  unfold State.correctHead
  split
  · exact .ite (.refl s) (.correct _ _)
  · exact .refl s

/-! ### Turns of the arbiters -/

theorem KeepsCells.cellTurn (s : State) (n : Nat) : KeepsCells s (s.cellTurn n) := .of_same rfl rfl rfl
theorem KeepsCells.regionTurn (s : State) (r p : Nat) (l : Bool) : KeepsCells s (s.regionTurn r p l) := .of_same rfl rfl rfl
theorem KeepsCells.chipTurn (s : State) (p : Nat) : KeepsCells s (s.chipTurn p) := .of_same rfl rfl rfl
theorem KeepsCells.regionHop (s : State) (a b : Nat) (l : Bool) : KeepsCells s (s.regionHop a b l) :=
  .ite (.refl s) ((KeepsCells.chipTurn s a).trans (.regionTurn _ _ _ _))
theorem KeepsCells.crossTurn (s : State) (b q : Nat) (l : Bool) : KeepsCells s (s.crossTurn b q l) :=
  .ite (.refl s) ((KeepsCells.regionTurn s _ _ l).trans (.regionHop _ _ _ _))

/-! ### Queues -/

theorem KeepsCells.setQueue (s : State) (q : Nat) (x : QueueSt) : KeepsCells s (s.setQueue q x) := .of_same rfl rfl rfl
theorem KeepsCells.setOp (s : State) (k : Nat) (x : OpSt) : KeepsCells s (s.setOp k x) := .of_same rfl rfl rfl
theorem KeepsCells.setChan (s : State) (k : Nat) (x : ChanSt) : KeepsCells s (s.setChan k x) := .of_same rfl rfl rfl
theorem KeepsCells.ramWrite (s : State) (a : Nat) (bs : List Byte) : KeepsCells s (s.ramWrite a bs) := .of_same rfl rfl rfl

theorem KeepsCells.qfull (s : State) (q : Nat) : KeepsCells s (s.qfull q) := by
  refine (KeepsCells.incFld s Reg.madEvtQfull 0 fun n => ?_).trans (.raise _ _ _ _ _)
  simp only [cellRegs, regionBase, Reg.madEvtQfull]; omega

theorem KeepsCells.trim (s : State) (q : Nat) : KeepsCells s (s.trim q) := by
  unfold State.trim
  split
  · exact .refl s
  · exact .ite (.refl s) (.setQueue _ _ _)

theorem KeepsCells.sendFrame (s : State) (o : Output) : KeepsCells s (s.sendFrame o) := by
  unfold State.sendFrame
  exact .ite (.refl s) (.of_same rfl rfl rfl)

theorem KeepsCells.noteToken (s : State) (d : QDesc) (t : Token) : KeepsCells s (s.noteToken d t) := by
  unfold State.noteToken
  exact .step (.step (.step (.step (.refl s) (.of_same rfl rfl rfl)) (.of_same rfl rfl rfl)) (.sendFrame _ _)) (.of_same rfl rfl rfl)

/-- A token pushed to a queue, whether the queue takes it or not (R142). -/
theorem KeepsCells.push (s : State) (q : Nat) (t : Token) : KeepsCells s (s.push q t) := by
  unfold State.push
  split
  · exact .refl s
  · refine .ite (.refl s) (.ite (.setQueue _ _ _) (.ite ?_ ?_))
    · exact (KeepsCells.setQueue _ _ _).trans (.qfull _ _)
    · exact (((KeepsCells.setQueue _ _ _).trans (.ramWrite _ _ _)).trans (.noteToken _ _ _)).trans (.trim _ _)

theorem KeepsCells.pushOut (s : State) (d : OpDesc) (c : Word) (q : Nat) (w : Option (List Word)) (p : Bool) :
    KeepsCells s (s.pushOut d c q w p) := by
  unfold State.pushOut
  cases w with
  | none => exact (KeepsCells.crossTurn s _ _ _).trans (.push _ _ _)
  | some ws => exact (KeepsCells.crossTurn s _ _ _).trans (.push _ _ _)

theorem KeepsCells.retireInputs (s : State) (k : Nat) (d : OpDesc) (c : Word) : KeepsCells s (s.retireInputs k d c) := by
  unfold State.retireInputs
  exact .trans (.step (.foldl _ (fun s p => .setQueue s _ _) _ s) (.setOp _ _ _)) (.foldl _ (fun s p => .trim s _) _ _)

theorem KeepsCells.countLate (s : State) (r : RunCtx) : KeepsCells s (s.countLate r) := by
  unfold State.countLate
  refine .ite (.incFld _ _ _ fun n => ?_) (.refl s)
  simp only [cellRegs, regionBase, Reg.madEvtLateOps]; omega

theorem KeepsCells.noteOp (s : State) (e : Nat × OpDesc) : KeepsCells s (s.noteOp e) := by
  unfold State.noteOp
  refine .ite ?_ (.step (.step (.refl s) (.setOp _ _ _)) ?_)
  · split
    · exact .refl s
    · exact .setOp _ _ _
  · exact ((KeepsCells.setOp _ _ _).trans (.setQueue _ _ _)).trans (.qfull _ _)

theorem KeepsCells.note (s : State) : KeepsCells s s.note :=
  (KeepsCells.foldl _ KeepsCells.noteOp s.numberedOps s).trans (.of_same rfl rfl rfl)

/-! ### The end of a work item -/

theorem KeepsCells.layCompl (s : State) (ch k : Nat) : KeepsCells s (s.layCompl ch k) := by
  unfold State.layCompl
  dsimp only
  split
  · exact .setChan _ _ _
  · exact (KeepsCells.setChan s _ _).trans (.foldl _ (fun s _ => .ramWrite s _ _) _ _)

theorem KeepsCells.complete (s : State) (w : WorkItem) (fault status issued n : Nat) :
    KeepsCells s (s.complete w fault status issued n) := by
  unfold State.complete
  exact .ite (.refl s) ((KeepsCells.setChan s _ _).trans (.layCompl _ _ _))

theorem KeepsCells.delayInsert (s : State) (w : WorkItem) : KeepsCells s (s.delayInsert w).1 := by
  unfold State.delayInsert
  dsimp only
  split
  · exact .refl s
  · split
    · exact .refl s
    · exact .of_same rfl rfl rfl

/-! ### A cell freed -/

theorem KeepsCells.copyIn (n at_ : Nat) (l : List Word) (s : State) : KeepsCells s (s.copyIn n at_ l) := by
  induction l generalizing s at_ with
  | nil => exact .refl s
  | cons w r ih => exact (KeepsCells.ramWrite s _ _).trans (ih _ _)

theorem KeepsCells.copyInputs (s : State) (d : OpDesc) : KeepsCells s (s.copyInputs d) := .copyIn _ _ _ _

/-- The turns of the inputs of an operation that starts, and the errors of their tokens corrected. -/
theorem KeepsCells.takeInputs (s : State) (n : Nat) (d : OpDesc) :
    KeepsCells s (d.inputs.foldl (fun s p => (s.crossTurn (blockOfCell d.cell) p.2.queue d.loop).correctHead p.2.queue) (s.cellTurn n)) :=
  (KeepsCells.cellTurn s n).trans (.foldl _ (fun s _ => (KeepsCells.crossTurn s _ _ _).trans (.correctHead _ _)) _ _)

/-- What a job leaves where it ends (R49, R75, R89): the faults, and the cell without a loop, idle unless a job waited in its prefetch
slot; operations of the trig unit go on. -/
structure CellFreed (n : Nat) (s t : State) : Prop extends KeepsFaults s t where
  trig : (t.cell n).trig = (s.cell n).trig
  loops : (t.cell n).loops = []
  idle : (s.cell n).slot = none → (t.cell n).run = none

theorem CellFreed.after {n : Nat} {s t u : State} (h : KeepsCells s t) (g : CellFreed n t u) : CellFreed n s u :=
  { toKeepsFaults := h.toKeepsFaults.trans g.toKeepsFaults
    trig := g.trig.trans (by rw [h.cell]), loops := g.loops, idle := by rw [← h.cell n]; exact g.idle }
theorem CellFreed.before {n : Nat} {s t u : State} (g : CellFreed n s t) (h : KeepsCells t u) : CellFreed n s u :=
  { toKeepsFaults := g.toKeepsFaults.trans h.toKeepsFaults
    trig := by rw [h.cell, g.trig], loops := by rw [h.cell, g.loops], idle := fun hs => by rw [h.cell, g.idle hs] }

/-- A job that starts leaves the faults, and the operations of the trig unit; its registers are cleared (R48). -/
theorem State.start_keeps (s : State) (n : Nat) (j : Job) :
    KeepsFaults s (s.start n j) ∧ ((s.start n j).cell n).trig = (s.cell n).trig
      ∧ ((s.cell n).loops = [] → ((s.start n j).cell n).loops = []) := by
  unfold State.start
  split
  · split
    · exact ⟨.refl s, rfl, id⟩
    · rename_i k d hd
      have h := (KeepsCells.takeInputs s n d).trans (.copyInputs _ d)
      refine ⟨(h.toKeepsFaults.trans (.setCell _ n _)).trans (KeepsCells.setOp _ _ _).toKeepsFaults, ?_, fun _ => ?_⟩
      · rw [State.cell_setOp, State.cell_setCell_same]
        exact (congrArg CellSt.trig (h.cell n) :)
      · rw [State.cell_setOp, State.cell_setCell_same]; rfl
  · refine ⟨.setCell _ _ _, ?_, fun _ => ?_⟩ <;> rw [State.cell_setCell_same] <;> rfl

/-- The job of a cell is over (R49, R89). -/
theorem State.freeCell_freed (s : State) (n : Nat) : CellFreed n s (s.freeCell n) := by
  unfold State.freeCell
  have hf : KeepsFaults s ((s.setCell n { s.cell n with run := none, loops := [], shadow := none }).cellTurn n) :=
    (KeepsFaults.setCell _ _ _).trans (KeepsCells.cellTurn _ _).toKeepsFaults
  have hc : ((s.setCell n { s.cell n with run := none, loops := [], shadow := none }).cellTurn n).cell n
      = { s.cell n with run := none, loops := [], shadow := none } := State.cell_setCell_same _ _ _
  generalize (s.setCell n { s.cell n with run := none, loops := [], shadow := none }).cellTurn n = u at hf hc
  unfold State.takeSlot
  cases hs : (s.cell n).slot with
  | none =>
    simp only [hc, hs]
    exact { toKeepsFaults := hf, trig := by rw [hc], loops := by rw [hc], idle := fun _ => by rw [hc] }
  | some r =>
    simp only [hc, hs]
    obtain ⟨h1, h2, h3⟩ := (u.setCell n { s.cell n with run := none, loops := [], shadow := none, slot := none }).start_keeps n r.job
    rw [State.cell_setCell_same] at h2 h3
    exact { toKeepsFaults := (hf.trans (.setCell _ _ _)).trans h1, trig := h2, loops := h3 rfl, idle := fun h => by rw [hs] at h; cases h }

/-- An operation or a work item abandoned for a fault (R75, R89, R136). -/
theorem State.abandon_freed (s : State) (n code : Nat) (r : RunCtx) (h : (s.cell n).run = some r) :
    CellFreed n s (s.abandon n code) := by
  unfold State.abandon
  simp only [h]
  cases r.job with
  | item w =>
    unfold State.endItem
    refine CellFreed.after (KeepsCells.trans ?_ (.complete _ _ _ _ _ _)) (State.freeCell_freed _ n)
    split
    · exact .refl s
    · exact .delayInsert s _
  | op k =>
    dsimp only
    split
    · exact s.freeCell_freed n
    · rename_i d hd
      refine .before (.after ?_ (State.freeCell_freed _ n)) (.note _)
      refine KeepsCells.trans (KeepsCells.trans (.ite (.refl s) ?_) (.countLate _ _)) (.retireInputs _ _ _ _)
      exact .foldl _ (fun s p => .pushOut s d _ _ _ _) _ s

/-! ### Faults of a cell -/

theorem State.writeBack_trig (s : State) (n : Nat) : ((s.writeBack n).cell n).trig = (s.cell n).trig.tail := by
  unfold State.writeBack
  cases h : (s.cell n).trig with
  | nil => exact h
  | cons t r =>
    dsimp only
    split
    · rw [State.cell_setCell_same]; rfl
    · rw [State.trig_writes, State.cell_setCell_same]; rfl

theorem State.writeBacks_trig (n : Nat) (l : List Nat) (s : State) :
    ((l.foldl (fun s _ => s.writeBack n) s).cell n).trig = (s.cell n).trig.drop l.length := by
  induction l generalizing s with
  | nil => rfl
  | cons x r ih => rw [List.foldl_cons, ih, State.writeBack_trig, List.drop_tail, List.length_cons]

/-- The operations of the trig unit that end before a fault frees the cell leave the faults and the job (R75). -/
theorem State.drainTrig_drained (s : State) (n : Nat) :
    KeepsFaults s (s.drainTrig n) ∧ ((s.drainTrig n).cell n).trig = [] ∧ ((s.drainTrig n).cell n).run = (s.cell n).run
      ∧ ((s.drainTrig n).cell n).slot = (s.cell n).slot := by
  have h : Landed (fun _ => True) s (s.drainTrig n) n :=
    (landed_foldl _ n (s.cell n) (fun s _ => s.writeBack n) _
      (fun _ _ u _ => State.writeBack_did _ u n (fun _ _ => trivial)) s (Fewer.refl _)).1
  refine ⟨⟨fun k => ?_, fun x hx => ?_⟩, ?_, ?_, ?_⟩
  · unfold State.reg; rw [h.rest]
  · rw [h.rest]; exact hx
  · rw [State.drainTrig, State.writeBacks_trig, List.length_range, List.drop_length]
  · rw [h.cell]
  · rw [h.cell]

/-- A cell fault: the bit of its code set and the raising sent, after the place of the first was noted (R88, R90). -/
theorem State.cellFault_eq (s : State) (n code pc : Nat) (h1 : 1 ≤ code) (h6 : code ≤ 6) :
    ∃ u : State, u.cells = s.cells
      ∧ s.cellFault n code pc = (u.setFld ⟨8, code - 1, code - 1⟩ 1 (cellRegs n)).raise code 0 1 n := by
  unfold State.cellFault
  dsimp only
  generalize hu : (if bitsOf (s.reg (cellRegs n + 8)).toNat 5 0 == 0 then
    (s.setFld Reg.cellFaultFirstCode code (cellRegs n)).setFld Reg.cellFaultPcPc pc (cellRegs n) else s) = u
  refine ⟨u, ?_, ?_⟩
  · rw [← hu]
    split
    · rw [State.cells_setFld, State.cells_setFld]
    · rfl
  · have hcode : code = 1 ∨ code = 2 ∨ code = 3 ∨ code = 4 ∨ code = 5 ∨ code = 6 := by omega
    rcases hcode with rfl | rfl | rfl | rfl | rfl | rfl <;> rfl

/-- A fault of a cell sets the bit of its code in CELL_FAULT, and is on its way to Foxglove at L0 (R88, R90); no cell changes. -/
theorem State.cellFault_set (s : State) (n code pc : Nat) (h1 : 1 ≤ code) (h6 : code ≤ 6) :
    (s.cellFault n code pc).cells = s.cells
      ∧ bitsOf ((s.cellFault n code pc).reg (cellRegs n + 8)).toNat (code - 1) (code - 1) = 1
      ∧ (⟨code, 0, ⟨1, n⟩⟩ : Raising) ∈ (s.cellFault n code pc).fox.inflight := by
  obtain ⟨u, hu, he⟩ := s.cellFault_eq n code pc h1 h6
  rw [he]
  refine ⟨by rw [State.cells_raise, State.cells_setFld, hu], ?_, List.mem_append_right _ (List.mem_singleton_self _)⟩
  have hb := u.fld_setFld_same ⟨8, code - 1, code - 1⟩ 1 (cellRegs n) (by dsimp only; omega)
  have hw : code - 1 + 1 - (code - 1) = 1 := by omega
  rw [State.reg_raise]
  exact hb.trans (Nat.mod_eq_of_lt (by dsimp only; rw [hw]; decide))

/-- A fault of an operation, before which the cell `n` ran the job it runs in `s`, with the same place in its prefetch slot. -/
theorem State.faultAt_trapped (s u : State) (n code pc : Nat) (r r' : RunCtx) (hs : (s.cell n).run = some r)
    (hu : (u.cell n).run = some r') (hr : r'.nonfinite = r.nonfinite) (hslot : (u.cell n).slot = (s.cell n).slot)
    (h1 : 1 ≤ code) (h6 : code ≤ 6) : Trapped s (u.faultAt n code pc) n code := by
  unfold State.faultAt
  simp only [hu]
  obtain ⟨hc, hbit, hraise⟩ := u.cellFault_set n code pc h1 h6
  generalize hv : (if !r'.nonfinite then u.cellFault n code pc else u) = v
  have hcell : v.cell n = u.cell n := by
    rw [← hv]
    split
    · exact State.cell_congr hc n
    · rfl
  obtain ⟨hk, htrig, hrun, hsl⟩ := v.drainTrig_drained n
  rw [hcell] at hrun hsl
  have hend := (v.drainTrig n).abandon_freed n code r' (hrun.trans hu)
  have hkept := hk.trans hend.toKeepsFaults
  refine ⟨fun hfirst => ?_, hend.trig.trans htrig, hend.loops, fun h => hend.idle (by rw [hsl, hslot, h])⟩
  rw [hr, hfirst r hs, Bool.not_false, if_pos rfl] at hv
  rw [hv] at hbit hraise
  exact ⟨by rw [hkept.reg]; exact hbit, hkept.raised _ hraise⟩

theorem State.issues_run {s : State} {n : Nat} {r : RunCtx} (h : s.issues n = some r) : (s.cell n).run = some r := by
  unfold State.issues at h
  dsimp only at h
  split at h
  · exact h
  · cases h

/-- An instruction that has its own effect, and whose faults have a code below NONFINITE, traps, where its effect leaves the
job and the prefetch slot of its cell. -/
theorem issue_traps (s : State) (n : Nat) (stg : BitVec 3) (q : Bool) (act : State → Done) (r : RunCtx) (code : Nat)
    (hi : s.issues n = some r) (h : s.ready n stg) (hcode : lowest (act (s.atIssue n r)).faults = code)
    (hcell : (act (s.atIssue n r)).s.cell n = (s.atIssue n r).cell n) (h1 : 1 ≤ code) (h5 : code ≤ 5) :
    Trapped s (issue s n stg q act) n code := by
  have hcellI := (s.atIssue_did n r (s.issues_lt n r hi)).cell
  rw [issue_ready s n stg q act r hi h]
  dsimp only
  rw [hcode, if_neg (by omega), if_neg (by omega)]
  exact State.faultAt_trapped s _ n code _ r { r with issued := r.issued + 1 } (State.issues_run hi)
    (by rw [hcell, hcellI]) rfl (by rw [hcell, hcellI]) h1 (by omega)

end Sys2Proof.Machine
end

section
/-! PROOF. The opcode map and the undefined opcodes (R14, R106). -/

namespace Sys2Proof.Machine

open Spec

theorem lt_sixteen_cases (k : Nat) (h : k < 16) : k = 0 ∨ k = 1 ∨ k = 2 ∨ k = 3 ∨ k = 4 ∨ k = 5 ∨ k = 6 ∨ k = 7 ∨ k = 8 ∨ k = 9
    ∨ k = 10 ∨ k = 11 ∨ k = 12 ∨ k = 13 ∨ k = 14 ∨ k = 15 := by omega

/-- R106: the map's rows answer an instruction at just the opcodes that are defined. -/
theorem cellRow_isSome (n : Nat) (w : BitVec 64) (row col : Nat) (hr : row < 16) (hc : col < 16) :
    (cellRow n w row col).isSome = definedOpcode (16 * row + col) := by
  rcases lt_sixteen_cases row hr with
    rfl | rfl | rfl | rfl | rfl | rfl | rfl | rfl | rfl | rfl | rfl | rfl | rfl | rfl | rfl | rfl <;>
  rcases lt_sixteen_cases col hc with
    rfl | rfl | rfl | rfl | rfl | rfl | rfl | rfl | rfl | rfl | rfl | rfl | rfl | rfl | rfl | rfl <;>
  rfl

theorem wordOp_toNat (w : BitVec 64) : (wordOp w).toNat = w.toNat / 2 ^ 56 := by
  have h := w.isLt
  simp only [wordOp, BitVec.extractLsb'_toNat, Nat.shiftRight_eq_div_pow]
  omega

/-- R14, R106: a word of an undefined opcode spells the row ILLEGAL_OPCODE. -/
theorem cellDecode_undefined (n : Nat) (w : BitVec 64) (h : definedOpcode (w.toNat / 2 ^ 56) = false) :
    cellDecode n w = .illegalOpcode n (wordStg w) (wordOp w) := by
  have hlt := (wordOp w).isLt
  have hrow := cellRow_isSome n w ((wordOp w).toNat / 16) ((wordOp w).toNat % 16) (by omega) (by omega)
  rw [← wordOp_toNat, ← Nat.div_add_mod (wordOp w).toNat 16] at h
  rw [h, Option.isSome_eq_false_iff, Option.isNone_iff_eq_none] at hrow
  rw [cellDecode, hrow, Option.getD_none]

theorem definedOpcode_count : (List.range 256).countP definedOpcode = 158 := by decide +kernel

theorem State.ramWord_zero (s : State) (a : Nat) (h : ∀ k < 4, s.ramByte (a + k) = 0#8) : s.ramWord a = 0#32 := by
  unfold State.ramWord
  rw [h 1 (by decide), h 2 (by decide), h 3 (by decide), show s.ramByte a = 0#8 from h 0 (by decide)]
  rfl

/-- R106: eight bytes of zero, as erased and cleared memory holds, spell opcode 0x00. -/
theorem State.fetched_zero (s : State) (n : Nat) (h : ∀ k < 8, s.ramByte (insAddr n (s.cell n).pc.toNat + k) = 0#8) :
    s.fetched n = .illegalOpcode n 0#3 0#8 := by
  have hlo := s.ramWord_zero _ (fun k hk => h k (by omega))
  have hhi := s.ramWord_zero (insAddr n (s.cell n).pc.toNat + 4) (fun k hk => by rw [Nat.add_assoc]; exact h (4 + k) (by omega))
  simp only [State.fetched, hlo, hhi]
  rfl

/-- R14, R88: an undefined opcode that issues raises ILLEGAL. -/
theorem illegalOpcode_traps (n : Nat) (stg : BitVec 3) (op : BitVec 8) (s : State) (h : s.ready n stg)
    (hop : definedOpcode op.toNat = false) : ∃ t, exec (.illegalOpcode n stg op) s = .next t ∧ Trapped s t n 2 := by
  obtain ⟨⟨r, hi, -⟩, -⟩ := id h
  refine ⟨issue s n stg false (fun s => { s, faults := [2] }), ?_, issue_traps s n stg _ _ r 2 hi h rfl rfl (by decide) (by decide)⟩
  change execIllegalOpcode n stg op s = _
  rw [execIllegalOpcode, hop]
  rfl

/-- Settles O23: an undefined opcode traps with ILLEGAL, its word decodes to that row, and so does a word of eight zero bytes. -/
theorem undefinedOpcodeTraps : Obligations.UndefinedOpcodeTraps := by
  unfold Obligations.UndefinedOpcodeTraps
  exact ⟨illegalOpcode_traps, cellDecode_undefined, definedOpcode_count, State.fetched_zero⟩

end Sys2Proof.Machine
end

section
/-! PROOF. Register writes that are rows, other registers, the memory windows, and what a write from outside makes undefined (R10, R11, R45,
R361, R373, R487 to R491). -/

namespace Sys2Proof.Machine

/-! ### Rows of register writes (R361) -/

/-- A row that is an own write acts as `OwnRow` says. -/
theorem ownRow_of_ownWrite {i : RegWrite → Instr} {own : State → RegWrite → Bool} {f : State → RegWrite → State}
    (h : ∀ s w, own s w = true → exec (i w) s = .next (s.ownWrite w true (fun s => f s w))) : OwnRow i own f := by
  intro s w ho ha
  have e := h s w ho
  exact ⟨fun hm hp => by rw [e, State.ownWrite_taken s w _ ha hm hp], fun hm => by rw [e, State.ownWrite_refused s w _ ha hm],
    fun hm hp => by rw [e, State.ownWrite_absent s w _ ha hm hp]⟩

/-- The same of a row whose meaning tests `own` itself. -/
theorem ownRow_of_exec {i : RegWrite → Instr} {own : State → RegWrite → Bool} {f : State → RegWrite → State}
    (h : ∀ s w, exec (i w) s = .next (s.ownWrite w (own s w) (fun s => f s w))) : OwnRow i own f :=
  ownRow_of_ownWrite fun s w ho => by rw [h, ho]

/-! ### Queue pairs and keeper windows -/

theorem OwnRow.congr {i : RegWrite → Instr} {own : State → RegWrite → Bool} {f g : State → RegWrite → State}
    (h : OwnRow i own f) (e : ∀ s w, f s w = g s w) : OwnRow i own g := by
  have : f = g := funext fun s => funext fun w => e s w
  rw [← this]; exact h

/-- R373: a write of QP_CTRL with en = 1, with en = 0 of a pair that was enabled, and of one that was not. -/
theorem State.qpCtrl_enable (s : State) (q : Nat) (d : Word) (h : d.getLsbD 31 = true) :
    s.qpCtrl q d = (s.storeReg (qpBase q) d).pairOn q (s.bit Reg.qpCtrlEn (qpBase q)) := by
  simp only [State.qpCtrl, dataBit, h, if_true]
theorem State.qpCtrl_disable (s : State) (q : Nat) (d : Word) (h : d.getLsbD 31 = false) (w : s.bit Reg.qpCtrlEn (qpBase q) = true) :
    s.qpCtrl q d = (s.storeReg (qpBase q) d).pairCancel q := by
  simp only [State.qpCtrl, dataBit, h, w, if_true, Bool.false_eq_true, if_false]
theorem State.qpCtrl_disabled (s : State) (q : Nat) (d : Word) (h : d.getLsbD 31 = false) (w : s.bit Reg.qpCtrlEn (qpBase q) = false) :
    s.qpCtrl q d = s.storeReg (qpBase q) d := by
  simp only [State.qpCtrl, dataBit, h, w, Bool.false_eq_true, if_false]

theorem qpCtrlWrite_row : OwnRow .qpCtrlWrite (fun _ w => isPair w.off 0x00) (fun s w => s.qpCtrl (pairNo w.off) w.data) :=
  ownRow_of_exec fun _ _ => rfl

theorem State.keeperGo_eq (s : State) (k : CmdSpec) (f : Nat) (d : Word) :
    s.keeperGo k f d =
      if s.bit Reg.kprStatBusy (kprBase f) = true then s.setFld Reg.kprStatDropped 1 (kprBase f)
      else if d.getLsbD 0 = true then (s.setFld Reg.kprStatBusy 1 (kprBase f)).keeperIn k (s.keeperCmd f)
      else s := by
  unfold State.keeperGo dataBit
  cases d.getLsbD 0 <;> rfl

theorem kprGoWrite_row : OwnRow .kprGoWrite (fun _ w => w.off == 0x502040 || w.off == 0x502240) (fun s w =>
    let f := (w.off - 0x502040) / 0x200
    if s.bit Reg.kprStatBusy (kprBase f) = true then s.setFld Reg.kprStatDropped 1 (kprBase f)
    else if w.data.getLsbD 0 = true then (s.setFld Reg.kprStatBusy 1 (kprBase f)).keeperIn specLevelReset (s.keeperCmd f)
    else s) := by
  refine ownRow_of_exec fun s w => ?_
  simp only [← State.keeperGo_eq]
  rfl

/-! ### REGISTER_WRITE -/

theorem registerWrite_kprGo : OwnRow .registerWrite (fun _ w => w.off == 0x502040 || w.off == 0x502240)
    (fun s w => s.keeperGo specLevelReset ((w.off - 0x502040) / 0x200) w.data) :=
  ownRow_of_ownWrite fun s w ho => by
    have h : w.off = 0x502040 ∨ w.off = 0x502240 := by simpa only [Bool.or_eq_true, beq_iff_eq] using ho
    change execRegisterWrite w s = _
    rw [execRegisterWrite, if_pos h, execKprGoWrite, ho]

/-- A write of a register other than KPR_GO. -/
theorem registerWrite_bar0 (s : State) (w : RegWrite) (h1 : w.off ≠ 0x502040) (h2 : w.off ≠ 0x502240) :
    exec (.registerWrite w) s = s.bar0Write w := by
  change execRegisterWrite w s = _
  rw [execRegisterWrite, if_neg (by omega)]

/-- One that has a row of its own acts as that row. -/
theorem registerWrite_row (s : State) (w : RegWrite) (o : Host.Outcome State Fault Refusal) (h1 : w.off ≠ 0x502040)
    (h2 : w.off ≠ 0x502240) (ho : s.rowWrite w = some o) : exec (.registerWrite w) s = o := by
  rw [registerWrite_bar0 s w h1 h2, State.bar0Write, ho]

/-- One that has none is plain, in the state that UB_10 leaves. -/
theorem registerWrite_plain (s : State) (w : RegWrite) (h1 : w.off ≠ 0x502040) (h2 : w.off ≠ 0x502240)
    (hr : s.rowWrite w = none) :
    exec (.registerWrite w) s = .next ((s.kindCase w).ownWrite w true (fun s => s.plainWrite w.off w.data)) := by
  rw [registerWrite_bar0 s w h1 h2, State.bar0Write, hr]

theorem registerWrite_plain_row : OwnRow .registerWrite
    (fun s w => w.off != 0x502040 && w.off != 0x502240 && (s.rowWrite w).isNone && !s.kindUb w)
    (fun s w => s.plainWrite w.off w.data) :=
  ownRow_of_ownWrite fun s w ho => by
    simp only [Bool.and_eq_true, bne_iff_ne, Bool.not_eq_true', Option.isNone_iff_eq_none] at ho
    obtain ⟨⟨⟨h1, h2⟩, hr⟩, hk⟩ := ho
    rw [registerWrite_plain s w h1 h2 hr, State.kindCase, hk]
    rfl

theorem State.undefine_eq (s : State) (x : Extent) : s.undefine x = { s with undef := (s.undefine x).undef } := by
  unfold State.undefine; split <;> rfl

theorem State.mem_undefine (s : State) (x : Extent) : x ∈ (s.undefine x).undef := by
  unfold State.undefine
  split
  · rename_i h; exact List.contains_iff_mem.1 h
  · exact List.mem_append_right _ (List.mem_singleton_self x)

/-- UB_10 is a write of PWM_GRP_CFG. -/
theorem State.kindUb_off {s : State} {w : RegWrite} (h : s.kindUb w = true) : 0x300100 ≤ w.off ∧ w.off < 0x300300 := by
  simp only [State.kindUb, Bool.and_eq_true, decide_eq_true_eq] at h
  obtain ⟨⟨⟨⟨⟨hoff, -⟩, -⟩, -⟩, -⟩, -⟩ := h
  exact hoff

/-- UB_10 (R45): the outputs of the group are undefined, and the write takes place. -/
theorem registerWrite_kindUb (s : State) (w : RegWrite) (ha : s.awake = true) (hr : s.rowWrite w = none) (hk : s.kindUb w = true)
    (hm : mayWrite w.fn w.off = true) (hp : s.shutAt w.off = false) :
    exec (.registerWrite w) s = .next ((s.undefine (.group ((w.off - 0x300100) / 0x40))).plainWrite w.off w.data) := by
  have hoff := State.kindUb_off hk
  rw [registerWrite_plain s w (by omega) (by omega) hr, State.kindCase, if_pos hk]
  have hu := s.undefine_eq (.group ((w.off - 0x300100) / 0x40))
  generalize s.undefine (.group ((w.off - 0x300100) / 0x40)) = u at hu
  have hua : u.awake = true := by rw [hu]; exact ha
  have hup : u.shutAt w.off = false := by rw [hu]; exact hp
  rw [State.ownWrite_taken u w _ hua hm hup]

/-! ### Engines and check channels -/

/-- A write of DMA_E_CTRL that cancels no descriptor. -/
theorem dmaECtrlWrite_store (s : State) (w : RegWrite)
    (h : dataBit w.data 31 = true ∨ s.dma.runs.find? (fun r => r.1 == (w.off - 0x801000) / 0x40) = none) :
    exec (.dmaECtrlWrite w) s = .next (s.ownWrite w (isEngine w.off 0) (fun s =>
      let s := s.storeReg w.off w.data
      let b := dmaBase ((w.off - 0x801000) / 0x40)
      if dataBit w.data 31 then (s.setFld Reg.dmaEHeadHead 0 b).setFld Reg.dmaETailTail 0 b else s)) := by
  change execDmaECtrlWrite w s = _
  unfold execDmaECtrlWrite
  rcases h with h | h
  · simp only [h, Bool.not_true, Bool.and_false, Bool.false_and, Bool.false_eq_true, if_false]
  · simp only [h, Option.map_none, ite_self]

theorem dmaECtrlWrite_enable_row : OwnRow .dmaECtrlWrite (fun _ w => isEngine w.off 0 && dataBit w.data 31) (fun s w =>
    let b := dmaBase ((w.off - 0x801000) / 0x40)
    ((s.storeReg w.off w.data).setFld Reg.dmaEHeadHead 0 b).setFld Reg.dmaETailTail 0 b) :=
  ownRow_of_ownWrite fun s w ho => by
    obtain ⟨he, hd⟩ := Bool.and_eq_true_iff.1 ho
    simp only [dmaECtrlWrite_store s w (.inl hd), he, hd, if_true]

theorem dmaECtrlWrite_idle_row : OwnRow .dmaECtrlWrite (fun s w => isEngine w.off 0 && !dataBit w.data 31
    && (s.dma.runs.find? (fun r => r.1 == (w.off - 0x801000) / 0x40)).isNone) (fun s w => s.storeReg w.off w.data) :=
  ownRow_of_ownWrite fun s w ho => by
    simp only [Bool.and_eq_true, Bool.not_eq_true', Option.isNone_iff_eq_none] at ho
    obtain ⟨⟨he, hd⟩, hr⟩ := ho
    simp only [dmaECtrlWrite_store s w (.inr hr), he, hd, Bool.false_eq_true, if_false]

/-- R490: an engine that is disabled cancels its descriptor. -/
theorem dmaECtrlWrite_cancel (s : State) (w : RegWrite) (y : Nat × DmaRun) (he : isEngine w.off 0 = true)
    (hd : dataBit w.data 31 = false) (ha : s.awake = true) (hm : mayWrite w.fn w.off = true) (hp : s.shutAt w.off = false)
    (hb : s.bit Reg.dmaECtrlEn (dmaBase ((w.off - 0x801000) / 0x40)) = true)
    (hr : s.dma.runs.find? (fun r => r.1 == (w.off - 0x801000) / 0x40) = some y) :
    exec (.dmaECtrlWrite w) s = .next (
      let f := DescFields.of y.2.bytes
      let n := s.freeBlocks f.len
      let x := s.drew.freeBytes (if f.srcHost then n else 0)
      ((x.2.dmaMove f x.1 n).1.dmaDone ((w.off - 0x801000) / 0x40) y.2.addr 8).storeReg w.off w.data) := by
  change execDmaECtrlWrite w s = _
  unfold execDmaECtrlWrite
  simp only [he, ha, hm, hd, hb, hr, Bool.not_false, Bool.and_self, if_true, Option.map_some]
  rw [State.ownWrite_taken s w _ ha hm hp]

theorem crcChCfgWrite_row : OwnRow .crcChCfgWrite (fun s w => isChan w.off 0 && s.chanHere w.off) (fun s w =>
    let j := (w.off - 0x808000) / 16
    let t := s.storeReg w.off w.data
    if w.data.getLsbD 4 = true ∨ t.fld Reg.crcChCfgPoly (chBase j) ≠ s.fld Reg.crcChCfgPoly (chBase j) then t.chRestart j else t) :=
  ownRow_of_exec fun s w => by
    change execCrcChCfgWrite w s = _
    simp only [execCrcChCfgWrite, dataBit, Bool.or_eq_true, decide_eq_true_eq]

/-! ### Memory windows -/

/-- No register of a cell lies in a memory window (R52, R54). -/
theorem regCell_of_memUnit {off : Nat} (h : (memUnit off).isSome = true) : regCell off = none := by
  unfold memUnit at h
  dsimp only at h
  split at h
  · cases h
  · have hlow : (off - 0x04000000) % 0x1000000 < 0xA00000 := by
      split at h
      · omega
      · split at h
        · omega
        · split at h
          · assumption
          · cases h
    unfold regCell
    exact if_pos (by omega)

theorem regionWindowWrite_row : OwnRow .regionWindowWrite (fun _ w => (memUnit w.off).isSome) (fun s w =>
    let t := s.routed 94 w.off
    (t.markWrite w.off 4).portWrite w.off (wordBytes w.data)) :=
  ownRow_of_ownWrite fun s w ho => by
    have hshut : s.shutAt w.off = s.absentAt w.off := by
      rw [State.shutAt, State.heldReg, regCell_of_memUnit ho]
      exact Bool.or_false _
    obtain ⟨u, hu⟩ := Option.isSome_iff_exists.1 ho
    change execRegionWindowWrite w s = _
    simp only [execRegionWindowWrite, State.ownWrite, hshut, hu, Option.isNone_some, Bool.or_false, Bool.not_true, Bool.false_or]
    rfl

/-! ### Undefined behaviour of a write from outside (R45, R482) -/

/-- The part of the mark that UB_04 makes, before that of UB_01. -/
theorem State.markWrite_cell (s : State) (a n c : Nat) (hc : memCell a = some c) :
    s.markWrite a n =
      let t := if s.ub04 a n then s.undefine (.region ((a - 0x04000000) / 0x1000000)) else s
      if s.ub01 a n c then t.undefine (.cell c) else t := by
  have hub : ∀ x : Extent, (s.undefine x).ub01 a n c = s.ub01 a n c := fun x => by rw [State.undefine_eq]; rfl
  unfold State.markWrite
  rw [hc]
  cases s.ub04 a n with
  | true => simp only [if_true, hub]
  | false => rfl

theorem State.markWrite_noCell (s : State) (a n : Nat) (hc : memCell a = none) :
    s.markWrite a n = if s.ub04 a n then s.undefine (.region ((a - 0x04000000) / 0x1000000)) else s := by
  unfold State.markWrite
  rw [hc]

theorem State.mem_undefine_of_mem (s : State) (x y : Extent) (h : y ∈ s.undef) : y ∈ (s.undefine x).undef := by
  unfold State.undefine
  split
  · exact h
  · exact List.mem_append_left _ h

/-- UB_04 makes the outputs of the region's cells undefined. -/
theorem State.markWrite_ub04 (s : State) (a n : Nat) (h : s.ub04 a n = true) :
    .region ((a - 0x04000000) / 0x1000000) ∈ (s.markWrite a n).undef := by
  cases hc : memCell a with
  | none => rw [s.markWrite_noCell a n hc, if_pos h]; exact State.mem_undefine _ _
  | some c =>
    simp only [s.markWrite_cell a n c hc, h, if_true]
    split
    · exact State.mem_undefine_of_mem _ _ _ (State.mem_undefine _ _)
    · exact State.mem_undefine _ _

/-- UB_01 makes those of the cell undefined. -/
theorem State.markWrite_ub01 (s : State) (a n c : Nat) (hc : memCell a = some c) (h : s.ub01 a n c = true) :
    .cell c ∈ (s.markWrite a n).undef := by
  simp only [s.markWrite_cell a n c hc, h, if_true]
  exact State.mem_undefine _ _

/-- A write that is neither makes nothing undefined. -/
theorem State.markWrite_defined (s : State) (a n : Nat) (h4 : s.ub04 a n = false)
    (h1 : ∀ c, memCell a = some c → s.ub01 a n c = false) : s.markWrite a n = s := by
  cases hc : memCell a with
  | none => rw [s.markWrite_noCell a n hc, h4]; rfl
  | some c => simp only [s.markWrite_cell a n c hc, h4, h1 c hc, Bool.false_eq_true, if_false]

/-- States that agree but for what is undefined. -/
theorem State.undef_only {s t : State} (h : ∃ l, t = { s with undef := l }) : t = { s with undef := t.undef } := by
  obtain ⟨l, rfl⟩ := h; rfl

/-- A mark changes what is undefined, and nothing else. -/
theorem State.markWrite_eq (s : State) (a n : Nat) : s.markWrite a n = { s with undef := (s.markWrite a n).undef } := by
  have hu : ∀ (t : State) x, t = { s with undef := t.undef } → t.undefine x = { s with undef := (t.undefine x).undef } := by
    intro t x ht
    rw [t.undefine_eq x, ht]
  cases hc : memCell a with
  | none =>
    rw [s.markWrite_noCell a n hc]
    split
    · exact hu s _ rfl
    · rfl
  | some c =>
    rw [s.markWrite_cell a n c hc]
    dsimp only
    split <;> split
    · exact hu _ _ (hu s _ rfl)
    · exact hu s _ rfl
    · exact hu s _ rfl
    · rfl

/-- Settles O45: the rows of the pairs, the windows, the engines, the channels and the memories are own writes; REGISTER_WRITE acts as the
row of the register, or stores it. -/
theorem hostRegisterWrites : Obligations.HostRegisterWrites := by
  unfold Obligations.HostRegisterWrites
  refine ⟨ownRow_of_exec fun _ _ => rfl, ownRow_of_exec fun _ _ => rfl, qpCtrlWrite_row.congr fun s w => ?_, kprGoWrite_row,
    registerWrite_kprGo, registerWrite_plain_row, registerWrite_row, registerWrite_kindUb, ownRow_of_exec fun _ _ => rfl,
    dmaECtrlWrite_enable_row, dmaECtrlWrite_idle_row, dmaECtrlWrite_cancel, ownRow_of_exec fun _ _ => rfl,
    ownRow_of_exec fun _ _ => rfl, crcChCfgWrite_row, regionWindowWrite_row, State.markWrite_ub04, State.markWrite_ub01,
    State.markWrite_defined, State.markWrite_eq⟩
  dsimp only
  cases hd : w.data.getLsbD 31 with
  | true => rw [s.qpCtrl_enable _ _ hd]
  | false =>
    cases hb : s.bit Reg.qpCtrlEn (qpBase (pairNo w.off)) with
    | true => rw [s.qpCtrl_disable _ _ hd hb]
    | false => rw [s.qpCtrl_disabled _ _ hd hb]

end Sys2Proof.Machine
end

section
/-! PROOF. Reads of registers and windows, on the bus and over SPI (R4, R12, R56, R158, R332, R385, R486). -/

namespace Sys2Proof.Machine

/-! ### What a register shows (R4, R12, R45) -/

theorem State.regRead_absent (s : State) (off : Nat) (h : s.absentAt off = true) : s.regRead off = (s, 0#32) := by
  rw [State.regRead, if_pos h]

/-- A register of the variant reads as what it shows, or as a free word where a case of undefined behaviour reaches its unit. -/
theorem State.regRead_present (s : State) (off : Nat) (h : s.absentAt off = false) :
    s.regRead off = (s.regShows off).1.unsure off (s.regShows off).2 := by
  simp only [State.regRead, h, Bool.false_eq_true, if_false]

theorem State.unsure_defined (s : State) (off : Nat) (w : Word) (h : s.offUndef off = false) : s.unsure off w = (s, w) := by
  simp only [State.unsure, h, Bool.false_eq_true, if_false]

theorem State.regShows_view (s : State) (off : Nat) (y : State × Word) (h : s.viewAt off = some y) : s.regShows off = y := by
  rw [State.regShows, h]

theorem State.regShows_held (s : State) (off : Nat) (h : s.viewAt off = none) :
    s.regShows off = (s.readClear off, s.reg off &&& ~~~(BitVec.ofNat 32 (woMask off))) := by
  rw [State.regShows, h]

theorem State.regRead_held (s : State) (off : Nat) (h : s.absentAt off = false) (hv : s.viewAt off = none)
    (hu : (s.readClear off).offUndef off = false) :
    s.regRead off = (s.readClear off, s.reg off &&& ~~~(BitVec.ofNat 32 (woMask off))) := by
  rw [s.regRead_present off h, s.regShows_held off hv, State.unsure_defined _ _ _ hu]

theorem State.regRead_view (s : State) (off : Nat) (y : State × Word) (h : s.absentAt off = false) (hv : s.viewAt off = some y)
    (hu : y.1.offUndef off = false) : s.regRead off = y := by
  rw [s.regRead_present off h, s.regShows_view off y hv, State.unsure_defined _ _ _ hu]

theorem State.regRead_undefined (s : State) (off : Nat) (h : s.absentAt off = false) (hu : (s.regShows off).1.offUndef off = true) :
    s.regRead off = ((s.regShows off).1.drew,
      ((s.regShows off).1.freeW &&& ~~~(keptBits off)) ||| ((s.regShows off).2 &&& keptBits off)) := by
  rw [s.regRead_present off h, State.unsure, if_pos hu]

/-! ### Reads on the bus -/

theorem registerRead_awake (s : State) (r : RegRead) (ha : s.awake = true) :
    exec (.registerRead r) s = .next (
      if s.heldRead r.off && !s.absentAt r.off then s.emit (.readPoisoned r.fn r.off 0#32)
      else (s.regRead r.off).1.emit (.readData r.fn r.off (s.regRead r.off).2)) := by
  change execRegisterRead r s = _
  simp only [execRegisterRead, ha, Bool.not_true, Bool.false_eq_true, if_false]

/-- R158: a read of MAD_DIGEST_CYCLE latches the digest. -/
theorem madDigestCycleRead_awake (s : State) (r : RegRead) (ha : s.awake = true) (h : r.off = 0x100090) :
    exec (.madDigestCycleRead r) s = .next (
      let y := ({ s with mad := { s.mad with digLatch := some s.mad.digest, digReadLo := false, digReadHi := false } } : State).unsure r.off
        s.mad.digestCycle
      y.1.emit (.readData r.fn r.off y.2)) := by
  change execMadDigestCycleRead r s = _
  rw [execMadDigestCycleRead, if_neg (by rw [ha, h]; decide)]

/-- R332: a read of TIME_NOW_SUB latches the time. -/
theorem timeNowSubRead_awake (s : State) (r : RegRead) (ha : s.awake = true) (h : r.off = 0x400010) :
    exec (.timeNowSubRead r) s = .next (
      let y := s.latchTime.unsure r.off (BitVec.ofNat 32 s.subNs)
      y.1.emit (.readData r.fn r.off y.2)) := by
  change execTimeNowSubRead r s = _
  rw [execTimeNowSubRead, if_neg (by rw [ha, h]; decide)]

/-- R486: a read of CRC_CH_VAL_LO latches the high word; of a cell held in reset it is poisoned (R29). -/
theorem crcChValLoRead_awake (s : State) (r : RegRead) (ha : s.awake = true) (h : isChan r.off 4 = true) :
    exec (.crcChValLoRead r) s = .next (
      let j := (r.off - 0x808000) / 16
      let held := s.chanHere r.off && s.cellDown (j / 2)
      let v := if s.chanHere r.off && !s.cellDown (j / 2) then s.chVal j else 0#64
      let y := (s.latch (r.off + 4) (v.extractLsb' 32 32)).unsure r.off (v.setWidth 32)
      y.1.emit (if held then .readPoisoned r.fn r.off y.2 else .readData r.fn r.off y.2)) := by
  change execCrcChValLoRead r s = _
  rw [execCrcChValLoRead, if_neg (by rw [ha, h]; decide)]

/-- R56, R482: a read of a memory window. -/
theorem regionWindowRead_awake (s : State) (r : RegRead) (ha : s.awake = true) (h : (memUnit r.off).isSome = true) :
    exec (.regionWindowRead r) s = .next (
      if s.absentAt r.off then s.emit (.readData r.fn r.off 0#32)
      else
        let y := (s.routed 94 r.off).portRead r.off 4
        if y.2.2 then y.1.emit (.readPoisoned r.fn r.off (wordAtB y.2.1 0)) else y.1.emit (.readData r.fn r.off (wordAtB y.2.1 0))) := by
  change execRegionWindowRead r s = _
  rw [execRegionWindowRead, if_neg (by rw [ha, ← Option.not_isSome, h]; decide)]
  simp only [apply_ite (State.emit _)]

/-! ### Reads over SPI (R385, R386) -/

theorem spiRdreg_up (s : State) (off : Nat) (h : s.keeperUp = true) :
    exec (.spiRdreg off) s = .next (
      if rdregOk off then (s.regRead off).1.emit (.spi (wordBytes (s.regRead off).2)) else s.emit (.spi (wordBytes 0#32))) := by
  change execSpiRdreg off s = _
  unfold execSpiRdreg
  rw [h]
  cases rdregOk off <;> rfl

theorem spiRpl_empty (s : State) (h : s.keeperUp = true) (hr : s.host.spiReply = none) :
    exec .spiRpl s = .next (s.emit (.spi [0#8])) := by
  change execSpiRpl s = _
  rw [execSpiRpl, h, hr]
  rfl

theorem spiRpl_reply (s : State) (bs : List Byte) (h : s.keeperUp = true) (hr : s.host.spiReply = some bs) :
    exec .spiRpl s = .next (
      (({ s with host := { s.host with spiReply := none } } : State).emit (.spi (1#8 :: bs))).emit (.pin "MGMT_IRQ_N" true)) := by
  change execSpiRpl s = _
  rw [execSpiRpl, h, hr]
  rfl

/-- Settles O46: each row of a read answers with what the register or the window shows, in the state its side effect leaves. -/
theorem readsAnswer : Obligations.ReadsAnswer := by
  unfold Obligations.ReadsAnswer
  exact ⟨registerRead_awake, State.regRead_absent, State.regRead_held, fun s off y => s.regRead_view off y, State.regRead_undefined,
    madDigestCycleRead_awake, timeNowSubRead_awake, crcChValLoRead_awake, regionWindowRead_awake, fun s off => spiRdreg_up s off,
    spiRpl_empty, spiRpl_reply⟩

end Sys2Proof.Machine
end

section
/-! PROOF. The order of cycle numbers, and LATE for an apply cycle half the range away (R36). -/

namespace Sys2Proof.Machine

theorem cycLater_iff (a b : Word) : cycLater a b = true ↔ 0 < (a - b).toInt := decide_eq_true_iff

theorem cycLater_eq_false_iff (a b : Word) : cycLater a b = false ↔ (a - b).toInt ≤ 0 := by
  rw [cycLater, decide_eq_false_iff_not, Int.not_lt]

/-- The difference of a cycle and one that lies `x` ahead, either way. -/
theorem cycle_ahead_sub (a x : Word) : a + x - a = x ∧ a - (a + x) = -x :=
  ⟨by rw [BitVec.add_comm, BitVec.add_sub_cancel], by bv_omega⟩

/-- Up to half the range ahead, a cycle is later and not earlier. -/
theorem cycLater_add (a : Word) (d : Nat) (h0 : 0 < d) (h : d < 2 ^ 31) :
    cycLater (a + BitVec.ofNat 32 d) a = true ∧ cycLater a (a + BitVec.ofNat 32 d) = false := by
  obtain ⟨hahead, hback⟩ := cycle_ahead_sub a (BitVec.ofNat 32 d)
  rw [cycLater_iff, cycLater_eq_false_iff, hahead, hback, BitVec.toInt_neg, BitVec.toInt_ofNat',
    Int.bmod_eq_of_le (by omega) (by omega), Int.bmod_eq_of_le (by omega) (by omega)]
  omega

/-- R36: at half the range neither of two cycles is later, since the difference is negative either way. -/
theorem cycLater_half (a : Word) : cycLater (a + 0x80000000#32) a = false ∧ cycLater a (a + 0x80000000#32) = false := by
  obtain ⟨hahead, hback⟩ := cycle_ahead_sub a 0x80000000#32
  rw [cycLater_eq_false_iff, cycLater_eq_false_iff, hahead, hback]
  decide

theorem State.lateFor_half (s : State) : s.lateFor (s.cycle + 0x80000000#32) = true := by
  rw [State.lateFor, (cycLater_half s.cycle).1]
  rfl

/-- R370: a fenced command that passes the checks 1 to 6 and comes late for its apply cycle returns LATE. -/
theorem State.verdict_late (s : State) (k : CmdSpec) (c : CmdIn) (h : Spec.passesTo6 s k c) (hf : k.fenced = true) (hat : c.at_ = true)
    (he : s.edgesRun = true) (hl : s.lateFor c.apply = true) : s.verdict k c = 0x0B := by
  obtain ⟨⟨hcheck, hallowed, habsent, hbad, hstray⟩, htakes, hmode⟩ := h
  have hck : (c.tested && !c.checkOk) = false := by
    cases ht : c.tested with
    | false => rfl
    | true => rw [hcheck ht]; rfl
  simp only [State.verdict, hck, hallowed, habsent, hbad, hstray, htakes, hmode, hf, hat, he, hl, Bool.not_true, Bool.and_self,
    Bool.and_false, Bool.or_self, Bool.false_eq_true, if_false, if_true]

/-- Settles O36: the order is the sign of the difference, so an apply cycle half the range away is not later than the present one. -/
theorem cycleNumbers : Obligations.CycleNumbers := by
  unfold Obligations.CycleNumbers
  exact ⟨cycLater_iff, cycLater_add, cycLater_half,
    fun s k c h hf hat he ha => s.verdict_late k c h hf hat he (by rw [ha]; exact s.lateFor_half)⟩

end Sys2Proof.Machine
end

section
/-! PROOF. A step: the command at the front of the queue, or a tick of the counter and one raising taken (R28, R534). -/

namespace Sys2Proof.Machine

/-- The first of the least, which a pass over a list keeps. -/
theorem foldl_least {α : Type} (f : α → Nat) (l : List α) (a : α) :
    let m := l.foldl (fun a b => if f b < f a then b else a) a
    m ∈ a :: l ∧ (∀ x ∈ a :: l, f m ≤ f x) ∧ (a :: l).find? (fun x => f x == f m) = some m := by
  induction l generalizing a with
  | nil => simp
  | cons b l ih =>
    simp only [List.foldl_cons]
    by_cases hba : f b < f a
    · rw [if_pos hba]
      obtain ⟨hmem, hmin, hfirst⟩ := ih b
      generalize l.foldl (fun a b => if f b < f a then b else a) b = m at hmem hmin hfirst
      have hb : f m ≤ f b := hmin b List.mem_cons_self
      have ha : (f a == f m) = false := beq_false_of_ne (by omega)
      refine ⟨List.mem_cons_of_mem a hmem, List.forall_mem_cons.2 ⟨by omega, hmin⟩, ?_⟩
      rw [List.find?_cons, ha, hfirst]
    · rw [if_neg hba]
      obtain ⟨hmem, hmin, hfirst⟩ := ih a
      generalize l.foldl (fun a b => if f b < f a then b else a) a = m at hmem hmin hfirst
      obtain ⟨ha, hl⟩ := List.forall_mem_cons.1 hmin
      refine ⟨?_, List.forall_mem_cons.2 ⟨ha, List.forall_mem_cons.2 ⟨by omega, hl⟩⟩, ?_⟩
      · rcases List.mem_cons.1 hmem with rfl | hm
        · exact List.mem_cons_self
        · exact List.mem_cons_of_mem a (List.mem_cons_of_mem b hm)
      · rw [List.find?_cons] at hfirst ⊢
        cases h : f a == f m with
        | true => rwa [h] at hfirst
        | false =>
          have hne : f a ≠ f m := by simpa using h
          have hb : (f b == f m) = false := beq_false_of_ne (by omega)
          rw [h] at hfirst
          rw [List.find?_cons, hb]
          exact hfirst

/-- R28, R534: of the raisings on their way, the oldest of the lowest sending island is the next to arrive. -/
theorem State.nextArrival_least (s : State) (h : s.fox.inflight ≠ []) : ∃ r, s.nextArrival = some r ∧ r ∈ s.fox.inflight
    ∧ (∀ x ∈ s.fox.inflight, s.sender r.src ≤ s.sender x.src)
    ∧ (s.fox.inflight.filter (fun x => s.sender x.src == s.sender r.src)).head? = some r := by
  obtain ⟨r, l, hl⟩ := List.exists_cons_of_ne_nil h
  simp only [State.nextArrival, hl, List.head?_filter]
  exact ⟨_, rfl, foldl_least (fun x => s.sender x.src) l r⟩

theorem State.nextArrival_none (s : State) (h : s.fox.inflight = []) : s.nextArrival = none := by
  rw [State.nextArrival, h]

theorem State.idle_unpowered (s : State) (h : s.mode = .off ∨ s.mode = .reset) : s.idle = s := by
  have ha : s.awake = false := by rcases h with h | h <;> rw [State.awake, h] <;> rfl
  rw [State.idle, ha]
  rfl

/-- What an idle part does when it is awake (log entry 2). -/
theorem State.idle_awake (s : State) (h : s.awake = true) :
    s.idle = match s.tick.nextArrival with
      | none => s.tick
      | some r => s.tick.foxTake r := by
  rw [State.idle, h]
  rfl

theorem State.idle_takes (s : State) (r : Raising) (h : s.awake = true) (hr : s.tick.nextArrival = some r) :
    s.idle = s.tick.foxTake r := by
  rw [s.idle_awake h, hr]

theorem State.idle_quiet (s : State) (h : s.awake = true) (hi : s.tick.fox.inflight = []) : s.idle = s.tick := by
  rw [s.idle_awake h, s.tick.nextArrival_none hi]

theorem step_empty (s : State) (h : s.pending = []) : step s = .next s.idle := by
  rw [step, h]

/-- Settles O34: the step function matches on the queue, and Foxglove's pick is a pass over the raisings on their way. -/
theorem stepRunsFrontCommand : Obligations.StepRunsFrontCommand := by
  unfold Obligations.StepRunsFrontCommand
  exact ⟨fun _ _ _ => rfl, step_empty, State.idle_unpowered, State.idle_takes, State.nextArrival_least, State.idle_quiet⟩

end Sys2Proof.Machine
end

section
/-! PROOF. The rows of the cycle (R29, R36, R37, R145, R148, R151, R158 to R160, R369, R373). -/

namespace Sys2Proof.Machine

/-! ### The cycle's edge and fence -/

theorem cycleEdge_some (s : State) (e : Int) (h : s.edgeAt (s.cycle + 1#32) = some e) : exec .cycleEdge s = .next (
    let a := s.advanceTo e
    let m := { a.mad with replay := { a.mad.replay with edge := a.mad.replay.running } }
    let g := (State.rebase { a with cycle := a.cycle + 1#32, mad := m }).lspLeaves.graphEdge.localEdge
    ((List.range g.ringCount).foldl State.ringEdge g).loopEdges.woadEdge.lspEdge.indEdge.resumeUnits) := by
  change execCycleEdge s = _
  rw [execCycleEdge, h]
  rfl

theorem cycleEdge_none (s : State) (h : s.edgeAt (s.cycle + 1#32) = none) : exec .cycleEdge s = .next s := by
  change execCycleEdge s = _
  rw [execCycleEdge, h]

/-- The fence of a cycle that neither a replay nor a catching-up standby fences otherwise. -/
theorem cycleEndFence_live (s : State) (he : s.edgesRun = true) (hr : s.mad.replay.running = false) (hc : s.catchingUp = false) :
    exec .cycleEndFence s = .next (
      let t := s.toInstant s.timing.tEnd
      let u := (((t.judgeCycle.lateSides.graphFence t.cycle).snapNow t.cycle).sendFence.compareFence t.cycle)
      { u with axShown := u.axes, axCycle := u.cycle }) := by
  change execCycleEndFence s = _
  have hcatch : (s.toInstant s.timing.tEnd).catchingUp = s.catchingUp := by
    simp only [State.catchingUp, State.mode_toInstant, State.lsp_toInstant]
  simp only [execCycleEndFence, he, hr, hcatch, hc, State.mad_toInstant, Bool.not_true, Bool.false_and, Bool.false_eq_true, if_false]

/-! ### Operations, dispatch and delay lists -/

theorem operationFence_of_desc (s : State) (op : Nat) (d : OpDesc) (hf : s.graphsFire = true)
    (hc : s.catchingUp = false ∨ s.lsp.loaded = true) (hd : s.opDesc op = some d) :
    exec (.operationFence op) s = .next (
      let t := if s.liveGraphs then s.toInstant (s.fenceInstant d) else s
      (t.opFence t.madCycle (op, d)).note) := by
  have hlive : (s.catchingUp && !s.lsp.loaded) = false := by
    rcases hc with h | h <;> rw [h]
    · rfl
    · exact Bool.and_false _
  change execOperationFence op s = _
  simp only [execOperationFence, hf, hlive, hd, Bool.not_true, Bool.false_eq_true, if_false]

theorem operationDispatch_open (s : State) (n : Nat) (ha : s.awake = true) (hn : s.cellOpen n = true) :
    exec (.operationDispatch n) s = .next (s.note.dispatch n) := by
  change execOperationDispatch n s = _
  rw [execOperationDispatch, ha, hn]
  rfl

theorem delayListExpiry_cons (s : State) (r : Nat) (w : WorkItem) (rest : List WorkItem) (ha : s.awake = true)
    (hw : (s.delay r).ents = w :: rest) : exec (.delayListExpiry r) s = .next (
      let k := s.tickAfter r (Nat.max w.expiry ((s.now16 + 65535) / 65536).toNat)
      let t := s.advanceTo (ns16 k)
      let due := (t.delay r).ents.takeWhile (fun w => decide (w.expiry ≤ k))
      due.foldl State.enqueue (t.setDelay r { t.delay r with ents := (t.delay r).ents.drop due.length })) := by
  change execDelayListExpiry r s = _
  rw [execDelayListExpiry, ha, hw]
  rfl

/-! ### Replay -/

/-- R158 to R160: a replay that runs, is not busy and has what it waits for stops, goes on, or begins from its snapshot. -/
theorem replayCycle_ready (s : State) (x : ReplayIn) (hr : s.mad.replay.running = true) (hm : s.mode = .commission)
    (hb : s.mad.replay.busy = false) (hs : s.mad.replay.stepping = true → s.mad.replay.go = true)
    (hp : s.bit Reg.madReplayCtrlPaced = true → s.mad.replay.edge = true ∨ s.mad.replay.abort = true) :
    exec (.replayCycle x) s = .next (
      if s.mad.replay.abort then s.replayStop false
      else if s.mad.replay.begun then s.replayNext (s.reg Reg.madReplayAt.off + 1#32) x
      else
        let t := s.setReg Reg.madReplayAt.off (s.reg Reg.madReplayFrom.off)
        match t.replayFrom x.snapshot x.journal with
        | some u => u.replayNext (u.reg Reg.madReplayFrom.off) x
        | none => t.replayStop true) := by
  have hstep : (s.mad.replay.stepping && !s.mad.replay.go) = false := by
    cases h : s.mad.replay.stepping with
    | false => rfl
    | true => rw [hs h]; rfl
  have hpace : (s.bit Reg.madReplayCtrlPaced && !s.mad.replay.edge && !s.mad.replay.abort) = false := by
    cases h : s.bit Reg.madReplayCtrlPaced with
    | false => rfl
    | true => rcases hp h with h | h <;> simp only [h, Bool.not_true, Bool.and_false, Bool.false_and]
  have hready : (!s.mad.replay.running || decide (s.mode ≠ .commission) || s.mad.replay.busy
      || s.mad.replay.stepping && !s.mad.replay.go) = false := by
    rw [hr, hm, hb, hstep]
    rfl
  change execReplayCycle x s = _
  rw [execReplayCycle, hready, hpace]
  rfl

/-! ### The turn among the commands that wait (R369, R373) -/

theorem commandProcess_turn (s : State) (k : Nat) (w : Waiting) (ha : s.awake = true) (hk : s.nextTurn = some k)
    (hw : s.host.waiting.find? (fun w => w.src == k) = some w) :
    exec .commandProcess s = .next (
      let t : State := { s with host := { s.host with waiting := s.host.waiting.erase w, turn := k, stalled := false } }
      (t.setFld Reg.cmdStatFwAlive 1).takeCommand w) := by
  change execCommandProcess s = _
  simp only [execCommandProcess, ha, hk, hw, Bool.not_true, Bool.false_eq_true, if_false]
  rfl

theorem State.judged_taken (s : State) (k : CmdSpec) (c : CmdIn) (h : k.keepers c = false) : s.judged k c
    = ({ s with host := { s.host with turn := portSrc c.port, stalled := false } } : State).setFld Reg.cmdStatFwAlive 1 := by
  rw [State.judged, h]
  rfl

theorem commandTimeout_waiting (s : State) (src : Nat) (w : Waiting) (ha : s.awake = true)
    (hw : s.host.waiting.find? (fun w => w.src == src) = some w) : exec (.commandTimeout src) s = .next (s.timeOut w) := by
  change execCommandTimeout src s = _
  rw [execCommandTimeout, hw, ha]
  rfl

/-- Settles O47: each row of the cycle acts so, once what it waits for holds. -/
theorem cycleRows : Obligations.CycleRows := by
  unfold Obligations.CycleRows
  exact ⟨cycleEdge_some, cycleEdge_none, cycleEndFence_live, operationFence_of_desc, operationDispatch_open, delayListExpiry_cons,
    replayCycle_ready, commandProcess_turn, State.judged_taken, commandTimeout_waiting⟩

end Sys2Proof.Machine
end

section
/-! PROOF. Power, reset, boot, JTAG, temperature and islands (R23 to R26, R394, R498, R501 to R516, R520, R529, R532). -/

namespace Sys2Proof.Machine

/-! ### Supply and RESET_N (R506 to R509) -/

theorem powerOn_off (s : State) (h : Bool) (hm : s.mode = .off) :
    exec (.powerOn h) s = .next (s.toReset (if h then 1 else 0) false) := by
  change execPowerOn h s = _
  rw [execPowerOn, if_neg (not_not_intro hm)]

theorem supplyLoss_on (s : State) (hm : s.mode ≠ .off) :
    exec .supplyLoss s = .next { (s.downEntry .off 1).wiped 1 false with mode := .off } := by
  change execSupplyLoss s = _
  rw [execSupplyLoss, if_neg hm]

theorem resetNLow_powered (s : State) (h1 : s.mode ≠ .off) (h2 : s.mode ≠ .reset) : exec .resetNLow s = .next (
    if s.power.handling then (s.setPower { s.power with resetLow := true }).pfailOver else s.toReset 2 false) := by
  change execResetNLow s = _
  unfold execResetNLow
  split
  · contradiction
  · contradiction
  · rfl

/-! ### The end of RESET and of BOOT (R498, R501 to R505) -/

theorem resetEnd_released (s : State) (x : ResetPins) (hm : s.mode = .reset) (hh : s.power.holdReset = false) :
    exec (.resetEnd x) s = .next (
      let strap := 2 * bitN x.bootMode1 + bitN x.bootMode0
      let t : State := { s with jnl := { s.jnl with frozen := !x.vholdOk, vholdLow := !x.vholdOk }
                                power := { s.power with strap := BitVec.ofNat 2 strap, vholdOk := x.vholdOk }
                                lsp := { s.lsp with pos := x.lspPos } }
      let u := t.setFld Reg.chipBootStatStrap strap
      let v := (u.ownEntry 0x00F0 [u.power.kind]).setMode .boot .boot
      if strap = 3 then { v with chipWarn := true } else v) := by
  change execResetEnd x s = _
  rw [execResetEnd, hm, hh]
  rfl

/-- A strap compared as a number and as a word. -/
theorem strap_toNat_eq (w : BitVec 2) (n : Nat) (h : n < 4) : w.toNat = n ↔ w = BitVec.ofNat 2 n := by
  rw [← BitVec.toNat_inj, BitVec.toNat_ofNat, Nat.mod_eq_of_lt h]

theorem bootSequenceEnd_boot (s : State) (hm : s.mode = .boot) : exec .bootSequenceEnd s = .next (
    let t := s.releaseIslands
    let u := if t.power.strap = 1#2 then t.setFld Reg.chipBootStatResult 3 else t.flashBoot
    if u.fox.latch = true then u.setMode .safeHold .fault
    else if u.image.isNone = true ∨ t.power.strap = 1#2 ∨ t.power.strap = 2#2 then u.setMode .configure .boot
    else (u.setMode .idle .boot).portsEnter) := by
  change execBootSequenceEnd s = _
  simp only [execBootSequenceEnd, hm, strap_toNat_eq _ 1 (by decide), strap_toNat_eq _ 2 (by decide), Bool.or_eq_true, decide_eq_true_eq,
    or_assoc, ne_eq, not_true_eq_false, if_false]

/-! ### Power failure (R394, R508, R510, R512) -/

/-- In RESET the power failure reaches Woad alone, whose safe outputs go off. -/
theorem pfailDetect_reset (s : State) (hm : s.mode = .reset) :
    exec (.pfailDetect true) s = .next { s with woad := { s.woad with pfail := true, so := 0#8 } } := by
  change execPfailDetect true s = _
  simp only [execPfailDetect, hm, if_true]

/-- What the handling of a power failure begins with, by the detector or by the pin. -/
theorem pfailDetect_powered (s : State) (d : Bool) (h1 : s.mode ≠ .off) (h2 : s.mode ≠ .reset) (hh : s.power.handling = false) :
    exec (.pfailDetect d) s = .next (
      let u := if d then s else s.setPower { s.power with pfailN := false }
      let t := (u.setPower { u.power with handling := true, released := false, lastDet := d }).ownEntry 0x00F2 [bitN d]
      { t with jnl := { t.jnl with frozen := true }
               woad := { t.woad with pfail := true, so := 0#8 } }) := by
  have hmode : (if d then s else s.setPower { s.power with pfailN := false }).mode = s.mode := by cases d <;> rfl
  have hhand : (if d then s else s.setPower { s.power with pfailN := false }).power.handling = false := by cases d <;> exact hh
  change execPfailDetect d s = _
  unfold execPfailDetect
  generalize (if d then s else s.setPower { s.power with pfailN := false }) = u at hmode hhand
  rw [← hmode] at h1 h2
  dsimp only
  split
  · contradiction
  · contradiction
  · rw [hhand]; rfl

theorem pfailRelease_handling (s : State) (hh : s.power.handling = true) : exec .pfailRelease s = .next (
    (s.setPower { s.power with pfailN := true, released := true }).pfailOver) := by
  change execPfailRelease s = _
  unfold execPfailRelease
  exact congrArg _ (if_pos hh)

theorem pfailRestoreHoldExpiry_held (s : State) (hm : s.mode = .reset) (hh : s.power.holdReset = true) (hp : s.power.pfailN = true) :
    exec .pfailRestoreHoldExpiry s = .next (s.setPower { s.power with holdReset := false, kind := 1 }) := by
  change execPfailRestoreHoldExpiry s = _
  rw [execPfailRestoreHoldExpiry, hm, hh, hp]
  rfl

/-! ### JTAG (R529) -/

/-- A JTAG instruction other than debug access shifts out the part's identity, or nothing. -/
theorem jtagInstruction_on (s : State) (hm : s.mode ≠ .off) :
    exec (.jtagInstruction .idcode) s = .next (s.shiftOut (BitVec.ofNat 32 (s.stepping.toNat % 16 * 2 ^ 28 + 0x07256A73)) 32)
    ∧ (∀ j ∈ [JtagInstr.bypass, .sample, .extest], exec (.jtagInstruction j) s = .next s) := by
  refine ⟨?_, fun j hj => ?_⟩
  · change execJtagInstruction .idcode s = _
    rw [execJtagInstruction, if_neg hm]
  · change execJtagInstruction j s = _
    unfold execJtagInstruction
    simp only [List.mem_cons, List.not_mem_nil, or_false] at hj
    rcases hj with rfl | rfl | rfl <;> exact if_neg hm

/-- Debug access: where control runs, UB_16 makes the part's outputs undefined; a cell halts. -/
theorem jtagInstruction_debug (s : State) (i : Nat) (hm : s.mode ≠ .off) : exec (.jtagInstruction (.debug i)) s = .next (
    let t := if s.mode = .armed ∨ s.mode = .run ∨ s.mode = .degraded then s.undefine .chip else s
    if i < t.cellCount then t.setCell i { t.cell i with halted := true } else t) := by
  change execJtagInstruction (.debug i) s = _
  rw [execJtagInstruction, if_neg hm]
  exact (apply_ite Host.Outcome.next _ _ _).symm

theorem jtagInstruction_debug_stopped (s : State) (i : Nat) (h0 : s.mode ≠ .off) (h1 : s.mode ≠ .armed) (h2 : s.mode ≠ .run)
    (h3 : s.mode ≠ .degraded) (hi : i < s.cellCount) :
    exec (.jtagInstruction (.debug i)) s = .next (s.setCell i { s.cell i with halted := true }) := by
  have hstopped : ¬ (s.mode = .armed ∨ s.mode = .run ∨ s.mode = .degraded) := by rintro (h | h | h) <;> contradiction
  rw [jtagInstruction_debug s i h0, if_neg hstopped]
  exact congrArg _ (if_pos hi)

theorem jtagInstruction_debug_running (s : State) (i : Nat) (hm : s.mode = .armed ∨ s.mode = .run ∨ s.mode = .degraded) :
    exec (.jtagInstruction (.debug i)) s = .next (
      let t := s.undefine .chip
      if i < s.cellCount then t.setCell i { t.cell i with halted := true } else t) := by
  have hon : s.mode ≠ .off := by rcases hm with h | h | h <;> rw [h] <;> decide
  have hcount : (s.undefine .chip).cellCount = s.cellCount := by rw [State.undefine_eq]; rfl
  rw [jtagInstruction_debug s i hon, if_pos hm]
  simp only [hcount]

/-! ### What a reset leaves (R25, R26, R506, R513 to R516) -/

/-- What RESET brings the part to: the queue of commands, the flash and what was sent stay, with the pins that fall; a level reset (kind 3)
keeps Woad, and every reset but that of a power-up the switch settings. -/
theorem State.wiped_keeps (s : State) (kind : Nat) (hold : Bool) : s.toReset kind hold = (s.downEntry .reset kind).wiped kind hold
    ∧ (s.wiped kind hold).mode = .reset ∧ (s.wiped kind hold).pending = s.pending ∧ (s.wiped kind hold).flash = s.flash
    ∧ (s.wiped kind hold).sent = (if s.bypassN = some true then [.pin "BYPASS_N" false] else [])
        ++ (if s.time.ppsHigh = true then [.pin "PPS_OUT" false] else []) ++ s.sent
    ∧ (s.wiped 3 hold).woad = s.woad ∧ (kind ≠ 0 → (s.wiped kind hold).bypassSet = s.bypassSet) :=
  ⟨rfl, rfl, rfl, rfl, rfl, rfl, fun h => if_pos (decide_eq_true h)⟩

theorem State.downEntry_level (s : State) (m : Mode) :
    s.downEntry m 3 = { s.ownEntry 0x00F1 [s.mode.code, m.code, 0] with modeCause := 0#2 } := rfl

/-- The cause that the MODE entry of another reset notes is free (log entry 126). -/
theorem State.downEntry_free (s : State) (m : Mode) (kind : Nat) (h0 : kind ≠ 0) (h3 : kind ≠ 3) :
    s.downEntry m kind
      = { s.drew.ownEntry 0x00F1 [s.mode.code, m.code, s.freeW.toNat % 4] with modeCause := BitVec.ofNat 2 (s.freeW.toNat % 4) } := by
  simp only [State.downEntry, if_neg h0, if_neg h3]
  rfl

/-! ### Temperature, supplies and islands (R23 to R26, R520, R532) -/

theorem thermalSensorRead_awake (s : State) (l : List Int) (ha : s.awake = true) : exec (.thermalSensorRead l) s = .next (
    let a := thermalStep 140 l s.power.warm
    let b := thermalStep 150 l s.power.hot
    let t := s.setPower { s.power with warm := a.1, hot := b.1 }
    let u := if a.2 then t.raise 0xE5 1 0 0 else t
    if b.2 then u.raise 0xE6 3 0 0 else u) := by
  change execThermalSensorRead l s = _
  simp only [execThermalSensorRead, ha, Bool.not_true, Bool.false_eq_true, if_false]

theorem supplyOutOfRange_kept (s : State) (ha : s.awake = true) : exec (.supplyOutOfRange false) s = .next (s.raise 0xE7 3 0 0) := by
  change execSupplyOutOfRange false s = _
  rw [execSupplyOutOfRange, ha]
  rfl

theorem supplyOutOfRange_lost (s t : State) (ha : s.awake = true) (ht : exec (.pfailDetect true) s = .next t) :
    exec (.supplyOutOfRange true) s = .next
      { t.foxRaise ⟨0xE7, 3, ⟨0, 0⟩⟩ false 3 with mode := t.mode, modeCause := t.modeCause, modeCycle := t.modeCycle } := by
  change execPfailDetect true s = _ at ht
  change execSupplyOutOfRange true s = _
  rw [execSupplyOutOfRange, ha, ht]
  rfl

theorem islandLockLoss_locked (s : State) (i : Nat) (ha : s.awake = true) (hp : s.islandPresent i = true)
    (hl : (s.island i).locked = true) : exec (.islandLockLoss i) s = .next (
      (s.setIsland i { s.island i with locked := false
                                       lockLosses := BitVec.ofNat 8 (satAdd (s.island i).lockLosses.toNat 1 255) }).raise 0xE2 1 10 i) := by
  change execIslandLockLoss i s = _
  rw [execIslandLockLoss, ha, hp, hl]
  rfl

theorem islandLockRegained_present (s : State) (i : Nat) (ha : s.awake = true) (hp : s.islandPresent i = true) :
    exec (.islandLockRegained i) s = .next (s.setIsland i { s.island i with locked := true }) := by
  change execIslandLockRegained i s = _
  rw [execIslandLockRegained, ha, hp]
  rfl

/-- Settles O55: each row acts so in the modes it is for, and a reset keeps of the state what `State.wiped` writes out. -/
theorem powerRows : Obligations.PowerRows := by
  unfold Obligations.PowerRows
  exact ⟨powerOn_off, supplyLoss_on, resetNLow_powered, resetEnd_released, bootSequenceEnd_boot,
    fun s h1 h2 hh => pfailDetect_powered s true h1 h2 hh, fun s h1 h2 hh => pfailDetect_powered s false h1 h2 hh,
    pfailDetect_reset, pfailRelease_handling, pfailRestoreHoldExpiry_held, jtagInstruction_on, jtagInstruction_debug_stopped,
    jtagInstruction_debug_running, State.wiped_keeps, State.downEntry_level, State.downEntry_free, thermalSensorRead_awake,
    supplyOutOfRange_kept, supplyOutOfRange_lost, islandLockLoss_locked, islandLockRegained_present⟩

end Sys2Proof.Machine
end

section
/-! PROOF. Foxglove, Indigo, the DMA engines, scrubbing and scans, and the arbiters an access passes (R30 to R35, R85, R454, R458,
R461 to R478, R481, R484, R487 to R491). -/

namespace Sys2Proof.Machine

/-! ### Foxglove (R454, R458) -/

theorem faultQuietExpiry_found (s : State) (l : Nat) (src : FoxSrc) (x : FaultState)
    (hx : s.fox.states.find? (fun y => y.is l src) = some x) : exec (.faultQuietExpiry l src) s = .next (
      let w := s.runTo (x.since + 50000 * s.fld Reg.foxQuiet0Quiet (4 * l))
      let t : State := { w with fox := { w.fox with states := w.fox.states.filter (fun y => !y.is l src) } }
      let u := t.recovered l
      if u.mode = .degraded ∧ u.regionL2 = false then u.setMode .run .fault else u) := by
  change execFaultQuietExpiry l src s = _
  rw [execFaultQuietExpiry, hx]
  have hend (t : State) : (decide (t.mode = .degraded) && !t.regionL2) = true ↔ t.mode = .degraded ∧ t.regionL2 = false := by
    rw [Bool.and_eq_true, decide_eq_true_iff, Bool.not_eq_true']
  exact congrArg _ (ite_congr (propext (hend _)) (fun _ => rfl) fun _ => rfl)

theorem alarmWindowExpiry_found (s : State) (src : FoxSrc) (w : AlarmWin)
    (hw : s.fox.windows.find? (fun x => decide (x.src = src)) = some w) : exec (.alarmWindowExpiry src) s = .next (
      let u := s.runTo (w.since + 500000)
      let rest := u.fox.windows.filter (fun x => !decide (x.src = src))
      if w.changed = [] then { u with fox := { u.fox with windows := rest } }
      else (w.changed.mergeSort (· ≤ ·)).foldl (fun t no => match t.fox.queue.find? (fun r => r.no == no) with
          | some r => t.sendAlarm r
          | none => t) ({ u with fox := { u.fox with windows := rest ++ [⟨src, [], u.time.ran⟩] } } : State)) := by
  change execAlarmWindowExpiry src s = _
  rw [execAlarmWindowExpiry, hw]
  exact congrArg _ (ite_congr (propext List.isEmpty_iff) (fun _ => rfl) fun _ => rfl)

/-! ### Indigo (R461 to R478) -/

theorem indigoGroupClose_open (s : State) (ha : s.awake = true) (hA : s.isA = true) (he : s.edgesRun = true) (hs : s.ind.shut = false) :
    exec .indigoGroupClose s = .next ((s.toInstant 100).indClose (s.cycle - 1#32)) := by
  change execIndigoGroupClose s = _
  rw [execIndigoGroupClose, ha, hA, he, hs]
  rfl

theorem indigoPins_awake (s : State) (k : Nat) (ha : s.awake = true) (hA : s.isA = true) :
    exec (.sequencerTimerExpiry k) s = .next (s.timerTest k)
    ∧ exec .trigFireEdge s = .next (s.setInd { s.ind with cur := { s.ind.cur with fire := true } })
    ∧ exec (.trigArmChange true) s = .next (s.trigArm true) ∧ exec (.trigArmChange false) s = .next (s.trigArm false) := by
  have harm (high : Bool) : exec (.trigArmChange high) s = .next (s.trigArm high) := by
    change execTrigArmChange high s = _
    rw [execTrigArmChange, ha, hA]
    rfl
  refine ⟨?_, ?_, harm true, harm false⟩
  · change execSequencerTimerExpiry k s = _
    rw [execSequencerTimerExpiry, ha, hA]
    rfl
  · change execTrigFireEdge s = _
    rw [execTrigFireEdge, ha, hA]
    rfl

theorem trigFireRelease_firing (s : State) (h : s.ind.firing = true) : exec .trigFireRelease s = .next (
    ((s.toInstant 140).setInd { s.ind with firing := false }).emit (.pin "TRIG_FIRE" true)) := by
  change execTrigFireRelease s = _
  rw [execTrigFireRelease, if_pos h]

theorem indigoGroupWritten_staged (s : State) (g : IndGroup) (rest : List IndGroup) (h : s.ind.staged = g :: rest) :
    exec .indigoGroupWritten s = .next (
      (s.setInd { s.ind with staged := rest, wr := BitVec.ofNat 54 (g.off + g.bytes.length) }).indWrite g.off g.bytes) := by
  change execIndigoGroupWritten s = _
  rw [execIndigoGroupWritten, h]

theorem State.indWrite_within (s : State) (o : Nat) (bs : List Byte) (h : bs.length ≤ s.indSize - o % s.indSize) :
    s.indWrite o bs = s.emit (.hostWrite (s.indBase + o % s.indSize) bs) := by
  rw [State.indWrite, List.take_of_length_le h]
  exact if_pos h

/-- Data that reach past the end of the host's ring go on at its start. -/
theorem State.indWrite_wraps (s : State) (o : Nat) (bs : List Byte) (h : s.indSize - o % s.indSize < bs.length) :
    s.indWrite o bs = (s.emit (.hostWrite (s.indBase + o % s.indSize) (bs.take (s.indSize - o % s.indSize)))).emit
      (.hostWrite s.indBase (bs.drop (s.indSize - o % s.indSize))) := by
  rw [State.indWrite]
  exact if_neg (Nat.not_le.2 h)

/-! ### The DMA engines (R487 to R491) -/

theorem State.dmaWaits_iff (s : State) (e : Nat) : s.dmaWaits e = true ↔ e < 8 ∧ s.awake = true
    ∧ s.bit Reg.dmaECtrlEn (dmaBase e) = true ∧ s.bit Reg.dmaEStatBusy (dmaBase e) = false
    ∧ s.fld Reg.dmaEHeadHead (dmaBase e) ≠ s.fld Reg.dmaETailTail (dmaBase e) % max 1 (s.fld Reg.dmaECtrlLen (dmaBase e)) := by
  simp only [State.dmaWaits, Bool.and_eq_true, Bool.not_eq_true', decide_eq_true_eq, decide_eq_false_iff_not, and_assoc, ne_eq]

theorem dmaDescriptorStart_waiting (s : State) (e : Nat) (d : DmaDesc) (he : e < 8) (ha : s.awake = true)
    (hen : s.bit Reg.dmaECtrlEn (dmaBase e) = true) (hb : s.bit Reg.dmaEStatBusy (dmaBase e) = false)
    (hh : s.fld Reg.dmaEHeadHead (dmaBase e) ≠ s.fld Reg.dmaETailTail (dmaBase e) % max 1 (s.fld Reg.dmaECtrlLen (dmaBase e))) :
    exec (.dmaDescriptorStart e d) s = .next (
      let f := DescFields.of d.bytes
      let addr := s.dmaAddr e (s.fld Reg.dmaEHeadHead (dmaBase e))
      let u := s.markControl f
      if u.descStatus f ≠ 0 then u.dmaDone e addr (u.descStatus f)
      else
        let t := if f.restart then u.chRestart f.ch else u
        (t.addRun e ⟨addr, d.bytes⟩).setFld Reg.dmaEStatBusy 1 (dmaBase e)) := by
  have hw := s.dmaWaits_iff e |>.2 ⟨he, ha, hen, hb, hh⟩
  change execDmaDescriptorStart e d s = _
  simp only [execDmaDescriptorStart, hw, Bool.not_true, Bool.false_eq_true, if_false, apply_ite Host.Outcome.next]

/-! UB_06 makes the units that a descriptor addresses undefined one after another: each of them, keeping those that were. -/

theorem State.foldl_undefine_keeps (l : List Nat) (s : State) (y : Extent) (h : y ∈ s.undef) :
    y ∈ (l.foldl (fun s b => s.undefine (.unit b)) s).undef := by
  induction l generalizing s with
  | nil => exact h
  | cons b l ih => exact ih _ (State.mem_undefine_of_mem s _ y h)

theorem State.mem_foldl_undefine (l : List Nat) (s : State) (b : Nat) (h : b ∈ l) :
    .unit b ∈ (l.foldl (fun s b => s.undefine (.unit b)) s).undef := by
  induction l generalizing s with
  | nil => cases h
  | cons c l ih =>
    rcases List.mem_cons.1 h with rfl | h
    · exact State.foldl_undefine_keeps l _ _ (State.mem_undefine s _)
    · exact ih _ h

theorem State.foldl_undefine_eq (l : List Nat) (s : State) :
    l.foldl (fun s b => s.undefine (.unit b)) s = { s with undef := (l.foldl (fun s b => s.undefine (.unit b)) s).undef } := by
  induction l generalizing s with
  | nil => rfl
  | cons b l ih => rw [List.foldl_cons, ih, State.undefine_eq]

theorem State.mem_markControl (s : State) (f : DescFields) (a b : Nat) (hf : f.formOk = true) (ha : a ∈ f.onChip)
    (hb : b ∈ controlUnits a f.len) : .unit b ∈ (s.markControl f).undef := by
  rw [State.markControl, if_pos hf]
  exact State.mem_foldl_undefine _ s b (List.mem_flatMap.2 ⟨a, ha, hb⟩)

/-- UB_06 changes what is undefined, and nothing else; a descriptor of a bad form reaches no unit. -/
theorem State.markControl_eq (s : State) (f : DescFields) : s.markControl f = { s with undef := (s.markControl f).undef }
    ∧ (f.formOk = false → s.markControl f = s) := by
  refine ⟨State.foldl_undefine_eq _ s, fun h => ?_⟩
  rw [State.markControl, h]
  rfl

/-- R85: of a transfer that would only feed a channel bound to the core, the feed is dropped and the channel notes the conflict. -/
theorem State.dmaMove_conflict (s : State) (f : DescFields) (host : List Byte) (n : Nat) (hf : f.feeds = true)
    (hb : s.dmaBound f.ch = false) (hs : f.srcHost = true) (hc : f.crcOnly = true) :
    s.dmaMove f host n = (s.setBit Reg.crcChCfgConflict true (chBase f.ch), false) := by
  simp only [State.dmaMove, State.dmaFeed, hf, hb, hs, hc, Bool.true_or, Bool.false_eq_true, if_true, if_false]

theorem dmaDescriptorEnd_moved (s : State) (e : Nat) (x : DmaEnd) (k : Nat) (r : DmaRun)
    (hr : s.dma.runs.find? (fun r => r.1 == e) = some (k, r)) (hx : x.hostFailed = false) :
    exec (.dmaDescriptorEnd e x) s = .next (
      let f := DescFields.of r.bytes
      let y := s.dmaMove f x.hostData f.len
      if y.2 then (y.1.dmaDone e r.addr 0x0A).dmaPoison else y.1.dmaDone e r.addr 0) := by
  change execDmaDescriptorEnd e x s = _
  simp only [execDmaDescriptorEnd, hr, hx, Bool.false_eq_true, if_false]

/-- R490: an access of the host that fails ends the descriptor with status 9 and disables the engine; where the data pass the host, the
blocks moved before are free (log entry 94). -/
theorem dmaDescriptorEnd_hostFailed (s : State) (e : Nat) (x : DmaEnd) (k : Nat) (r : DmaRun)
    (hr : s.dma.runs.find? (fun r => r.1 == e) = some (k, r)) (hx : x.hostFailed = true) :
    exec (.dmaDescriptorEnd e x) s = .next (
      let f := DescFields.of r.bytes
      let y := if f.srcHost = true ∨ (f.dstHost = true ∧ f.crcOnly = false) then s.drew.dmaMove f x.hostData (s.freeBlocks f.len)
        else s.dmaMove f x.hostData f.len
      ((y.1.dmaDone e r.addr 9).setFld Reg.dmaECtrlEn 0 (dmaBase e)).raise 0xA0 1 10 106) := by
  change execDmaDescriptorEnd e x s = _
  simp only [execDmaDescriptorEnd, hr, hx, if_true, Bool.or_eq_true, Bool.and_eq_true, Bool.not_eq_true']
  rfl

theorem dmaDescriptorEnd_fetchFailed (s : State) (e : Nat) (x : DmaEnd) (hr : s.dma.runs.find? (fun r => r.1 == e) = none)
    (hx : x.hostFailed = true) (hw : s.dmaWaits e = true) : exec (.dmaDescriptorEnd e x) s = .next (
      ((s.dmaDone e (s.dmaAddr e (s.fld Reg.dmaEHeadHead (dmaBase e))) 9).setFld Reg.dmaECtrlEn 0 (dmaBase e)).raise 0xA0 1 10 106) := by
  change execDmaDescriptorEnd e x s = _
  simp only [execDmaDescriptorEnd, hr, hx, hw, Bool.and_self, if_true]
  rfl

/-! ### Who is served at a cell's memories (R30, R31) -/

theorem cellGrant_core (req : List CellReq) (wb dma : Nat) (h : CellReq.core ∈ req) (hw : wb < 4) (hd : dma < 64) :
    cellGrant req wb dma = some .core := by
  simp only [cellGrant, Nat.not_le.2 hw, Nat.not_le.2 hd, decide_false, Bool.and_false, Bool.false_eq_true, if_false]
  exact List.find?_cons_of_pos (List.contains_iff_mem.2 h)

theorem cellGrant_writeBack (req : List CellReq) (wb dma : Nat) (h : CellReq.writeBack ∈ req)
    (ht : 4 ≤ wb ∨ (CellReq.core ∉ req ∧ dma < 64)) : cellGrant req wb dma = some .writeBack := by
  by_cases hw : 4 ≤ wb
  · simp only [cellGrant, List.contains_iff_mem.2 h, hw, decide_true, Bool.and_self, if_true]
  · obtain ⟨hc, hd⟩ := ht.resolve_left hw
    simp only [cellGrant, hw, Nat.not_le.2 hd, decide_false, Bool.and_false, Bool.false_eq_true, if_false]
    rw [List.find?_cons_of_neg (by simpa using hc), List.find?_cons_of_pos (List.contains_iff_mem.2 h)]

theorem cellGrant_dma (req : List CellReq) (wb dma : Nat) (h : CellReq.dma ∈ req)
    (ht : (64 ≤ dma ∧ (wb < 4 ∨ CellReq.writeBack ∉ req)) ∨ (CellReq.core ∉ req ∧ CellReq.writeBack ∉ req)) :
    cellGrant req wb dma = some .dma := by
  have hdma : req.contains CellReq.dma = true := List.contains_iff_mem.2 h
  have hwait : (req.contains CellReq.writeBack && decide (4 ≤ wb)) = false := by
    rw [Bool.and_eq_false_iff, decide_eq_false_iff_not, ← Bool.not_eq_true, List.contains_iff_mem, Nat.not_le]
    rcases ht with ⟨-, hw | hn⟩ | ⟨-, hn⟩
    · exact .inr hw
    · exact .inl hn
    · exact .inl hn
  rw [cellGrant, hwait, hdma]
  by_cases hd : 64 ≤ dma
  · simp only [hd, decide_true, Bool.and_self, Bool.false_eq_true, if_false, if_true]
  · obtain ⟨hc, hwb⟩ := ht.resolve_left (fun h => hd h.1)
    simp only [hd, decide_false, Bool.and_false, Bool.false_eq_true, if_false]
    rw [List.find?_cons_of_neg (by simpa using hc), List.find?_cons_of_neg (by simpa using hwb), List.find?_cons_of_pos hdma]

/-! ### Wheels and round robins (R32 to R35) -/

/-- A round robin serves one that asks. -/
theorem mem_of_rrNext {n last : Nat} {req : List Nat} {p : Nat} (h : rrNext n last req = some p) : p ∈ req :=
  List.contains_iff_mem.1 (List.find?_some h)

/-- Every requester gets a turn of the round robin, whoever was served last. -/
theorem mem_turns (n last p : Nat) (h : p < n) : p ∈ (List.range n).map (fun i => (last + 1 + i) % n) := by
  refine List.mem_map.2 ⟨(p + n - (last + 1) % n) % n, List.mem_range.2 (Nat.mod_lt _ (by omega)), ?_⟩
  have hlt : (last + 1) % n < n := Nat.mod_lt _ (by omega)
  rw [Nat.add_mod_mod, ← Nat.mod_add_mod, show (last + 1) % n + (p + n - (last + 1) % n) = p + n by omega, Nat.add_mod_right,
    Nat.mod_eq_of_lt h]

theorem rrNext_single (n last p : Nat) (h : p < n) : rrNext n last [p] = some p := by
  have hsome : (rrNext n last [p]).isSome = true :=
    List.find?_isSome.2 ⟨p, mem_turns n last p h, List.contains_iff_mem.2 (List.mem_singleton_self p)⟩
  obtain ⟨q, hq⟩ := Option.isSome_iff_exists.1 hsome
  rw [hq, List.mem_singleton.1 (mem_of_rrNext hq)]

theorem rrNext_nil (n last : Nat) : rrNext n last [] = none := List.find?_eq_none.2 fun _ _ => Bool.false_ne_true

theorem WheelSt.robin_mem {w : WheelSt} {n : Nat} {req : List Nat} {p : Nat} (h : (w.robin n req).1 = some p) : p ∈ req := by
  unfold WheelSt.robin at h
  split at h
  · rename_i hq
    rw [← Option.some.inj h]
    exact mem_of_rrNext hq
  · cases h

theorem WheelSt.robin_single (w : WheelSt) (n p : Nat) (h : p < n) : w.robin n [p] = (some p, { w with last := p, spent := 1 }) := by
  rw [WheelSt.robin, rrNext_single n w.last p h]

theorem WheelSt.robin_nil (w : WheelSt) (n : Nat) : w.robin n [] = (none, w) := by
  rw [WheelSt.robin, rrNext_nil]

/-- A turn of a wheel: the owner of the slot where it asks, else the round robin, and the next slot (R32, R34). -/
theorem WheelSt.grant_cases (w : WheelSt) (len n : Nat) (slots : List (Option Nat)) (held : Bool) (req : List Nat) :
    (∃ p, w.owner slots held = some p ∧ p ∈ req ∧ w.grant len n slots held req = (some p, w.step len))
    ∨ (∀ p, w.owner slots held = some p → p ∉ req) ∧ w.grant len n slots held req = ((w.robin n req).1, (w.robin n req).2.step len) := by
  unfold WheelSt.grant
  cases ho : w.owner slots held with
  | none => exact .inr ⟨fun p h => (by cases h), rfl⟩
  | some p =>
    by_cases hp : p ∈ req
    · exact .inl ⟨p, rfl, hp, if_pos (List.contains_iff_mem.2 hp)⟩
    · refine .inr ⟨fun q h => Option.some.inj h ▸ hp, if_neg fun h => hp (List.contains_iff_mem.1 h)⟩

theorem WheelSt.grant_mem (w : WheelSt) (len n : Nat) (slots : List (Option Nat)) (held : Bool) (req : List Nat) (p : Nat)
    (h : (w.grant len n slots held req).1 = some p) : p ∈ req := by
  rcases w.grant_cases len n slots held req with ⟨q, -, hq, he⟩ | ⟨-, he⟩
  · rw [he] at h
    exact Option.some.inj h ▸ hq
  · rw [he] at h
    exact WheelSt.robin_mem h

theorem WheelSt.grant_owner (w : WheelSt) (len n : Nat) (slots : List (Option Nat)) (held : Bool) (req : List Nat) (p : Nat)
    (ho : w.owner slots held = some p) (hp : p ∈ req) : (w.grant len n slots held req).1 = some p := by
  rcases w.grant_cases len n slots held req with ⟨q, hq, -, he⟩ | ⟨hn, -⟩
  · rw [he, ← hq, ho]
  · exact absurd hp (hn p ho)

/-- One that asks alone is served in this slot, whoever owns it. -/
theorem WheelSt.grant_single (w : WheelSt) (len n : Nat) (slots : List (Option Nat)) (held : Bool) (p : Nat) (h : p < n) :
    (w.grant len n slots held [p]).1 = some p ∧ (w.grant len n slots held [p]).2.slot = (w.slot + 1) % len := by
  rcases w.grant_cases len n slots held [p] with ⟨q, -, hq, he⟩ | ⟨-, he⟩
  · rw [he, List.mem_singleton.1 hq]
    exact ⟨rfl, rfl⟩
  · rw [he, w.robin_single n p h]
    exact ⟨rfl, rfl⟩

/-- R33: LOOP traffic alone gets nothing of a slot that no port owns. -/
theorem WheelSt.grantLoop_unowned (w : WheelSt) (slots : List (Option Nat)) (weight : Nat → Nat) (loop : List Nat)
    (ho : w.owner slots false = none) : (w.grantLoop slots false weight loop []).1 = none := by
  rw [WheelSt.grantLoop, ho]
  exact congrArg Prod.fst (w.robin_nil 5)

theorem WheelSt.grantLoop_owner (w : WheelSt) (slots : List (Option Nat)) (held : Bool) (weight : Nat → Nat) (loop : List Nat) (p : Nat)
    (ho : w.owner slots held = some p) (hp : p ∈ loop) : (w.grantLoop slots held weight loop []).1 = some p := by
  rw [WheelSt.grantLoop, ho]
  exact congrArg Prod.fst (if_pos (List.contains_iff_mem.2 hp))

/-- R33: a port goes on until it has had as many turns as its weight. -/
theorem WheelSt.weighted_goesOn (w : WheelSt) (n : Nat) (weight : Nat → Nat) (req : List Nat) (hr : w.last ∈ req) (h0 : 0 < w.spent)
    (hw : w.spent < weight w.last) : w.weighted n weight req = (some w.last, { w with spent := w.spent + 1 }) := by
  rw [WheelSt.weighted, List.contains_iff_mem.2 hr, decide_eq_true ⟨h0, hw⟩]
  rfl

/-! ### Scrubbing and scans (R481, R491) -/

/-- The counter run on by its ticks leaves the flipped bits of the memories. -/
theorem State.flip1_runTo (s : State) (n : Nat) : (s.runTo n).flip1 = s.flip1 := by
  rw [State.runTo, State.rampStat, State.flip1_setBit, State.ticks_rest]

theorem scrubPeriod_awake (s : State) (single double : List Nat) (ha : s.awake = true) : exec (.scrubPeriod single double) s = .next (
    let r := s.runTo (s.dma.scrubAt + 500000 * s.fld Reg.dmaScrubPeriodMs)
    let r : State := { r with dma := { r.dma with scrubAt := r.time.ran } }
    let word := fun a : Nat => a - a % 8
    let t : State := { r with
      flip1 := r.flip1 ++ (((single.filter scrubbed).map word).eraseDups).filter (fun a => !s.flip1.contains a)
      flip2 := r.flip2 ++ (((double.filter scrubbed).map word).eraseDups).filter (fun a => !r.flip2.contains a) }
    let u := t.correct (t.flip1.filter scrubbed)
    (((u.flip2.filter scrubbed).map word).eraseDups).foldl State.scrubRaise u) := by
  change execScrubPeriod single double s = _
  simp only [execScrubPeriod, ha, State.scrubTurn, State.flip1_runTo, Bool.not_true, Bool.false_eq_true, if_false]

theorem scanComplete_command (s : State) (x : Nat × Nat × Nat × Nat) (z : Nat × CmdIn)
    (rest : List (Nat × Nat × Nat × Nat)) (hx : s.dma.scan2 = x :: rest) (hz : s.resultOf 0x0D01 = some z) : exec (.scanComplete true) s = .next (
      let y := s.scan x.2.1 x.2.2.1 x.2.2.2
      let t : State := { y.1 with dma := { y.1.dma with scan2 := [] } }
      if y.2.2 then t.dmaPoison.finish z 0x0A {} else t.finish z 0 { data := leBytes 8 y.2.1 }) := by
  obtain ⟨src, start, n, poly⟩ := x
  change execScanComplete true s = _
  simp only [execScanComplete, hx, hz, if_true]

theorem scanComplete_register (s : State) (start n poly : Nat) (h : s.dma.scan = some (start, n, poly)) :
    exec (.scanComplete false) s = .next (
      let y := s.scan start n poly
      let v := BitVec.ofNat 64 y.2.1
      let t : State := { y.1 with dma := { y.1.dma with scan := none } }
      let t := ((t.setReg 0x800114 (v.setWidth 32)).setReg 0x800118 (v.extractLsb' 32 32)).setFld Reg.crcScanCtrlBusy 0
      let t := t.setFld Reg.crcScanCtrlStatus (if y.2.2 then 0x0A else 0)
      let t := if y.2.2 then t.dmaPoison else t
      if t.bit Reg.crcScanCtrlCmp = true ∧ (t.reg 0x800110) ++ (t.reg 0x80010C) ≠ v then (t.setFld Reg.crcScanCtrlMismatch 1).raise 0xA2 1 10 106
      else t) := by
  change execScanComplete false s = _
  simp only [execScanComplete, h, Bool.false_eq_true, if_false, Bool.and_eq_true, decide_eq_true_eq]

/-- Settles O59: each row acts so once what it waits for holds; an arbiter's turn goes to the owner of the slot, to the port that has
turns left, or to the next requester in the round. -/
theorem unitRows : Obligations.UnitRows := by
  unfold Obligations.UnitRows
  exact ⟨faultQuietExpiry_found, alarmWindowExpiry_found, indigoGroupClose_open, indigoPins_awake, trigFireRelease_firing,
    indigoGroupWritten_staged, State.indWrite_within, State.indWrite_wraps, dmaDescriptorStart_waiting, State.mem_markControl,
    State.markControl_eq, State.dmaMove_conflict, dmaDescriptorEnd_moved, dmaDescriptorEnd_hostFailed, dmaDescriptorEnd_fetchFailed,
    cellGrant_core, cellGrant_writeBack, cellGrant_dma, WheelSt.grant_mem, WheelSt.grant_owner, WheelSt.grant_single,
    WheelSt.grantLoop_unowned, WheelSt.grantLoop_owner, WheelSt.weighted_goesOn, scrubPeriod_awake, scanComplete_command,
    scanComplete_register⟩

end Sys2Proof.Machine
end

section
/-! PROOF. A command that passes its checks: how it is put into effect and answered, by its kind (R370 to R376). -/

namespace Sys2Proof.Machine

/-! ### The checks passed (R357, R369, R370) -/

/-- A command that passes its checks does not wait: it is processed in the state in which it is judged. -/
theorem State.command_of_accepts {s u : State} {k : CmdSpec} {r : CmdReq} {c : CmdIn} (h : s.accepts k r u c) :
    s.command k r = u.process k c := by
  obtain ⟨⟨v, slot, ha, rfl, hw, rfl⟩, -⟩ := h
  simp only [State.command, ha, hw, Bool.false_eq_true, if_false]

/-- A query is answered without an entry. -/
theorem State.process_query {u : State} {k : CmdSpec} {c : CmdIn} (hv : u.verdict k c = 0) (hq : k.query = true) :
    u.process k c = (k.run u c 0 u.cycle).1.answer c (k.run u c 0 u.cycle).2.status false 0 (k.cyc u) (k.run u c 0 u.cycle).2 := by
  simp only [State.process, hv, hq, ne_eq, not_true_eq_false, if_false, if_true]

/-- Any other command changes state. -/
theorem State.process_takeEffect {u : State} {k : CmdSpec} {c : CmdIn} (hv : u.verdict k c = 0) (hq : k.query = false) :
    u.process k c = u.takeEffect k c := by
  simp only [State.process, hv, hq, ne_eq, not_true_eq_false, Bool.false_eq_true, if_false]

theorem State.command_query {s u : State} {k : CmdSpec} {r : CmdReq} {c : CmdIn} (h : s.accepts k r u c) (hq : k.query = true) :
    s.command k r = (k.run u c 0 u.cycle).1.answer c (k.run u c 0 u.cycle).2.status false 0 (k.cyc u) (k.run u c 0 u.cycle).2 := by
  rw [State.command_of_accepts h, State.process_query h.2 hq]

theorem State.command_takeEffect {s u : State} {k : CmdSpec} {r : CmdReq} {c : CmdIn} (h : s.accepts k r u c) (hq : k.query = false) :
    s.command k r = u.takeEffect k c := by
  rw [State.command_of_accepts h, State.process_takeEffect h.2 hq]

/-! ### The cycle of effect (R374, R376) -/

theorem State.effectCycle_now (u : State) {k : CmdSpec} (c : CmdIn) (hf : k.fenced = false) : u.effectCycle k c = u.cycle := by
  simp only [State.effectCycle, hf, Bool.not_false, if_true]

theorem State.effectCycle_fenced (u : State) {k : CmdSpec} (c : CmdIn) (hf : k.fenced = true) :
    u.effectCycle k c = if u.edgesRun then u.applyCycle c else 0#32 := by
  unfold State.effectCycle State.applyCycle
  cases u.edgesRun <;> simp [hf]

/-! ### Commands that change state, by kind (R153, R372, R374) -/

/-- One that is neither cycle-fenced, nor a post, nor answered before it acts: its own part runs behind its entry, and its reply goes out
unless it waits for a result. -/
theorem State.takeEffect_run (u : State) {k : CmdSpec} (c : CmdIn) (hf : k.fenced = false) (hp : k.post = false) (he : k.early = false) :
    u.takeEffect k c = (
      let j := u.journalCmd c u.cycle
      let y := k.run j c j.jnl.head u.cycle
      if y.2.wait then y.1.awaitResult j.jnl.head c u.cycle else y.1.answer c y.2.status true j.jnl.head u.cycle y.2) := by
  simp only [State.takeEffect, State.effectCycle_now u c hf, hf, hp, he, Bool.false_and, Bool.false_eq_true, if_false]

/-- One that is answered before it acts. -/
theorem State.takeEffect_early (u : State) {k : CmdSpec} (c : CmdIn) (hf : k.fenced = false) (hp : k.post = false) (he : k.early = true) :
    u.takeEffect k c = (
      let j := u.journalCmd c u.cycle
      (k.run (j.answer c 0 true j.jnl.head u.cycle {}) c j.jnl.head u.cycle).1) := by
  simp only [State.takeEffect, State.effectCycle_now u c hf, hf, hp, he, Bool.false_and, Bool.false_eq_true, if_false, if_true]

/-- A post to a mailbox: placed at once, and answered. -/
theorem State.takeEffect_post (u : State) {k : CmdSpec} (c : CmdIn) (hf : k.fenced = true) (hp : k.post = true) :
    u.takeEffect k c = (
      let a := if u.edgesRun then u.applyCycle c else 0#32
      let j := u.journalCmd c a
      (k.effect j c a).answer c 0 true j.jnl.head a {}) := by
  simp only [State.takeEffect, State.effectCycle_fenced u c hf, hf, hp, Bool.not_true, Bool.and_false, Bool.false_eq_true, if_false, if_true]

/-- A cycle-fenced command that answers with its result: while edges run it waits for its cycle, besides its result. -/
theorem State.takeEffect_later_edges (u : State) {k : CmdSpec} (c : CmdIn) (hf : k.fenced = true) (hp : k.post = false)
    (hl : k.later = true) (he : u.edgesRun = true) :
    u.takeEffect k c = (
      let a := u.applyCycle c
      let j := u.journalCmd c a
      let t : State := { j with host := { j.host with fenced := j.host.fenced ++ [⟨c, a, j.jnl.head⟩] } }
      t.awaitResult j.jnl.head c a) := by
  simp only [State.takeEffect, State.effectCycle_fenced u c hf, State.edgesRun_journalCmd, hf, hp, hl, he, Bool.not_false, Bool.and_self,
    if_true]

/-- While none run it takes effect at once. -/
theorem State.takeEffect_later_noEdges (u : State) {k : CmdSpec} (c : CmdIn) (hf : k.fenced = true) (hp : k.post = false)
    (hl : k.later = true) (he : u.edgesRun = false) :
    u.takeEffect k c = (
      let j := u.journalCmd c 0#32
      k.effect (j.awaitResult j.jnl.head c 0#32) c 0#32) := by
  simp only [State.takeEffect, State.effectCycle_fenced u c hf, State.edgesRun_journalCmd, hf, hp, hl, he, Bool.not_false, Bool.and_self,
    Bool.false_eq_true, if_false, if_true]

/-! ### The words of the statements from a row's specification -/

variable {i : CmdReq → Instr} {k : CmdSpec}

/-- A query whose own part leaves `run` and answers `out`, with status 0, asks as `Asks` says. -/
theorem asks_of_run {run : State → CmdIn → State} {cyc : State → Word} {out : State → CmdIn → CmdOut}
    (hi : ∀ r s, exec (i r) s = .next (s.command k r)) (hq : k.query = true) (hc : k.cyc = cyc)
    (hr : ∀ u c, k.run u c 0 u.cycle = (run u c, out u c)) (h0 : ∀ u c, (out u c).status = 0) : Asks i k run cyc out := by
  intro s r u c h
  rw [hi, State.command_query h hq, hr, h0, hc]

/-- A row that is neither a query, nor cycle-fenced, nor a post, nor answered before it acts. -/
structure CmdSpec.Direct (k : CmdSpec) : Prop where
  query : k.query = false
  fenced : k.fenced = false
  post : k.post = false
  early : k.early = false

/-- One whose own part is `f` and does not wait acts at once. -/
theorem acts_of_run {f : State → CmdIn → Nat → State × CmdOut} (hi : ∀ r s, exec (i r) s = .next (s.command k r)) (hk : k.Direct)
    (hr : ∀ j c n w, k.run j c n w = f j c n) (hw : ∀ j c n, (f j c n).2.wait = false) : Acts i k f := by
  intro s r u c h
  rw [hi, State.command_takeEffect h hk.query, State.takeEffect_run u c hk.fenced hk.post hk.early]
  simp only [hr, hw, Bool.false_eq_true, if_false]

/-- One whose own part begins `f` and waits answers with its result. -/
theorem awaits_of_run {f : State → CmdIn → Nat → State} (hi : ∀ r s, exec (i r) s = .next (s.command k r)) (hk : k.Direct)
    (hr : ∀ j c n w, k.run j c n w = (f j c n, { wait := true })) : Awaits i k f := by
  intro s r u c h
  rw [hi, State.command_takeEffect h hk.query, State.takeEffect_run u c hk.fenced hk.post hk.early]
  simp only [hr, State.awaitResult, if_true]

/-- A row that is a post whose effect is `f` posts as `Posts` says. -/
theorem posts_of_effect {f : State → CmdIn → Word → State} (hi : ∀ r s, exec (i r) s = .next (s.command k r)) (hq : k.query = false)
    (hf : k.fenced = true) (hp : k.post = true) (he : ∀ u c a, k.effect u c a = f u c a) : Posts i k f := by
  intro s r u c h
  rw [hi, State.command_takeEffect h hq, State.takeEffect_post u c hf hp]
  simp only [he]

end Sys2Proof.Machine
end

section
/-! PROOF. The commands of the work, axis, motion, host and mode groups (R163 to R165, R205, R236, R315, R372, R379, R494, R500 to R508). -/

namespace Sys2Proof.Machine

/-! ### Queries (R163, R205, R236) -/

/-- An answer of at most 12 bytes is the reply's data, a longer one its long data (R365). -/
theorem CmdOut.of_short {bs : List Byte} (h : bs.length ≤ 12) : CmdOut.of bs = { data := bs } := if_neg (by omega)
theorem CmdOut.of_long {bs : List Byte} (h : 12 < bs.length) : CmdOut.of bs = { long := bs } := if_pos h
theorem CmdOut.status_of (bs : List Byte) : (CmdOut.of bs).status = 0 := by
  unfold CmdOut.of; split <;> rfl

theorem wordBytes_length (w : Word) : (wordBytes w).length = 4 := rfl
theorem leBytes_length (k n : Nat) : (leBytes k n).length = k := by simp [leBytes]

/-- Settles O27: each query's own part is its answer, from what the last fence left; a word fits the reply, the two positions do not. -/
theorem axisQueriesAnswer : Obligations.AxisQueriesAnswer := by
  unfold Obligations.AxisQueriesAnswer
  have word (w : Word) : CmdOut.of (wordBytes w) = { data := wordBytes w } := CmdOut.of_short (by rw [wordBytes_length]; decide)
  have pair (a b : Nat) : CmdOut.of (leBytes 8 a ++ leBytes 8 b) = { long := leBytes 8 a ++ leBytes 8 b } :=
    CmdOut.of_long (by rw [List.length_append, leBytes_length, leBytes_length]; decide)
  refine ⟨?paramGet, ?statusGet, ?motionParamGet, ?motionStatusGet, ?posGet, ?complRead⟩
  case paramGet => exact asks_of_run (fun _ _ => rfl) rfl rfl (fun u c => Prod.ext rfl (word _)) fun _ _ => rfl
  case statusGet => exact asks_of_run (fun _ _ => rfl) rfl rfl (fun _ _ => rfl) fun _ _ => CmdOut.status_of _
  case motionParamGet => exact asks_of_run (fun _ _ => rfl) rfl rfl (fun u c => Prod.ext rfl (word _)) fun _ _ => rfl
  case motionStatusGet => exact asks_of_run (fun _ _ => rfl) rfl rfl (fun _ _ => rfl) fun _ _ => CmdOut.status_of _
  case posGet => exact asks_of_run (fun _ _ => rfl) rfl rfl (fun u c => Prod.ext rfl (pair _ _)) fun _ _ => rfl
  case complRead => exact asks_of_run (fun _ _ => rfl) rfl rfl (fun _ _ => rfl) fun _ _ => rfl

/-! ### Commands that act at once (R163, R338, R355, R379, R453, R456, R459, R500) -/

/-- Acknowledging a record is setting its mark where its number is not beyond the one named (R453). -/
theorem FoxRec.ack_eq (x : FoxRec) (n : Nat) :
    (if x.no ≤ n then { x with ack := true } else x) = { x with ack := x.ack || decide (x.no ≤ n) } := by
  by_cases h : x.no ≤ n <;> simp [h]

theorem timeSet_acts : Acts .timeSet specTimeSet (fun u c _ => (u.setTime (c.p64 0) (c.p32 8), {})) :=
  acts_of_run (fun _ _ => rfl) ⟨rfl, rfl, rfl, rfl⟩ (fun _ _ _ _ => rfl) fun _ _ _ => rfl

theorem bypassSet_acts : Acts .bypassSet specBypassSet (fun u c _ =>
    ({ u with bypassSet := u.bypassSet.filter (fun k => k != c.p8 0) ++ (if c.p8 1 = 1 then [c.p8 0] else []) }, {})) := by
  refine acts_of_run (fun _ _ => rfl) ⟨rfl, rfl, rfl, rfl⟩ (fun u c _ _ => ?_) fun _ _ _ => rfl
  by_cases h : c.p8 1 = 1 <;> simp [specBypassSet, h]

theorem safeStop_acts : Acts .safeStop specSafeStop (fun u _ _ => (u.raise 0xF0 3 0 0, {})) :=
  acts_of_run (fun _ _ => rfl) ⟨rfl, rfl, rfl, rfl⟩ (fun _ _ _ _ => rfl) fun _ _ _ => rfl

theorem faultAck_acts : Acts .faultAck specFaultAck (fun u c _ =>
    let ack := fun (x : FoxRec) => { x with ack := x.ack || decide (x.no ≤ c.p32 0) }
    let t : State := { u with fox := { u.fox with queue := u.fox.queue.map ack, retained := u.fox.retained.map ack } }
    (if (t.reg 0x580030).toNat < c.p32 0 then t.setReg 0x580030 (c.pw 0) else t, {})) := by
  refine acts_of_run (fun _ _ => rfl) ⟨rfl, rfl, rfl, rfl⟩ (fun u c _ _ => ?_) fun _ _ _ => rfl
  simp only [specFaultAck, FoxRec.ack_eq]

theorem modeSet_acts : Acts .modeSet specModeSet (fun u c _ =>
    (({ u with power := { u.power with entering := false } } : State).modeSet (c.p8 0), {})) :=
  acts_of_run (fun _ _ => rfl) ⟨rfl, rfl, rfl, rfl⟩ (fun _ _ _ _ => rfl) fun _ _ _ => rfl

theorem rearm_acts : Acts .rearm specRearm (fun u _ _ =>
    (({ u with fox := { u.fox with latch := false }, power := { u.power with rearmed := true } } : State).setMode .armed .command, {})) :=
  acts_of_run (fun _ _ => rfl) ⟨rfl, rfl, rfl, rfl⟩ (fun _ _ _ _ => rfl) fun _ _ _ => rfl

theorem workSubmit_acts : Acts .workSubmit specWorkSubmit (fun u c _ =>
    let d := slice c.param 4 32
    let w := itemOf (c.p8 0) d (u.time.s.toNat * 1000000000 + u.time.ns.toNat + numAt d 12 8)
    (if numAt d 12 8 = 0 then (u.layWork (c.p8 0) d).enqueue w else ((u.layWork (c.p8 0) d).delayInsert w).1, {})) :=
  acts_of_run (fun _ _ => rfl) ⟨rfl, rfl, rfl, rfl⟩ (fun _ _ _ _ => rfl) fun _ _ _ => rfl

theorem workCancel_acts : Acts .workCancel specWorkCancel (fun u c _ =>
    let t := u.cancel (c.p8 0) (c.p16 2)
    (t, { data := [BitVec.ofNat 8 (t.chan (c.p8 0)).lastCancel] })) :=
  acts_of_run (fun _ _ => rfl) ⟨rfl, rfl, rfl, rfl⟩ (fun _ _ _ _ => rfl) fun _ _ _ => rfl

/-- Settles O29: each row is direct, and its own part is the effect and the reply named. -/
theorem commandsActAtOnce : Obligations.CommandsActAtOnce := by
  unfold Obligations.CommandsActAtOnce
  exact ⟨timeSet_acts, bypassSet_acts, safeStop_acts, faultAck_acts, modeSet_acts, rearm_acts, workSubmit_acts, workCancel_acts⟩

/-! ### Posts (R152, R153, R164) -/

/-- Settles O32: each row is a post, to the mailbox named or to the one of the axis, and one without that mailbox posts nothing. -/
theorem postsReachMailboxes : Obligations.PostsReachMailboxes := by
  unfold Obligations.PostsReachMailboxes
  refine ⟨?mailboxPost, ?axisModeSet, ?axisCurRef, ?motionTarget⟩
  case mailboxPost => exact posts_of_effect (fun _ _ => rfl) rfl rfl rfl fun _ _ _ => rfl
  case axisModeSet =>
    refine posts_of_effect (fun _ _ => rfl) rfl rfl rfl fun u c a => ?_
    simp only [specAxisModeSet]
    cases u.axisCfg c.axis <;> rfl
  case axisCurRef =>
    refine posts_of_effect (fun _ _ => rfl) rfl rfl rfl fun u c a => ?_
    simp only [specAxisCurRef]
    cases (u.axisCfg c.axis).bind AxisCfg.curMb <;> rfl
  case motionTarget =>
    refine posts_of_effect (fun _ _ => rfl) rfl rfl rfl fun u c a => ?_
    simp only [specMotionTarget]
    cases (u.axisCfg c.axis).bind AxisCfg.tgtMb <;> rfl

/-! ### Commands that answer with their result (R165, R315, R372, R494, R502, R503, R505) -/

theorem cycLater_self (a : Word) : cycLater a a = false := by
  rw [cycLater_eq_false_iff, BitVec.sub_self]; decide

/-- The waiting commands at the edge of the cycle of the only one: it is taken out, and its effect happens. -/
theorem State.fencedEffects_single (s : State) (k : CmdSpec) (c : CmdIn) (a : Word) (n : Nat) (hk : specOf c = some k) :
    ({ s with host := { s.host with fenced := [⟨c, a, n⟩] } } : State).fencedEffects a
      = k.effect { s with host := { s.host with fenced := [] } } c a := by
  simp only [State.fencedEffects, List.filter_cons, List.filter_nil, cycLater_self, Bool.not_false, Bool.false_eq_true, if_true, if_false,
    List.foldl_cons, List.foldl_nil, hk]

theorem specOf_snapshot {c : CmdIn} (h : c.opcode = 0x0D14) : specOf c = some specSnapshot := by
  rw [specOf, h]; rfl

theorem snapshot_edges (s : State) (r : CmdReq) (u : State) (c : CmdIn) (h : s.accepts specSnapshot r u c) (he : u.edgesRun = true) :
    exec (.snapshot r) s = .next (
      let a := u.applyCycle c
      let j := u.journalCmd c a
      { j with host := { j.host with fenced := j.host.fenced ++ [⟨c, a, j.jnl.head⟩]
                                     results := j.host.results ++ [(j.jnl.head, { c with cyc := a })] } }) := by
  change execSnapshot r s = _
  rw [execSnapshot, State.command_takeEffect h rfl, State.takeEffect_later_edges u c rfl rfl rfl he]
  rfl

theorem snapshot_noEdges (s : State) (r : CmdReq) (u : State) (c : CmdIn) (h : s.accepts specSnapshot r u c) (he : u.edgesRun = false) :
    exec (.snapshot r) s = .next (
      let j := u.journalCmd c 0#32
      let t : State := { j with host := { j.host with results := j.host.results ++ [(j.jnl.head, { c with cyc := 0#32 })] } }
      { t with mad := { t.mad with snap := some { seq := ((t.resultOf 0x0D14).map Prod.fst).getD 0, cycle := 0#32, addr := c.p64 0 } } }) := by
  change execSnapshot r s = _
  rw [execSnapshot, State.command_takeEffect h rfl, State.takeEffect_later_noEdges u c rfl rfl rfl he]
  rfl

theorem snapshot_effect (s : State) (c : CmdIn) (a : Word) (n : Nat) (h : c.opcode = 0x0D14) :
    ({ s with host := { s.host with fenced := [⟨c, a, n⟩] } } : State).fencedEffects a
      = { s with host := { s.host with fenced := [] }
                 mad := { s.mad with snap := some { seq := ((s.resultOf 0x0D14).map Prod.fst).getD 0, cycle := a, addr := c.p64 0 } } } := by
  rw [State.fencedEffects_single s specSnapshot c a n (specOf_snapshot h)]
  rfl

theorem snapshotComplete_taken (s : State) (ok : Bool) (x : SnapSt) (z : Nat × CmdIn) (bs : List Byte) (hx : s.mad.snap = some x)
    (hb : x.bytes = some bs) (hz : s.resultOf 0x0D14 = some z) :
    exec (.snapshotComplete ok) s = .next (
      let t : State := { s with mad := { s.mad with snap := none } }
      if ok then (t.emit (.hostWrite x.addr bs)).finish z 0 {} else t.finish z 9 {}) := by
  change execSnapshotComplete ok s = _
  simp only [execSnapshotComplete, hx, hz, hb, State.setSnap]

/-- LEVEL_RESET is answered, then acts, but not while a power loss is handled (R507, R508). -/
theorem levelReset_answered (s : State) (r : CmdReq) (u : State) (c : CmdIn) (h : s.accepts specLevelReset r u c) :
    exec (.levelReset r) s = .next (
      let j := u.journalCmd c u.cycle
      let t := j.answer c 0 true j.jnl.head u.cycle {}
      if t.power.handling then t else if c.p8 0 = 3 then t.toReset 3 false else t.unitReset (c.p8 0) (c.p8 1)) := by
  change execLevelReset r s = _
  rw [execLevelReset, State.command_takeEffect h rfl, State.takeEffect_early u c rfl rfl rfl]
  rfl

/-- Settles O33: a row that awaits its result begins what is named; SNAPSHOT waits for its cycle besides, and LEVEL_RESET is answered
first. -/
theorem commandsAwaitResults : Obligations.CommandsAwaitResults := by
  unfold Obligations.CommandsAwaitResults
  refine ⟨?adcCalPoint, ?memCheck, ?cfgLoad, ?cfgStore, ?paramSave, snapshot_edges, snapshot_noEdges, snapshot_effect,
    snapshotComplete_taken, levelReset_answered⟩
  all_goals exact awaits_of_run (fun _ _ => rfl) ⟨rfl, rfl, rfl, rfl⟩ fun _ _ _ _ => rfl

end Sys2Proof.Machine
end

section
/-! PROOF. Register writes that are rows of Madder, the rings, the converters, the time unit and the backbone (R149, R159, R268, R287, R312,
R331, R345, R349, R352). -/

namespace Sys2Proof.Machine

theorem State.replayCtrl_other (s : State) (d : Word) (h : s.mode ≠ .commission) : s.replayCtrl d = s := if_pos h

/-- R268: a port disabled rests, unless it is OFF already. -/
theorem State.xwCtrl_eq (s : State) (r : Nat) (d : Word) : s.xwCtrl r d =
    let t := s.storeReg (ringBase r) d
    if t.xw r ≠ .off ∧ t.bit Reg.xwCtrlEnable (ringBase r) = false then t.portRest r else t := by
  simp only [State.xwCtrl, Bool.and_eq_true, decide_eq_true_eq, Bool.not_eq_true']

/-- R345: with the bit written as 1 the oldest stamp is freed. -/
theorem State.popStamp_eq (s : State) (p : Nat) (d : Word) : s.popStamp p d =
    if d.getLsbD 0 = true then (s.setBbSt p { s.bbSt p with tsq := (s.bbSt p).tsq.drop 1 }).showTsq p else s := by
  unfold State.popStamp dataBit
  cases d.getLsbD 0 <;> rfl

theorem State.txWaits_iff (s : State) (p : Nat) : s.txWaits p = true ↔
    s.fld Reg.bbTxHead (bbBase p) ≠ s.fld Reg.bbTxTail (bbBase p) ∧ 0 < s.fld Reg.bbTxLen (bbBase p) := by
  simp only [State.txWaits, decide_eq_true_eq, and_comm]

/-- R347: a tail written to an empty ring brings the next descriptor to the head. -/
theorem State.txTail_eq (s : State) (p : Nat) (w : RegWrite) : s.txTail p w =
    let t := s.storeReg w.off w.data
    if s.fld Reg.bbTxHead (bbBase p) ≠ s.fld Reg.bbTxTail (bbBase p) ∧ 0 < s.fld Reg.bbTxLen (bbBase p) then t
    else t.setBbSt p { t.bbSt p with headAt := t.now16 } := by
  simp only [State.txTail, State.txWaits_iff]

/-- A row whose effect takes the register from the write acts on the one register that it is for. -/
theorem ownRow_at {i : RegWrite → Instr} {off : Nat} {f : State → Nat → Word → State}
    (h : ∀ s w, exec (i w) s = .next (s.ownWrite w (w.off == off) (fun s => f s w.off w.data))) :
    OwnRow i (fun _ w => w.off == off) (fun s w => f s off w.data) :=
  ownRow_of_ownWrite fun s w ho => by rw [h, ho, beq_iff_eq.1 ho]

/-- R335: the holdover timer counts from the write. -/
theorem timeHoldWrite_row : OwnRow .timeHoldWrite (fun _ w => w.off == 0x400034) (fun s w =>
    let t := s.storeReg 0x400034 w.data
    { t with time := { t.time with hold := t.time.ran } }) :=
  ownRow_of_ownWrite fun s w ho => by
    have hoff : w.off = 0x400034 := beq_iff_eq.1 ho
    change execTimeHoldWrite w s = _
    simp only [execTimeHoldWrite, hoff, beq_self_eq_true]

/-- Settles O44: each row is an own write of its register, with the effect named. -/
theorem unitRegisterWrites : Obligations.UnitRegisterWrites := by
  unfold Obligations.UnitRegisterWrites
  refine ⟨?prio, ?cancel, ?start, ?step, ?abort, State.replayCtrl_other, ?xwCtrl, ?arspPop, ?adcUrg, ?incTgt, ?slew, ?hold, ?clkOut,
    ?bypass, ?txTail, ?rxTail, ?tsqPop⟩
  case xwCtrl => exact OwnRow.congr (ownRow_of_exec fun _ _ => rfl) fun s w => s.xwCtrl_eq _ _
  case txTail => exact OwnRow.congr (ownRow_of_exec fun _ _ => rfl) fun s w => s.txTail_eq _ w
  case tsqPop => exact OwnRow.congr (ownRow_of_exec fun _ _ => rfl) fun s w => s.popStamp_eq _ _
  case slew => exact ownRow_at (f := State.storeReg) fun _ _ => rfl
  case bypass => exact ownRow_at (f := State.storeReg) fun _ _ => rfl
  case hold => exact timeHoldWrite_row
  all_goals exact ownRow_of_exec fun _ _ => rfl

end Sys2Proof.Machine
end

section
/-! PROOF. The cycle-fenced commands of the axes, the rings, the local drives, the modes, the twin and Indigo (R205, R225, R229, R276, R281,
R287, R328, R374, R442, R475 to R478, R499). -/

namespace Sys2Proof.Machine

/-! ### Commands that wait for their cycle (R374, R376) -/

/-- A row that waits for its cycle and is answered before it, and that the table of commands lists under its opcode. JOURNAL_READ alone
stands outside that table. -/
structure CmdSpec.Waits (k : CmdSpec) : Prop where
  query : k.query = false
  fenced : k.fenced = true
  post : k.post = false
  later : k.later = false
  notRead : k.opcode ≠ 0x0700
  listed : (specsA ++ specsB ++ specsC).find? (fun x => x.opcode == k.opcode) = some k

theorem CmdSpec.Waits.specOf_eq {k : CmdSpec} (hk : k.Waits) {c : CmdIn} (h : c.opcode = k.opcode) : specOf c = some k := by
  rw [specOf, h, if_neg hk.notRead, hk.listed]

/-- While edges run it is put among the waiting ones and answered. -/
theorem State.takeEffect_waits_edges (u : State) {k : CmdSpec} (c : CmdIn) (hk : k.Waits) (he : u.edgesRun = true) :
    u.takeEffect k c = (
      let a := u.applyCycle c
      let j := u.journalCmd c a
      ({ j with host := { j.host with fenced := j.host.fenced ++ [⟨c, a, j.jnl.head⟩] } } : State).answer c 0 true j.jnl.head a {}) := by
  simp only [State.takeEffect, State.effectCycle_fenced u c hk.fenced, State.edgesRun_journalCmd, hk.fenced, hk.post, hk.later, he,
    Bool.not_false, Bool.and_self, Bool.false_eq_true, if_true, if_false]

/-- While none run it takes effect at once, and is answered after. -/
theorem State.takeEffect_waits_noEdges (u : State) {k : CmdSpec} (c : CmdIn) (hk : k.Waits) (he : u.edgesRun = false) :
    u.takeEffect k c = (
      let j := u.journalCmd c 0#32
      (k.effect j c 0#32).answer c 0 true j.jnl.head 0#32 {}) := by
  simp only [State.takeEffect, State.effectCycle_fenced u c hk.fenced, State.edgesRun_journalCmd, hk.fenced, hk.post, hk.later, he,
    Bool.not_false, Bool.and_self, Bool.false_eq_true, if_true, if_false]

/-- A row that waits, with the effect `f`, fences as `Fences` says. -/
theorem fences_of_effect {i : CmdReq → Instr} {k : CmdSpec} {f : State → CmdIn → Word → State}
    (hi : ∀ r s, exec (i r) s = .next (s.command k r)) (hk : k.Waits) (he : ∀ u c a, k.effect u c a = f u c a) : Fences i k f := by
  refine ⟨fun s r u c h hr => ?edges, fun s r u c h hr => ?noEdges, fun s c a n hc => ?effect⟩
  case edges => rw [hi, State.command_takeEffect h hk.query, State.takeEffect_waits_edges u c hk hr]
  case noEdges => simp only [hi, State.command_takeEffect h hk.query, State.takeEffect_waits_noEdges u c hk hr, he]
  case effect => rw [State.fencedEffects_single s k c a n (hk.specOf_eq hc), he]

/-! ### The effects whose statement differs from the model's text -/

/-- R281: the slots of the node named are released, every other keeps its grant. -/
theorem ringSlotRelease_effect (u : State) (c : CmdIn) (a : Word) : specRingSlotRelease.effect u c a = (
    let y := u.ringSt (c.p8 0 % 8)
    u.setRing (c.p8 0 % 8) { y with slots := y.slots.map (fun d => { d with granted := d.granted && d.node != c.p8 1 }) }) := by
  have slot (d : SlotDesc) : (if d.node = c.p8 1 then { d with granted := false } else d)
      = { d with granted := d.granted && d.node != c.p8 1 } := by
    by_cases h : d.node = c.p8 1
    · rw [if_pos h, bne_eq_false_iff_eq.2 h, Bool.and_false]
    · rw [if_neg h, bne_iff_ne.2 h, Bool.and_true]
  simp only [specRingSlotRelease, CmdIn.ring, slot]

/-- R498, R499: RUN_CTRL, by its byte. -/
theorem runCtrl_effect (u : State) (c : CmdIn) (a : Word) : specRunCtrl.effect u c a =
    if c.p8 0 = 1 then (if u.mode = .armed then ({ u with lsp := { u.lsp with tookOver := false } } : State).setMode .run .command
      else u.ownEntry 0x00F1 [u.mode.code, u.mode.code, 0])
    else if (u.mode = .run ∨ u.mode = .degraded) ∧ u.axesIn [.off, .safe] = true then
      ({ u with power := { u.power with rearmed := false } } : State).setMode .armed .command
    else u.ownEntry 0x00F1 [u.mode.code, u.mode.code, 0] := by
  simp only [specRunCtrl, State.runCtrl, State.setLsp, State.setPower, beq_iff_eq, Bool.and_eq_true, Bool.or_eq_true, decide_eq_true_eq]

/-- R477: the pin and the sequencer follow the byte of IND_ARM. -/
theorem indArm_effect (u : State) (c : CmdIn) (a : Word) : specIndArm.effect u c a = (
    let t := (u.trigArm (c.p8 0 == 1)).emit (.pin "TRIG_ARM" (c.p8 0 == 1))
    if c.p8 0 = 1 then t.seqArm a else t) := by
  simp only [specIndArm, beq_iff_eq]

/-- Settles O31: each row waits for its cycle, and its effect is the one named. -/
theorem commandsFence : Obligations.CommandsFence := by
  unfold Obligations.CommandsFence
  refine ⟨?axisParamSet, ?axisReset, ?motionParamSet, ?rcCtrl, ?microstepTableSet, ?ringClaimSet, ?ringSlotRelease, ?lgFaultClear,
    ?fbPosSet, ?runCtrl, ?twinSwitch, ?indStart, ?indStop, ?indArm, ?indMark⟩
  case ringSlotRelease => exact fences_of_effect (fun _ _ => rfl) ⟨rfl, rfl, rfl, rfl, by decide, rfl⟩ ringSlotRelease_effect
  case runCtrl => exact fences_of_effect (fun _ _ => rfl) ⟨rfl, rfl, rfl, rfl, by decide, rfl⟩ runCtrl_effect
  case indArm => exact fences_of_effect (fun _ _ => rfl) ⟨rfl, rfl, rfl, rfl, by decide, rfl⟩ indArm_effect
  all_goals exact fences_of_effect (fun _ _ => rfl) ⟨rfl, rfl, rfl, rfl, by decide, rfl⟩ fun _ _ _ => rfl

end Sys2Proof.Machine
end

section
/-! PROOF. The modes of an axis: the requests it takes, the events of a cycle, and what a step of K_INNER makes of both (R171 to R176, R184,
R407, R536). -/

namespace Sys2Proof.Machine

/-! ### Requests (R171, R172, R175) -/

section
variable (x : AxisSt)

theorem AxisSt.allowed_of_fault (m : AxMode) (hold ok : Bool) (hf : x.faults ≠ 0#7) (hm : m ≠ x.mode) (ho : m ≠ .off) :
    x.allowed m hold ok = false := by
  simp only [AxisSt.allowed, hm, hf, ho, ne_eq, not_false_eq_true, decide_true, Bool.and_self, if_true, if_false]

/-- R172, R176: a request leads nowhere from SAFE. -/
theorem AxisSt.allowed_safe_iff (m : AxMode) (hold ok : Bool) (h : x.mode = .safe) : x.allowed m hold ok = true ↔ m = .safe := by
  unfold AxisSt.allowed
  rw [h]
  by_cases hm : m = .safe <;> simp [hm]

theorem AxisSt.allowed_step_iff (m : AxMode) (hold ok : Bool) (h : x.mode = .step) :
    x.allowed m hold ok = true ↔ m = .off ∨ m = .step := by
  unfold AxisSt.allowed
  rw [h]
  cases m <;> simp

/-- R172, R184: from OFF, SIX_STEP wants a source that observes the back-EMF, and with injection besides an L_q above L_d. -/
theorem AxisSt.allowed_sixStep_iff (hold ok : Bool) (hf : x.faults = 0#7) (h : x.mode = .off) (hs : x.stepper = false) :
    x.allowed .sixStep hold ok = true ↔ x.src = 1 ∨ (x.src = 3 ∧ Fp.gt (x.pw 11) (x.pw 10) = true) := by
  simp [AxisSt.allowed, hf, h, hs]

/-- R172, R184, R536: from OFF, a field-oriented mode wants a valid position where the source is one, and an L_q above L_d where it
injects. -/
theorem AxisSt.allowed_foc_iff (m : AxMode) (hold ok : Bool) (hf : x.faults = 0#7) (h : x.mode = .off) (hs : x.stepper = false)
    (hm : m = .current ∨ m = .velocity ∨ m = .position) :
    x.allowed m hold ok = true ↔ (x.src = 0 ∧ x.posValid hold ok = true)
      ∨ (x.src = 2 ∧ x.posValid hold ok = true ∧ Fp.gt (x.pw 11) (x.pw 10) = true)
      ∨ (x.src = 3 ∧ Fp.gt (x.pw 11) (x.pw 10) = true) := by
  have hsrc : x.allowed m hold ok = (match x.src with
      | 0 => x.posValid hold ok
      | 2 => x.posValid hold ok && Fp.gt (x.pw 11) (x.pw 10)
      | 3 => Fp.gt (x.pw 11) (x.pw 10)
      | _ => false) := by
    unfold AxisSt.allowed
    rw [h, hf, hs]
    obtain rfl | rfl | rfl := hm <;> rfl
  rw [hsrc]
  split <;> simp_all

end

/-! ### What the stages of a step leave of mode and parameters (R177 to R198) -/

/-- Two axes in the same mode with the same parameter block. -/
structure SameAxis (x y : AxisSt) : Prop where
  mode : y.mode = x.mode
  params : y.params = x.params

section
variable {x y z : AxisSt}

theorem SameAxis.refl (x : AxisSt) : SameAxis x x := ⟨rfl, rfl⟩
theorem SameAxis.trans (h : SameAxis x y) (g : SameAxis y z) : SameAxis x z :=
  ⟨g.mode.trans h.mode, g.params.trans h.params⟩
theorem SameAxis.stepper (h : SameAxis x y) : y.stepper = x.stepper := by
  simp only [AxisSt.stepper, AxisSt.bridge, AxisSt.raw, h.params]
theorem SameAxis.of_ite {c : Prop} {_ : Decidable c} (h : SameAxis x y) (g : SameAxis x z) : SameAxis x (if c then y else z) := by
  split
  · exact h
  · exact g
theorem SameAxis.fst_of_ite {β : Type} {p q : AxisSt × β} {c : Prop} {_ : Decidable c} (h : SameAxis x p.1) (g : SameAxis x q.1) :
    SameAxis x (if c then p else q).1 := by
  split
  · exact h
  · exact g
end

section
variable (x : AxisSt) (t : Word)

theorem SameAxis.encoder (pos : Word) : SameAxis x (x.encoder t pos).1 := ⟨rfl, rfl⟩
theorem SameAxis.observe (ab : Pair) : SameAxis x (x.observe t ab) := .of_ite ⟨rfl, rfl⟩ ⟨rfl, rfl⟩
theorem SameAxis.hfi (n : Word) (ab : Pair) : SameAxis x (x.hfi n t ab) := .of_ite ⟨rfl, rfl⟩ ⟨rfl, rfl⟩
theorem SameAxis.budget : SameAxis x (x.budget t) := ⟨rfl, rfl⟩
theorem SameAxis.held : SameAxis x (x.held t).1 := ⟨rfl, rfl⟩
theorem SameAxis.refuse : SameAxis x x.refuse := ⟨rfl, rfl⟩
theorem SameAxis.ramp (ev : Nat) : SameAxis x (x.ramp t ev).1 := .fst_of_ite ⟨rfl, rfl⟩ ⟨rfl, rfl⟩
theorem SameAxis.runSix (ev : Nat) : SameAxis x (x.runSix t ev) := ⟨rfl, rfl⟩
theorem SameAxis.attempt : SameAxis x (x.attempt t).1 :=
  .fst_of_ite ⟨rfl, rfl⟩ (.fst_of_ite ⟨rfl, rfl⟩ (.fst_of_ite ⟨rfl, rfl⟩ ⟨rfl, rfl⟩))
theorem SameAxis.sector : SameAxis x x.sector.1 := by
  unfold AxisSt.sector
  cases x.i.sec <;> exact ⟨rfl, rfl⟩
theorem SameAxis.lockedRotor (iqRef : Word) (ev : Bool) (six free : Nat) : SameAxis x (x.lockedRotor iqRef ev six free).1 :=
  ⟨rfl, rfl⟩
theorem SameAxis.chop (m : AxMode) : SameAxis x (x.chop m).1 := .fst_of_ite ⟨rfl, rfl⟩ ⟨rfl, rfl⟩

/-- R181 to R185: every angle source writes the angle and the speeds alone. -/
theorem SameAxis.angleSource (n : Word) (r : Sample) (ab : Pair) : SameAxis x (x.angleSource n t r ab).1 := by
  have source : SameAxis x (if x.src = 1 || x.src = 3 then (x.encoder t r.pos).1.observe t ab else (x.encoder t r.pos).1) :=
    .of_ite ((SameAxis.encoder x t r.pos).trans (.observe _ t ab)) (.encoder x t r.pos)
  unfold AxisSt.angleSource
  dsimp only
  generalize (if x.src = 1 || x.src = 3 then (x.encoder t r.pos).1.observe t ab else (x.encoder t r.pos).1) = y at source ⊢
  have blended (th w : Word) : SameAxis y
      (if Fp.ge y.weight Fp.one then { y with trk := { y.trk with hth := th, hw := w } } else y.hfi n t ab) :=
    .of_ite ⟨rfl, rfl⟩ (.hfi y t n ab)
  split
  · exact source.trans ⟨rfl, rfl⟩
  · exact source.trans ⟨rfl, rfl⟩
  · exact source.trans ⟨(blended _ _).mode, (blended _ _).params⟩

theorem SameAxis.measure (n : Word) (ws : List Word) : SameAxis x (x.measure n t ws).1 := by
  refine .fst_of_ite ⟨rfl, rfl⟩ ?_
  refine SameAxis.trans ?_ ((SameAxis.angleSource _ t n _ _).trans ⟨rfl, rfl⟩)
  exact ⟨rfl, rfl⟩

theorem AxisSt.mode_enter (m : AxMode) (n : Word) (f : AxMode) (neg : Bool) : (x.enter m n f neg).mode = m := by
  unfold AxisSt.enter
  split
  · exact Eq.symm ‹_›
  · rfl

theorem SameAxis.drop (k : Nat) : SameAxis x ((List.range k).foldl (fun x _ => x.refuse) x) := by
  induction k with
  | zero => exact .refl x
  | succ k ih => rw [List.range_succ, List.foldl_append]; exact ih.trans (.refuse _)

/-! ### The events of a cycle and the step around them (R172, R175, R176, R407) -/

/-- R172, R175, R176, R197, R407: the events of a cycle leave mode and parameters as they are, and name the mode that follows: SAFE where the
axis is kept safe, the reaction to a new fault, DECEL for a stop, the present mode, an automatic transition's, or that of an allowed
request. -/
theorem AxisSt.events_cases (c : InIn) (hold new : Bool) (auto : Option AxMode) (pol : Bool) :
    SameAxis x (x.events c hold new auto pol).x
    ∧ ((x.events c hold new auto pol).target = .safe
      ∨ ((x.events c hold new auto pol).target = .off ∧ x.mode ≠ .safe)
      ∨ ((x.events c hold new auto pol).target = .decel ∧ (x.mode = .current ∨ x.mode = .velocity ∨ x.mode = .position))
      ∨ (x.events c hold new auto pol).target = x.mode
      ∨ auto = some (x.events c hold new auto pol).target
      ∨ x.allowed (x.events c hold new auto pol).target hold c.fbOk = true) := by
  unfold AxisSt.events
  extract_lets _ _ reqs drop stop
  have dropped (k : Nat) : SameAxis x (drop x k) := .drop x k
  clear_value reqs drop
  by_cases hf : (c.latch || !c.energise) = true
  · rw [if_pos hf]
    exact ⟨dropped _, .inl rfl⟩
  rw [if_neg hf]
  by_cases hn : new = true
  · rw [if_pos hn]
    refine ⟨dropped _, ?_⟩
    by_cases hs : (x.faultSafe || decide (x.mode = .safe)) = true
    · exact .inl (if_pos hs)
    · exact .inr (.inl ⟨if_neg hs, fun h => hs (by simp [h])⟩)
  rw [if_neg hn]
  by_cases hd : stop = true
  · rw [if_pos hd]
    exact ⟨dropped _, .inr (.inr (.inl ⟨rfl, by simpa [stop, or_assoc] using (Bool.and_eq_true_iff.1 hd).2⟩))⟩
  rw [if_neg hd]
  by_cases hp : pol = true
  · rw [if_pos hp]
    exact ⟨dropped _, .inr (.inr (.inr (.inl rfl)))⟩
  rw [if_neg hp]
  cases auto with
  | some m => exact ⟨dropped _, .inr (.inr (.inr (.inr (.inl rfl))))⟩
  | none =>
    cases reqs with
    | nil => exact ⟨.refl x, .inr (.inr (.inr (.inl rfl)))⟩
    | cons r rest =>
      dsimp only
      by_cases ha : x.allowed r.1 hold c.fbOk = true
      · rw [if_neg (by simp [ha])]
        by_cases h6 : (decide (x.mode = .sixStep) && r.1.foc) = true
        · rw [if_pos h6]
          exact ⟨(dropped _).trans ⟨rfl, rfl⟩, .inr (.inr (.inr (.inl (of_decide_eq_true (Bool.and_eq_true_iff.1 h6).1).symm)))⟩
        · rw [if_neg h6]
          exact ⟨dropped _, .inr (.inr (.inr (.inr (.inr ha))))⟩
      · rw [if_pos (by simpa using ha)]
        exact ⟨(dropped _).trans (.refuse _), .inr (.inr (.inr (.inl rfl)))⟩

/-- One step takes its mode from the events of its cycle, judged on an axis of the same mode and parameters; an automatic transition leads
from DECEL or SIX_STEP alone; and where the cycle's command is SAFE, the bridge's record says so. -/
theorem AxisSt.inner_events (c : InIn) : ∃ y hold new auto pol, SameAxis x y ∧ (auto ≠ none → x.mode = .decel ∨ x.mode = .sixStep)
    ∧ (x.inner c).x.mode = (y.events c hold new auto pol).target
    ∧ ((y.events c hold new auto pol).cmd = .safe → x.stepper = false → (x.inner c).sink = some ({ safe := true } : CmdRec).words) := by
  unfold AxisSt.inner
  extract_lets hold _ _ x0 _ m x1 _ ev _ six ph ra x2 at_ x3 sc x4 lr x5 slow _ x6 auto f new x7 pol v x8 ch x9 _ _ _ _ _ _ _ _ _ _ _ _
    _ _ _ o
  have s1 : SameAxis x x1 := SameAxis.trans (y := x0) ⟨rfl, rfl⟩ (.fst_of_ite (.held x0 c.t) (.measure x0 c.t _ _))
  have s2 : SameAxis x1 x2 := .of_ite (.runSix x1 c.t ev) (.fst_of_ite (.ramp x1 c.t ev) (.refl x1))
  have s3 : SameAxis x2 x3 := .fst_of_ite (.attempt x2 c.t) (.refl x2)
  have s4 : SameAxis x3 x4 := .of_ite (.refl x3) (.sector x3)
  have s6 : SameAxis x x6 := s1.trans (s2.trans (s3.trans (s4.trans ⟨rfl, rfl⟩)))
  have s7 : SameAxis x x7 := s6.trans ⟨rfl, rfl⟩
  refine ⟨x7, hold, _, auto, _, s7, ?auto, AxisSt.mode_enter _ _ _ _ _, ?sink⟩
  case auto =>
    intro h
    by_cases hd : x6.mode = .decel
    · exact .inl (s6.mode ▸ hd)
    by_cases hx : x1.mode = .sixStep
    · exact .inr (s1.mode ▸ hx)
    · exact absurd (by simp [auto, at_, six, hd, hx]) h
  case sink =>
    intro hc hs
    have hs9 : x9.stepper = false := (s7.trans ((x7.events_cases _ _ _ _ _).1.trans (.chop x8 v.cmd))).stepper.trans hs
    have hc : v.cmd = .safe := hc
    change o.2 = _
    simp only [o, hs9, hc, Bool.false_eq_true, if_false]

theorem AxisSt.events_safe_of_forced (c : InIn) (hold new : Bool) (auto : Option AxMode) (pol : Bool)
    (h : c.latch = true ∨ c.energise = false) :
    (x.events c hold new auto pol).target = .safe ∧ (x.events c hold new auto pol).cmd = .safe := by
  have hf : (c.latch || !c.energise) = true := by simpa using h
  simp only [AxisSt.events, hf, if_true, and_self]

theorem AxisSt.events_target_of_safe (c : InIn) (hold new pol : Bool) (h : x.mode = .safe) :
    (x.events c hold new none pol).target = .safe := by
  obtain ⟨-, ht | ⟨-, hm⟩ | ⟨-, hm⟩ | ht | ht | ht⟩ := x.events_cases c hold new none pol
  · exact ht
  · exact absurd h hm
  · simp [h] at hm
  · exact ht.trans h
  · cases ht
  · exact (x.allowed_safe_iff _ hold c.fbOk h).1 ht

/-! ### A step keeps SAFE, and AXIS_RESET ends it (R176) -/

theorem AxisSt.inner_forced (c : InIn) (h : c.latch = true ∨ c.energise = false) :
    (x.inner c).x.mode = .safe ∧ (x.stepper = false → (x.inner c).sink = some [0#32, 0#32, 0x400#32]) := by
  obtain ⟨y, hold, new, auto, pol, -, -, hm, hsink⟩ := x.inner_events c
  obtain ⟨ht, hc⟩ := y.events_safe_of_forced c hold new auto pol h
  exact ⟨hm.trans ht, hsink hc⟩

theorem AxisSt.inner_keeps_safe (c : InIn) (h : x.mode = .safe) : (x.inner c).x.mode = .safe := by
  obtain ⟨y, hold, new, auto, pol, hy, hauto, hm, -⟩ := x.inner_events c
  cases auto with
  | none => exact hm.trans (y.events_target_of_safe c hold new pol (hy.mode.trans h))
  | some m =>
    have hx : x.mode = .decel ∨ x.mode = .sixStep := hauto (Option.some_ne_none m)
    rw [h] at hx
    obtain hx | hx := hx <;> cases hx

end

/-- Settles O60: the requests by the axis's mode, the forced and the kept SAFE by the events of a step. -/
theorem axisModes : Obligations.AxisModes := by
  unfold Obligations.AxisModes
  refine ⟨AxisSt.allowed_of_fault, AxisSt.allowed_safe_iff, AxisSt.allowed_step_iff, ?fromOff, AxisSt.inner_forced, AxisSt.inner_keeps_safe,
    ?reset⟩
  case fromOff =>
    intro x hold ok hf h hs
    exact ⟨x.allowed_sixStep_iff hold ok hf h hs, fun m => x.allowed_foc_iff m hold ok hf h hs⟩
  case reset => exact fun x n => ⟨rfl, rfl, rfl, rfl, rfl⟩

end Sys2Proof.Machine
end

section
/-! PROOF. The queries of the rings, the local drives, the time unit, the engines, Woad, the twin and Indigo, and the commands of the rings,
Woad and the twin that act at once (R242, R243, R276, R282, R287, R328, R355, R406, R415, R416, R443, R478, R494, R496). -/

namespace Sys2Proof.Machine

/-! ### Queries (R287, R328, R355, R416, R443, R478, R494) -/

theorem bytesOfWords_length (ws : List Word) : (bytesOfWords ws).length = 4 * ws.length := by
  induction ws with
  | nil => rfl
  | cons w r ih =>
    rw [bytesOfWords] at ih
    rw [bytesOfWords, List.flatMap_cons, List.length_append, ih, wordBytes_length, List.length_cons]
    omega

/-- The answer of up to three words is the reply's data, that of more its long data (R365). -/
theorem CmdOut.of_fewWords {ws : List Word} (h : ws.length ≤ 3) : CmdOut.of (bytesOfWords ws) = { data := bytesOfWords ws } :=
  CmdOut.of_short (by rw [bytesOfWords_length]; omega)
theorem CmdOut.of_manyWords {ws : List Word} (h : 3 < ws.length) : CmdOut.of (bytesOfWords ws) = { long := bytesOfWords ws } :=
  CmdOut.of_long (by rw [bytesOfWords_length]; omega)

theorem slice_length (bs : List Byte) (at_ n : Nat) : (slice bs at_ n).length = n := by
  rw [slice, List.length_append, List.length_replicate, List.length_take]
  omega

/-- R443: the twin's answer is two words and the last heartbeat. -/
theorem twinStatus_long (ws : List Word) (hb : List Byte) :
    CmdOut.of (bytesOfWords ws ++ slice hb 0 16) = { long := bytesOfWords ws ++ slice hb 0 16 } :=
  CmdOut.of_long (by rw [List.length_append, slice_length]; omega)

/-- R416: the word of SAFETY_CRC_GET that tells whether the set is locked. -/
theorem ofNat_bitN (b : Bool) : BitVec.ofNat 32 (bitN b) = if b then 1#32 else 0#32 := by cases b <;> rfl

/-- Settles O28: each query's own part is its answer; three words fit the reply, longer ones do not. -/
theorem unitQueriesAnswer : Obligations.UnitQueriesAnswer := by
  unfold Obligations.UnitQueriesAnswer
  refine ⟨?ring, ?lg, ?time, ?dma, ?safety, ?crc, ?twin, ?ind⟩
  case ring => exact asks_of_run (fun _ _ => rfl) rfl rfl (fun _ _ => rfl) fun _ _ => rfl
  case lg =>
    refine asks_of_run (fun _ _ => rfl) rfl rfl (fun _ _ => Prod.ext rfl ?_) fun _ _ => rfl
    exact CmdOut.of_fewWords (ws := [_, _, _]) (Nat.le_refl 3)
  case time => exact asks_of_run (fun _ _ => rfl) rfl rfl (fun _ _ => rfl) fun _ _ => rfl
  case dma =>
    refine asks_of_run (fun _ _ => rfl) rfl rfl (fun _ _ => Prod.ext rfl ?_) fun _ _ => rfl
    exact CmdOut.of_manyWords (ws := _ :: (List.range 8).map _) (by simp)
  case safety =>
    refine asks_of_run (fun _ _ => rfl) rfl rfl (fun _ _ => Prod.ext rfl ?_) fun _ _ => rfl
    exact CmdOut.of_manyWords (ws := [_, _, _, _]) (Nat.lt_succ_self 3)
  case crc =>
    refine asks_of_run (fun _ _ => rfl) rfl rfl (fun u _ => Prod.ext rfl ?_) fun _ _ => rfl
    rw [← ofNat_bitN]
    exact CmdOut.of_fewWords (ws := [_, _, _]) (Nat.le_refl 3)
  case twin => exact asks_of_run (fun _ _ => rfl) rfl rfl (fun _ _ => Prod.ext rfl (twinStatus_long _ _)) fun _ _ => rfl
  case ind => exact asks_of_run (fun _ _ => rfl) rfl rfl (fun _ _ => rfl) fun _ _ => rfl

/-! ### Rings (R276, R282, R287) -/

theorem ringAsyncPost_acts : Acts .ringAsyncPost specRingAsyncPost (fun u c _ =>
    let y := u.ringSt (c.p8 0 % 8)
    let body := slice c.param 2 8 ++ slice c.param 10 (if c.p8 1 / 16 = 0 then 0 else c.p32 6)
    (u.setRing (c.p8 0 % 8) { y with asyncQ := y.asyncQ ++ [⟨c.p8 1 % 16, c.p8 1 / 16, 0, body⟩] }, {})) :=
  acts_of_run (fun _ _ => rfl) ⟨rfl, rfl, rfl, rfl⟩ (fun _ _ _ _ => rfl) fun _ _ _ => rfl

/-- R282: in the states that have nodes the reset goes out on both sides, in any other nothing does. -/
theorem ringResetBcast_acts : Acts .ringResetBcast specRingResetBcast (fun u c _ =>
    let r := c.p8 0 % 8
    (if u.xw r = .discover ∨ u.xw r = .intact ∨ u.xw r = .healed then
      (u.sendTopo r .east 3 0 (leBytes 8 (c.p8 1))).sendTopo r .west 3 0 (leBytes 8 (c.p8 1)) else u, {})) := by
  refine acts_of_run (fun _ _ => rfl) ⟨rfl, rfl, rfl, rfl⟩ (fun u c _ _ => ?_) fun _ _ _ => rfl
  simp only [specRingResetBcast, CmdIn.ring]
  cases u.xw (c.p8 0 % 8) <;> rfl

theorem ringReclose_acts : Acts .ringReclose specRingReclose (fun u c _ =>
    (u.setRing (c.p8 0 % 8) { u.ringSt (c.p8 0 % 8) with permit := true }, {})) :=
  acts_of_run (fun _ _ => rfl) ⟨rfl, rfl, rfl, rfl⟩ (fun _ _ _ _ => rfl) fun _ _ _ => rfl

/-! ### Woad (R406, R415, R416) -/

theorem crcDiffers_iff (s : State) (c : CmdIn) :
    crcDiffers s c = true ↔ s.woad.accepted = false ∨ c.pw 0 ≠ s.woadCrc.1 ∨ c.pw 0 ≠ s.woadCrc.2 := by
  simp only [crcDiffers, Bool.or_eq_true, Bool.not_eq_true', decide_eq_true_eq, or_assoc]

theorem safetyReset_acts : Acts .safetyReset specSafetyReset (fun u c _ =>
    ({ u with woad := { u.woad with resets := u.woad.resets ++ [c.p16 0] } }, {})) :=
  acts_of_run (fun _ _ => rfl) ⟨rfl, rfl, rfl, rfl⟩ (fun _ _ _ _ => rfl) fun _ _ _ => rfl

theorem safetyConfirm_acts : Acts .safetyConfirm specSafetyConfirm (fun u c n =>
    if u.woad.accepted = false ∨ c.pw 0 ≠ u.woadCrc.1 ∨ c.pw 0 ≠ u.woadCrc.2 then (u, { status := 0x0A })
    else (({ u with woad := { u.woad with locked := true }, flash := { u.flash with confirm := some (c.pw 0, n) } } : State).emit
      (.flash 0x00300000 (wordBytes (c.pw 0) ++ leBytes 8 n)), {})) := by
  refine acts_of_run (fun _ _ => rfl) ⟨rfl, rfl, rfl, rfl⟩ (fun u c _ _ => ?_) fun u c _ => ?_
  · simp only [specSafetyConfirm, crcDiffers_iff]
  · dsimp only; split <;> rfl

theorem safetyUnlock_acts : Acts .safetyUnlock specSafetyUnlock (fun u c _ =>
    if u.woad.accepted = false ∨ c.pw 0 ≠ u.woadCrc.1 ∨ c.pw 0 ≠ u.woadCrc.2 then (u, { status := 0x0A })
    else (({ u with woad := { u.woad with locked := false }, flash := { u.flash with confirm := none } } : State).emit
      (.flash 0x00300000 (List.replicate 12 0xFF#8)), {})) := by
  refine acts_of_run (fun _ _ => rfl) ⟨rfl, rfl, rfl, rfl⟩ (fun u c _ _ => ?_) fun u c _ => ?_
  · simp only [specSafetyUnlock, crcDiffers_iff]
  · dsimp only; split <;> rfl

/-! ### The twin (R443) -/

theorem twinSync_acts : Acts .twinSync specTwinSync (fun u _ _ => (u.startSync, {})) :=
  acts_of_run (fun _ _ => rfl) ⟨rfl, rfl, rfl, rfl⟩ (fun _ _ _ _ => rfl) fun _ _ _ => rfl

theorem twinInhibit_acts : Acts .twinInhibit specTwinInhibit (fun u c _ => (u.setFld Reg.lspCtrlInhibit (c.p8 0), {})) :=
  acts_of_run (fun _ _ => rfl) ⟨rfl, rfl, rfl, rfl⟩ (fun _ _ _ _ => rfl) fun _ _ _ => rfl

/-! ### Ring frames (R242, R243, R496) -/

theorem State.ringSend_fault (s : State) (r : Nat) (x : Side) (h : TxHead) (body : List Byte) (hm : s.mode = .fault) (ht : h.type ≠ 1) :
    s.ringSend r x h body = s := if_pos ⟨hm, ht⟩

/-- A frame of a ring whose behaviour is defined goes out as it is. -/
theorem State.ringSend_defined (s : State) (r : Nat) (x : Side) (h : TxHead) (body : List Byte) (hu : s.ringUndef r = false)
    (hm : s.mode ≠ .fault ∨ h.type = 1) : s.ringSend r x h body = s.sendFrame (.ring r (s.role r x) (frameOf r h body)) := by
  have hgo : ¬ (s.mode = .fault ∧ h.type ≠ 1) := by rintro ⟨h1, h2⟩; exact hm.elim (· h1) h2
  rw [State.ringSend, if_neg hgo, hu, if_neg Bool.false_ne_true]

theorem wholeBlocks_length (body : List Byte) : (wholeBlocks body).length = 8 * ((body.length + 7) / 8) := by
  rw [wholeBlocks, List.length_append, List.length_replicate]
  omega

/-- R242: a start block, the body's blocks and a terminate block. -/
theorem frameOf_length (r : Nat) (h : TxHead) (body : List Byte) : (frameOf r h body).length = frameBytes body.length := by
  have head (n : Nat) : (headBytes r h n).length = 7 := by
    simp only [headBytes, List.length_append, leBytes_length, List.length_cons, List.length_nil]
  simp only [frameOf, framed, frameBytes, List.length_append, List.length_cons, List.length_replicate, leBytes_length, head,
    wholeBlocks_length]
  omega

/-- Settles O30: each row is direct, and its own part is the effect and the reply named; a frame is sent as its header and body spell it. -/
theorem unitCommandsActAtOnce : Obligations.UnitCommandsActAtOnce := by
  unfold Obligations.UnitCommandsActAtOnce
  exact ⟨ringAsyncPost_acts, ringResetBcast_acts, ringReclose_acts, safetyReset_acts, safetyConfirm_acts, safetyUnlock_acts, twinSync_acts,
    twinInhibit_acts, fun s r x h body hu =>
      ⟨s.ringSend_fault r x h body, s.ringSend_defined r x h body hu, frameOf_length r h body⟩⟩

end Sys2Proof.Machine
end

section
/-! PROOF. What a ring port does with each frame received (R245, R247 to R255, R257, R260 to R268, R270, R272, R274, R279, R286, R426, R430,
R433). -/

namespace Sys2Proof.Machine

/-! ### What the rows share (R245, R268) -/

theorem State.onRing_awake {s : State} {r : Nat} (h : s.ringAwake r = true) (f : State → State) : s.onRing r f = f s := if_pos h

theorem State.ringForward_pass {s : State} {rs : RingSide} (h : s.xw rs.ring = .pass) (f : RingFrame) :
    s.ringForward rs f = s.sendFrame (.ringForward rs.ring (flipSide rs.side) f) := if_pos h
theorem State.ringForward_other {s : State} {rs : RingSide} (h : s.xw rs.ring ≠ .pass) (f : RingFrame) : s.ringForward rs f = s := if_neg h

/-- A frame that goes on changes nothing but what was sent. -/
theorem State.ringForward_rest (s : State) (rs : RingSide) (f : RingFrame) :
    s.ringForward rs f = { s with sent := (s.ringForward rs f).sent } := by
  unfold State.ringForward State.sendFrame
  split
  · split <;> rfl
  · rfl

@[simp] theorem State.xw_ringForward (s : State) (rs : RingSide) (f : RingFrame) (r : Nat) : (s.ringForward rs f).xw r = s.xw r := by
  rw [State.ringForward_rest]; rfl

/-- The test of a frame (R245), by its header: a bad check, a reserved type or another ring's number, a frame of this ring's own. -/
theorem State.ringTake_badCheck {h : RxHead} (hc : h.crcOk = false) (s : State) (r : Nat) (x : Side) (f : State → State) :
    s.ringTake r x h f = s.ringCrcErr r x := by
  rw [State.ringTake, hc]; rfl
theorem State.ringTake_foreign {h : RxHead} {r : Nat} (hf : h.crcOk = true ∧ (h.typeOk = false ∨ h.ringNo ≠ r)) (s : State) (x : Side)
    (f : State → State) : s.ringTake r x h f = s.ringForeign r := by
  have hno : (!h.typeOk || decide (h.ringNo ≠ r)) = true := by simpa using hf.2
  rw [State.ringTake, hf.1, hno]; rfl
theorem State.ringTake_own (s : State) (r : Nat) (x : Side) (f : State → State) : s.ringTake r x ⟨true, true, r⟩ f = f s := by
  simp [State.ringTake]

/-- A row receives a frame with the header `h`: the state in which `fwd` has sent it on, or has not, tests it. -/
def Receives (rs : RingSide) (i : Instr) (h : RxHead) (fwd : State → State) : Prop :=
  ∃ g : State → State → State, ∀ s, s.ringAwake rs.ring = true →
    exec i s = .next ((fwd s).ringTake rs.ring (s.role rs.ring rs.side) h (g s))

section

variable {rs : RingSide} {i : Instr} {h : RxHead} {fwd : State → State} {s : State}

theorem Receives.badCheck (hi : Receives rs i h fwd) (ha : s.ringAwake rs.ring = true) (hc : h.crcOk = false) :
    exec i s = .next ((fwd s).ringCrcErr rs.ring (s.role rs.ring rs.side)) := by
  obtain ⟨g, hg⟩ := hi
  rw [hg s ha, State.ringTake_badCheck hc]

theorem Receives.foreign (hi : Receives rs i h fwd) (ha : s.ringAwake rs.ring = true)
    (hf : h.crcOk = true ∧ (h.typeOk = false ∨ h.ringNo ≠ rs.ring)) : exec i s = .next ((fwd s).ringForeign rs.ring) := by
  obtain ⟨g, hg⟩ := hi
  rw [hg s ha, State.ringTake_foreign hf]

theorem ringCycleStart_receives (f : CsFrame) : Receives rs (.ringCycleStartReceive rs f) f.toRxHead (fun s => s.ringForward rs (.cs f)) :=
  ⟨_, fun _ ha => congrArg _ (State.onRing_awake ha _)⟩
theorem ringSampleSubframe_receives (f : SampleSub) :
    Receives rs (.ringSampleSubframeReceive rs f) f.toRxHead (fun s => s.ringForward rs (.sample f)) :=
  ⟨_, fun _ ha => congrArg _ (State.onRing_awake ha _)⟩
theorem ringAsync_receives (f : AsyncFrame) : Receives rs (.ringAsyncReceive rs f) f.toRxHead (fun s => s.ringForward rs (.async f)) :=
  ⟨_, fun _ ha => congrArg _ (State.onRing_awake ha _)⟩
theorem ringSafety_receives (f : SafetyFrame) : Receives rs (.ringSafetyReceive rs f) f.toRxHead (fun s => s.ringForward rs (.safety f)) :=
  ⟨_, fun _ ha => congrArg _ (State.onRing_awake ha _)⟩
theorem ringTopoLoop_receives (f : LoopFrame) : Receives rs (.ringTopoLoopReceive rs f) f.toRxHead (fun s => s.ringForward rs (.loop f)) :=
  ⟨_, fun _ ha => congrArg _ (State.onRing_awake ha _)⟩
theorem ringDiscover_receives (f : DiscoverFrame) :
    Receives rs (.ringDiscoverReturn rs f) f.toRxHead (fun s => s.ringForward rs (.discover f)) :=
  ⟨_, fun _ ha => congrArg _ (State.onRing_awake ha _)⟩
theorem ringClaim_receives (f : ClaimFrame) : Receives rs (.ringClaimReceive rs f) f.toRxHead (fun s => s.ringForward rs (.claim f)) :=
  ⟨_, fun _ ha => congrArg _ (State.onRing_awake ha _)⟩
theorem ringEcho_receives (f : EchoFrame) : Receives rs (.ringEchoReceive rs f) f.toRxHead
    (fun s => if s.echoIsMine rs f then s else s.ringForward rs (.echo f)) :=
  ⟨_, fun _ ha => congrArg _ (State.onRing_awake ha _)⟩

end

/-! ### CYCLE_STARTs (R246, R268, R272, R426, R438) -/

section

variable {s : State} {rs : RingSide}

theorem ringCycleStart_pass {f : CsFrame} (ha : s.ringAwake rs.ring = true) (hh : f.toRxHead = ⟨true, true, rs.ring⟩)
    (hx : s.xw rs.ring = .pass) : exec (.ringCycleStartReceive rs f) s = .next ((s.ringForward rs (.cs f)).csPass rs.ring f) := by
  change execRingCycleStartReceive rs f s = _
  simp only [execRingCycleStartReceive, State.onRing_awake ha, hh, State.ringTake_own, State.xw_ringForward, hx]

/-- A port that sends CYCLE_STARTs of its own takes one of its part; another's tells of a partner that is active, or of a foreign master. -/
theorem ringCycleStart_sender {f : CsFrame} (ha : s.ringAwake rs.ring = true) (hh : f.toRxHead = ⟨true, true, rs.ring⟩)
    (ho : s.xw rs.ring ≠ .off) (hb : s.xw rs.ring ≠ .bypass) (hp : s.xw rs.ring ≠ .pass) :
    exec (.ringCycleStartReceive rs f) s = .next (
      if f.activeId = s.activeId then s.csBack rs.ring (s.role rs.ring rs.side) f
      else if s.lsp.role = .unpaired then s.undefine (.ring rs.ring)
      else if s.lsp.tookOver = true then s
      else if s.mode = .run ∨ s.mode = .degraded then (s.enterStandby .fault).lspRaise 0x85
      else s) := by
  change execRingCycleStartReceive rs f s = _
  -- `ho`, `hb` and `hp` leave the last branch of the port's state.
  simp only [execRingCycleStartReceive, State.onRing_awake ha, hh, State.ringForward_other hp, State.ringTake_own, beq_iff_eq,
    Bool.or_eq_true, decide_eq_true_eq]

theorem ringCycleStart_own {f : CsFrame} (ha : s.ringAwake rs.ring = true) (hh : f.toRxHead = ⟨true, true, rs.ring⟩)
    (ho : s.xw rs.ring ≠ .off) (hb : s.xw rs.ring ≠ .bypass) (hp : s.xw rs.ring ≠ .pass) (hi : f.activeId = s.activeId) :
    exec (.ringCycleStartReceive rs f) s = .next (s.csBack rs.ring (s.role rs.ring rs.side) f) := by
  rw [ringCycleStart_sender ha hh ho hb hp, if_pos hi]

/-- R438: an active part that hears its partner as active goes to STANDBY. -/
theorem ringCycleStart_partner {f : CsFrame} (ha : s.ringAwake rs.ring = true) (hh : f.toRxHead = ⟨true, true, rs.ring⟩)
    (ho : s.xw rs.ring ≠ .off) (hb : s.xw rs.ring ≠ .bypass) (hp : s.xw rs.ring ≠ .pass) (hi : f.activeId ≠ s.activeId)
    (hr : s.lsp.role ≠ .unpaired) (ht : s.lsp.tookOver = false) (hm : s.mode = .run ∨ s.mode = .degraded) :
    exec (.ringCycleStartReceive rs f) s = .next ((s.enterStandby .fault).lspRaise 0x85) := by
  rw [ringCycleStart_sender ha hh ho hb hp, if_neg hi, if_neg hr, if_neg (by simp [ht]), if_pos hm]

/-- UB_09 (R45): the CYCLE_START of another master on a ring of no pair. -/
theorem ringCycleStart_unpaired {f : CsFrame} (ha : s.ringAwake rs.ring = true) (hh : f.toRxHead = ⟨true, true, rs.ring⟩)
    (ho : s.xw rs.ring ≠ .off) (hb : s.xw rs.ring ≠ .bypass) (hp : s.xw rs.ring ≠ .pass) (hi : f.activeId ≠ s.activeId)
    (hr : s.lsp.role = .unpaired) : exec (.ringCycleStartReceive rs f) s = .next (s.undefine (.ring rs.ring)) := by
  rw [ringCycleStart_sender ha hh ho hb hp, if_neg hi, if_pos hr]

/-! ### Trains (R247, R248, R250, R261, R433) -/

theorem State.not_pass_of_xwRuns {r : Nat} (h : s.xwRuns r = true) : s.xw r ≠ .pass := by
  rcases of_decide_eq_true h with hx | hx <;> rw [hx] <;> decide

theorem ringSampleSubframe_runs {f : SampleSub} (ha : s.ringAwake rs.ring = true) (hh : f.toRxHead = ⟨true, true, rs.ring⟩)
    (hx : s.xwRuns rs.ring = true) :
    exec (.ringSampleSubframeReceive rs f) s = .next ((s.sampleIn rs.ring (s.role rs.ring rs.side) f).note) := by
  change execRingSampleSubframeReceive rs f s = _
  simp only [execRingSampleSubframeReceive, State.onRing_awake ha, hh, State.ringForward_other (State.not_pass_of_xwRuns hx),
    State.ringTake_own, hx, if_true]

/-- A subframe of a COMMAND train is tested, and no more. -/
theorem State.ringTake_id (s : State) (r : Nat) (x : Side) (h : RxHead) : s.ringTake r x h id =
    if h.crcOk = false then s.ringCrcErr r x else if h.typeOk = false ∨ h.ringNo ≠ r then s.ringForeign r else s := by
  simp only [State.ringTake, Bool.not_eq_true', Bool.or_eq_true, decide_eq_true_eq, id]

theorem ringCommandTrain_compared (ha : s.ringAwake rs.ring = true) (f : CmdTrain) : exec (.ringCommandTrainReceive rs f) s = .next (
    let t := f.subs.foldl (fun t k =>
      if k.crcOk = false then t.ringCrcErr rs.ring (s.role rs.ring rs.side)
      else if k.typeOk = false ∨ k.ringNo ≠ rs.ring then t.ringForeign rs.ring else t) (s.ringForward rs (.command f))
    if t.xw rs.ring = .pass ∧ t.lsp.sync = .inStep ∧ f.cycle = t.cycle then
      let ks := f.subs.filter (fun k => k.crcOk && k.typeOk && decide (k.ringNo = rs.ring))
      let y := t.trainDiffers rs.ring ks
      let u := if ks = [] then y.1 else y.1.setLsp { y.1.lsp with cmdSeen := rs.ring :: y.1.lsp.cmdSeen }
      if y.2 then u.mismatch 1 f.cycle else u
    else t) := by
  change execRingCommandTrainReceive rs f s = _
  simp only [execRingCommandTrainReceive, State.onRing_awake ha, State.ringTake_id]
  generalize f.subs.foldl _ (s.ringForward rs (.command f)) = t
  have hgood : (fun k => subGood k rs.ring) = fun k : CmdSub => k.crcOk && k.typeOk && decide (k.ringNo = rs.ring) := rfl
  rw [hgood]
  generalize f.subs.filter _ = ks
  by_cases hc : t.xw rs.ring = .pass ∧ t.lsp.sync = .inStep ∧ f.cycle = t.cycle
  · obtain ⟨hx, hs, hcyc⟩ := hc
    cases ks <;> simp [hx, hs, hcyc]
  · have hskip : (decide (t.xw rs.ring ≠ .pass) || decide (t.lsp.sync ≠ .inStep) || decide (f.cycle ≠ t.cycle)) = true := by
      simp only [Bool.or_eq_true, decide_eq_true_eq, ne_eq, or_assoc]
      rwa [Decidable.not_and_iff_or_not, Decidable.not_and_iff_or_not] at hc
    rw [if_neg hc, if_pos hskip]

/-! ### ASYNC and SAFETY frames (R251, R252, R257, R260, R264) -/

theorem ringAsync_pass {f : AsyncFrame} (ha : s.ringAwake rs.ring = true) (hh : f.toRxHead = ⟨true, true, rs.ring⟩)
    (hx : s.xw rs.ring = .pass) : exec (.ringAsyncReceive rs f) s = .next (s.ringForward rs (.async f)) := by
  change execRingAsyncReceive rs f s = _
  simp only [execRingAsyncReceive, State.onRing_awake ha, hh, State.ringTake_own, State.xw_ringForward, hx, if_true]

theorem ringAsync_stray {f : AsyncFrame} (ha : s.ringAwake rs.ring = true) (hh : f.toRxHead = ⟨true, true, rs.ring⟩)
    (hw : f.inWindow = false) (hx : s.xw rs.ring ≠ .pass) : exec (.ringAsyncReceive rs f) s = .next (s.ringStray rs.ring) := by
  change execRingAsyncReceive rs f s = _
  simp only [execRingAsyncReceive, State.onRing_awake ha, hh, State.ringForward_other hx, State.ringTake_own, if_neg hx, hw, Bool.not_false,
    if_true]

/-- Acknowledgements of descriptors, and the replies that go to the response buffer. -/
theorem ringAsync_taken {f : AsyncFrame} (ha : s.ringAwake rs.ring = true) (hh : f.toRxHead = ⟨true, true, rs.ring⟩)
    (hw : f.inWindow = true) (hx : s.xw rs.ring = .discover ∨ s.xw rs.ring = .intact ∨ s.xw rs.ring = .healed) :
    exec (.ringAsyncReceive rs f) s = .next (
      if f.sub = 6 then s.descAck rs.ring f.node
      else if f.sub = 2 ∨ f.sub = 3 ∨ f.sub = 4 ∨ f.sub = 7 then s.asyncReply rs.ring f else s) := by
  have hp : s.xw rs.ring ≠ .pass := by rcases hx with h | h | h <;> rw [h] <;> decide
  change execRingAsyncReceive rs f s = _
  simp only [execRingAsyncReceive, State.onRing_awake ha, hh, State.ringForward_other hp, State.ringTake_own, if_neg hp, hw, Bool.not_true,
    Bool.false_eq_true, if_false, Bool.or_eq_true, decide_eq_true_eq, or_assoc]
  rcases hx with h | h | h <;> rw [h]

theorem ringSafety_stray {f : SafetyFrame} (ha : s.ringAwake rs.ring = true) (hh : f.toRxHead = ⟨true, true, rs.ring⟩)
    (hw : f.inWindow = false) (hx : s.xw rs.ring ≠ .pass) : exec (.ringSafetyReceive rs f) s = .next (s.ringStray rs.ring) := by
  change execRingSafetyReceive rs f s = _
  simp only [execRingSafetyReceive, State.onRing_awake ha, hh, State.ringForward_other hx, State.ringTake_own, hw, Bool.not_false, if_true]

theorem ringSafety_taken {f : SafetyFrame} (ha : s.ringAwake rs.ring = true) (hh : f.toRxHead = ⟨true, true, rs.ring⟩)
    (hw : f.inWindow = true) : exec (.ringSafetyReceive rs f) s = .next ((s.ringForward rs (.safety f)).telegramIn false f.body) := by
  change execRingSafetyReceive rs f s = _
  simp only [execRingSafetyReceive, State.onRing_awake ha, hh, State.ringTake_own, hw, Bool.not_true, Bool.false_eq_true, if_false]

/-! ### TOPO frames (R253, R268 to R270, R274, R430) -/

theorem ringTopoLoop_taken {f : LoopFrame} (ha : s.ringAwake rs.ring = true) (hh : f.toRxHead = ⟨true, true, rs.ring⟩) :
    exec (.ringTopoLoopReceive rs f) s
      = .next ((s.ringForward rs (.loop f)).healEvidence rs.ring (s.role rs.ring rs.side) (some f.addr)) := by
  change execRingTopoLoopReceive rs f s = _
  simp only [execRingTopoLoopReceive, State.onRing_awake ha, hh, State.ringTake_own]

theorem ringDiscover_taken {f : DiscoverFrame} (ha : s.ringAwake rs.ring = true) (hh : f.toRxHead = ⟨true, true, rs.ring⟩) :
    exec (.ringDiscoverReturn rs f) s
      = .next ((s.ringForward rs (.discover f)).discoverBack rs.ring (s.role rs.ring rs.side) f) := by
  change execRingDiscoverReturn rs f s = _
  simp only [execRingDiscoverReturn, State.onRing_awake ha, hh, State.ringTake_own]

theorem State.echoIsMine_iff (s : State) (rs : RingSide) (f : EchoFrame) :
    s.echoIsMine rs f = true ↔ f.returned = false ∧ f.hop = s.twinHop rs.ring (s.role rs.ring rs.side) := by
  simp only [State.echoIsMine, Bool.and_eq_true, Bool.not_eq_true', decide_eq_true_eq]

/-- An ECHO that has come back measures the delay to the pair's other part, or to the node that it names (R269). -/
theorem State.echoBack_eq (s : State) (r : Nat) (x : Side) (f : EchoFrame) : s.echoBack r x f =
    if (s.otherCfg r).isSome = true ∧ f.hop = s.twinHop r x then s.twinMeasured r x f
    else s.measured r f.node x ((f.rttSixteenths - 16 * (Tab.find (s.ringSt r).echoNs f.node).getD 0) / 2) := by
  simp only [State.echoBack, State.oneWay, Bool.and_eq_true, decide_eq_true_eq]

theorem ringEcho_taken {f : EchoFrame} (ha : s.ringAwake rs.ring = true) (hh : f.toRxHead = ⟨true, true, rs.ring⟩) :
    exec (.ringEchoReceive rs f) s = .next (
      let x := s.role rs.ring rs.side
      if s.xw rs.ring = .pass then
        (if s.echoIsMine rs f then
          s.ringSend rs.ring x { type := 6, node := f.node, cyc := s.cycle, sub := 1, inbound := true }
            (leBytes 8 (f.hop % 16 + if f.west then 16 else 0))
        else s.ringForward rs (.echo f))
      else if f.returned = true then
        (if (s.otherCfg rs.ring).isSome = true ∧ f.hop = s.twinHop rs.ring x then s.twinMeasured rs.ring x f
        else s.measured rs.ring f.node x ((f.rttSixteenths - 16 * (Tab.find (s.ringSt rs.ring).echoNs f.node).getD 0) / 2))
      else s) := by
  change execRingEchoReceive rs f s = _
  simp only [execRingEchoReceive, State.onRing_awake ha, hh, State.ringTake_own]
  have hwest : 16 * bitN f.west = if f.west then 16 else 0 := by cases f.west <;> rfl
  by_cases hx : s.xw rs.ring = .pass
  · cases hm : s.echoIsMine rs f <;> simp [hx, hwest]
  · simp only [State.ringForward_other hx, ite_self, if_neg hx, State.echoBack_eq]

/-! ### CLAIMs (R278 to R280) -/

theorem ringClaim_pass {f : ClaimFrame} (ha : s.ringAwake rs.ring = true) (hh : f.toRxHead = ⟨true, true, rs.ring⟩)
    (hx : s.xw rs.ring = .pass) : exec (.ringClaimReceive rs f) s = .next (s.ringForward rs (.claim f)) := by
  change execRingClaimReceive rs f s = _
  simp only [execRingClaimReceive, State.onRing_awake ha, hh, State.ringTake_own, State.xw_ringForward, hx]

theorem ringClaim_judged {f : ClaimFrame} (ha : s.ringAwake rs.ring = true) (hh : f.toRxHead = ⟨true, true, rs.ring⟩)
    (ho : s.xw rs.ring ≠ .off) (hb : s.xw rs.ring ≠ .bypass) (hp : s.xw rs.ring ≠ .pass) :
    exec (.ringClaimReceive rs f) s = .next (if f.inWindow then s.claim rs.ring f else s.ringStray rs.ring) := by
  change execRingClaimReceive rs f s = _
  -- `ho`, `hb` and `hp` leave the last branch of the port's state.
  simp only [execRingClaimReceive, State.onRing_awake ha, hh, State.ringForward_other hp, State.ringTake_own]

end

/-- Settles O49: every row tests the frame's header, and one of this ring's does what its kind is for in the port's state. -/
theorem ringFrames : Obligations.RingFrames := by
  unfold Obligations.RingFrames
  refine ⟨fun _ _ _ => rfl, ?badCheck, ?foreign, ?stray, fun _ _ _ => ringCycleStart_pass, fun _ _ _ => ringCycleStart_own,
    fun _ _ _ => ringCycleStart_partner, fun _ _ _ => ringCycleStart_unpaired, fun _ _ _ => ringSampleSubframe_runs,
    fun _ _ f ha => ringCommandTrain_compared ha f, fun _ _ _ => ringAsync_taken, fun _ _ _ => ringAsync_pass,
    fun _ _ _ => ringSafety_taken, fun _ _ _ => ringTopoLoop_taken, fun _ _ _ => ringDiscover_taken, fun _ _ _ => ringEcho_taken,
    State.echoIsMine_iff, ?claim, fun _ _ _ => ringClaim_pass⟩
  case badCheck =>
    intro s rs c u a t l d e m ha hc hu ha' ht hl hd he hm
    simp only [List.forall_mem_cons, List.not_mem_nil, false_implies, implies_true, and_true]
    exact ⟨⟨(ringCycleStart_receives c).badCheck ha hc, (ringSampleSubframe_receives u).badCheck ha hu,
      (ringAsync_receives a).badCheck ha ha', (ringSafety_receives t).badCheck ha ht, (ringTopoLoop_receives l).badCheck ha hl,
      (ringDiscover_receives d).badCheck ha hd, (ringClaim_receives m).badCheck ha hm⟩, (ringEcho_receives e).badCheck ha he⟩
  case foreign =>
    intro s rs c u a t l d e m ha hf
    simp only [List.forall_mem_cons, List.not_mem_nil, false_implies, implies_true, and_true] at hf ⊢
    obtain ⟨hc, hu, ha', ht, hl, hd, he, hm⟩ := hf
    exact ⟨⟨(ringCycleStart_receives c).foreign ha hc, (ringSampleSubframe_receives u).foreign ha hu,
      (ringAsync_receives a).foreign ha ha', (ringSafety_receives t).foreign ha ht, (ringTopoLoop_receives l).foreign ha hl,
      (ringDiscover_receives d).foreign ha hd, (ringClaim_receives m).foreign ha hm⟩, (ringEcho_receives e).foreign ha he⟩
  case stray =>
    intro s rs a t m ha hh haw htw hmw hp
    simp only [List.forall_mem_cons, List.not_mem_nil, false_implies, implies_true, and_true] at hh ⊢
    obtain ⟨ha', ht, hm⟩ := hh
    refine ⟨⟨ringAsync_stray ha ha' haw hp, ringSafety_stray ha ht htw hp⟩, fun ho hb => ?_⟩
    rw [ringClaim_judged ha hm ho hb hp, hmw, if_neg Bool.false_ne_true]
  case claim =>
    intro s rs f ha hh hw hp ho hb
    rw [ringClaim_judged ha hh ho hb hp, if_pos hw]

end Sys2Proof.Machine
end

section
/-! PROOF. What a ring port does of its own at its instants (R241, R246, R247, R250 to R254, R257, R258, R261, R268 to R277, R283 to R285,
R339, R352, R353, R496). -/

namespace Sys2Proof.Machine

section

variable {s : State}

/-! ### Lock, rate and polarity (R240, R241, R268, R271, R274, R339) -/

theorem ringLockChange_changed {rs : RingSide} {lock : Bool} (ha : s.ringAwake rs.ring = true) (ho : s.xw rs.ring ≠ .off)
    (hb : s.xw rs.ring ≠ .bypass) (hl : s.ringLock rs.ring (s.role rs.ring rs.side) ≠ lock) : exec (.ringLockChange rs lock) s = .next (
      let x := s.role rs.ring rs.side
      let u := s.setRingLock rs.ring x lock
      let t := if lock then u.setRing rs.ring { u.ringSt rs.ring with rateHeld := true } else u
      if lock = true ∨ t.xwRuns rs.ring = false then t
      else if t.ringLock rs.ring (flipSide x) = false then (t.toLink rs.ring).ringRaise 0x34 rs.ring
      else t.healEvidence rs.ring x none) := by
  change execRingLockChange rs lock s = _
  simp only [execRingLockChange, State.onRing_awake ha, Bool.or_eq_true, decide_eq_true_eq, beq_iff_eq, ho, hb, hl, or_self, if_false,
    Bool.not_eq_true']

theorem ringRateTryExpiry_seeking {r : Nat} (ha : s.ringAwake r = true) (hx : s.xw r = .link ∨ s.xw r = .pass)
    (hp : s.fld Reg.xwCtrlPhy (ringBase r) = 2) (hh : (s.ringSt r).rateHeld = false) : exec (.ringRateTryExpiry r) s = .next (
      let t := s.runTo ((s.ringSt r).rateAt + 25000000)
      (t.setRing r { t.ringSt r with rateAt := t.time.ran }).setBit Reg.xwStatRate10 (!t.bit Reg.xwStatRate10 (ringBase r)) (ringBase r)) := by
  change execRingRateTryExpiry r s = _
  have hseeks : ((decide (s.xw r = .link) || decide (s.xw r = .pass)) && s.fld Reg.xwCtrlPhy (ringBase r) == 2
      && !(s.ringSt r).rateHeld) = true := by simpa [hp, hh] using hx
  simp only [execRingRateTryExpiry, State.onRing_awake ha, hseeks, if_true]

theorem rxPolarityCorrect_ring {rs : RingSide} (ha : s.ringAwake rs.ring = true)
    (hl : s.ringLock rs.ring (s.role rs.ring rs.side) = true) : exec (.rxPolarityCorrect (.ring rs)) s = .next (
      if s.role rs.ring rs.side = .east then s.setFld Reg.xwStatInvE 1 (ringBase rs.ring)
      else s.setFld Reg.xwStatInvW 1 (ringBase rs.ring)) := by
  change execRxPolarityCorrect (.ring rs) s = _
  simp only [execRxPolarityCorrect, State.onRing_awake ha, hl, Bool.not_true, Bool.false_eq_true, if_false]
  cases s.role rs.ring rs.side <;> rfl

theorem rxPolarityCorrect_backbone {p : Nat} (hp : p < 2) (ha : s.awake = true) (hl : s.bit Reg.bbStatLock (bbBase p) = true) :
    exec (.rxPolarityCorrect (.backbone p)) s = .next (s.setBit Reg.bbStatInv true (bbBase p)) := by
  have hon : (decide (2 ≤ p) || !s.awake || !s.bit Reg.bbStatLock (bbBase p)) = false := by simp [hp, ha, hl]
  change execRxPolarityCorrect (.backbone p) s = _
  simp only [execRxPolarityCorrect, hon, Bool.false_eq_true, if_false]

/-! ### The CYCLE_START (R246, R257, R268, R420, R425) -/

theorem ringCsInstant_due {r : Nat} {e : SchedEntry} {edge : Int} (ha : s.ringAwake r = true) (hm : s.mode ≠ .standby)
    (hedge : s.edgeAt (s.cycle + 1#32) = some edge)
    (he : (s.sched r).find? (fun e => e.kind == 1 && s.entryApplies r (s.topoNow r) (s.cycle + 1#32) e) = some e) :
    exec (.ringCsInstant r) s = .next (
      let t := s.advanceTo (edge + ns16 e.offset)
      let u := if t.lsp.csSent = false ∧ t.lsp.csMissed = false then t.sendHeartbeat (s.cycle + 1#32) else t
      if (u.ringSt r).csSent = true then u
      else if u.lsp.switchAt = some s.cycle ∨ u.sendsCs r = false then u.setLsp { u.lsp with csMissed := true }
      else (u.setLsp { u.lsp with csSent := true }).sendCs r (s.cycle + 1#32) edge) := by
  change execRingCsInstant r s = _
  simp only [execRingCsInstant, State.onRing_awake ha, he, hedge, if_neg hm, Bool.or_eq_true, Bool.and_eq_true, Bool.not_eq_true']
  refine congrArg _ (ite_congr rfl (fun _ => rfl) fun _ => ite_congr (propext (or_congr_left ?_)) (fun _ => rfl) fun _ => rfl)
  generalize LspSt.switchAt _ = at_
  cases at_ with
  | none => simp
  | some a => simp [eq_comm]

@[simp] theorem State.ringSt_setRing_same (s : State) (r : Nat) (x : RingSt) : (s.setRing r x).ringSt r = x := Tab.get_put_same _ _ _ _

/-- A frame sent leaves every port as it was. -/
@[simp] theorem State.ringSt_ringSend (s : State) (r : Nat) (x : Side) (h : TxHead) (body : List Byte) (k : Nat) :
    (s.ringSend r x h body).ringSt k = s.ringSt k := by
  have hsend (t : State) (o : Output) : (t.sendFrame o).ringSt k = t.ringSt k := by
    unfold State.sendFrame
    split <;> rfl
  unfold State.ringSend
  split
  · rfl
  · split
    · exact hsend _ _
    · exact hsend _ _

/-- Descriptors that are queued leave the CYCLE_START that has gone. -/
theorem State.csSent_queueDescs (s : State) (r : Nat) (ns : List Nat) : ((s.queueDescs r ns).ringSt r).csSent = (s.ringSt r).csSent := by
  induction ns generalizing s with
  | nil => rfl
  | cons n rest ih =>
    have hdesc : (s.descsOf r n).1.ringSt r = s.ringSt r := by
      unfold State.descsOf
      split
      · rfl
      · split <;> rfl
    rw [State.queueDescs, List.foldl_cons]
    refine (ih _).trans ?_
    rw [State.ringSt_setRing_same, ← hdesc]

theorem State.csSent_sendCs (s : State) (r : Nat) (c : Word) (edge : Int) : ((s.sendCs r c edge).ringSt r).csSent = true := by
  unfold State.sendCs
  extract_lets _ _ _ _ _ _ _ _ _ _ marked _ granted _ verified
  have hmarked : (marked.ringSt r).csSent = true := by rw [State.ringSt_setRing_same]
  have hgranted : (granted.ringSt r).csSent = true := by
    simp only [granted]
    split
    · rw [State.csSent_queueDescs, State.ringSt_setRing_same]
      exact hmarked
    · exact hmarked
  have hverified : (verified.ringSt r).csSent = true := by
    simp only [verified]
    split
    · rw [State.ringSt_setRing_same]
      exact hgranted
    · exact hgranted
  rw [State.ringSt_ringSend, State.ringSt_ringSend, hverified]

/-! ### LONE, the retry of DISCOVER, the reclose (R269, R272, R276) -/

theorem ringLoneEntry_alone {r : Nat} (ha : s.ringAwake r = true)
    (hx : s.xw r = .link ∨ s.xw r = .discover ∨ s.xw r = .intact ∨ s.xw r = .healed) (hn : 16 ≤ (s.ringSt r).sentRun) :
    exec (.ringLoneEntry r) s = .next ((s.setXw r .lone).ringRaise 0x30 r) := by
  change execRingLoneEntry r s = _
  rcases hx with h | h | h | h <;> simp only [execRingLoneEntry, State.onRing_awake ha, h, hn, if_true]

theorem ringDiscoverRetry_late {r : Nat} (ha : s.ringAwake r = true) (hx : s.xw r = .discover) (hs : (s.ringSt r).step ≠ .done)
    (hn : 1024 ≤ (s.ringSt r).discFor) : exec (.ringDiscoverRetry r) s = .next ((s.discFail r).toDiscover r) := by
  change execRingDiscoverRetry r s = _
  simp only [execRingDiscoverRetry, State.onRing_awake ha, hx, hs, hn, ne_eq, not_false_iff, decide_true, Bool.and_self, if_true]

theorem ringRecloseStart_locked {r : Nat} (ha : s.ringAwake r = true) (hx : s.xw r = .healed) (hn : 256 ≤ (s.ringSt r).farRun)
    (hp : s.bit Reg.xwCtrlAutoReclose (ringBase r) = true ∨ (s.ringSt r).permit = true) (he : (s.ringSt r).evid = []) :
    exec (.ringRecloseStart r) s = .next (s.setRing r { s.ringSt r with reclosing := true }) := by
  have hgo : (decide (s.xw r = .healed) && decide (256 ≤ (s.ringSt r).farRun)
      && (s.bit Reg.xwCtrlAutoReclose (ringBase r) || (s.ringSt r).permit) && (s.ringSt r).evid.isEmpty) = true := by
    simpa [hx, hn, he] using hp
  change execRingRecloseStart r s = _
  simp only [execRingRecloseStart, State.onRing_awake ha, hgo, if_true]

/-! ### Trains (R39, R247, R250, R261, R430) -/

theorem ringSampleDue_noted {rs : RingSide} (ha : s.ringAwake rs.ring = true) :
    exec (.ringSampleDue rs) s = .next ((s.sampleDue rs.ring (s.role rs.ring rs.side)).note) := congrArg _ (State.onRing_awake ha _)

theorem ringCmdLaunch_edges {rs : RingSide} (ha : s.ringAwake rs.ring = true) (he : s.edgesRun = true) :
    exec (.ringCmdLaunch rs) s = .next (s.cmdLaunch rs.ring (s.role rs.ring rs.side)) := by
  change execRingCmdLaunch rs s = _
  simp only [execRingCmdLaunch, State.onRing_awake ha, he, if_true]

theorem sampleTrainLaunch_due {rs : RingSide} {at_ : Int} (ha : s.ringAwake rs.ring = true) (hx : s.xw rs.ring = .pass)
    (hc : (s.ringSt rs.ring).csLaunch = some s.cycle) (hl : s.role rs.ring rs.side ∉ (s.ringSt rs.ring).launched)
    (hat : s.launchAt rs.ring (s.role rs.ring rs.side) = some at_) : exec (.sampleTrainLaunch rs) s = .next (
      let x := s.role rs.ring rs.side
      let y := s.ringSt rs.ring
      let t := s.advanceTo at_
      (halfOf y.slots x).foldl (fun t d =>
        t.ringSend rs.ring x { type := 2, node := d.node, cyc := t.cycle, inbound := true } (List.replicate (16 + 24 * d.axes) 0#8))
        (t.setRing rs.ring { t.ringSt rs.ring with launched := y.launched ++ [x] })) := by
  have hgo : (decide (s.xw rs.ring = .pass) && (s.ringSt rs.ring).csLaunch == some s.cycle
      && !(s.ringSt rs.ring).launched.contains (s.role rs.ring rs.side)) = true := by simpa [hx, hc] using hl
  change execSampleTrainLaunch rs s = _
  simp only [execSampleTrainLaunch, State.onRing_awake ha, hgo, if_true, hat]

/-- A side that has launched its train, or a cycle whose CYCLE_START asked for none. -/
theorem sampleTrainLaunch_none {rs : RingSide} (ha : s.ringAwake rs.ring = true)
    (h : s.role rs.ring rs.side ∈ (s.ringSt rs.ring).launched ∨ (s.ringSt rs.ring).csLaunch ≠ some s.cycle) :
    exec (.sampleTrainLaunch rs) s = .next s := by
  have hstop : (decide (s.xw rs.ring = .pass) && (s.ringSt rs.ring).csLaunch == some s.cycle
      && !(s.ringSt rs.ring).launched.contains (s.role rs.ring rs.side)) = false := by
    rcases h with h | h <;> simp [h]
  change execSampleTrainLaunch rs s = _
  simp only [execSampleTrainLaunch, State.onRing_awake ha, hstop, Bool.false_eq_true, if_false]

/-! ### Windows (R251 to R254, R257, R258, R269, R276, R496) -/

theorem State.windowNext_fault (s : State) (r kind : Nat) (x : Side) (h : s.mode = .fault) : s.windowNext r kind x = none := if_pos h

/-- A window that comes next has the kind asked for and is unused; taken, it is used. -/
theorem State.windowNext_some (s : State) (r kind : Nat) (x : Side) (w : Nat × SchedEntry) (h : s.windowNext r kind x = some w) :
    (w.1, x) ∉ (s.ringSt r).used ∧ w.2.kind = kind ∧ (s.sched r)[w.1]? = some w.2 ∧ (w.1, x) ∈ ((s.openWindow r x w).ringSt r).used := by
  unfold State.windowNext at h
  split at h
  · cases h
  · have hw := List.find?_some h
    simp only [Bool.and_eq_true, beq_iff_eq, Bool.not_eq_true', List.contains_eq_mem, decide_eq_false_iff_not] at hw
    obtain ⟨⟨⟨hkind, -⟩, -⟩, hused⟩ := hw
    refine ⟨hused, hkind, ?place, ?taken⟩
    case place =>
      obtain ⟨k, hk⟩ := List.mem_iff_getElem?.1 (List.mem_of_find?_eq_some h)
      obtain ⟨hk1, hk2⟩ := List.getElem?_zip_eq_some.1 hk
      obtain ⟨hlt, heq⟩ := List.getElem?_eq_some_iff.1 hk1
      rw [← heq, List.getElem_range]
      exact hk2
    case taken =>
      rw [State.openWindow, State.ringSt_setRing_same]
      exact List.mem_append_right _ (List.mem_singleton_self _)

theorem ringAsyncOutWindow_open {rs : RingSide} {w : Nat × SchedEntry} (ha : s.ringAwake rs.ring = true)
    (hx : s.xw rs.ring = .intact ∨ s.xw rs.ring = .healed) (hw : s.windowNext rs.ring 3 (s.role rs.ring rs.side) = some w) :
    exec (.ringAsyncOutWindow rs) s = .next (
      let x := s.role rs.ring rs.side
      (fitFrames (s.windowBytes rs.ring w.2) (s.asyncWaiting rs.ring x)).foldl (fun s m => s.sendAsync rs.ring x m)
        (s.openWindow rs.ring x w)) := by
  change execRingAsyncOutWindow rs s = _
  rcases hx with h | h <;> simp only [execRingAsyncOutWindow, State.onRing_awake ha, h, hw]

/-- R269: in DISCOVER the DESC_WRITEs go out, without regard to the window table. -/
theorem ringAsyncOutWindow_discover {rs : RingSide} (ha : s.ringAwake rs.ring = true) (hx : s.xw rs.ring = .discover)
    (hm : s.mode ≠ .fault) : exec (.ringAsyncOutWindow rs) s = .next (
      let x := s.role rs.ring rs.side
      ((s.asyncWaiting rs.ring x).filter (fun m => m.op == 5)).foldl (fun s m => s.sendAsync rs.ring x m) s) := by
  change execRingAsyncOutWindow rs s = _
  simp only [execRingAsyncOutWindow, State.onRing_awake ha, hx, if_neg hm]

/-- One connection's telegram in a window with room, and the room it leaves. -/
theorem State.safetyOut_eq (t : State) (r : Nat) (side : Side) (e : Nat × SfConn) (room : Nat) : t.safetyOut r side e room =
    let x := t.conn e.1
    if e.2.kind = 1 ∧ x.sentRing = false ∧ x.out ≠ [] ∧ t.connOn r side e.2 = true ∧ frameBytes x.out.length ≤ room then
      ((t.setConnSt e.1 { x with sentRing := true }).ringSend r side { type := 5, node := t.connNode r side e.2, cyc := t.cycle } x.out,
        room - frameBytes x.out.length)
    else (t, room) := by
  simp only [State.safetyOut, Bool.and_eq_true, decide_eq_true_eq, Bool.not_eq_true', List.isEmpty_eq_false_iff, and_assoc]

theorem ringSafetyOutWindow_open {rs : RingSide} {p : SafetySet} {w : Nat × SchedEntry} (ha : s.ringAwake rs.ring = true)
    (hp : s.sfSet = some p) (hx : s.xwRuns rs.ring = true) (hr : s.lsp.role ≠ .standby)
    (hw : s.windowNext rs.ring 5 (s.role rs.ring rs.side) = some w) : exec (.ringSafetyOutWindow rs) s = .next (
      let side := s.role rs.ring rs.side
      (((List.range p.conns.length).zip p.conns).foldl (fun (t : State × Nat) e =>
        let x := t.1.conn e.1
        if e.2.kind = 1 ∧ x.sentRing = false ∧ x.out ≠ [] ∧ t.1.connOn rs.ring side e.2 = true ∧ frameBytes x.out.length ≤ t.2 then
          ((t.1.setConnSt e.1 { x with sentRing := true }).ringSend rs.ring side
            { type := 5, node := t.1.connNode rs.ring side e.2, cyc := t.1.cycle } x.out, t.2 - frameBytes x.out.length)
        else t) (s.openWindow rs.ring side w, s.windowBytes rs.ring w.2)).1) := by
  change execRingSafetyOutWindow rs s = _
  simp only [execRingSafetyOutWindow, State.onRing_awake ha, hp, hx, hr, hw, State.safetyOut_eq, Bool.not_true, decide_false,
    Bool.or_self, Bool.false_eq_true, if_false]

theorem ringTopoWindow_next {r : Nat} {x : Side} {w : Nat × SchedEntry} (ha : s.ringAwake r = true) (hw : s.topoNext r = some (x, w)) :
    exec (.ringTopoWindow r) s = .next (
      let t := s.openWindow r x w
      if t.xw r ≠ .intact ∨ t.windowBytes r w.2 < frameBytes 8 then t
      else if (t.ringSt r).verify = true then t.sendTopo r x 0 0 (List.replicate 8 0#8)
      else t.verifyEcho r x) := by
  change execRingTopoWindow r s = _
  simp only [execRingTopoWindow, State.onRing_awake ha, hw, Bool.or_eq_true, decide_eq_true_eq]

/-! ### Bypass switches (R283, R353) -/

theorem bypassSwitchComplete_ring {k : Nat} (hk : k < s.ringCount) (h8 : k < 8) :
    exec (.bypassSwitchComplete k) s = .next ((s.ringSwitchDone k).showBypass s) := by
  change execBypassSwitchComplete k s = _
  rw [execBypassSwitchComplete, if_neg (by omega), if_pos hk]

end

/-- Settles O48: each row acts so once what it waits for holds. -/
theorem ringInstants : Obligations.RingInstants := by
  unfold Obligations.RingInstants
  exact ⟨fun _ _ _ => ringLockChange_changed, fun _ _ => ringRateTryExpiry_seeking, fun _ _ => rxPolarityCorrect_ring,
    fun _ _ => rxPolarityCorrect_backbone, fun _ _ _ _ => ringCsInstant_due, State.csSent_sendCs, fun _ _ => ringLoneEntry_alone,
    fun _ _ => ringSampleDue_noted, fun _ _ => ringCmdLaunch_edges, fun _ _ _ => ringAsyncOutWindow_open,
    fun _ _ => ringAsyncOutWindow_discover, fun _ _ _ _ => ringSafetyOutWindow_open, fun _ _ _ _ => ringTopoWindow_next,
    State.windowNext_fault, State.windowNext_some, fun _ _ => ringDiscoverRetry_late, fun _ _ => ringRecloseStart_locked,
    fun _ _ _ => sampleTrainLaunch_due, fun _ _ => sampleTrainLaunch_none, fun _ => rfl, fun _ _ => bypassSwitchComplete_ring⟩

end Sys2Proof.Machine
end

section
/-! PROOF. The numbered units of the local drives, converters and interfaces: what each reads as after a write. -/

namespace Sys2Proof

variable {α : Type}

/-- A key dropped from a table to which it was added. -/
theorem Tab.drop_ins (t : List (Nat × α)) (k : Nat) (v : α) : Tab.drop (Tab.ins t k v) k = Tab.drop t k := by
  induction t with
  | nil => simp [Tab.ins, Tab.drop]
  | cons e r ih =>
    obtain ⟨k', v'⟩ := e
    by_cases hlt : k < k'
    · simp [Tab.ins, hlt, Tab.drop]
    · by_cases hk : k' = k <;> simp [Tab.ins, hlt, Tab.drop, hk, ih]

theorem Tab.drop_drop (t : List (Nat × α)) (k : Nat) : Tab.drop (Tab.drop t k) k = Tab.drop t k := by
  induction t with
  | nil => rfl
  | cons e r ih =>
    obtain ⟨k', v'⟩ := e
    by_cases hk : k' = k <;> simp [Tab.drop, hk, ih]

/-- Of two writes of one key the later stands. -/
theorem Tab.put_put [DecidableEq α] (d : α) (t : List (Nat × α)) (k : Nat) (v w : α) :
    Tab.put d (Tab.put d t k v) k w = Tab.put d t k w := by
  have hdrop : Tab.drop (Tab.put d t k v) k = Tab.drop t k := by
    unfold Tab.put
    split
    · exact Tab.drop_drop t k
    · rw [Tab.drop_ins, Tab.drop_drop]
  rw [Tab.put, hdrop, Tab.put]

end Sys2Proof

namespace Sys2Proof.Machine

theorem State.lg_setLg (s : State) (n k : Nat) (x : LgSt) : (s.setLg n x).lg k = if k = n then x else s.lg k := Tab.get_put _ _ _ _ _
@[simp] theorem State.lg_setLg_same (s : State) (k : Nat) (x : LgSt) : (s.setLg k x).lg k = x := Tab.get_put_same _ _ _ _
theorem State.lg_setLg_other {n k : Nat} (h : k ≠ n) (s : State) (x : LgSt) : (s.setLg n x).lg k = s.lg k :=
  Tab.get_put_other _ _ _ _ _ h
@[simp] theorem State.lg_setFld (s : State) (f : Fld) (v b k : Nat) : (s.setFld f v b).lg k = s.lg k := by rfl
@[simp] theorem State.lg_addFld (s : State) (f : Fld) (v b k : Nat) : (s.addFld f v b).lg k = s.lg k := by rfl

@[simp] theorem State.conv_advanceTo (s : State) (x : Int) (j : Nat) : (s.advanceTo x).conv j = s.conv j := by
  rw [State.advanceTo_rest]; rfl

@[simp] theorem State.setFb_setFb (s : State) (k : Nat) (x y : FbSt) : (s.setFb k x).setFb k y = s.setFb k y :=
  congrArg (fun t => ({ s with fbs := t } : State)) (Tab.put_put _ _ _ _ _)
@[simp] theorem State.fb_setFld (s : State) (f : Fld) (v b k : Nat) : (s.setFld f v b).fb k = s.fb k := by rfl
@[simp] theorem State.bit_setFb (s : State) (k : Nat) (x : FbSt) (f : Fld) (b : Nat) : (s.setFb k x).bit f b = s.bit f b := by rfl

end Sys2Proof.Machine
end

section
/-! PROOF. The gate timers (R289 to R308, R318). -/

namespace Sys2Proof.Machine

/-! ### Launch, apply, carrier periods (R293, R295) -/

section
variable {s : State} {k : Nat}

theorem localCmdLaunch_due (he : s.edgesRun = true) (ha : s.awake = true) (ht : ∃ k < 8, (s.lg k).taken = false) :
    exec .localCmdLaunch s = .next (((List.range 8).foldl State.lgLaunch (s.toInstant s.timing.tCmd)).note) := by
  have hall : (List.range 8).all (fun k => (s.lg k).taken) = false := by
    obtain ⟨k, hk, ht⟩ := ht
    exact List.all_eq_false.2 ⟨k, List.mem_range.2 hk, by simp [ht]⟩
  change execLocalCmdLaunch s = _
  simp only [execLocalCmdLaunch, he, ha, hall, Bool.not_true, Bool.or_self, Bool.false_eq_true, if_false]

theorem localApplyInstant_due {now nx : Int} (ha : s.awake = true) (hn : s.applyTap s.cycle = some now)
    (hx : s.applyTap (s.cycle + 1#32) = some nx)
    (hu : ∀ k < 8, (s.lg k).started = true → ¬ (nx ≤ (s.lg k).until_ + 32 ∧ (s.lg k).until_ ≤ nx + 32)) :
    exec .localApplyInstant s = .next (
      (s.toInstant s.timing.tApply).gated (fun t => (List.range 8).foldl (fun t k => t.lgApply k now nx) t)) := by
  have hany : (List.range 8).any
      (fun k => (s.lg k).started && decide (nx ≤ (s.lg k).until_ + 32 ∧ (s.lg k).until_ ≤ nx + 32)) = false := by
    refine List.any_eq_false.2 fun k hk => ?_
    simpa using hu k (List.mem_range.1 hk)
  change execLocalApplyInstant s = _
  simp only [execLocalApplyInstant, ha, hn, hx, hany, Bool.not_true, Bool.false_eq_true, if_false]

theorem carrierPeriodStart_running (hk : k < 8) (ha : s.awake = true) (hs : (s.lg k).started = true) (hl : (s.lg k).left ≠ 0)
    (he : s.bit Reg.pwmGrpCfgEn (lgBase k) = true) : exec (.carrierPeriodStart k) s = .next (
      let x := s.lg k
      let per := 32 * (s.lgPer k : Int)
      let start := s.onGrid (x.start + per)
      ((s.advanceTo (ofTap start)).setLg k { x with left := x.left - 1 }).periodStart k start
        (if x.left - 1 = 0 then s.onGrid x.until_ - start else per)) := by
  have hruns : (decide (8 ≤ k) || !s.awake || !(s.lg k).started || decide ((s.lg k).left = 0)
      || !s.bit Reg.pwmGrpCfgEn (lgBase k)) = false := by
    simp [hk, ha, hs, hl, he]
  change execCarrierPeriodStart k s = _
  simp only [execCarrierPeriodStart, hruns, Bool.false_eq_true, if_false]

/-! ### The grid and its calibration (R294) -/

theorem State.onGrid_free {s : State} (h : s.bit Reg.pwmDlyStatDlyErr = false) (t : Int) : s.onGrid t = t := by
  rw [State.onGrid, h]; rfl

/-- While dly_err holds a place is a whole count, nearer than a count to the one asked for. -/
theorem State.onGrid_whole {s : State} (h : s.bit Reg.pwmDlyStatDlyErr = true) (t : Int) :
    s.onGrid t % 32 = 0 ∧ t - 32 < s.onGrid t ∧ s.onGrid t < t + 32 := by
  have hgrid : s.onGrid t = (t + 16) / 32 * 32 := by rw [State.onGrid, h]; rfl
  omega

theorem delayLineCalibration_awake (ha : s.awake = true) (e : Int) : exec (.delayLineCalibration e) s = .next (
    let trim := s.fld Reg.pwmDlyStatTrim
    let nx := if 0 < e then trim - 1 else if e < 0 then min 63 (trim + 1) else trim
    let was := s.bit Reg.pwmDlyStatDlyErr
    let err := decide (62 < e ∨ e < -62) && (was || nx == trim)
    let t := ((s.setFld Reg.pwmDlyStatTrim nx).setFld Reg.pwmDlyStatErrPs (BitVec.ofInt 8 (max (-128) (min 127 e))).toNat).setBit
      Reg.pwmDlyStatDlyErr err
    if err = true ∧ was = false then t.raise 0x42 1 10 102 else t) := by
  change execDelayLineCalibration e s = _
  simp only [execDelayLineCalibration, ha, Bool.not_true, Bool.false_eq_true, if_false, Bool.and_eq_true, Bool.not_eq_true']

/-! ### Decay (R307), shorts (R308) -/

theorem mixedDecayEnd_fast {b : Bool} {t : Int} (hk : k < 8) (ha : s.awake = true) (hp : ((s.lg k).coil b).ph = .fast)
    (hm : ((s.lg k).coil b).mixEnd = some t) : exec (.mixedDecayEnd k b) s
      = .next ((s.advanceTo t).setCoil k b { (s.lg k).coil b with ph := .slow, mixEnd := none }) := by
  have hthere : (decide (8 ≤ k) || !s.awake) = false := by simp [hk, ha]
  change execMixedDecayEnd k b s = _
  simp only [execMixedDecayEnd, hthere, hp, hm, Bool.false_eq_true, if_false]

theorem gateShortDetect_awake {o : Nat} (hk : k < 8) (ho : o < 8) (ha : s.awake = true) : exec (.gateShortDetect k o) s = .next (
    let x := s.lg k
    let t := (s.setFld Reg.pwmGrpStatShort (Nat.lor (s.fld Reg.pwmGrpStatShort (lgBase k)) (2 ^ o)) (lgBase k)).setLg k
      { x with fault := true, edges := [] }
    if x.fault then t else t.raise 0x40 1 7 k) := by
  have hthere : (decide (8 ≤ k) || decide (8 ≤ o) || !s.awake) = false := by simp [hk, ho, ha]
  change execGateShortDetect k o s = _
  simp only [execGateShortDetect, hthere, Bool.false_eq_true, if_false]

/-! ### Mask events (R301 to R304) -/

theorem maskEvent_zc {p : Nat} {rising : Bool} (hk : k < 8) (ha : s.awake = true) :
    exec (.maskEvent k (.zc p rising)) s = .next (s.maskEvent k (.zc p rising)) := by
  have hthere : (decide (8 ≤ k) || !s.awake) = false := by simp [hk, ha]
  change execMaskEvent k (.zc p rising) s = _
  simp only [execMaskEvent, hthere, Bool.false_eq_true, if_false]

/-- A group whose source is Hall takes the change as its interface does (R302). -/
theorem maskEvent_hall {h : BitVec 3} (hk : k < 8) (hs : s.bit Reg.pwmGrpMaskSrc (lgBase k) = true)
    (hf : s.fld Reg.pwmGrpCfgFb (lgBase k) < 8) :
    exec (.maskEvent k (.hall h)) s = exec (.fbHallChange (s.fld Reg.pwmGrpCfgFb (lgBase k)) h) s := by
  change execMaskEvent k (.hall h) s = execFbHallChange _ h s
  simp only [execMaskEvent, execFbHallChange, hs, if_true, decide_eq_false (Nat.not_le.2 hk), decide_eq_false (Nat.not_le.2 hf)]

/-- A qualified event of a mask that no forced record holds: it starts the commutation delay or is counted missed (R302). -/
theorem State.maskEvent_qualified {e : MaskEdge} (he : s.bit Reg.pwmGrpCfgEn (lgBase k) = true) (hm : (s.lg k).masked = true)
    (hq : s.qualified k e = true) (hf : recForced (s.lg k).rec_ = false) : s.maskEvent k e =
      if s.blanked k = true ∧ (s.lg k).delay = none then
        s.setLg k { s.lg k with delay := some (s.now16 + ns16 (4 * recOn (s.lg k).rec_ 1)) }
      else s.incFld Reg.pwmGrpCntEvMissed (lgBase k) := by
  simp only [State.maskEvent, he, hm, hq, hf, Bool.not_true, Bool.false_eq_true, if_false, Bool.and_eq_true, Option.isNone_iff_eq_none]

theorem maskStep_due {t : Int} (hk : k < 8) (ha : s.awake = true) (hm : (s.lg k).masked = true) (hd : (s.lg k).delay = some t) :
    exec (.maskStep k) s = .next ((s.advanceTo t).maskStep k t) := by
  have hmasks : (decide (8 ≤ k) || !s.awake || !(s.lg k).masked) = false := by simp [hk, ha, hm]
  change execMaskStep k s = _
  simp only [execMaskStep, hd, hmasks, Bool.false_eq_true, if_false]


/-! ### The edges of a mask step (R297, R300, R304) -/

/-- The step after the present one is a step. -/
theorem State.nextStep_lt (s : State) (k : Nat) : s.nextStep k < 6 := by
  unfold State.nextStep
  split <;> exact Nat.mod_lt _ (by decide)

/-- Of the three phases of a step neither the driven one nor the one held on floats. -/
theorem sixStep_phases (n : Nat) :
    (sixStep n).1 < 3 ∧ (sixStep n).2.2.1 < 3 ∧ (sixStep n).1 ≠ (sixStep n).2.2.1 ∧ (sixStep n).2.1 ≠ (sixStep n).2.2.1 := by
  unfold sixStep
  split <;> decide

/-- Edges of a pair are edges of its two outputs. -/
theorem pairEdges_out {dt up lo : Nat} {ts : List (Nat × Bool)} {e : GateEdge} (h : e ∈ pairEdges dt up lo ts) :
    e.out = up ∨ e.out = lo := by
  induction ts with
  | nil => cases h
  | cons x rest ih =>
    obtain ⟨t, high⟩ := x
    simp only [pairEdges, List.cons_append, List.mem_cons, List.mem_append, List.mem_ite_nil_left, List.not_mem_nil, or_false] at h
    rcases h with rfl | ⟨-, rfl⟩ | h
    · cases high <;> simp
    · cases high <;> simp
    · exact ih h

@[simp] theorem State.out_placed (s : State) (e : GateEdge) : (s.placed e).out = e.out := by rfl

/-- The edges of a phase's channel are edges of its two switches. -/
theorem State.chanEdges_phase {ch : Nat} {o : ChanOut} {e : GateEdge} (hc : ch < 3) (h : e ∈ s.chanEdges k ch o) : e.out / 2 = ch := by
  rw [State.chanEdges, if_neg (by omega)] at h
  obtain ⟨e', he, rfl⟩ := List.mem_map.1 h
  rw [State.out_placed]
  rcases List.mem_append.1 he with he | he
  · obtain ⟨-, he⟩ := List.mem_ite_nil_right.1 he
    obtain rfl := List.mem_singleton.1 he
    dsimp only
    omega
  · rcases pairEdges_out he with h | h <;> omega

theorem State.lowerOn_phase {x : LgSt} {place p : Nat} {e : GateEdge} (h : e ∈ s.lowerOn x k place p) : e.out / 2 = p := by
  simp only [State.lowerOn, List.mem_cons, List.not_mem_nil, or_false] at h
  rcases h with rfl | rfl
  · dsimp only; omega
  · rw [State.out_placed]; dsimp only; omega

theorem phaseOff_low {place p : Nat} {e : GateEdge} (h : e ∈ phaseOff place p) : e.high = false := by
  simp only [phaseOff, List.mem_cons, List.not_mem_nil, or_false] at h
  rcases h with rfl | rfl <;> rfl

/-- What adding a channel's pattern can do: nothing, or edges and a carry added to the group, and the pulses removed counted. -/
theorem State.addChan_cases (s : State) (k : Nat) (ws : List Word) (ch : Nat) : s.addChan k ws ch = s ∨ ∃ o : ChanOut,
    let t := s.setLg k { s.lg k with edges := (s.lg k).edges ++ s.chanEdges k ch o, carry := Tab.put {} (s.lg k).carry ch o.carry }
    s.addChan k ws ch = t ∨ s.addChan k ws ch = t.addFld Reg.pwmGrpCntFiltered o.filtered (lgBase k) := by
  unfold State.addChan
  split
  · exact .inl rfl
  · rename_i o _
    refine .inr ⟨o, ?_⟩
    dsimp only
    split
    · exact .inl rfl
    · exact .inr rfl

/-- A phase's pattern adds edges of that phase alone. -/
theorem State.lg_addChan (s : State) (k : Nat) (ws : List Word) {ch : Nat} (hc : ch < 3) : ∃ es c,
    (s.addChan k ws ch).lg k = { s.lg k with edges := (s.lg k).edges ++ es, carry := c } ∧ ∀ e ∈ es, e.out / 2 = ch := by
  rcases s.addChan_cases k ws ch with h | ⟨o, h | h⟩
  · exact ⟨[], (s.lg k).carry, by simp [h], by simp⟩
  · exact ⟨_, _, by rw [h, State.lg_setLg_same], fun e => State.chanEdges_phase hc⟩
  · exact ⟨_, _, by rw [h, State.lg_addFld, State.lg_setLg_same], fun e => State.chanEdges_phase hc⟩

theorem State.lg_addChan_other {n : Nat} (hn : n ≠ k) (s : State) (ws : List Word) (ch : Nat) : (s.addChan k ws ch).lg n = s.lg n := by
  rcases s.addChan_cases k ws ch with h | ⟨o, h | h⟩ <;> rw [h]
  · exact State.lg_setLg_other hn _ _
  · exact State.lg_setLg_other hn _ _

theorem State.maskAt_setFld {v : Nat} (h : v < 8) (s : State) (k : Nat) :
    (s.setFld Reg.pwmGrpStatMaskStep v (lgBase k)).maskAt k = v :=
  (State.fld_setFld_same _ _ _ _ (by decide)).trans (Nat.mod_eq_of_lt h)
@[simp] theorem State.maskAt_setLg (s : State) (n k : Nat) (x : LgSt) : (s.setLg n x).maskAt k = s.maskAt k := by rfl

/-- The pulses removed are counted in another register than the mask's step. -/
theorem State.maskAt_addFiltered (s : State) (k n : Nat) : (s.addFld Reg.pwmGrpCntFiltered n (lgBase k)).maskAt k = s.maskAt k := by
  rw [State.maskAt, State.fld, State.reg_addFld_other _ _ _ _ _ (by simp [Reg.pwmGrpStatMaskStep, Reg.pwmGrpCntFiltered])]
  rfl

@[simp] theorem State.maskAt_addChan (s : State) (k : Nat) (ws : List Word) (ch : Nat) : (s.addChan k ws ch).maskAt k = s.maskAt k := by
  rcases s.addChan_cases k ws ch with h | ⟨o, h | h⟩ <;> rw [h]
  · rw [State.maskAt_setLg]
  · rw [State.maskAt_addFiltered, State.maskAt_setLg]

/-- What a step keeps of the old one and what it holds: of a phase that floats in the step `new`, edges gone by and outputs off. -/
theorem stepEdges_float {u : State} {x : LgSt} {old new : Nat × Nat × Nat × Bool} {place : Nat} {e : GateEdge}
    (hlt : new.2.2.1 < 3) (hd : new.1 ≠ new.2.2.1) (hl : new.2.1 ≠ new.2.2.1)
    (he : e ∈ x.edges.filter (fun e => decide (e.at_ ≤ place ∨ 6 ≤ e.out)
        || ((e.out / 2 == old.1 && e.out / 2 == new.1) || (e.out / 2 == old.2.1 && e.out / 2 == new.2.1)))
      ++ (phaseOff place new.2.2.1 ++ if new.2.1 = old.2.1 then [] else u.lowerOn x k place new.2.1))
    (hp : e.out / 2 = new.2.2.1) (hplace : place < e.at_) : e.high = false := by
  simp only [List.mem_append, List.mem_filter, Bool.or_eq_true, Bool.and_eq_true, decide_eq_true_eq, beq_iff_eq,
    List.mem_ite_nil_left] at he
  rcases he with ⟨-, (hgone | hchopper) | hkept⟩ | hoff | ⟨-, hheld⟩
  · omega
  · omega
  · omega
  · exact phaseOff_low hoff
  · have := State.lowerOn_phase hheld
    omega

/-- A step of the mask taken from `s` at the instant `t`, which is the place `place` of the period: the group's new step, its delay ended,
its event counted; from there on the floating phase keeps both outputs off. -/
structure MaskStepped (s : State) (k : Nat) (t : Int) (place : Nat) (u : State) : Prop where
  step : u.maskAt k = s.nextStep k
  delay : (u.lg k).delay = none
  stepAt : (u.lg k).stepAt = some t
  ev : (u.lg k).ev = ((s.lg k).ev + 1) % 256
  floats : ∀ e ∈ (u.lg k).edges, e.out / 2 = (sixStep (s.nextStep k)).2.2.1 → place < e.at_ → e.high = false
  others : ∀ n ≠ k, u.lg n = s.lg n

/-- The carry with which a pattern begins is no part of it. -/
theorem MaskStepped.restart {t : Int} {place : Nat} {u : State} (h : MaskStepped s k t place u) (was carry : List (Nat × ChanCarry))
    (from_ : Nat) : MaskStepped s k t place (u.setLg k { u.lg k with was := was, from_ := from_, carry := carry }) where
  step := h.step
  delay := by rw [State.lg_setLg_same]; exact h.delay
  stepAt := by rw [State.lg_setLg_same]; exact h.stepAt
  ev := by rw [State.lg_setLg_same]; exact h.ev
  floats := by rw [State.lg_setLg_same]; exact h.floats
  others n hn := by rw [State.lg_setLg_other hn, h.others n hn]

/-- Nor is the pattern of a phase that does not float. -/
theorem MaskStepped.addChan {t : Int} {place : Nat} {u : State} (h : MaskStepped s k t place u) (ws : List Word) {ch : Nat} (hc : ch < 3)
    (hf : ch ≠ (sixStep (s.nextStep k)).2.2.1) : MaskStepped s k t place (u.addChan k ws ch) := by
  obtain ⟨es, c, hlg, hes⟩ := u.lg_addChan k ws hc
  exact {
    step := by rw [State.maskAt_addChan, h.step]
    delay := by rw [hlg]; exact h.delay
    stepAt := by rw [hlg]; exact h.stepAt
    ev := by rw [hlg]; exact h.ev
    floats := by
      rw [hlg]
      intro e he hp
      rcases List.mem_append.1 he with he | he
      · exact h.floats e he hp
      · exact absurd ((hes e he).symm.trans hp) hf
    others := fun n hn => by rw [State.lg_addChan_other hn, h.others n hn] }

theorem State.maskStep_stepped (h : s.lgOrder k = 7) (t : Int) :
    MaskStepped s k t (s.onGrid (tapOf t) - (s.lg k).start).toNat (s.maskStep k t) := by
  rw [State.maskStep, if_neg (not_not_intro h)]
  extract_lets old place turned new both held y stepped
  have hstep : turned.maskAt k = s.nextStep k := by
    rw [State.maskAt_setLg, State.maskAt_setFld (Nat.lt_trans (s.nextStep_lt k) (by decide))]
  have hnew : new = sixStep (s.nextStep k) := congrArg sixStep hstep
  obtain ⟨hdriven, hfloat, hdf, hlf⟩ : new.1 < 3 ∧ new.2.2.1 < 3 ∧ new.1 ≠ new.2.2.1 ∧ new.2.1 ≠ new.2.2.1 := sixStep_phases _
  have hstepped : MaskStepped s k t place stepped := by
    constructor
    case step => rw [State.maskAt_setLg, hstep]
    case floats =>
      rw [State.lg_setLg_same, ← hnew]
      exact fun e he hp => stepEdges_float hfloat hdf hlf he hp
    case others =>
      intro n hn
      simp only [stepped, turned, State.lg_setLg_other hn, State.lg_setFld]
    all_goals simp only [stepped, y, turned, State.lg_setLg_same]
  split
  · exact hstepped
  · exact (hstepped.restart _ _ _).addChan _ hdriven (hnew ▸ hdf)

/-! ### Levels of the outputs (R289 to R292) -/

/-- The order 1 of STO, and of PFAIL handling: every gate low. -/
theorem State.gatePins_first (h : s.stoOff k = true ∨ s.power.handling = true) : s.lgOrder k = 1 ∧ s.gatePins k = 0 := by
  have ho : s.lgOrder k = 1 := if_pos (by simpa using h)
  refine ⟨ho, ?_⟩
  rw [State.gatePins, ho]
  split <;> rfl

theorem State.gatePins_fault (s : State) (k : Nat) (h : s.mode = .fault) : s.gatePins k = 0 := if_pos h

/-- The order 2 of Foxglove's latch: the safe pattern. -/
theorem State.gatePins_latch (hs : s.stoOff k = false) (hp : s.power.handling = false) (hl : s.fox.latch = true) :
    s.lgOrder k = 2 ∧ (s.mode ≠ .fault → s.gatePins k = s.safePins k) := by
  have ho : s.lgOrder k = 2 := by simp [State.lgOrder, hs, hp, hl]
  refine ⟨ho, fun hm => ?_⟩
  rw [State.gatePins, if_neg hm, ho]
  rfl

/-- The lower orders, in a group that is not undefined. -/
theorem State.gatePins_lower (hu : s.groupUndef k = false) (hm : s.mode ≠ .fault) :
    (s.lgOrder k = 3 ∨ s.lgOrder k = 6 → s.gatePins k = if s.spareHigh k then 128 else 0)
      ∧ (s.lgOrder k = 4 → s.gatePins k = 0) ∧ (s.lgOrder k = 5 → s.gatePins k = s.safePins k)
      ∧ (7 ≤ s.lgOrder k → s.gatePins k = s.wavePins k) := by
  have hspare : 128 * bitN (s.spareHigh k) = if s.spareHigh k then 128 else 0 := by cases s.spareHigh k <;> rfl
  rw [← hspare]
  refine ⟨?spare, ?off, ?safe, ?wave⟩ <;> rw [State.gatePins, if_neg hm, hu]
  case spare => rintro (h | h) <;> rw [h] <;> rfl
  case off => intro h; rw [h]; rfl
  case safe => intro h; rw [h]; rfl
  case wave =>
    intro h
    split
    · omega
    · omega
    · simp only [Bool.false_eq_true, if_false]
      split <;> omega

/-! ### The legs of a stepper (R292, R305) -/

/-- A leg drives one of its two outputs or none. -/
theorem CoilSt.legPins_le (c : CoilSt) (leg2 : Bool) (dt now : Int) : c.legPins leg2 dt now ≤ 2 := by
  unfold CoilSt.legPins
  extract_lets on
  have hon : 1 ≤ on ∧ on ≤ 2 := by
    simp only [on]
    split <;> omega
  split
  · split
    · omega
    · split <;> omega
  · exact hon.2

/-- Two bits of a number that are both on make a digit 3 of base 4. -/
theorem digit_of_testBits {n j : Nat} (h0 : n.testBit (2 * j) = true) (h1 : n.testBit (2 * j + 1) = true) : n / 4 ^ j % 4 = 3 := by
  rw [Nat.testBit_eq_decide_div_mod_eq, decide_eq_true_eq] at h0 h1
  rw [Nat.pow_mul] at h0
  rw [Nat.pow_succ, Nat.pow_mul, ← Nat.div_div_eq_div_mul] at h1
  rw [show (2 : Nat) ^ 2 = 4 from rfl] at h0 h1
  generalize n / 4 ^ j = d at h0 h1 ⊢
  omega

theorem State.wavePins_legs {j : Nat} (h : s.bit Reg.pwmGrpCfgKind (lgBase k) = true) (hj : j < 4) :
    ¬ ((s.wavePins k).testBit (2 * j) = true ∧ (s.wavePins k).testBit (2 * j + 1) = true) := by
  rintro ⟨h0, h1⟩
  have hdigit := digit_of_testBits h0 h1
  rw [State.wavePins] at hdigit
  simp only [h, if_true, CoilSt.pins] at hdigit
  generalize ofTap _ = dt at hdigit
  have ha1 := (s.lg k).coilA.legPins_le false dt s.now16
  have ha2 := (s.lg k).coilA.legPins_le true dt s.now16
  have hb1 := (s.lg k).coilB.legPins_le false dt s.now16
  have hb2 := (s.lg k).coilB.legPins_le true dt s.now16
  match j, hj with
  | 0, _ | 1, _ | 2, _ | 3, _ => omega

/-! ### The safe pattern as it comes (R292) -/

/-- When a group's outputs took the safe pattern is no part of the order that applies to it. -/
theorem State.lgSafe_setSafeAt (s : State) (n k : Nat) (o : Option (Int × Nat)) :
    (s.setLg n { s.lg n with safeAt := o }).lgSafe k = s.lgSafe k := by
  have hlg : (s.setLg n { s.lg n with safeAt := o }).lg k = { s.lg k with safeAt := if k = n then o else (s.lg k).safeAt } := by
    rw [State.lg_setLg]
    split
    · subst_vars; rfl
    · rfl
  unfold State.lgSafe State.lgOrder State.waveOrder
  rw [hlg]
  rfl

/-- What a group notes of its outputs as they take the safe pattern, where they do. -/
def State.noteSafe (s u : State) (k : Nat) : State :=
  if u.lgSafe k && !s.lgSafe k then u.setLg k { u.lg k with safeAt := some (u.now16, s.gatePins k) } else u

theorem State.gated_eq (s : State) (f : State → State) : s.gated f = (List.range 8).foldl s.noteSafe (f s) := rfl

@[simp] theorem State.lgSafe_noteSafe (s u : State) (n k : Nat) : (s.noteSafe u n).lgSafe k = u.lgSafe k := by
  unfold State.noteSafe
  split
  · exact State.lgSafe_setSafeAt _ _ _ _
  · rfl

@[simp] theorem State.now16_noteSafe (s u : State) (n : Nat) : (s.noteSafe u n).now16 = u.now16 := by
  unfold State.noteSafe
  split <;> rfl

theorem State.lg_noteSafe_other {n k : Nat} (h : k ≠ n) (s u : State) : (s.noteSafe u n).lg k = u.lg k := by
  unfold State.noteSafe
  split
  · exact State.lg_setLg_other h _ _
  · rfl

/-- Groups noted one after the other, each among them that takes its safe pattern notes the instant and its outputs before. -/
theorem State.safeAt_foldl_noteSafe (hk : s.lgSafe k = false) (l : List Nat) (u : State) (hu : u.lgSafe k = true)
    (hl : k ∈ l ∨ (u.lg k).safeAt = some (u.now16, s.gatePins k)) :
    ((l.foldl s.noteSafe u).lg k).safeAt = some (u.now16, s.gatePins k) := by
  induction l generalizing u with
  | nil => simpa using hl
  | cons n rest ih =>
    rw [List.foldl_cons, ← State.now16_noteSafe s u n]
    refine ih _ (by rw [State.lgSafe_noteSafe, hu]) ?_
    by_cases hn : k = n
    · subst hn
      refine .inr ?_
      rw [State.now16_noteSafe, State.noteSafe, hu, hk]
      simp
    · rw [State.lg_noteSafe_other hn, State.now16_noteSafe]
      exact hl.imp_left fun h => (List.mem_cons.1 h).resolve_left hn

theorem State.gated_safeAt (f : State → State) (hk : k < 8) (hf : (f s).lgSafe k = true) (hs : s.lgSafe k = false) :
    ((s.gated f).lg k).safeAt = some ((f s).now16, s.gatePins k) := by
  rw [State.gated_eq]
  exact State.safeAt_foldl_noteSafe hs _ _ hf (.inl (List.mem_range.2 hk))

end

/-- Settles O50: the rows act so once what they wait for holds; a step's edges leave its floating phase off, and each leg of a stepper
drives one output at most. -/
theorem gateTimerRows : Obligations.GateTimerRows := by
  unfold Obligations.GateTimerRows
  refine ⟨fun _ => localCmdLaunch_due, fun _ _ _ => localApplyInstant_due, fun _ _ => carrierPeriodStart_running,
    fun _ t h => State.onGrid_free h t, fun _ t h => State.onGrid_whole h t, fun _ _ _ _ => mixedDecayEnd_fast,
    fun _ e ha => delayLineCalibration_awake ha e, fun _ _ _ _ => maskEvent_zc, fun _ _ _ => maskEvent_hall, ?starts, ?missed,
    fun _ _ _ => maskStep_due, fun _ _ _ h => if_pos h, ?steps, fun _ _ _ => gateShortDetect_awake, fun _ _ => State.gatePins_first,
    State.gatePins_fault, fun _ _ => State.gatePins_latch, fun _ _ => State.gatePins_lower, fun _ _ _ => State.wavePins_legs,
    fun _ f _ => State.gated_safeAt f⟩
  case starts =>
    intro s k e he hm hq hf hb hd
    rw [State.maskEvent_qualified he hm hq hf, if_pos ⟨hb, hd⟩]
  case missed =>
    intro s k e he hm hq hf hb
    rw [State.maskEvent_qualified he hm hq hf, if_neg]
    rintro ⟨hblank, hd⟩
    rcases hb with hb | hb
    · exact Bool.false_ne_true (hb.symm.trans hblank)
    · exact hb hd
  case steps =>
    intro s k t h
    have hs := State.maskStep_stepped h t
    exact ⟨hs.step, hs.delay, hs.stepAt, hs.ev, hs.floats, hs.others⟩

end Sys2Proof.Machine
end

section
/-! PROOF. The converters (R309 to R317). -/

namespace Sys2Proof.Machine

section
variable {s : State} {j i : Nat}

/-! ### Timed starts (R311, R312) -/

/-- A timed entry's start in a cycle, run on to. -/
def State.toStart (s : State) (j i : Nat) (cycle : Word) : State :=
  match s.instant cycle (s.seqSample j i - 30) with
  | some x => s.advanceTo x
  | none => s

theorem State.toStart_cases (s : State) (j i : Nat) (c : Word) :
    (s.instant c (s.seqSample j i - 30) = none ∧ s.toStart j i c = s)
      ∨ ∃ x, s.instant c (s.seqSample j i - 30) = some x ∧ s.toStart j i c = s.advanceTo x := by
  unfold State.toStart
  cases s.instant c (s.seqSample j i - 30) with
  | none => exact .inl ⟨rfl, rfl⟩
  | some x => exact .inr ⟨x, rfl, rfl⟩

/-- A converter of a running unit. -/
theorem adcTimedStart_runs (hj : j < 16) (hr : s.bit Reg.adcCtrlRunning = true) (ha : s.awake = true) :
    (decide (16 ≤ j) || !s.bit Reg.adcCtrlRunning || !s.awake) = false := by simp [hj, hr, ha]

theorem adcTimedStart_free {early : Bool} (hj : j < 16) (hr : s.bit Reg.adcCtrlRunning = true) (ha : s.awake = true)
    (hn : s.timedNext j = some (i, early)) (hc : (s.conv j).run = none) : exec (.adcTimedStart j) s = .next (
      let t := s.toStart j i (if early then s.cycle + 1#32 else s.cycle)
      (if early then t else t.seqTake j i).convStart j i (t.seqChan j i) (t.seqUrg j i) false early) := by
  have hruns := adcTimedStart_runs hj hr ha
  change execAdcTimedStart j s = _
  rcases s.toStart_cases j i (if early then s.cycle + 1#32 else s.cycle) with ⟨hx, ht⟩ | ⟨x, hx, ht⟩ <;>
    simp only [execAdcTimedStart, hruns, hn, hx, ht, State.conv_advanceTo, hc, Option.isNone_none, Bool.false_eq_true, if_false, if_true]

theorem adcTimedStart_busy {r : Conv} (hj : j < 16) (hr : s.bit Reg.adcCtrlRunning = true) (ha : s.awake = true)
    (hn : s.timedNext j = some (i, false)) (hc : (s.conv j).run = some r) : exec (.adcTimedStart j) s = .next (
      let t := s.toStart j i s.cycle
      if t.seqUrg j i = false then (t.incFld Reg.adcStatLate).setConv j { t.conv j with idx := i, due := true }
      else
        let u := if t.mayAbort r then t else t.incFld Reg.adcStatLate
        (u.seqTake j i).urgentReq j i (u.seqChan j i)) := by
  have hruns := adcTimedStart_runs hj hr ha
  change execAdcTimedStart j s = _
  rcases s.toStart_cases j i s.cycle with ⟨hx, ht⟩ | ⟨x, hx, ht⟩ <;>
    cases hu : (s.toStart j i s.cycle).seqUrg j i <;> rw [ht] at hu <;>
    simp only [execAdcTimedStart, hruns, hn, hx, ht, hu, State.conv_advanceTo, hc, Option.isNone_some, Bool.true_and, Bool.false_and,
      Bool.false_eq_true, Bool.true_eq_false, if_false, if_true]

/-- A timed entry that the table comes to after a conversion is due, and counted late, once its start has gone by. -/
theorem State.seqNext_timed {e : Nat} {t : Int} (he : s.seqAt j 65 i = e) (hlt : e < 64) (hk : s.seqKind j e = 0)
    (hd : (s.conv j).due = false) (ht : s.instant s.cycle (s.seqSample j e - 30) = some t) :
    (t < s.now16 → s.seqNext j true i = ((s.incFld Reg.adcStatLate).setConv j { s.conv j with due := true }).seqGo j true i)
      ∧ (s.now16 ≤ t → s.seqNext j true i = s.seqGo j true i) := by
  have hnext : s.seqNext j true i = if t < s.now16 then
      ((s.incFld Reg.adcStatLate).setConv j { s.conv j with due := true }).seqGo j true i else s.seqGo j true i := by
    subst he
    simp only [State.seqNext, hlt, hk, hd, ht, decide_true, beq_self_eq_true, Bool.not_false, Bool.and_self, Bool.true_and, Bool.and_true,
      decide_eq_true_eq]
  rw [hnext]
  exact ⟨fun h => if_pos h, fun h => if_neg (Int.not_lt.2 h)⟩

/-! ### Results and records (R313, R316, R317) -/

/-- The result of a request in range, of no table's entry. -/
theorem adcConversionComplete_request {r : AdcRaw} {c : Conv} (hj : j < 16) (ha : s.awake = true) (hc : (s.conv j).run = some c)
    (he : c.entry = 64) (hu : (s.conv j).urgent = []) (hab : (s.conv j).aborted = none) (hr : r.above = false) (hb : r.below = false) :
    exec (.adcConversionComplete j r) s = .next (
      let a := s.advanceTo (c.start + ns16 200)
      let x := a.conv j
      let nb := match x.lastOvr with | some n => n != c.chan | none => false
      let w := BitVec.ofNat 32 (bitN nb * 2 ^ 30 + bitN c.rst * 2 ^ 29 + 63 * 65536 + a.calibrated c.chan r.code.toNat)
      let b := (a.setReg (0x340100 + 4 * c.chan) w).indResult c.chan w (c.start + ns16 30)
      (b.setConv j { x with run := none, lastOvr := none }).seqNext j (b.convFits b.now16) x.idx) := by
  have hthere : (decide (16 ≤ j) || !s.awake) = false := by simp [hj, ha]
  have hovr : bitN false = 0 := rfl
  change execAdcConversionComplete j r s = _
  cases hl : (s.conv j).lastOvr <;>
    simp only [execAdcConversionComplete, hc, hthere, he, hr, hb, hl, State.conv_advanceTo, hu, hab, Bool.or_self, Bool.false_eq_true,
      if_false, Nat.lt_irrefl, decide_false, Bool.false_and, hovr, Nat.zero_mul, Nat.zero_add, if_true]

theorem adcRecordDue_unsent (he : s.edgesRun = true) (ha : s.awake = true) (hs : s.adc.sent = false) :
    exec .adcRecordDue s = .next (
      let t := s.toInstant (s.fld Reg.adcDueDue)
      ((List.range 8).foldl (fun s k =>
        if (s.axisCfg (256 + k)).isNone then s
        else
          let y := s.localRecord k
          y.1.axisToken adcPort (256 + k) y.2) ({ t with adc := { t.adc with sent := true } } : State)).note) := by
  change execAdcRecordDue s = _
  simp only [execAdcRecordDue, he, ha, hs, Bool.not_true, Bool.or_self, Bool.false_eq_true, if_false]

/-! ### Calibration (R314, R315) -/

section
variable {sum ch pt tgt : Nat} {x : Nat × CmdIn}

theorem adcCalComplete_outOfRange (h : s.calCmd = some (x, ch, pt, tgt)) :
    exec (.adcCalComplete sum true) s = .next (s.calDone.finish x 0x0A {}) := by
  change execAdcCalComplete sum true s = _
  simp only [execAdcCalComplete, h, if_true]

theorem adcCalComplete_first (h : s.calCmd = some (x, ch, 0, tgt)) : exec (.adcCalComplete sum false) s = .next (
    let t : State := { s with adc := { s.adc with cal := none, points := Tab.ins (Tab.drop s.adc.points ch) ch (sum, tgt) } }
    t.finish x 0 { data := t.calData ch }) := by
  change execAdcCalComplete sum false s = _
  simp only [execAdcCalComplete, h, Bool.false_eq_true, if_false, if_true]
  rfl

theorem adcCalComplete_second {p : Nat × Nat} (h : s.calCmd = some (x, ch, pt, tgt)) (hpt : pt ≠ 0)
    (hp : Tab.find s.adc.points ch = some p) (hs : p.1 + 65536 ≤ sum) (hlo : 0x8000 ≤ calGain p (sum, tgt))
    (hhi : calGain p (sum, tgt) ≤ 0x1FFFF) : exec (.adcCalComplete sum false) s = .next (
      let g := calGain p (sum, tgt)
      let t := (s.calDone.setFld Reg.adcGainGain g.toNat (4 * ch)).setFld Reg.adcOffOff (BitVec.ofInt 20 (calOffset p g)).toNat (4 * ch)
      t.finish x 0 { data := t.calData ch }) := by
  have hpoint : Tab.find s.calDone.adc.points ch = some p := hp
  have hfits : (decide (sum < p.1 + 65536) || decide (calGain p (sum, tgt) < 0x8000)
      || decide (0x1FFFF < calGain p (sum, tgt))) = false := by
    simp only [Bool.or_eq_false_iff, decide_eq_false_iff_not]
    omega
  change execAdcCalComplete sum false s = _
  simp only [execAdcCalComplete, h, hpt, hpoint, hfits, Bool.false_eq_true, if_false]

theorem adcCalTimeout_waiting {y : Nat × Nat × Nat} (h : s.calCmd = some (x, y)) :
    exec .adcCalTimeout s = .next ((s.runTo (s.adc.calAt + 5000000)).calDone.finish x 9 {}) := by
  change execAdcCalTimeout s = _
  simp only [execAdcCalTimeout, h]

end
end

/-- Settles O51: each row acts so once what it waits for holds. -/
theorem converterRows : Obligations.ConverterRows := by
  unfold Obligations.ConverterRows
  exact ⟨fun _ _ _ _ => adcTimedStart_free, fun _ _ _ _ => adcTimedStart_busy,
    fun _ _ _ h => by rw [State.seqTake, if_pos h], fun _ _ _ h => by rw [State.seqTake, if_neg h],
    fun _ _ _ _ _ => State.seqNext_timed, fun _ _ _ _ => adcConversionComplete_request, fun _ => adcRecordDue_unsent,
    fun _ _ _ _ _ => adcCalComplete_first, fun _ _ _ _ _ _ => adcCalComplete_outOfRange, fun _ _ _ _ _ _ _ => adcCalComplete_second,
    fun _ _ _ => adcCalTimeout_waiting⟩

end Sys2Proof.Machine
end

section
/-! PROOF. The position interfaces (R318 to R327, R403). -/

namespace Sys2Proof.Machine

section
variable {s : State} {k : Nat}

theorem State.woadOn_of_awake (ha : s.awake = true) : s.woadOn = true := by rw [State.woadOn, ha, Bool.true_or]

/-! ### Counting (R319 to R321, R403) -/

/-- Woad B's counter touches nothing of the control side. -/
@[simp] theorem State.awake_shadowEdge (s : State) (k : Nat) (e : QuadEdge) : (s.shadowEdge k e).awake = s.awake := by
  unfold State.shadowEdge
  split
  · rfl
  · cases e <;> rfl

@[simp] theorem State.awake_shadowStep (s : State) (k : Nat) (down : Bool) : (s.shadowStep k down).awake = s.awake := by rfl
@[simp] theorem State.fbMode_shadowStep (s : State) (k : Nat) (down : Bool) (n : Nat) :
    (s.shadowStep k down).fbMode n = s.fbMode n := by rfl
@[simp] theorem State.bit_shadowStep (s : State) (k : Nat) (down : Bool) (f : Fld) (b : Nat) :
    (s.shadowStep k down).bit f b = s.bit f b := by rfl

/-- An edge in quadrature mode, which Woad B's counter takes too. -/
theorem fbQuadEdge_counts (hk : k < 8) (ha : s.awake = true) (hm : s.fbMode k = 1) :
    exec (.fbQuadEdge k .up) s = .next ((s.shadowStep k false).countEdge k (s.bit Reg.fbStatSwapFixed (fbBase k)))
      ∧ exec (.fbQuadEdge k .down) s = .next ((s.shadowStep k true).countEdge k (!s.bit Reg.fbStatSwapFixed (fbBase k)))
      ∧ exec (.fbQuadEdge k .both) s = .next (((s.incFld Reg.fbStatQerr (fbBase k)).setFb k { s.fb k with qerr := true }).fbNote k) := by
  have hthere : (decide (8 ≤ k) || !s.woadOn) = false := by simp [hk, State.woadOn_of_awake ha]
  have hcounts : (!s.awake || decide (s.fbMode k ≠ 1)) = false := by simp [ha, hm]
  have hpins : ¬ 2 ≤ s.fbMode k := by omega
  have hup : s.shadowEdge k .up = s.shadowStep k false := if_neg hpins
  have hdown : s.shadowEdge k .down = s.shadowStep k true := if_neg hpins
  have hboth : s.shadowEdge k .both = s := if_neg hpins
  refine ⟨?up, ?down, ?both⟩
  case up =>
    change execFbQuadEdge k .up s = _
    simp only [execFbQuadEdge, hthere, hup, State.awake_shadowStep, State.fbMode_shadowStep, hcounts, Bool.false_eq_true, if_false,
      State.bit_shadowStep]
  case down =>
    change execFbQuadEdge k .down s = _
    simp only [execFbQuadEdge, hthere, hdown, State.awake_shadowStep, State.fbMode_shadowStep, hcounts, Bool.false_eq_true, if_false,
      State.bit_shadowStep]
  case both =>
    change execFbQuadEdge k .both s = _
    simp only [execFbQuadEdge, hthere, hboth, hcounts, Bool.false_eq_true, if_false]

theorem fbQuadEdge_asleep {e : QuadEdge} (hk : k < 8) (hw : s.woadOn = true) (ha : s.awake = false) :
    exec (.fbQuadEdge k e) s = .next (s.shadowEdge k e) := by
  have hthere : (decide (8 ≤ k) || !s.woadOn) = false := by simp [hk, hw]
  have hrests : (!(s.shadowEdge k e).awake || decide ((s.shadowEdge k e).fbMode k ≠ 1)) = true := by simp [ha]
  change execFbQuadEdge k e s = _
  simp only [execFbQuadEdge, hthere, hrests, Bool.false_eq_true, if_false, if_true]

/-- A step of a counter on a circle of `n` counts. -/
theorem circleStep_eq {pos n : Nat} (h : pos < n) (down : Bool) :
    ((if down then (if pos = 0 then n - 1 else pos - 1) else if n ≤ pos + 1 then 0 else pos + 1 : Nat) : Int)
      = ((pos : Int) + if down then -1 else 1) % (n : Int) := by
  cases down with
  | false =>
    simp only [Bool.false_eq_true, if_false]
    split
    · rw [show (pos : Int) + 1 = n by omega]
      simp
    · rw [Int.emod_eq_of_lt (by omega) (by omega)]
      omega
  | true =>
    simp only [if_true]
    split
    · rw [← Int.add_emod_right, Int.emod_eq_of_lt (by omega) (by omega)]
      omega
    · rw [Int.emod_eq_of_lt (by omega) (by omega)]
      omega

theorem State.shadowStep_count (s : State) (k : Nat) (down : Bool) :
    s.shadowStep k down = { s with woad := { s.woad with shadow := (s.shadowStep k down).woad.shadow } }
      ∧ (∀ j, j ≠ k → Tab.get 0#32 (s.shadowStep k down).woad.shadow j = Tab.get 0#32 s.woad.shadow j)
      ∧ ((Tab.get 0#32 s.woad.shadow k).toNat < s.shadowCpr k → s.shadowCpr k ≤ 2 ^ 32 →
          ((Tab.get 0#32 (s.shadowStep k down).woad.shadow k).toNat : Int)
            = ((Tab.get 0#32 s.woad.shadow k).toNat + if down then -1 else 1) % (s.shadowCpr k : Int)) := by
  refine ⟨rfl, fun j hj => Tab.get_put_other _ _ _ _ _ hj, fun hpos hn => ?_⟩
  rw [← circleStep_eq hpos, State.shadowStep, Tab.get_put_same, BitVec.toNat_ofNat]
  congr 1
  refine Nat.mod_eq_of_lt (Nat.lt_of_lt_of_le ?_ hn)
  split <;> split <;> omega

/-- The Z latch, and what the mode of Z does besides (R320). -/
theorem fbZEdge_latches (hk : k < 8) (ha : s.awake = true) (hm : s.fbMode k = 1) (hz : s.fld Reg.fbCfgZMode (fbBase k) ≠ 0) :
    exec (.fbZEdge k) s = .next (
      let b := fbBase k
      let z := s.fld Reg.fbCfgZMode b
      let pos := s.fld Reg.fbPos b
      let t := s.setFld Reg.fbZlatch pos b
      if z = 2 ∧ (t.fb k).zeroed = false then (t.setFld Reg.fbPos 0 b).setFb k { t.fb k with zeroed := true }
      else if z = 3 then
        match (t.fb k).firstZ with
        | none => t.setFb k { t.fb k with firstZ := some (BitVec.ofNat 32 pos) }
        | some f => if t.fld Reg.fbCfgZTol b < circDist (t.cpr k) pos f.toNat then (t.setBit Reg.fbStatZerr true b).fbNote k else t
      else t) := by
  have hthere : (decide (8 ≤ k) || !s.awake || decide (s.fbMode k ≠ 1) || decide (s.fld Reg.fbCfgZMode (fbBase k) = 0)) = false := by
    simp [hk, ha, hm, hz]
  change execFbZEdge k s = _
  simp only [execFbZEdge, hthere, Bool.false_eq_true, if_false]
  generalize s.fld Reg.fbCfgZMode (fbBase k) = z
  match z with
  | 2 => cases hzero : (s.fb k).zeroed <;> simp [hzero]
  | 3 => cases hfirst : (s.fb k).firstZ <;> simp [hfirst]
  | 0 | 1 | n + 4 => simp

/-! ### Hall inputs (R302, R303, R324, R325) -/

section
variable {h : BitVec 3}

theorem fbHallChange_awake (hk : k < 8) (ha : s.awake = true) : exec (.fbHallChange k h) s = .next (s.hallChange k h) := by
  have hthere : (decide (8 ≤ k) || !s.awake) = false := by simp [hk, ha]
  change execFbHallChange k h s = _
  simp only [execFbHallChange, hthere, Bool.false_eq_true, if_false]

theorem State.hallChange_unread (hu : s.bit Reg.fbCfgHallEn (fbBase k) = false ∨ ((s.fb k).hallRead = true ∧ h.toNat = (s.fb k).hall)) :
    s.hallChange k h = s.setFb k { s.fb k with hallPin := some h.toNat } := by
  have hsame : (!s.bit Reg.fbCfgHallEn (fbBase k) || ((s.fb k).hallRead && h.toNat == (s.fb k).hall)) = true := by simpa using hu
  simp only [State.hallChange, State.bit_setFb, hsame, if_true]

/-- An interface reads a Hall state that is its first one or a new one. -/
def State.readHall (s : State) (k : Nat) (h : BitVec 3) : State :=
  s.setFb k { s.fb k with hallPin := some h.toNat, hall := h.toNat, hallRead := true }

theorem State.hall_new (he : s.bit Reg.fbCfgHallEn (fbBase k) = true) (hn : (s.fb k).hallRead = false ∨ h.toNat ≠ (s.fb k).hall) :
    (!s.bit Reg.fbCfgHallEn (fbBase k) || ((s.fb k).hallRead && h.toNat == (s.fb k).hall)) = false := by
  simpa only [he, Bool.not_true, Bool.false_or, Bool.and_eq_false_iff, beq_eq_false_iff_ne] using hn

/-- An invalid state. -/
theorem State.hallChange_invalid (he : s.bit Reg.fbCfgHallEn (fbBase k) = true)
    (hn : (s.fb k).hallRead = false ∨ h.toNat ≠ (s.fb k).hall) (hi : h = 0#3 ∨ h = 7#3) :
    s.hallChange k h = ((s.readHall k h).setBit Reg.fbStatHallErr true (fbBase k)).fbNote k := by
  have hbad : (decide (h.toNat = 0) || decide (h.toNat = 7)) = true := by rcases hi with rfl | rfl <;> rfl
  simp only [State.hallChange, State.bit_setFb, State.setFb_setFb, State.hall_new he hn, hbad, if_true, Bool.false_eq_true, if_false,
    State.readHall]

/-- The first valid state: the masks that take their events from these inputs take it. -/
theorem State.hallChange_first (he : s.bit Reg.fbCfgHallEn (fbBase k) = true) (hn : (s.fb k).hallRead = false ∨ h.toNat ≠ (s.fb k).hall)
    (h0 : h ≠ 0#3) (h7 : h ≠ 7#3) (hv : (s.fb k).valid = none) : s.hallChange k h =
      let t := s.readHall k h
      let u := (t.hallMasks k).foldl (fun u n => u.maskEvent n (.hall h)) t
      (u.setFb k { u.fb k with valid := some h.toNat, moved := 0 }).fbNote k := by
  have hgood : (decide (h.toNat = 0) || decide (h.toNat = 7)) = false := by
    simp only [Bool.or_eq_false_iff, decide_eq_false_iff_not]
    exact ⟨fun e => h0 (BitVec.eq_of_toNat_eq e), fun e => h7 (BitVec.eq_of_toNat_eq e)⟩
  simp only [State.hallChange, State.bit_setFb, State.setFb_setFb, State.hall_new he hn, hgood, hv, Option.bind_none, Bool.false_eq_true,
    if_false, State.readHall]

end

/-! ### Serial sensors (R322, R323) -/

theorem fbSerialRequest_due (hk : k < 8) (ha : s.awake = true) (hm : 2 ≤ s.fbMode k) (hw : (s.fb k).waits = false)
    (he : s.edgesRun = true) : exec (.fbSerialRequest k) s = .next (
      let t := match s.instant (s.cycle + 1#32) (-(s.fld Reg.fbLeadLead (fbBase k) : Int)) with
        | some x => s.advanceTo x
        | none => s
      (t.setFb k { t.fb k with waits := true, good := false }).emit (.serialRequest k)) := by
  have hasks : (decide (8 ≤ k) || !s.awake || decide (s.fbMode k < 2) || (s.fb k).waits || !s.edgesRun) = false := by
    rw [decide_eq_false (Nat.not_le.2 hk), ha, decide_eq_false (Nat.not_lt.2 hm), hw, he]
    rfl
  change execFbSerialRequest k s = _
  cases hx : s.instant (s.cycle + 1#32) (-(s.fld Reg.fbLeadLead (fbBase k) : Int)) <;>
    simp only [execFbSerialRequest, hasks, hx, Bool.false_eq_true, if_false]

section
variable {f : SerialFrame}

/-- A serial interface that waits for its frame. -/
theorem fbSerialFrame_waits (hk : k < 8) (ha : s.awake = true) (hw : (s.fb k).waits = true) (hm : 2 ≤ s.fbMode k) :
    (decide (8 ≤ k) || !s.awake || !(s.fb k).waits || decide (s.fbMode k < 2)) = false := by
  rw [decide_eq_false (Nat.not_le.2 hk), ha, hw, decide_eq_false (Nat.not_lt.2 hm)]
  rfl

theorem fbSerialFrame_bad (hk : k < 8) (ha : s.awake = true) (hw : (s.fb k).waits = true) (hm : 2 ≤ s.fbMode k)
    (hf : s.frameGood k f = false) : exec (.fbSerialFrame k f) s = .next ((s.serFail k).fbNote k) := by
  have hwaits := fbSerialFrame_waits hk ha hw hm
  change execFbSerialFrame k f s = _
  simp only [execFbSerialFrame, hwaits, hf, Bool.not_false, Bool.false_eq_true, if_false, if_true]

/-- A good frame whose position is taken as it is. -/
theorem fbSerialFrame_good (hk : k < 8) (ha : s.awake = true) (hw : (s.fb k).waits = true) (hm : 2 ≤ s.fbMode k)
    (hf : s.frameGood k f = true) (hp : (s.fb k).prev = none ∨ s.bit Reg.fbCfgExtrap (fbBase k) = false) :
    exec (.fbSerialFrame k f) s = .next (
      let b := fbBase k
      let p := s.serField k f.data
      let x := s.fb k
      let t := ((s.setFld Reg.fbStatSerFail 0 b).setBit Reg.fbStatSerErr false b).setBit Reg.fbStatWarn (f.warn && s.fbMode k == 3) b
      let t := t.setFld Reg.fbPos p b
      let t := (t.setFb k { x with waits := false, passed := false, good := true, prev := some (BitVec.ofNat 32 p) }).fbNote k
      if x.passed then (t.setFld Reg.fbLatchPos p b).fbExt k true else t) := by
  have hwaits := fbSerialFrame_waits hk ha hw hm
  change execFbSerialFrame k f s = _
  cases hq : (s.fb k).prev with
  | none => simp only [execFbSerialFrame, hwaits, hf, hq, Bool.not_true, Bool.false_eq_true, if_false]
  | some q =>
    have hx : s.bit Reg.fbCfgExtrap (fbBase k) = false := hp.resolve_left (by simp [hq])
    simp only [execFbSerialFrame, hwaits, hf, hq, hx, Bool.not_true, Bool.false_eq_true, if_false]

end

theorem fbSerialDeadline_missed (hk : k < 8) (ha : s.awake = true) (hw : (s.fb k).waits = true) (hp : (s.fb k).passed = true)
    (hm : 2 ≤ s.fbMode k) : exec (.fbSerialDeadline k) s = .next (((s.toInstant 170).serFail k).fbNote k) := by
  have hwaits : (decide (8 ≤ k) || !s.awake || !(s.fb k).waits || !(s.fb k).passed || decide (s.fbMode k < 2)) = false := by
    rw [decide_eq_false (Nat.not_le.2 hk), ha, hw, hp, decide_eq_false (Nat.not_lt.2 hm)]
    rfl
  change execFbSerialDeadline k s = _
  simp only [execFbSerialDeadline, hwaits, Bool.false_eq_true, if_false]

/-! ### Pairs (R325) -/

theorem fbPairLoss_used {p : Nat} {x : PairShow} (hk : k < 8) (ha : s.awake = true)
    (hu : (s.fbMode k = 1 ∧ p < 3) ∨ (2 ≤ s.fbMode k ∧ p = 1)) : exec (.fbPairLoss k p x) s = .next (
      let b := fbBase k
      if x = .good then
        let t := s.setFld Reg.fbStatLost (Nat.land (s.fld Reg.fbStatLost b) (7 - 2 ^ (2 - p))) b
        (if t.fld Reg.fbStatLost b = 0 then t.setBit Reg.fbStatShorted false b else t).fbNote k
      else
        let t := (s.setFld Reg.fbStatLost (Nat.lor (s.fld Reg.fbStatLost b) (2 ^ (2 - p))) b).setBit Reg.fbStatShorted
          (decide (x = .shorted)) b
        (if p = 2 then t else t.fbFault k).fbNote k) := by
  change execFbPairLoss k p x s = _
  simp only [execFbPairLoss]
  rw [if_neg]
  case hnc =>
    simp only [hk, ha, Nat.not_le.2, decide_false, Bool.not_true, Bool.or_self, Bool.false_or, Bool.not_eq_true', Bool.not_eq_false]
    split
    · omega
    · exact decide_eq_true (by omega)
    · rw [beq_iff_eq]
      rcases hu with ⟨hm, -⟩ | ⟨-, hp⟩
      · contradiction
      · exact hp
  cases x <;> rfl

end

/-- Settles O52: each row acts so once what it waits for holds; Woad B's counter goes round its circle by one count. -/
theorem feedbackRows : Obligations.FeedbackRows := by
  unfold Obligations.FeedbackRows
  refine ⟨fun _ _ => fbQuadEdge_counts, fun _ _ _ => fbQuadEdge_asleep, State.shadowStep_count, fun _ _ => fbZEdge_latches,
    ?unread, ?invalid, ?first, fun _ _ => fbSerialRequest_due, fun _ _ _ => fbSerialFrame_bad, fun _ _ _ => fbSerialFrame_good,
    fun _ _ => fbSerialDeadline_missed, fun _ _ _ _ => fbPairLoss_used⟩
  case unread =>
    intro s k h hk ha hu
    rw [fbHallChange_awake hk ha, State.hallChange_unread hu]
  case invalid =>
    intro s k h hk ha he hn hi
    rw [fbHallChange_awake hk ha, State.hallChange_invalid he hn hi]
    rfl
  case first =>
    intro s k h hk ha he hn h0 h7 hv
    rw [fbHallChange_awake hk ha, State.hallChange_first he hn h0 h7 hv]
    rfl

end Sys2Proof.Machine
end

section
/-! PROOF. The time unit's own instants and the backbone's frames (R330 to R335, R339 to R354). -/

namespace Sys2Proof

/-! ### Event messages by their bytes (R343) -/

/-- Bytes before the place read from do not matter. -/
theorem beNumAt_append (a b : List Byte) (k n : Nat) : beNumAt (a ++ b) (a.length + k) n = beNumAt b k n := by
  rw [beNumAt, beNumAt, List.drop_length_add_append]

/-- The bytes behind the two addresses of a frame. -/
theorem beNumAt_addresses {a : List Byte} (ha : a.length = 12) (b m : List Byte) (k n : Nat) :
    beNumAt (a ++ b ++ m) (12 + k) n = beNumAt (b ++ m) k n := by
  rw [List.append_assoc, ← ha, beNumAt_append]

/-- R343: of ethertype 0x88F7 a frame is an event message by the two bytes after it. -/
theorem ptpEvent_ethernet {bs : List Byte} {t : Nat} (ht : (if beNumAt bs 12 2 = 0x8100 then 16 else 12) = t)
    (he : beNumAt bs t 2 = 0x88F7) (hl : t + 4 ≤ bs.length) :
    ptpEvent bs = (decide (beNumAt bs (t + 3) 1 % 16 = 2) && decide (beNumAt bs (t + 2) 1 % 16 ≤ 3)) := by
  have hplace : ptpPlace bs = (t + 2, none) := by
    simp only [ptpPlace, ht, he]
    rfl
  simp only [ptpEvent, ht, he, hplace, hl, true_and, decide_true, Bool.true_or, Bool.true_and, Bool.decide_and]

section

variable {a m : List Byte} (ty ver : Byte) (ha : a.length = 12)
include ha

theorem ptpEvent_untagged : ptpEvent (a ++ [0x88#8, 0xF7#8, ty, ver] ++ m)
    = (decide (ver.toNat % 16 = 2) && decide (ty.toNat % 16 ≤ 3)) := by
  have hread := beNumAt_addresses ha [0x88#8, 0xF7#8, ty, ver] m
  have hetype : beNumAt (a ++ [0x88#8, 0xF7#8, ty, ver] ++ m) 12 2 = 0x88F7 := hread 0 2
  rw [ptpEvent_ethernet (t := 12) (by rw [hetype]; rfl) hetype (by simp [ha]; omega), hread 3, hread 2]
  simp [beNumAt]

theorem ptpEvent_tagged (v0 v1 : Byte) : ptpEvent (a ++ [0x81#8, 0x00#8, v0, v1, 0x88#8, 0xF7#8, ty, ver] ++ m)
    = (decide (ver.toNat % 16 = 2) && decide (ty.toNat % 16 ≤ 3)) := by
  have hread := beNumAt_addresses ha [0x81#8, 0x00#8, v0, v1, 0x88#8, 0xF7#8, ty, ver] m
  rw [ptpEvent_ethernet (t := 16) (if_pos (hread 0 2)) (hread 4 2) (by simp [ha]; omega), hread 7, hread 6]
  simp [beNumAt]

end

end Sys2Proof

namespace Sys2Proof.Machine

/-! ### Ticks and ramp boundaries (R330, R333, R334) -/

@[simp] theorem TimeSt.left_taken (t : TimeSt) : t.taken.left = t.left := by unfold TimeSt.taken; split <;> rfl
@[simp] theorem TimeSt.ran_taken (t : TimeSt) : t.taken.ran = t.ran := by unfold TimeSt.taken; split <;> rfl
@[simp] theorem TimeSt.tgt_taken (t : TimeSt) : t.taken.tgt = t.tgt := by unfold TimeSt.taken; split <;> rfl
@[simp] theorem TimeSt.total_taken (t : TimeSt) : t.taken.total = t.total := by unfold TimeSt.taken; split <;> rfl

theorem Slew.ticks_pos (w : Slew) : 0 < w.ticks := by unfold Slew.ticks; omega

/-- An increment at its target stays there. -/
theorem stepToward_self (n step : Nat) : stepToward n n step = n := by simp [stepToward]

/-- The time value holds a count of units below 2^64 seconds. -/
theorem TimeSt.total_setTotal {x : Nat} (t : TimeSt) (hx : x < 2 ^ 40 * (1000000000 * 2 ^ 64)) : (t.setTotal x).total = x := by
  simp only [TimeSt.total, TimeSt.setTotal, BitVec.toNat_ofNat]
  omega

/-- Fewer ticks than are left to the next boundary. -/
theorem TimeSt.run_short (w : Slew) (need : TimeSt → Nat) (fuel : Nat) (t : TimeSt) (h : need t < t.left) :
    t.run w need (fuel + 1) = t.pass w (need t) := by
  simp only [TimeSt.run, h, decide_true, Bool.true_or, if_true]

/-- As many ticks as are left: the boundary is the last thing that happens. -/
theorem TimeSt.run_boundary (w : Slew) (need : TimeSt → Nat) (fuel : Nat) (t : TimeSt) (h : need t = t.left)
    (h0 : need ((t.add t.left).boundary w) = 0) :
    t.run w need (fuel + 2) = if t.steady w then t.pass w t.left else ((t.add t.left).boundary w).pass w 0 := by
  have hshort : need ((t.add t.left).boundary w) < ((t.add t.left).boundary w).left := h0 ▸ w.ticks_pos
  rw [TimeSt.run]
  simp only [h, Nat.lt_irrefl, decide_false, Bool.false_or, TimeSt.run_short _ _ _ _ hshort, h0]

@[simp] theorem TimeSt.inc_pass (t : TimeSt) (w : Slew) (k : Nat) : (t.pass w k).inc = t.inc := by cases t; rfl
@[simp] theorem TimeSt.tgt_pass (t : TimeSt) (w : Slew) (k : Nat) : (t.pass w k).tgt = t.tgt := by cases t; rfl
@[simp] theorem TimeSt.ran_pass (t : TimeSt) (w : Slew) (k : Nat) : (t.pass w k).ran = t.ran + k := by cases t; rfl

/-- R330: each tick adds the increment. -/
theorem TimeSt.total_pass {k : Nat} (t : TimeSt) (w : Slew) (hx : t.total + k * t.inc.toNat < 2 ^ 40 * (1000000000 * 2 ^ 64)) :
    (t.pass w k).total = t.total + k * t.inc.toNat := by
  rw [← TimeSt.total_setTotal t hx]
  cases t
  rfl

theorem TimeSt.left_pass_short {k : Nat} (t : TimeSt) (w : Slew) (h : k < t.left) : (t.pass w k).left = t.left - k := if_pos h

/-- Up to the next boundary the next one after it is a whole interval away. -/
theorem TimeSt.left_pass_boundary (t : TimeSt) (w : Slew) : (t.pass w t.left).left = w.ticks := by simp [TimeSt.pass]

@[simp] theorem TimeSt.inc_boundary (t : TimeSt) (w : Slew) (k : Nat) :
    ((t.add k).boundary w).inc = BitVec.ofNat 48 (stepToward t.inc.toNat t.tgt.toNat w.step) := by cases t; rfl
@[simp] theorem TimeSt.tgt_boundary (t : TimeSt) (w : Slew) (k : Nat) : ((t.add k).boundary w).tgt = t.tgt := by cases t; rfl
@[simp] theorem TimeSt.ran_boundary (t : TimeSt) (w : Slew) (k : Nat) : ((t.add k).boundary w).ran = t.ran + k := by cases t; rfl

/-- R333: at the boundary the increment moves one step, and the next boundary is one interval away. -/
theorem TimeSt.boundary_reached (t : TimeSt) (w : Slew) :
    let u := if t.steady w then t.pass w t.left else ((t.add t.left).boundary w).pass w 0
    u.inc = BitVec.ofNat 48 (stepToward t.inc.toNat t.tgt.toNat w.step) ∧ u.tgt = t.tgt ∧ u.left = w.ticks
      ∧ u.ran = t.ran + t.left := by
  dsimp only
  split
  next hsteady =>
    have hinc : t.inc = t.tgt := (of_decide_eq_true hsteady).1
    exact ⟨by simp [hinc, stepToward_self], t.tgt_pass w _, t.left_pass_boundary w, t.ran_pass w _⟩
  next => exact ⟨by simp, by simp, TimeSt.left_pass_short _ w w.ticks_pos, by simp⟩

section

variable {s : State}

/-- The run of `k` ticks from the time at which the next tick stands. -/
theorem State.time_ticks {k : Nat} (hk : 0 < k) :
    (s.ticks k).time = s.time.taken.run s.slew (fun u => s.time.taken.ran + k - u.ran) (k / 500 + 1 + 2) := by
  rw [State.ticks, if_neg (Nat.ne_of_gt hk)]

theorem State.ticks_to_boundary (hl : 0 < s.time.left) :
    let t := s.time.taken
    let u := (s.ticks s.time.left).time
    u.inc = BitVec.ofNat 48 (stepToward t.inc.toNat t.tgt.toNat (s.fld Reg.timeSlewStep)) ∧ u.tgt = s.time.tgt
      ∧ u.left = 500 * max 1 (s.fld Reg.timeSlewInterval) ∧ u.ran = s.time.ran + s.time.left := by
  dsimp only
  rw [State.time_ticks hl, TimeSt.run_boundary]
  case h => simp
  case h0 => simp
  simpa only [TimeSt.left_taken, TimeSt.ran_taken, TimeSt.tgt_taken, Slew.ticks, State.slew] using s.time.taken.boundary_reached s.slew

theorem State.ticks_before_boundary {k : Nat} (hk : 0 < k) (hl : k < s.time.left) :
    let t := s.time.taken
    let u := (s.ticks k).time
    u.inc = t.inc ∧ u.left = s.time.left - k ∧ u.ran = s.time.ran + k
      ∧ (s.time.total + k * t.inc.toNat < 2 ^ 40 * (1000000000 * 2 ^ 64) → u.total = s.time.total + k * t.inc.toNat) := by
  have htime : (s.ticks k).time = s.time.taken.pass s.slew k := by
    rw [State.time_ticks hk, TimeSt.run_short _ _ _ _ (by simpa using hl), Nat.add_sub_cancel_left]
  dsimp only
  rw [htime, ← s.time.total_taken]
  exact ⟨by simp, by rw [TimeSt.left_pass_short _ _ (by simpa using hl), TimeSt.left_taken], by simp, TimeSt.total_pass _ _⟩

/-! ### Holdover, PPS_OUT, clock outputs (R335, R349, R350, R354) -/

theorem rampBoundary_awake (ha : s.awake = true) : exec .rampBoundary s = .next ((s.ticks s.time.left).rampStat) :=
  congrArg Host.Outcome.next (if_pos ha)

theorem holdoverExpiry_due (ha : s.awake = true) (hm : s.fld Reg.timeHoldStaleMs ≠ 0) (hs : s.bit Reg.timeStatStale = false) :
    exec .holdoverExpiry s = .next (
      let t := s.runTo (s.time.hold + 500000 * s.fld Reg.timeHoldStaleMs)
      (t.setFld Reg.timeStatStale 1).raise 0x50 1 10 96) :=
  congrArg Host.Outcome.next (if_neg (by simp [ha, hm, hs]))

theorem ppsRise_low (ha : s.awake = true) (hh : s.time.ppsHigh = false) : exec .ppsRise s = .next (
    let t := s.ppsPassed.advanceTo (sec16 s.ppsDue)
    let n := t.time.s.toNat
    ({ t with time := { t.time with ppsHigh := true, ppsFrom := n + 1
                                    ppsEnd := sec16 n + ns16 ((t.fld Reg.timePpsWidthUs : Int) * 1000) } } : State).emit
      (.pin "PPS_OUT" true)) :=
  congrArg Host.Outcome.next (if_neg (by simp [ha, hh]))

theorem ppsFall_high (ha : s.awake = true) (hh : s.time.ppsHigh = true) : exec .ppsFall s = .next (
    let t := s.advanceTo s.time.ppsEnd
    ({ t with time := { t.time with ppsHigh := false } } : State).emit (.pin "PPS_OUT" false)) :=
  congrArg Host.Outcome.next (if_neg (by simp [ha, hh]))

/-- The whole second after that of an instant is later than it. -/
theorem lt_sec16_next (x : Int) : x < sec16 (x / sec16 1 + 1).toNat := by
  have hsec : sec16 1 = 65536000000000 := rfl
  rw [hsec, sec16]
  omega

/-- R349 (log entry 212): behind a wave that is to stop, the new one begins at a whole second that leaves its last low half whole. -/
theorem clkTake_stopping {gs : List ClkSeg} {c : ClkSet} {t : Int} {g : ClkSeg} {e : Int} (hg : (clkLive gs t).getLast? = some g)
    (he : g.till = some e) :
    ∃ n, clkTake gs c t = clkLive gs t ++ [⟨c, sec16 n, none⟩] ∧ t < sec16 n ∧ e + g.set.half c ≤ sec16 n := by
  have hnext := lt_sec16_next (max t (e + g.set.half c - 1))
  refine ⟨((max t (e + g.set.half c - 1)) / sec16 1 + 1).toNat, ?_, by omega, by omega⟩
  simp only [clkTake, hg, he]

theorem clkOutLock_waiting {k : Nat} {c : ClkSet} (hc : Tab.find s.time.clkNext k = some c) : exec (.clkOutLock k) s = .next (
    let t := s.clkWave k (fun gs => clkTake gs c s.now16)
    ({ t with time := { t.time with clkNext := Tab.drop t.time.clkNext k } } : State).setFld Reg.timeClkCtrlPending 0 (0x10 * k)) := by
  change execClkOutLock k s = _
  simp only [execClkOutLock, hc]

/-! ### Frames received, lock (R339, R340, R352, R354) -/

variable {p : Nat}

/-- An enabled and locked port of the awake part carries frames. -/
theorem State.bbOff_false (hp : p < 2) (ha : s.awake = true) (hu : s.bbUp p = true) :
    (decide (2 ≤ p) || !s.awake || !s.bbUp p) = false := by simp [hp, ha, hu]

theorem bbFrameReceive_good {f : BbFrame} (hp : p < 2) (ha : s.awake = true) (hu : s.bbUp p = true) (hf : f.fcsOk = true)
    (hmin : 64 ≤ f.length) (hmax : f.length ≤ 1522) : exec (.bbFrameReceive p f) s = .next (s.bbDeliver p f) := by
  have hgood : (!f.fcsOk || decide (1522 < f.length)) = false := by simp [hf, hmax]
  change execBbFrameReceive p f s = _
  simp only [execBbFrameReceive, State.bbOff_false hp ha hu, hgood, Nat.not_lt.2 hmin, Bool.false_eq_true, if_false]

theorem bbFrameReceive_bad {f : BbFrame} (hp : p < 2) (ha : s.awake = true) (hu : s.bbUp p = true)
    (hf : f.fcsOk = false ∨ 1522 < f.length) : exec (.bbFrameReceive p f) s = .next (s.incFld Reg.bbCntRxErr (bbBase p)) := by
  have hbad : (!f.fcsOk || decide (1522 < f.length)) = true := by simpa using hf
  change execBbFrameReceive p f s = _
  simp only [execBbFrameReceive, State.bbOff_false hp ha hu, hbad, Bool.false_eq_true, if_false, if_true]

theorem bbLockLoss_locked (hp : p < 2) (ha : s.awake = true) (hl : s.bit Reg.bbStatLock (bbBase p) = true) :
    exec (.bbLockLoss p) s = .next (
      let t := s.setFld Reg.bbStatLock 0 (bbBase p)
      if t.bit Reg.bbCtrlEn (bbBase p) = true ∧ t.bit Reg.bbPairCtrlClosed = false then t.raise 0x51 1 10 (92 + p) else t) := by
  have hlocked : (decide (2 ≤ p) || !s.awake || !s.bit Reg.bbStatLock (bbBase p)) = false := by simp [hp, ha, hl]
  change execBbLockLoss p s = _
  simp only [execBbLockLoss, hlocked, Bool.false_eq_true, if_false, Bool.and_eq_true, Bool.not_eq_true']

theorem bbBlockLock_open (hp : p < 2) (ha : s.awake = true) (hc : s.bit Reg.bbPairCtrlClosed = false)
    (he : s.bit Reg.bbCtrlEn (bbBase p) = true) : exec (.bbBlockLock p) s = .next (s.setFld Reg.bbStatLock 1 (bbBase p)) :=
  congrArg Host.Outcome.next (if_neg (by simp [hp, ha, hc, he]))

/-! ### The guard of a timed frame and the head of the ring (R346, R347) -/

/-- R346: the guard begins one maximum frame time before the launch. -/
theorem State.bbGuard_timed {d : BbTxDesc} (ht : (s.bbSt p).timed = some d) :
    s.bbGuard p = true ↔ (txLaunch d - s.now16) * 100 ≤ s.maxFrame100 p := by
  simp only [State.bbGuard, ht, State.inGuard, decide_eq_true_eq]

/-- Only a timed frame has a guard. -/
theorem State.timed_of_bbGuard (hg : s.bbGuard p = true) : (s.bbSt p).timed ≠ none := fun ht => by
  simp only [State.bbGuard, ht, Bool.false_eq_true] at hg

section

variable {d : BbTxDesc}

theorem State.headTx_badLength (h : d.length < 60 ∨ 1518 < d.length) : s.headTx p d = (s.retireTx p d 3, false) := if_pos h

variable (hmin : 60 ≤ d.length) (hmax : d.length ≤ 1518)
include hmin hmax

theorem State.headTx_untimed (ht : d.timed = false) : s.headTx p d = (s, true) := by
  have hlen : ¬(d.length < 60 ∨ 1518 < d.length) := by omega
  simp only [State.headTx, hlen, ht, Bool.not_false, if_false, if_true]

/-- A timed frame of a good length is judged by how far its launch lies ahead of its coming to the head. -/
theorem State.headTx_timed (ht : d.timed = true) : s.headTx p d =
    if (txLaunch d - (s.bbSt p).headAt) * 100 < s.maxFrame100 p then ((s.incFld Reg.bbLateLate (bbBase p)).retireTx p d 0x0B, false)
    else if sec16 1 < txLaunch d - (s.bbSt p).headAt then (s.retireTx p d 3, false)
    else (s.setBbSt p { s.bbSt p with timed := some d }, false) := by
  have hlen : ¬(d.length < 60 ∨ 1518 < d.length) := by omega
  simp only [State.headTx, hlen, ht, Bool.not_true, Bool.false_eq_true, if_false, gt_iff_lt]

theorem State.headTx_late (ht : d.timed = true) (hl : (txLaunch d - (s.bbSt p).headAt) * 100 < s.maxFrame100 p) :
    s.headTx p d = ((s.incFld Reg.bbLateLate (bbBase p)).retireTx p d 0x0B, false) := by
  rw [State.headTx_timed hmin hmax ht, if_pos hl]

theorem State.headTx_far (ht : d.timed = true) (hl : s.maxFrame100 p ≤ (txLaunch d - (s.bbSt p).headAt) * 100)
    (hf : sec16 1 < txLaunch d - (s.bbSt p).headAt) : s.headTx p d = (s.retireTx p d 3, false) := by
  rw [State.headTx_timed hmin hmax ht, if_neg (Int.not_lt.2 hl), if_pos hf]

theorem State.headTx_waits (ht : d.timed = true) (hl : s.maxFrame100 p ≤ (txLaunch d - (s.bbSt p).headAt) * 100)
    (hf : txLaunch d - (s.bbSt p).headAt ≤ sec16 1) : s.headTx p d = (s.setBbSt p { s.bbSt p with timed := some d }, false) := by
  rw [State.headTx_timed hmin hmax ht, if_neg (Int.not_lt.2 hl), if_neg (Int.not_lt.2 hf)]

end

/-! ### Frames sent (R341, R344 to R346) -/

/-- Frames sent leave the ports' own states. -/
theorem State.bb_sendFrames (p : Nat) (l : List (List Byte)) (s : State) :
    (l.foldl (fun s bs => s.sendFrame (.backbone p bs)) s).bb = s.bb := by
  induction l generalizing s with
  | nil => rfl
  | cons bs l ih =>
    rw [List.foldl_cons, ih, State.sendFrame]
    split <;> rfl

/-- The part's own frames leave, the forwarded ones stay. -/
theorem State.fwd_sendHeld (s : State) (p : Nat) : ((s.sendHeld p).bbSt p).fwd = (s.bbSt p).fwd := by
  have hst : (s.sendHeld p).bbSt p = { s.bbSt p with held := [] } := by
    rw [State.bbSt, State.sendHeld, State.bb_sendFrames]
    exact Tab.get_put_same _ _ _ _
  rw [hst]

/-- The head of the ring as BB_FRAME_TRANSMIT looks at it: not behind a timed frame, and only while a descriptor waits. -/
def State.txHead (s : State) (p : Nat) (d : BbTxDesc) : State × Bool :=
  if (s.bbSt p).timed.isNone && s.txWaits p then s.headTx p d else (s, false)

/-- What leaves once the head has been looked at: nothing within a guard, else what was held, then a forwarded frame or the ring's. -/
def State.txLeave (y : State × Bool) (p : Nat) (d : BbTxDesc) : State :=
  if y.1.bbGuard p then y.1
  else
    let t := y.1.sendHeld p
    match (t.bbSt p).fwd with
    | f :: rest => t.sendForwarded p f rest
    | [] => if y.2 then t.sendRing p d t.now16 else t

theorem State.txHead_idle (d : BbTxDesc) (h : (s.bbSt p).timed ≠ none ∨ s.txWaits p = false) : s.txHead p d = (s, false) := by
  rw [State.txHead, if_neg]
  rcases h with h | h <;> simp [h]

theorem State.txHead_waiting (d : BbTxDesc) (ht : (s.bbSt p).timed = none) (hw : s.txWaits p = true) : s.txHead p d = s.headTx p d := by
  simp only [State.txHead, ht, hw, Option.isNone_none, Bool.and_self, if_true]

theorem State.txLeave_guard (d : BbTxDesc) (b : Bool) (hg : s.bbGuard p = true) : State.txLeave (s, b) p d = s := if_pos hg

/-- R341: a forwarded frame leaves before the ring's. -/
theorem State.txLeave_forwarded (d : BbTxDesc) (b : Bool) {f : BbFwd} {rest : List BbFwd} (hg : s.bbGuard p = false)
    (hf : (s.bbSt p).fwd = f :: rest) : State.txLeave (s, b) p d = (s.sendHeld p).sendForwarded p f rest := by
  simp only [State.txLeave, hg, State.fwd_sendHeld, hf, Bool.false_eq_true, if_false]

variable (hp : p < 2) (ha : s.awake = true) (hu : s.bbUp p = true) (hh : s.power.handling = false)
include hp ha hu hh

/-- BB_FRAME_TRANSMIT on a port that carries frames. -/
theorem bbFrameTransmit_up (d : BbTxDesc) : exec (.bbFrameTransmit p d) s = .next (State.txLeave (s.txHead p d) p d) :=
  congrArg Host.Outcome.next (if_neg (by simp [hp, ha, hu, hh]))

theorem bbFrameTransmit_guard (d : BbTxDesc) (hg : s.bbGuard p = true) : exec (.bbFrameTransmit p d) s = .next s := by
  rw [bbFrameTransmit_up hp ha hu hh, State.txHead_idle d (.inl (State.timed_of_bbGuard hg)), State.txLeave_guard d false hg]

theorem bbFrameTransmit_forwarded (d : BbTxDesc) {f : BbFwd} {rest : List BbFwd} (hg : s.bbGuard p = false)
    (ht : (s.bbSt p).timed ≠ none ∨ s.txWaits p = false) (hf : (s.bbSt p).fwd = f :: rest) :
    exec (.bbFrameTransmit p d) s = .next ((s.sendHeld p).sendForwarded p f rest) := by
  rw [bbFrameTransmit_up hp ha hu hh, State.txHead_idle d ht, State.txLeave_forwarded d false hg hf]

theorem bbFrameTransmit_waiting (d : BbTxDesc) (ht : (s.bbSt p).timed = none) (hw : s.txWaits p = true) :
    exec (.bbFrameTransmit p d) s = .next (State.txLeave (s.headTx p d) p d) := by
  rw [bbFrameTransmit_up hp ha hu hh, State.txHead_waiting d ht hw]

/-- R346: the timed frame leaves at its launch, or retires LATE; then the frames held leave. -/
theorem bbTimedLaunch_timed {d : BbTxDesc} (ht : (s.bbSt p).timed = some d) : exec (.bbTimedLaunch p) s = .next (
    let t := (s.setBbSt p { s.bbSt p with timed := none }).advanceTo (txLaunch d)
    (if txLaunch d < s.now16 then (t.incFld Reg.bbLateLate (bbBase p)).retireTx p d 0x0B
      else t.sendRing p d (txLaunch d)).sendHeld p) := by
  change execBbTimedLaunch p s = _
  simp only [execBbTimedLaunch, State.bbOff_false hp ha hu, hh, Bool.or_self, Bool.false_eq_true, if_false, ht, decide_eq_true_eq]

end

/-- Settles O53: each row acts so once what it waits for holds; the counter meets at most one boundary in the ticks that are left. -/
theorem timeAndBackboneRows : Obligations.TimeAndBackboneRows := by
  unfold Obligations.TimeAndBackboneRows
  refine ⟨fun _ => rampBoundary_awake, fun _ => State.ticks_to_boundary, fun _ _ => State.ticks_before_boundary,
    fun _ => holdoverExpiry_due, fun _ => ppsRise_low, fun _ => ppsFall_high, fun _ _ _ _ _ => clkTake_stopping,
    fun _ _ _ => clkOutLock_waiting, fun _ _ _ => bbFrameReceive_good, fun _ _ _ => bbFrameReceive_bad,
    fun _ _ d hp ha hu hh => bbFrameTransmit_guard hp ha hu hh d, ?forwarded, ?waiting, ?head,
    fun _ _ _ => State.bbGuard_timed, fun _ _ _ => rfl, fun _ _ _ hp ha hu hh => bbTimedLaunch_timed hp ha hu hh, ?event,
    fun _ _ => bbLockLoss_locked, fun _ _ => bbBlockLock_open⟩
  case forwarded => exact fun _ _ d _ _ hp ha hu hh => bbFrameTransmit_forwarded hp ha hu hh d
  case waiting => exact fun _ _ d hp ha hu hh => bbFrameTransmit_waiting hp ha hu hh d
  case head =>
    exact fun _ _ _ => ⟨State.headTx_badLength, State.headTx_untimed, State.headTx_late, State.headTx_far, State.headTx_waits⟩
  case event => exact fun _ ty ver _ ha => ⟨ptpEvent_untagged ty ver ha, ptpEvent_tagged ty ver ha⟩

end Sys2Proof.Machine
end

section
/-! PROOF. Which check turns a command away, and what that leaves; the pending list, commands while no edges run, and what an entry and a
reply write (R153, R370, R374 to R376, R383, R388 to R392). -/

namespace Sys2Proof.Machine

/-! ### The checks in their order (R370) -/

/-- The test of a check value that holds, or that is not made. -/
theorem CmdIn.checkFails_eq_false {c : CmdIn} (h : c.tested = true → c.checkOk = true) : (c.tested && !c.checkOk) = false := by
  cases ht : c.tested with
  | false => rfl
  | true => rw [h ht]; rfl

theorem State.verdict_checkValue (s : State) (k : CmdSpec) (c : CmdIn) (ht : c.tested = true) (ho : c.checkOk = false) :
    s.verdict k c = 0x0A := by
  simp only [State.verdict, ht, ho, Bool.not_false, Bool.and_self, if_true]

section

variable {s : State} {k : CmdSpec} {c : CmdIn}

theorem State.verdict_authority (hc : c.tested = true → c.checkOk = true) (ha : k.allowed c = false) : s.verdict k c = 0x04 := by
  simp only [State.verdict, CmdIn.checkFails_eq_false hc, ha, Bool.not_false, Bool.false_eq_true, if_false, if_true]

theorem State.verdict_absent (hc : c.tested = true → c.checkOk = true) (ha : k.allowed c = true) (hu : k.absent s c = true) :
    s.verdict k c = 0x06 := by
  simp only [State.verdict, CmdIn.checkFails_eq_false hc, ha, hu, Bool.not_true, Bool.false_eq_true, if_false, if_true]

theorem State.verdict_badParam (hc : c.tested = true → c.checkOk = true) (ha : k.allowed c = true) (hu : k.absent s c = false)
    (hb : k.bad s c = true ∨ k.strayByte c = true) : s.verdict k c = 0x03 := by
  have hbad : (k.bad s c || k.strayByte c) = true := by rwa [Bool.or_eq_true]
  simp only [State.verdict, CmdIn.checkFails_eq_false hc, ha, hu, hbad, Bool.not_true, Bool.false_eq_true, if_false, if_true]

/-- What is left to check once the parameters are good. -/
theorem State.verdict_of_passesTo5 (h : Spec.passesTo5 s k c) : s.verdict k c =
    if !s.modeTakes k || (k.fenced && c.at_ && !s.edgesRun) || k.mode s c then 0x05
    else if k.fenced && c.at_ && s.lateFor c.apply then 0x0B
    else if k.busy s c || (!k.query && !k.unheld && s.lagBusy)
        || (k.fenced && !k.post && s.edgesRun && decide (256 ≤ s.host.fenced.length)) then 0x01
    else if !k.query && !s.jnlOpen then 0x07
    else 0 := by
  obtain ⟨hcheck, hallowed, habsent, hbad, hstray⟩ := h
  simp only [State.verdict, CmdIn.checkFails_eq_false hcheck, hallowed, habsent, hbad, hstray, Bool.not_true, Bool.or_self,
    Bool.false_eq_true, if_false]

theorem State.verdict_mode (h : Spec.passesTo5 s k c) (hm : s.modeTakes k = false ∨ k.mode s c = true) : s.verdict k c = 0x05 := by
  rw [State.verdict_of_passesTo5 h, if_pos]
  rcases hm with hm | hm <;> simp only [hm, Bool.not_false, Bool.true_or, Bool.or_true]

/-- R376: without edges no cycle can be named. -/
theorem State.verdict_noEdges (h : Spec.passesTo5 s k c) (hf : k.fenced = true) (hat : c.at_ = true) (he : s.edgesRun = false) :
    s.verdict k c = 0x05 := by
  rw [State.verdict_of_passesTo5 h, if_pos]
  simp only [hf, hat, he, Bool.not_false, Bool.and_self, Bool.or_true, Bool.true_or]

/-- What is left to check once the apply cycle is good: room and the journal. -/
theorem State.verdict_of_passesTo7 (h : Spec.passesTo7 s k c) : s.verdict k c =
    if k.busy s c || (!k.query && !k.unheld && s.lagBusy)
        || (k.fenced && !k.post && s.edgesRun && decide (256 ≤ s.host.fenced.length)) then 0x01
    else if !k.query && !s.jnlOpen then 0x07
    else 0 := by
  obtain ⟨⟨h5, htakes, hmode⟩, hat⟩ := h
  have hedges : (k.fenced && c.at_ && !s.edgesRun) = false := by
    cases hc : c.at_ with
    | false => rw [Bool.and_false, Bool.false_and]
    | true => rw [(hat hc).1, Bool.not_true, Bool.and_false]
  have hlate : (k.fenced && c.at_ && s.lateFor c.apply) = false := by
    cases hc : c.at_ with
    | false => rw [Bool.and_false, Bool.false_and]
    | true => rw [(hat hc).2, Bool.and_false]
  simp only [State.verdict_of_passesTo5 h5, htakes, hmode, hedges, hlate, Bool.not_true, Bool.or_self, Bool.false_eq_true, if_false]

theorem State.verdict_busy (h : Spec.passesTo7 s k c) (hb : k.busy s c = true) : s.verdict k c = 0x01 := by
  rw [State.verdict_of_passesTo7 h, hb, Bool.true_or, Bool.true_or, if_pos rfl]

/-- R375: the pending list is full. -/
theorem State.verdict_listFull (h : Spec.passesTo7 s k c) (hf : k.fenced = true) (hp : k.post = false) (he : s.edgesRun = true)
    (hl : 256 ≤ s.host.fenced.length) : s.verdict k c = 0x01 := by
  rw [State.verdict_of_passesTo7 h, if_pos]
  simp only [hf, hp, he, decide_eq_true hl, Bool.not_false, Bool.and_self, Bool.or_true]

/-- R392: a command that changes state finds the journal frozen. -/
theorem State.verdict_frozen (h : Spec.passesTo7 s k c) (hb : k.busy s c = false) (hlag : s.lagBusy = false)
    (hl : s.host.fenced.length < 256) (hq : k.query = false) (hj : s.jnl.frozen = true) : s.verdict k c = 0x07 := by
  have hroom : decide (256 ≤ s.host.fenced.length) = false := decide_eq_false (by omega)
  simp only [State.verdict_of_passesTo7 h, hb, hlag, hroom, hq, hj, State.jnlOpen, Bool.and_false, Bool.or_self, Bool.not_false,
    Bool.not_true, Bool.and_self, Bool.false_eq_true, if_false, if_true]

/-- A check that was passed, and the ones behind it. -/
theorem passed_of_ite_eq_zero {p : Prop} [Decidable p] {n m : Nat} (h : (if p then n + 1 else m) = 0) : ¬p ∧ m = 0 := by
  by_cases hp : p
  · rw [if_pos hp] at h
    exact absurd h (Nat.succ_ne_zero n)
  · rw [if_neg hp] at h
    exact ⟨hp, h⟩

/-- A fenced command that passes every check while edges run finds room in the pending list: the last check but one. -/
theorem State.room_of_verdict (hv : s.verdict k c = 0) (hf : k.fenced = true) (hp : k.post = false) (he : s.edgesRun = true) :
    s.host.fenced.length < 256 := by
  unfold State.verdict at hv
  obtain ⟨-, hv⟩ := passed_of_ite_eq_zero hv
  obtain ⟨-, hv⟩ := passed_of_ite_eq_zero hv
  obtain ⟨-, hv⟩ := passed_of_ite_eq_zero hv
  obtain ⟨-, hv⟩ := passed_of_ite_eq_zero hv
  obtain ⟨-, hv⟩ := passed_of_ite_eq_zero hv
  obtain ⟨-, hv⟩ := passed_of_ite_eq_zero hv
  obtain ⟨hroom, -⟩ := passed_of_ite_eq_zero hv
  refine Nat.lt_of_not_le fun hl => hroom ?_
  simp only [hf, hp, he, decide_eq_true hl, Bool.not_false, Bool.and_self, Bool.or_true]

end

/-! ### Turned away (R370, R383) -/

/-- A command that is judged and fails a check is turned away in the state in which it is judged. -/
theorem State.command_turned {s u : State} {k : CmdSpec} {r : CmdReq} {c : CmdIn} (h : s.judges k r u c) (hv : u.verdict k c ≠ 0) :
    s.command k r = (k.turned u c (u.verdict k c)).turnAway c (u.verdict k c) (k.why u c (u.verdict k c)) := by
  obtain ⟨v, slot, ha, rfl, hw, rfl⟩ := h
  simp only [State.command, ha, hw, Bool.false_eq_true, if_false, State.process, if_pos hv]

theorem OnlyReply.turnAway (s : State) (c : CmdIn) (v : Nat) (d : List Byte) : OnlyReply s (s.turnAway c v d) := by
  unfold State.turnAway
  exact (OnlyReply.ite (OnlyReply.setFld _ _ _ _) (OnlyReply.refl s)).trans (OnlyReply.answer _ _ _ _ _ _ _)

theorem OnlyReply.jnl {s t : State} (h : OnlyReply s t) : t.jnl = s.jnl := by rw [h.rest]

/-- A post turned away is counted at its mailbox, which leaves the journal and the host's side. -/
theorem State.postRefused_keeps (s : State) (q v : Nat) : (s.postRefused q v).jnl = s.jnl ∧ (s.postRefused q v).host = s.host := by
  unfold State.postRefused
  dsimp only
  split
  · exact ⟨rfl, rfl⟩
  · split <;> exact ⟨rfl, rfl⟩

/-- A post placed in its mailbox leaves the host's side. -/
@[simp] theorem State.host_post (s : State) (q : Nat) (a : Word) (ws : List Word) : (s.post q a ws).host = s.host := by
  unfold State.post
  split
  · rfl
  · split <;> rfl

/-- The rows that post to a mailbox. -/
def postSpecs : List CmdSpec := [specMailboxPost, specAxisModeSet, specAxisCurRef, specMotionTarget]

/-- What such a row does and what it counts of a command turned away concern one mailbox; without it they are nothing. -/
theorem post_reaches_mailbox {k : CmdSpec} (hk : k ∈ postSpecs) (u : State) (c : CmdIn) :
    (∃ q, (∀ a, ∃ ws, k.effect u c a = u.post q a ws) ∧ ∀ v, k.turned u c v = u.postRefused q v)
      ∨ (∀ a, k.effect u c a = u) ∧ ∀ v, k.turned u c v = u := by
  simp only [postSpecs, List.mem_cons, List.not_mem_nil, or_false] at hk
  obtain rfl | rfl | rfl | rfl := hk
  · exact .inl ⟨_, fun _ => ⟨_, rfl⟩, fun _ => rfl⟩
  · simp only [specAxisModeSet]
    cases u.axisCfg c.axis with
    | none => exact .inr ⟨fun _ => rfl, fun _ => rfl⟩
    | some g => exact .inl ⟨g.modeMb, fun _ => ⟨_, rfl⟩, fun _ => rfl⟩
  · simp only [specAxisCurRef]
    cases (u.axisCfg c.axis).bind AxisCfg.curMb with
    | none => exact .inr ⟨fun _ => rfl, fun _ => rfl⟩
    | some q => exact .inl ⟨q, fun _ => ⟨_, rfl⟩, fun _ => rfl⟩
  · simp only [specMotionTarget]
    cases (u.axisCfg c.axis).bind AxisCfg.tgtMb with
    | none => exact .inr ⟨fun _ => rfl, fun _ => rfl⟩
    | some q => exact .inl ⟨q, fun _ => ⟨_, rfl⟩, fun _ => rfl⟩

theorem turned_keeps_of_post {k : CmdSpec} (hk : k ∈ postSpecs) (u : State) (c : CmdIn) (v : Nat) :
    (k.turned u c v).jnl = u.jnl ∧ (k.turned u c v).host = u.host := by
  obtain ⟨q, -, hq⟩ | ⟨-, hn⟩ := post_reaches_mailbox hk u c
  · rw [hq]
    exact u.postRefused_keeps q v
  · rw [hn]
    exact ⟨rfl, rfl⟩

theorem host_effect_of_post {k : CmdSpec} (hk : k ∈ postSpecs) (u : State) (c : CmdIn) (a : Word) : (k.effect u c a).host = u.host := by
  obtain ⟨q, hq, -⟩ | ⟨hn, -⟩ := post_reaches_mailbox hk u c
  · obtain ⟨ws, hws⟩ := hq a
    rw [hws, State.host_post]
  · rw [hn]

/-- A row carries its command to the checks. -/
theorem commandRow_exec_eq {i : CmdReq → Instr} {k : CmdSpec} (h : Spec.CommandRow i k) (r : CmdReq) (s : State) :
    exec (i r) s = .next (s.command k r) := by
  revert h
  simp only [Spec.CommandRow, List.mem_append, List.mem_cons, List.not_mem_nil, or_false, Prod.mk.injEq, or_imp, and_imp]
  and_intros
  all_goals
    rintro rfl rfl
    rfl

/-- A row that is no post counts nothing of its own. -/
theorem commandRow_turned_eq {i : CmdReq → Instr} {k : CmdSpec} (h : Spec.CommandRow i k) :
    k ∈ postSpecs ∨ ∀ u c v, k.turned u c v = u := by
  revert h
  simp only [Spec.CommandRow, List.mem_append, List.mem_cons, List.not_mem_nil, or_false, Prod.mk.injEq, or_imp, and_imp]
  and_intros
  all_goals
    rintro rfl rfl
  any_goals exact .inr fun _ _ _ => rfl
  all_goals exact .inl (by simp only [postSpecs, List.mem_cons, true_or, or_true])

theorem commandRow_jnl_turned {i : CmdReq → Instr} {k : CmdSpec} (h : Spec.CommandRow i k) (u : State) (c : CmdIn) (v : Nat) :
    (k.turned u c v).jnl = u.jnl := by
  rcases commandRow_turned_eq h with hk | hk
  · exact (turned_keeps_of_post hk u c v).1
  · rw [hk]

/-- Settles O39: the checks stand in the order of R370, each with the status named once those before it hold; what a row counts of a
command turned away, and its reply, leave the journal. -/
theorem checksTurnAway : Obligations.ChecksTurnAway := by
  unfold Obligations.ChecksTurnAway
  refine ⟨?turned, ?journal, State.verdict_checkValue, fun _ _ _ => State.verdict_authority, fun _ _ _ => State.verdict_absent,
    fun _ _ _ => State.verdict_badParam, fun _ _ _ => State.verdict_mode, State.verdict_late, fun _ _ _ => State.verdict_busy,
    fun _ _ _ => State.verdict_frozen⟩
  case turned =>
    intro i k hk s r u c h hv
    rw [commandRow_exec_eq hk, State.command_turned h hv]
  case journal =>
    intro i k hk u c v
    rw [(OnlyReply.turnAway _ c v _).jnl, commandRow_jnl_turned hk]

/-! ### Fenced commands while edges run, and while none run (R375, R376) -/

section

variable (u : State) {k : CmdSpec} (c : CmdIn) (hf : k.fenced = true) (hp : k.post = false)
include hf hp

/-- One that is answered before its cycle joins the pending list while edges run. -/
theorem State.takeEffect_answered_edges (hl : k.later = false) (he : u.edgesRun = true) :
    u.takeEffect k c = (
      let a := u.applyCycle c
      let j := u.journalCmd c a
      ({ j with host := { j.host with fenced := j.host.fenced ++ [⟨c, a, j.jnl.head⟩] } } : State).answer c 0 true j.jnl.head a {}) := by
  simp only [State.takeEffect, State.effectCycle_fenced u c hf, State.edgesRun_journalCmd, hf, hp, hl, he, Bool.not_false, Bool.and_self,
    Bool.false_eq_true, if_true, if_false]

/-- It takes effect at once while none run. -/
theorem State.takeEffect_answered_noEdges (hl : k.later = false) (he : u.edgesRun = false) :
    u.takeEffect k c = (
      let j := u.journalCmd c 0#32
      (k.effect j c 0#32).answer c 0 true j.jnl.head 0#32 {}) := by
  simp only [State.takeEffect, State.effectCycle_fenced u c hf, State.edgesRun_journalCmd, hf, hp, hl, he, Bool.not_false, Bool.and_self,
    Bool.false_eq_true, if_true, if_false]

/-- R375: accepted while edges run, it stands at the end of the pending list. -/
theorem State.fenced_takeEffect (he : u.edgesRun = true) : (u.takeEffect k c).host.fenced
    = u.host.fenced ++ [⟨c, u.applyCycle c, (u.journalCmd c (u.applyCycle c)).jnl.head⟩] := by
  cases hl : k.later with
  | false =>
    rw [State.takeEffect_answered_edges u c hf hp hl he, (OnlyReply.answer _ _ _ _ _ _ _).fenced, State.host_journalCmd]
  | true =>
    rw [State.takeEffect_later_edges u c hf hp hl he]
    simp only [State.awaitResult, State.host_journalCmd]

end

/-- A post, taken or turned away, leaves the pending list. -/
theorem State.fenced_process_post {k : CmdSpec} (hq : k.query = false) (hf : k.fenced = true) (hp : k.post = true)
    (he : ∀ u c a, (k.effect u c a).host = u.host) (ht : ∀ u c v, (k.turned u c v).host = u.host) (s : State) (c : CmdIn) :
    (s.process k c).host.fenced = s.host.fenced := by
  by_cases hv : s.verdict k c = 0
  · rw [State.process_takeEffect hv hq, State.takeEffect_post s c hf hp, (OnlyReply.answer _ _ _ _ _ _ _).fenced, he,
      State.host_journalCmd]
  · rw [State.process, if_pos hv, (OnlyReply.turnAway _ _ _ _).fenced, ht]

/-- The kind of a row that posts. -/
theorem kind_of_post {k : CmdSpec} (hk : k ∈ postSpecs) : k.query = false ∧ k.fenced = true ∧ k.post = true := by
  simp only [postSpecs, List.mem_cons, List.not_mem_nil, or_false] at hk
  obtain rfl | rfl | rfl | rfl := hk <;> exact ⟨rfl, rfl, rfl⟩

/-- Settles O38: acceptance appends to the list, after the check that it has room; a full list is found by that check, once the seven
before it are passed; a post goes to its mailbox. -/
theorem pendingList : Obligations.PendingList := by
  unfold Obligations.PendingList
  refine ⟨?joins, fun s k c h hf hp he hl => State.verdict_listFull h hf hp he hl, ?posts⟩
  case joins =>
    intro s k c hf hp hq he hv
    have hend := s.fenced_takeEffect c hf hp he
    have hroom := State.room_of_verdict hv hf hp he
    rw [State.process_takeEffect hv hq]
    refine ⟨hend, ?_⟩
    rw [hend, List.length_append, List.length_singleton]
    exact hroom
  case posts =>
    intro k hk s c
    obtain ⟨hq, hf, hp⟩ := kind_of_post hk
    exact State.fenced_process_post hq hf hp (host_effect_of_post hk) (fun u c v => (turned_keeps_of_post hk u c v).2) s c

/-- Settles O37: with no edges a named cycle is turned away by the sixth check, and the cycle of effect is 0. -/
theorem noEdges : Obligations.NoEdges := by
  unfold Obligations.NoEdges
  refine ⟨fun s k c h hf hat he => State.verdict_noEdges h hf hat he, fun s k c hf hq _ _ he hv => ?_⟩
  rw [State.process_takeEffect hv hq]
  refine ⟨fun hp hl => s.takeEffect_answered_noEdges c hf hp hl he, fun hp hl => s.takeEffect_later_noEdges c hf hp hl he, fun hp => ?_⟩
  simp only [s.takeEffect_post c hf hp, he, Bool.false_eq_true, if_false]

/-! ### Entries and replies (R388, R389, R391, R392) -/

/-- R392: nothing is written while the journal is frozen. -/
theorem State.journalCmd_frozen (s : State) (c : CmdIn) (cyc : Word) (h : s.jnl.frozen = true) : s.journalCmd c cyc = s := by
  simp only [State.journalCmd, State.journal, State.jnlOpen, h, Bool.not_true, Bool.not_false, if_true]

/-- What the twin is sent of an entry leaves the journal. -/
@[simp] theorem State.jnl_forward (s : State) (e : JEntry) : (s.forward e).jnl = s.jnl := by
  rcases s.forward_cases e with h | h <;> rw [h]
  rw [State.sendTwin, State.sendFrame]
  split <;> rfl

/-- The mirror's part in a new entry leaves the count of those lost from the ring. -/
@[simp] theorem State.overwritten_mirrorTest (s : State) : s.mirrorTest.jnl.overwritten = s.jnl.overwritten := by
  unfold State.mirrorTest
  split <;> rfl

/-- R391: an entry that finds the ring full takes the place of the oldest, which is counted. -/
theorem State.overwritten_journalCmd (s : State) (c : CmdIn) (cyc : Word) (h : s.jnl.frozen = false) :
    (s.journalCmd c cyc).jnl.overwritten = s.jnl.overwritten + (if 4096 ≤ s.jnl.entries.length then 1 else 0) := by
  simp only [State.journalCmd, State.journal, State.jnlOpen, h, State.jnl_forward, State.overwritten_mirrorTest, JnlSt.add, ge_iff_le,
    Bool.not_false, Bool.not_true, Bool.false_eq_true, if_false]
  split <;> rfl

/-- Settles O40: an entry is `State.journal_jnl`, its frame `OnlyEntry`, and a reply's frame `OnlyReply`. -/
theorem journalWrites : Obligations.JournalWrites := by
  unfold Obligations.JournalWrites
  refine ⟨?entry, State.journalCmd_frozen, ?reply⟩
  case entry =>
    intro s c cyc h
    obtain ⟨hhead, hentries⟩ := s.journal_jnl (portOrigin c.port) (portIndex c.port) c.at_ c.opcode cyc c.param h
    exact ⟨hhead, hentries, s.overwritten_journalCmd c cyc h, OnlyEntry.journalCmd s c cyc⟩
  case reply =>
    intro s c st n b cyc o
    obtain ⟨hrest, hfenced, hwaiting, hresults⟩ := OnlyReply.answer s c st b n cyc o
    exact ⟨hrest, hfenced, hwaiting, hresults⟩

end Sys2Proof.Machine
end

section
/-! PROOF. Queries of the host group, the host links, and the ends of level resets, loads, stores and saves (R362, R367, R368, R373, R379,
R381, R384, R392 to R396, R459, R470, R475, R500 to R508). -/

namespace Sys2Proof.Machine

/-! ### Queries (R379, R392, R459, R500) -/

theorem two_mul_bitN (b : Bool) : 2 * bitN b = if b then 2 else 0 := by cases b <;> rfl

/-- R500: the word and the eight bytes of CFG_STATUS_GET fit the reply. -/
theorem CmdOut.of_word_leBytes (w : Word) (n : Nat) : CmdOut.of (wordBytes w ++ leBytes 8 n) = { data := wordBytes w ++ leBytes 8 n } :=
  CmdOut.of_short (Nat.le_of_eq (by rw [List.length_append, wordBytes_length, leBytes_length]))

/-- R392: JOURNAL_READ of a source that holds an entry. -/
theorem journalRead_held (m : Bool) (s : State) (r : CmdReq) (u : State) (c : CmdIn) (e : JEntry) (hm : (numAt r.param 9 1 == 1) = m)
    (h : s.accepts (specJournalRead m) r u c) (he : (u.heldEntries m).head? = some e) :
    exec (.journalRead r) s = .next (u.answer c 0 false 0 u.cycle
      { long := ((u.heldEntries m).filter (fun x => decide (c.p64 0 ≤ x.seq ∧ x.seq < c.p64 0 + c.p8 8))).flatMap jBytes
        data := leBytes 8 e.seq }) := by
  change execJournalRead r s = _
  rw [execJournalRead, hm, State.command_query h rfl]
  simp only [specJournalRead, he]

/-- Settles O26: each query's own part is its answer. -/
theorem hostQueriesAnswer : Obligations.HostQueriesAnswer := by
  unfold Obligations.HostQueriesAnswer
  refine ⟨?ping, ?statusGet, ?modeGet, ?cfgStatusGet, ?faultRead, journalRead_held⟩
  case statusGet =>
    refine asks_of_run (fun _ _ => rfl) rfl rfl (fun u _ => ?_) fun _ _ => rfl
    simp only [specStatusGet, two_mul_bitN]
  case cfgStatusGet =>
    exact asks_of_run (fun _ _ => rfl) rfl rfl (fun _ _ => Prod.ext rfl (CmdOut.of_word_leBytes _ _)) fun _ _ => rfl
  all_goals exact asks_of_run (fun _ _ => rfl) rfl rfl (fun _ _ => rfl) fun _ _ => rfl

/-! ### Host links (R362, R367, R373, R381, R384, R392 to R394, R470, R475) -/

/-- R367: a command fetched waits for its turn, in the slot and the enabling of its pair. -/
theorem qpCommandFetch_taken (s : State) (q : Nat) (p : Packet) (t : State) (n : Option Nat)
    (h : s.arrive (.qp q) (CmdIn.ofPacket (.qp q) p.bytes none).tag = (t, some n)) :
    exec (.qpCommandFetch q p) s = .next (t.wait { CmdIn.ofPacket (.qp q) p.bytes none with slot := n, era := (t.qp q).era }) := by
  change execQpCommandFetch q p s = _
  rw [execQpCommandFetch, h]
  rfl

/-- R384: a command clocked in over SPI comes to the keeper. -/
theorem spiCmd_taken (s : State) (p : Packet) (t : State) (n : Option Nat)
    (h : s.arrive .spi (CmdIn.ofPacket .spi p.bytes none).tag = (t, some n)) :
    exec (.spiCmd p) s = .next (t.keeperIn specLevelReset (CmdIn.ofPacket .spi p.bytes none)) := by
  change execSpiCmd p s = _
  rw [execSpiCmd, h]

theorem qpHostError_pair (s : State) (q : Nat) (hq : q < 64) (ha : s.awake = true) :
    exec (.qpHostError q) s = .next (((s.setFld Reg.qpStatFault 1 (qpBase q)).pairOff q).raise 0x60 1 11 q) :=
  congrArg Host.Outcome.next (if_neg (by rw [ha, decide_eq_false (Nat.not_le_of_lt hq)]; decide))

/-- R362: the pairs and the keeper window of a function are cleared; function 0 is Indigo's host. -/
theorem functionLevelReset_awake (s : State) (ha : s.awake = true) :
    exec (.functionLevelReset 0) s
        = .next ((((List.range 32).foldl (fun t k => t.pairOff (32 * 0 + k)) s).keeperClear 0).indHostStop)
      ∧ exec (.functionLevelReset 1) s = .next (((List.range 32).foldl (fun t k => t.pairOff (32 * 1 + k)) s).keeperClear 1) :=
  ⟨congrArg Host.Outcome.next (if_neg (by rw [ha]; decide)), congrArg Host.Outcome.next (if_neg (by rw [ha]; decide))⟩

theorem pcieLinkDown_awake (s : State) (ha : s.awake = true) : exec .pcieLinkDown s = .next (
    ((((List.range 64).foldl (fun t k => t.pairOff k) s).keeperClear 0).keeperClear 1).indHostStop.setReg 0x600024 0#32) :=
  congrArg Host.Outcome.next (if_neg (by rw [ha]; decide))

/-- R470: the guaranteed rate follows the link; a capture that declares more than it is warned of, and one that declares no more is no
longer below it. -/
theorem pcieLinkRetrain_trained (s : State) (lanes gen : Nat) (ha : s.awake = true) (hA : s.isA = true)
    (hl : lanes = 1 ∨ lanes = 2 ∨ lanes = 4) (hr : linkRate lanes gen ≠ 0) : exec (.pcieLinkRetrain lanes gen) s = .next (
      let t := s.setReg 0x600024 (BitVec.ofNat 32 (linkRate lanes gen))
      if t.indRate ≤ t.indGuar * 1000000 then t.setInd { t.ind with below := false }
      else if t.capturing = true then (t.setInd { t.ind with below := true }).indRaise 0x90
      else t) := by
  have hlanes : (lanes == 1 || lanes == 2 || lanes == 4) = true := by
    rcases hl with rfl | rfl | rfl <;> rfl
  change execPcieLinkRetrain lanes gen s = _
  simp only [execPcieLinkRetrain, ha, hA, hlanes, decide_eq_false hr, Bool.not_true, Bool.or_self, Bool.false_eq_true, if_false,
    Bool.not_eq_true', decide_eq_false_iff_not, Nat.not_lt]

theorem vholdLow_powered (s : State) (hm : s.mode ≠ .off) : exec .vholdLow s = .next
    { s with jnl := { s.jnl with frozen := true, vholdLow := true }, power := { s.power with vholdOk := false } } :=
  congrArg Host.Outcome.next (if_neg hm)

/-- Settles O54: each row acts so once its port takes what comes, and while the part is awake. -/
theorem hostLinkRows : Obligations.HostLinkRows := by
  unfold Obligations.HostLinkRows
  exact ⟨qpCommandFetch_taken, spiCmd_taken, qpHostError_pair, functionLevelReset_awake, pcieLinkDown_awake, pcieLinkRetrain_trained,
    fun _ _ _ => rfl, vholdLow_powered⟩

/-! ### The end of a load, a store and a save (R500, R502, R503, R505) -/

section

variable {s : State} {x : Nat × CmdIn}

/-- A load that ends outside CONFIGURE has no effect (log entry 131). -/
theorem cfgLoadComplete_late (f : ImageFile) (hx : s.resultOf 0x0201 = some x) (hm : s.mode ≠ .configure) :
    exec (.cfgLoadComplete f) s = .next (s.finish x 0x09 {}) := by
  change execCfgLoadComplete f s = _
  simp only [execCfgLoadComplete, hx, if_pos hm]

theorem cfgLoadComplete_bad {f : ImageFile} (hx : s.resultOf 0x0201 = some x) (hm : s.mode = .configure)
    (hf : f.bytes.length ≠ x.2.p32 8 ∨ s.imageFail f ≠ 0) : exec (.cfgLoadComplete f) s = .next (s.finish x 0x0A {}) := by
  have hbad : (decide (f.bytes.length ≠ x.2.p32 8) || decide (s.imageFail f ≠ 0)) = true := by
    rwa [Bool.or_eq_true, decide_eq_true_eq, decide_eq_true_eq]
  change execCfgLoadComplete f s = _
  simp only [execCfgLoadComplete, hx, hm, not_true_eq_false, ne_eq, if_false, if_pos hbad]

theorem cfgLoadComplete_good {f : ImageFile} (hx : s.resultOf 0x0201 = some x) (hm : s.mode = .configure)
    (hl : f.bytes.length = x.2.p32 8) (hf : s.imageFail f = 0) : exec (.cfgLoadComplete f) s = .next (
      let t := s.setPower { s.power with source := some .host, file := some f }
      let t := (t.setFld Reg.chipBootStatResult 2).setFld Reg.chipBootStatUnsecured (bitN t.power.fuses.isNone)
      (t.loadImage (content f) false).finish x 0 {}) := by
  change execCfgLoadComplete f s = _
  simp only [execCfgLoadComplete, hx, hm, hl, hf, ne_eq, not_true_eq_false, decide_false, Bool.or_self, Bool.false_eq_true, if_false]

variable {f : ImageFile} (hx : s.resultOf 0x0202 = some x) (hf : s.power.file = some f)
include hx hf

/-- R502: the directory of a stored slot, in both copies. -/
theorem cfgStoreComplete_good : exec (.cfgStoreComplete true) s = .next (
    let d := s.flash.dir
    let e : BootDir := if x.2.p8 0 = 0 then { d with crcOk := true, gen0 := d.gen1 + 1#32, valid0 := true }
      else { d with crcOk := true, gen1 := d.gen0 + 1#32, valid1 := true }
    let t := s.setSlot (x.2.p8 0) f
    ({ t with flash := { t.flash with dir0 := e, dir1 := e } } : State).finish x 0 {}) := by
  change execCfgStoreComplete true s = _
  simp only [execCfgStoreComplete, hx, hf, Bool.not_true, Bool.false_eq_true, if_false, BootDir.store]

/-- A slot whose read-back failed cannot be read (log entry 131). -/
theorem cfgStoreComplete_bad :
    exec (.cfgStoreComplete false) s = .next ((s.setSlot (x.2.p8 0) { f with readOk := false }).finish x 0x0A {}) := by
  change execCfgStoreComplete false s = _
  simp only [execCfgStoreComplete, hx, hf, Bool.not_false, if_true]

end

/-- R505: the buffer not loaded last takes the blocks, with the generation above that of the other. -/
theorem paramSaveComplete_saving {s : State} (ok : Bool) {x : Nat × CmdIn} {bs : List (Nat × List Word)}
    (hx : s.resultOf 0x0203 = some x) (hb : s.power.saving = some bs) : exec (.paramSaveComplete ok) s = .next (
      let last := s.power.bufLast
      let b : ParamBuf := { gen := bufGen (if last = 0 then s.flash.bufA else s.flash.bufB) + 1, crcOk := ok
                            check := (s.image.map Image.check).getD 0#64, axes := bs }
      ({ s with flash := if last = 0 then { s.flash with bufB := some b } else { s.flash with bufA := some b }
                power := { s.power with saving := none, bufLast := if ok then 1 - last else last } } : State).finish x
        (if ok then 0 else 0x0A) {}) := by
  change execParamSaveComplete ok s = _
  simp only [execParamSaveComplete, hx, hb]

/-- Settles O56: a unit under reset is reloaded; each other end finds the command that awaits it and answers it; a file written to a slot
goes to that slot's place of the flash. -/
theorem configurationEnds : Obligations.ConfigurationEnds := by
  unfold Obligations.ConfigurationEnds
  refine ⟨?unit, fun _ f _ => cfgLoadComplete_late f, fun _ _ _ => cfgLoadComplete_bad, fun _ _ _ => cfgLoadComplete_good,
    fun _ _ _ => cfgStoreComplete_good, fun _ _ _ => cfgStoreComplete_bad, fun _ _ _ => ⟨rfl, rfl, rfl⟩, fun _ => rfl,
    fun _ ok _ _ => paramSaveComplete_saving ok⟩
  case unit =>
    intro s l k h
    exact congrArg Host.Outcome.next (if_neg (by rw [h]; decide))

end Sys2Proof.Machine
end

section
/-! PROOF. Woad's safety cycle, its inputs and outputs, telegrams and the line (R397 to R415, R426). -/

namespace Sys2Proof.Machine

/-! ### Bytes taken apart (R20) -/

theorem slice_append_left {a : List Byte} {n : Nat} (ha : a.length = n) (b : List Byte) : slice (a ++ b) 0 n = a := by
  simp [slice, ← ha]

theorem slice_append_right {a b : List Byte} {k n : Nat} (ha : a.length = k) (hb : b.length = n) : slice (a ++ b) k n = b := by
  simp [slice, ← ha, ← hb]

theorem leBytes_succ (k n : Nat) : leBytes (k + 1) n = BitVec.ofNat 8 n :: leBytes k (n / 256) := by
  simp [leBytes, List.range_succ_eq_map, Nat.pow_succ', Nat.div_div_eq_div_mul]

theorem leNat_leBytes (k n : Nat) : leNat (leBytes k n) = n % 256 ^ k := by
  induction k generalizing n with
  | zero => simp [leBytes, leNat, Nat.mod_one]
  | succ k ih => rw [leBytes_succ, leNat, ih, BitVec.toNat_ofNat, Nat.pow_succ' (m := 256), Nat.mod_mul]

section

variable {s : State} {p : SafetySet}

/-! ### The safety cycle (R397, R399, R403) -/

/-- R399: a due safety cycle begins once the tokens of its first network cycle have passed the tap. -/
theorem safetyCycleStart_due (x : WoadInputs) (hp : s.sfSet = some p) (hd : s.woad.due = true) (hw : s.woadOn = true) :
    exec (.safetyCycleStart x) s = .next (if s.tapWaits p = true then s else s.safetyCycle p x) := by
  change execSafetyCycleStart x s = _
  simp only [execSafetyCycleStart, hp, hd, hw, Bool.true_and, Bool.not_eq_true', ← Bool.not_eq_true, ite_not]

/-- R506: Woad outlives a reset that a LEVEL_RESET of the chip began. -/
theorem State.woadOn_of_levelReset (hm : s.mode = .reset) (hk : s.power.kind = 3) : s.woadOn = true := by
  rw [State.woadOn, decide_eq_true ⟨hm, hk⟩, Bool.or_true]

/-! ### Safe inputs and outputs (R400 to R402, R409) -/

theorem safeInputSample_on (pins : SafePins) (hw : s.woadOn = true) : exec (.safeInputSample pins) s = .next (
    let t := (List.range 16).foldl (fun s k => s.siSample pins k) s
    match t.woad.pulse with
    | none => t
    | some (ch, n) =>
      if n ≤ 1 then ({ t with woad := { t.woad with pulse := none } } : State).emit (.pin (tpName ch) true)
      else { t with woad := { t.woad with pulse := some (ch, n - 1) } }) :=
  congrArg Host.Outcome.next (if_neg (by rw [hw]; decide))

theorem testPulse_on (ch : Bool) (hw : s.woadOn = true) : exec (.testPulse ch) s
    = .next (({ s with woad := { s.woad with pulse := some (ch, 6) } } : State).emit (.pin (tpName ch) false)) :=
  congrArg Host.Outcome.next (if_neg (by rw [hw]; decide))

section

variable {k : Nat} {g : SfInput} (hk : k < 16) (hw : s.woadOn = true) (hg : s.siCfg k = some g)
include hk hw hg

/-- R401: the channels of an input have disagreed for its discrepancy time, which ends now. -/
theorem safeInputDiscrepancy_apart {t : Int} (ht : (s.si k).apart = some t) :
    exec (.safeInputDiscrepancy k) s = .next ((s.advanceTo (t + ns16 (g.disc * 1000000))).siFault k) := by
  have hon : (decide (16 ≤ k) || !s.woadOn) = false := by rw [decide_eq_false (Nat.not_le.2 hk), hw]; rfl
  change execSafeInputDiscrepancy k s = _
  simp only [execSafeInputDiscrepancy, hon, hg, ht, Bool.false_eq_true, if_false]

/-- R402: a tested input that does not follow the running pulse faults. -/
theorem testPulseCheck_pulsed {ch : Bool} {n : Nat} (followed : Bool) (hg' : g.test = true) (hp : s.woad.pulse = some (ch, n)) :
    exec (.testPulseCheck k ch followed) s = .next (if followed = true then s else s.siFault k) := by
  change execTestPulseCheck k ch followed s = _
  simp only [execTestPulseCheck, decide_eq_false (Nat.not_le.2 hk), hw, hg, hg', hp, Option.map_some, Option.getD_some, beq_self_eq_true,
    Bool.not_true, Bool.false_or, Bool.or_false]

end

/-- R409: an output whose test reads it wrong goes off and is faulted. -/
theorem safeOutputTest_wrong {k : Nat} {t : OutTest} (hk : k < 8) (hw : s.woadOn = true) (ho : s.woad.so.getLsbD k = true)
    (ht : t.offReadsOn = true ∨ t.onReadsOff = true) : exec (.safeOutputTest k t) s = .next (
      let m := BitVec.ofNat 8 (2 ^ k)
      ({ s with woad := { s.woad with so := s.woad.so &&& ~~~m, soFault := s.woad.soFault ||| m } } : State).raise 0x72 1 13 k) := by
  have hwrong : (t.offReadsOn || t.onReadsOff) = true := Bool.or_eq_true_iff.2 ht
  exact congrArg Host.Outcome.next (if_neg (by rw [decide_eq_false (Nat.not_le.2 hk), hw, ho, hwrong]; decide))

/-! ### Telegrams (R411) -/

theorem woadTelegramReceive_on (line : Bool) (t : Telegram) (hw : s.woadOn = true) :
    exec (.woadTelegramReceive line t) s = .next (s.telegramIn line t.bytes) :=
  congrArg Host.Outcome.next (if_neg (by rw [hw]; decide))

theorem woadWatchdogExpiry_missed {k : Nat} {c : SfConn} (hp : s.sfSet = some p) (hc : p.conns[k]? = some c) (hk : c.kind ≠ 1)
    (hr : (s.conn k).wdRaised = false) (hm : c.wd ≤ (s.conn k).miss) : exec (.woadWatchdogExpiry k) s
      = .next ((s.setConnSt k { s.conn k with expired := true, wdRaised := true }).raise 0x74 1 14 k) := by
  change execWoadWatchdogExpiry k s = _
  simp only [execWoadWatchdogExpiry, hp, Option.bind_some, hc, hk, hr, Nat.not_lt.2 hm, decide_false, Bool.or_self, Bool.false_eq_true,
    if_false]

/-! ### Frames of the line (R412, R426) -/

/-- A frame goes out of the other port as it came; an awake part takes it by its kind. -/
theorem woadLineFrameReceive_awake (port : Nat) (f : WlFrame) (ha : s.awake = true) : exec (.woadLineFrameReceive port f) s = .next (
    let t := s.emit (.woadLine (if port = 0 then 2 else 1) (wlBytes f).1 (wlBytes f).2)
    match f with
    | .telegram m => t.telegramIn true m.bytes
    | .command p => t.wait (CmdIn.ofPacket .woadLine p.bytes none)
    | .heartbeat b => t.beatIn b
    | _ => t) := by
  have hawake (o : Output) : (s.emit o).awake = true := ha
  change execWoadLineFrameReceive port f s = _
  rw [execWoadLineFrameReceive, State.woadOn_of_awake ha]
  cases f with
  | command p => simp only [hawake, if_true]; rfl
  | heartbeat b => simp only [hawake, if_true]; rfl
  | telegram | reply | other => rfl

/-- The flags of a heartbeat are the low bits of its third byte. -/
theorem lineBeat_flags (pos active resign ready : Bool) :
    let n := leNat [BitVec.ofNat 8 (bitN pos + 2 * bitN active + 4 * bitN resign + 8 * bitN ready)]
    n.testBit 0 = pos ∧ n.testBit 1 = active ∧ n.testBit 2 = resign ∧ n.testBit 3 = ready := by
  revert pos active resign ready
  decide

/-- R426: a heartbeat is taken as the values it was made of. -/
theorem State.beatIn_lineBeat (s : State) (cyc : BitVec 16) (pos active resign ready : Bool) :
    s.beatIn (lineBeat cyc pos active resign ready) = s.lineHeartbeat cyc pos active resign ready := by
  obtain ⟨hpos, hactive, hresign, hready⟩ := lineBeat_flags pos active resign ready
  unfold lineBeat
  generalize hflags : BitVec.ofNat 8 (bitN pos + 2 * bitN active + 4 * bitN resign + 8 * bitN ready) = flags at *
  set body := leBytes 2 cyc.toNat ++ [flags, 0#8] with hbody
  have hlen : body.length = 4 := rfl
  have hcrc : (leBytes 4 (crc32c body)).length = 4 := leBytes_length _ _
  have hcyc : numAt (body ++ leBytes 4 (crc32c body)) 0 2 = cyc.toNat := by
    rw [numAt, hbody, List.append_assoc, slice_append_left (leBytes_length 2 _), leNat_leBytes]
    exact Nat.mod_eq_of_lt cyc.isLt
  have hbits : numAt (body ++ leBytes 4 (crc32c body)) 2 1 = leNat [flags] := rfl
  simp only [State.beatIn, List.length_append, hlen, hcrc, slice_append_left hlen, slice_append_right hlen hcrc, hcyc, hbits, hpos, hactive,
    hresign, hready, BitVec.ofNat_toNat, BitVec.setWidth_eq, beq_self_eq_true, decide_true, Bool.and_self, if_true]

/-- R426: a heartbeat whose check value does not hold is not taken. -/
theorem State.beatIn_badCheck (s : State) (b : List Byte) (hc : slice b 4 4 ≠ leBytes 4 (crc32c (slice b 0 4))) : s.beatIn b = s :=
  if_neg (by rw [beq_false_of_ne hc, Bool.and_false]; decide)

/-! ### Slots of the line (R412) -/

theorem State.lineSlot_some {slot : WlSlot} {e : Nat × LineSlot} (h : s.lineSlot slot = some e) :
    e.2.slot = slot ∧ e.1 ∉ s.woad.lineUsed := by
  unfold State.lineSlot at h
  split at h
  · contradiction
  · have hfits := List.find?_some h
    simp only [Bool.and_eq_true, decide_eq_true_eq, Bool.not_eq_true', ← Bool.not_eq_true, List.contains_iff_mem] at hfits
    obtain ⟨⟨⟨hslot, -⟩, -⟩, hfree⟩ := hfits
    exact ⟨hslot, hfree⟩

/-- A slot taken changes of Woad only what has been used. -/
@[simp] theorem State.woad_openLine (s : State) (e : Nat × LineSlot) :
    (s.openLine e).woad = { s.woad with lineUsed := e.1 :: s.woad.lineUsed } := by
  rw [State.openLine, State.toInstant_rest]
@[simp] theorem State.lsp_openLine (s : State) (e : Nat × LineSlot) : (s.openLine e).lsp = s.lsp := by simp [State.openLine]
@[simp] theorem State.conn_openLine (s : State) (e : Nat × LineSlot) (i : Nat) : (s.openLine e).conn i = s.conn i := by simp [State.conn]
@[simp] theorem State.sfSet_openLine (s : State) (e : Nat × LineSlot) : (s.openLine e).sfSet = s.sfSet := by simp [State.sfSet]

variable {slot : WlSlot} {e : Nat × LineSlot} (hw : s.woadOn = true)
include hw

theorem woadLineSlot_none (hl : s.lineSlot slot = none) : exec (.woadLineSlot slot) s = .next s := by
  change execWoadLineSlot slot s = _
  simp only [execWoadLineSlot, hw, hl, Bool.not_true, Bool.false_eq_true, if_false]

theorem woadLineSlot_opens (hl : s.lineSlot slot = some e) : exec (.woadLineSlot slot) s = .next ((s.openLine e).lineSend slot) := by
  change execWoadLineSlot slot s = _
  simp only [execWoadLineSlot, hw, hl, Bool.not_true, Bool.false_eq_true, if_false]

theorem woadLineSlot_telegram {i : Nat} {c : SfConn} (hp : s.sfSet = some p) (hc : p.conns[i]? = some c) (hk : c.kind = 1)
    (ho : (s.conn i).out ≠ []) (hs : (s.conn i).sentLine = false) (hr : s.lsp.role ≠ .standby) (hl : s.lineSlot (.telegram i) = some e) :
    exec (.woadLineSlot (.telegram i)) s = .next (
      let t := s.openLine e
      (t.setConnSt i { s.conn i with sentLine := true }).emit (.woadLine 3 1 (s.conn i).out)) := by
  have hout : (s.conn i).out.isEmpty = false := List.isEmpty_eq_false_iff.2 ho
  rw [woadLineSlot_opens hw hl]
  simp [State.lineSend, hp, hc, hk, hout, hs, hr]

theorem woadLineSlot_reply {b : List Byte} (hb : s.woad.reply = some b) (hl : s.lineSlot .reply = some e) :
    exec (.woadLineSlot .reply) s = .next (
      let t := s.openLine e
      ({ t with woad := { t.woad with reply := none } } : State).emit (.woadReply b)) := by
  have hreply : (s.openLine e).woad.reply = some b := by rw [State.woad_openLine, hb]
  rw [woadLineSlot_opens hw hl]
  simp only [State.lineSend, hreply]

theorem woadLineSlot_heartbeat (hr : s.lsp.role ≠ .unpaired) (hl : s.lineSlot .heartbeat = some e) :
    exec (.woadLineSlot .heartbeat) s = .next (
      let t := s.openLine e
      t.emit (.woadLine 3 4 (lineBeat ((t.cycle + 1#32).setWidth 16) t.lsp.pos (decide (t.lsp.role = .active)) t.lsp.resign t.lsp.ready))) := by
  rw [woadLineSlot_opens hw hl]
  exact congrArg Host.Outcome.next (if_neg (by rwa [State.lsp_openLine]))

end

/-- Settles O57: each row acts so once Woad runs and what it waits for is there; a heartbeat is read as it was built; a slot of the line that
opens was unused and is used then. -/
theorem safetyRows : Obligations.SafetyRows := by
  unfold Obligations.SafetyRows
  refine ⟨?cycle, fun _ => ⟨State.woadOn_of_awake, State.woadOn_of_levelReset⟩, fun _ => safeInputSample_on,
    fun _ _ _ _ hk hw hg => safeInputDiscrepancy_apart hk hw hg, fun _ => testPulse_on, ?pulse, fun _ _ _ => safeOutputTest_wrong,
    fun _ => woadTelegramReceive_on, fun _ _ _ _ => woadWatchdogExpiry_missed, fun _ => woadLineFrameReceive_awake,
    State.beatIn_lineBeat, fun s b _ => s.beatIn_badCheck b, fun _ _ => woadLineSlot_none, ?slot,
    fun _ _ _ _ _ hw => woadLineSlot_telegram hw, fun _ _ _ hw => woadLineSlot_reply hw, fun _ _ => woadLineSlot_heartbeat⟩
  case cycle =>
    intro s x p hp hd hw
    rw [safetyCycleStart_due x hp hd hw]
    exact ⟨fun ht => by rw [ht]; rfl, fun ht => by rw [ht]; rfl⟩
  case pulse =>
    intro s k ch c n hk hw hc ht hp
    exact ⟨testPulseCheck_pulsed hk hw hc false ht hp, testPulseCheck_pulsed hk hw hc true ht hp⟩
  case slot =>
    intro s slot e hl
    obtain ⟨hslot, hfree⟩ := State.lineSlot_some hl
    exact ⟨hfree, by simp, hslot⟩

end Sys2Proof.Machine
end

section
/-! PROOF. Foxglove takes raisings in the order sent, and counts or opens a record for each (R28, R446, R450). -/

namespace Sys2Proof.Machine

/-! ### What leaves the records of the queue as they stand -/

/-- The records of the queue, and the number of the last one opened, stand as they did. -/
structure KeepsRecords (s t : State) : Prop where
  queue : t.fox.queue = s.fox.queue
  head : t.fox.head = s.fox.head

theorem KeepsRecords.refl (s : State) : KeepsRecords s s := ⟨rfl, rfl⟩
theorem KeepsRecords.trans {s t u : State} (h : KeepsRecords s t) (g : KeepsRecords t u) : KeepsRecords s u :=
  ⟨g.queue.trans h.queue, g.head.trans h.head⟩
theorem KeepsRecords.of_fox {s t : State} (h : t.fox = s.fox) : KeepsRecords s t := ⟨by rw [h], by rw [h]⟩
theorem KeepsRecords.ite {s t u : State} {c : Prop} [Decidable c] (h : KeepsRecords s t) (g : KeepsRecords s u) :
    KeepsRecords s (if c then t else u) := by split <;> assumption
theorem KeepsRecords.foldl {α : Type} {f : State → α → State} (hf : ∀ s x, KeepsRecords s (f s x)) {s t : State} (l : List α)
    (h : KeepsRecords s t) : KeepsRecords s (l.foldl f t) := by
  induction l generalizing t with
  | nil => exact h
  | cons x r ih => exact ih (h.trans (hf t x))

theorem KeepsRecords.of_entry {s t : State} (h : OnlyEntry s t) : KeepsRecords s t :=
  ⟨congrArg (fun u => u.fox.queue) h, congrArg (fun u => u.fox.head) h⟩
theorem KeepsRecords.of_reply {s t : State} (h : OnlyReply s t) : KeepsRecords s t :=
  .of_fox (Eq.trans (congrArg State.fox h.rest) rfl)

theorem KeepsRecords.leaveReplay (s : State) : KeepsRecords s s.leaveReplay :=
  .ite (.of_fox (by simp [State.replayStop])) (.refl s)

theorem KeepsRecords.setMode (s : State) (m : Mode) (c : Cause) : KeepsRecords s (s.setMode m c) := by
  have hentry : KeepsRecords s (s.ownEntry 0x00F1 [s.mode.code, m.code, c.code]) := .of_entry (OnlyEntry.journal _ _ _ _ _ _ _)
  exact hentry.trans ((KeepsRecords.leaveReplay _).trans (.of_fox rfl))

theorem KeepsRecords.toLink (s : State) (r : Nat) : KeepsRecords s (s.toLink r) :=
  .of_fox (by simp [State.toLink, State.seekRate, State.setXw, State.setLb, State.setRing])

theorem KeepsRecords.unpair (s : State) : KeepsRecords s s.unpair := by
  unfold State.unpair
  refine .foldl (fun t r => .ite (.toLink t r) (.refl t)) _ ?_
  exact .of_fox rfl

/-- STANDBY is left for another mode, and the pair with it. -/
theorem KeepsRecords.setMode_unpair (s : State) (m : Mode) (c : Cause) : KeepsRecords s (s.setMode m c).unpair :=
  (KeepsRecords.setMode s m c).trans (.unpair _)

theorem KeepsRecords.gated {s : State} {f : State → State} (hf : KeepsRecords s (f s)) : KeepsRecords s (s.gated f) :=
  .foldl (f := s.noteSafe) (fun t _ => .ite (.of_fox rfl) (.refl t)) _ hf

theorem KeepsRecords.allSafe (s : State) : KeepsRecords s s.allSafe := by
  unfold State.allSafe
  refine .foldl (fun _ _ => ?_) _ (.refl s)
  exact .of_fox rfl

/-- The reactions of a level (R455 to R457) open no record. -/
theorem KeepsRecords.react (s : State) (cls level : Nat) : KeepsRecords s (s.react cls level) := by
  unfold State.react
  split
  case h_1 => exact .ite (.setMode _ _ _) (.refl s)
  case h_2 =>
    have hsafe : KeepsRecords s
        (s.gated fun s => { s with fox := { s.fox with latch := true, fatal := s.fox.fatal || foxFatal cls } }).allSafe :=
      (KeepsRecords.gated ⟨rfl, rfl⟩).trans (.allSafe _)
    refine .ite (hsafe.trans ?fatal) (hsafe.trans ?safe)
    case fatal =>
      split
      case h_1 => exact .setMode_unpair _ _ _
      case h_10 => exact .refl _
      all_goals exact .setMode _ _ _
    case safe =>
      split
      case h_1 => exact .setMode_unpair _ _ _
      case h_8 => exact .refl _
      all_goals exact .setMode _ _ _
  case h_3 => exact .refl s

/-- An alarm goes out on the backbone (R458). -/
theorem KeepsRecords.sendAlarm (s : State) (x : FoxRec) : KeepsRecords s (s.sendAlarm x) := by
  unfold State.sendAlarm
  exact .foldl (fun t p => .ite (.of_reply (.bbSend t p _)) (.refl t)) _ (.refl s)

theorem KeepsRecords.alarm (s : State) (x : FoxRec) : KeepsRecords s (s.alarm x) := by
  unfold State.alarm
  refine .ite (.refl s) ?_
  split
  · refine .trans ?_ (.sendAlarm _ x)
    exact ⟨rfl, rfl⟩
  · refine .trans ?_ (.of_fox (State.fox_incFld _ _ _))
    exact ⟨rfl, rfl⟩

theorem KeepsRecords.faultMark (s : State) (x : FoxRec) (level : Nat) : KeepsRecords s (s.faultMark x level) := .of_fox rfl
theorem KeepsRecords.enterState (s : State) (level : Nat) (src : FoxSrc) : KeepsRecords s (s.enterState level src) := ⟨rfl, rfl⟩

/-- What follows a record counted in or opened: fault mark, alarm, fault state and reaction. -/
theorem KeepsRecords.mark (s : State) (x : FoxRec) (cls level : Nat) (src : FoxSrc) : KeepsRecords s (
    let t := (s.faultMark x level).alarm x
    if foxWarn cls then t else (t.enterState level src).react cls level) := by
  have halarm := (KeepsRecords.faultMark s x level).trans (.alarm _ x)
  exact .ite halarm (halarm.trans ((KeepsRecords.enterState _ level src).trans (.react _ cls level)))

/-! ### One raising recorded (R450) -/

section

variable {s : State} {r : Raising}

/-- A raising that finds an open record counts in it: no other record changes and none is opened. -/
theorem State.recordRaising_coalesces {x : FoxRec} (esc : Bool)
    (hx : s.fox.queue.find? (fun y => y.openAt r.cls r.level && decide (y.src = r.src)) = some x) :
    KeepsRecords { s with fox := s.fox.upd x.no fun _ => s.again x } (s.recordRaising r esc) := by
  rw [State.recordRaising, hx]
  exact .mark _ _ _ _ _

/-- A raising that finds none opens one. -/
theorem State.recordRaising_opens (esc : Bool)
    (hx : s.fox.queue.find? (fun y => y.openAt r.cls r.level && decide (y.src = r.src)) = none) :
    KeepsRecords (s.newRec r esc).1 (s.recordRaising r esc) := by
  rw [State.recordRaising, hx]
  exact .mark _ _ _ _ _

end

/-- A record's count rises by one and stops at 65,535. -/
theorem State.again_eq (s : State) (x : FoxRec) : s.again x =
    { x with count := if x.count < 65535 then x.count + 1 else 65535, lastNs := s.time.ns, lastS := s.time.s.setWidth 32 } := by
  have hcount : satAdd x.count 1 65535 = if x.count < 65535 then x.count + 1 else 65535 := by unfold satAdd; split <;> split <;> omega
  rw [State.again, hcount]; rfl

/-- The overflow count (R452) is a register: the new record stands at the end of the newest 512. -/
theorem State.newRec_records (s : State) (r : Raising) (esc : Bool) :
    (s.newRec r esc).1.fox.head = s.fox.head + 1 ∧ (s.newRec r esc).1.fox.queue = newest 512 (s.fox.queue ++
      [{ no := s.fox.head + 1, cls := r.cls, level := r.level, esc := esc, ack := false, src := r.src, count := 1, cycle := s.cycle
         firstNs := s.time.ns, firstS := s.time.s.setWidth 32, lastNs := s.time.ns, lastS := s.time.s.setWidth 32 }]) := by
  have hlost (t : State) (b : Bool) : (if b then t.incFld Reg.foxLost else t).fox = t.fox := by cases b <;> simp
  simp only [State.newRec, hlost, State.nowNs, State.nowS, and_self]

/-! ### The order of arrival (R28) -/

theorem faultRaising_awake {s : State} (r : Raising) (ha : s.awake = true) :
    exec (.faultRaising r) s = .next (if foxSent r then s.foxArrive r else s) := by
  obtain ⟨hoff, hreset⟩ : s.mode ≠ .off ∧ s.mode ≠ .reset := of_decide_eq_true ha
  change execFaultRaising r s = _
  unfold execFaultRaising
  split
  · contradiction
  · contradiction
  · rfl

/-- The raisings that its island sent before it are taken first, in their order. -/
theorem State.foxArrive_after {s : State} {r : Raising} {before after : List Raising} (hr : r ∉ before)
    (h : s.raisingsOf (s.sender r.src) = before ++ r :: after) : s.foxArrive r = (before.foldl State.foxTake s).foxTake r := by
  have hbefore : (before ++ r :: after).takeWhile (fun x => decide (x ≠ r)) = before := by
    rw [List.takeWhile_append_of_pos fun x hx => decide_eq_true (ne_of_mem_of_not_mem hx hr),
      List.takeWhile_cons_of_neg (by simp), List.append_nil]
  rw [State.foxArrive, h, hbefore]

/-- A raising before which its island has sent no other is taken at once. -/
theorem State.foxArrive_alone {s : State} {r : Raising} (h : ∀ x ∈ s.fox.inflight, s.sender x.src = s.sender r.src → x = r) :
    s.foxArrive r = s.foxTake r := by
  have hnone : (s.raisingsOf (s.sender r.src)).takeWhile (fun x => decide (x ≠ r)) = [] := by
    rw [List.takeWhile_eq_nil_iff]
    intro hl
    obtain ⟨hmem, hsend⟩ := List.mem_filter.1 (List.getElem_mem hl)
    simpa using h _ hmem (beq_iff_eq.1 hsend)
  rw [State.foxArrive, hnone, List.foldl_nil]

/-- Settles O43: an island's raisings are taken in the order sent, and what follows a record, counted in or opened, leaves the records
alone. -/
theorem faultRecords : Obligations.FaultRecords := by
  unfold Obligations.FaultRecords
  refine ⟨fun s r ha => ?_, fun s r => State.foxArrive_alone, fun s r before after => State.foxArrive_after, fun s r esc x hx => ?_,
    fun s r esc hx => ?_⟩
  · rw [faultRaising_awake r ha]
    exact ⟨fun h => by rw [if_pos h], fun h => by rw [h]; rfl⟩
  · obtain ⟨hqueue, hhead⟩ := State.recordRaising_coalesces esc hx
    rw [State.again_eq] at hqueue
    exact ⟨hqueue, hhead⟩
  · obtain ⟨hqueue, hhead⟩ := State.recordRaising_opens esc hx
    obtain ⟨hno, hrecords⟩ := s.newRec_records r esc
    exact ⟨hhead.trans hno, hqueue.trans hrecords⟩

end Sys2Proof.Machine
end

section
/-! PROOF. Larkspur: what the twin link brings, the takeover watch, synchronisation (R422 to R443). -/

namespace Sys2Proof.Machine

/-! ### The twin link of either part (R422, R425, R427, R431) -/

/-- What a part notes of a heartbeat of its partner (R425): among it whether both hold the same image. -/
def State.hears (s : State) (h : TwinHeartbeat) : State :=
  s.setLsp { s.lsp with hb := some h, hbNow := true, hbMiss := some 0
                        imageOk := match s.image with | some i => decide (i.check = h.checkValue) | none => false
                        partnerReady := h.ready, lostRaised := false }

section

variable {s : State} {h : TwinHeartbeat} {e : JEntry} (hA : s.isA = true) (ha : s.awake = true)
include hA ha

section

variable (hl : s.lsp.linkUp = true) (hc : h.crcOk = true)
include hl hc

theorem twinHeartbeatReceive_hears : exec (.twinHeartbeatReceive h) s = .next (
    let t := s.hears h
    if t.mode = .standby && h.mode == BitVec.ofNat 8 Mode.standby.code then t
    else if t.mode = .standby then
      let u := (t.alignCycle h.cycle).steer (h.tNs.toNat * 65536 + h.tSub.toNat + t.lsp.linkDelay)
      if h.cycle = u.cycle + 1#32 then u.witness (fun w => { w with twin := true, resign := w.resign || h.resign }) else u
    else if t.pairs h && decide (t.lsp.role = .unpaired) then t.setLsp { t.lsp with role := .active }
    else t) :=
  congrArg Host.Outcome.next (if_neg (by simp [hA, ha, hl, hc]))

/-- A heartbeat pairs an unpaired part with its partner (R419). -/
theorem twinHeartbeatReceive_notStandby (hm : s.mode ≠ .standby) : exec (.twinHeartbeatReceive h) s = .next (
    let t := s.hears h
    if t.pairs h = true ∧ t.lsp.role = .unpaired then t.setLsp { t.lsp with role := .active } else t) := by
  have hmode : (s.hears h).mode ≠ .standby := hm
  rw [twinHeartbeatReceive_hears hA ha hl hc]
  simp only [hmode, decide_false, Bool.false_and, Bool.false_eq_true, if_false, Bool.and_eq_true, decide_eq_true_eq]

/-- A standby whose partner is in STANDBY too takes neither its cycle nor its time (R436). -/
theorem twinHeartbeatReceive_bothStandby (hm : s.mode = .standby) (hp : h.mode = BitVec.ofNat 8 Mode.standby.code) :
    exec (.twinHeartbeatReceive h) s = .next (s.hears h) := by
  have hmode : (s.hears h).mode = .standby := hm
  rw [twinHeartbeatReceive_hears hA ha hl hc]
  simp only [hmode, hp, decide_true, beq_self_eq_true, Bool.and_self, if_true]

end

theorem twinJournalReceive_notStandby (hl : s.lsp.linkUp = true) (hm : s.mode ≠ .standby) :
    exec (.twinJournalReceive e) s = .next (s.applyTwin e) :=
  congrArg Host.Outcome.next ((if_neg (by simp [hA, ha, hl])).trans (if_pos hm))

/-- A standby keeps the entry under a number of its own, acknowledges it, and applies it or holds it for the catch-up. -/
theorem twinJournalReceive_standby (hl : s.lsp.linkUp = true) (hm : s.mode = .standby) (hj : s.jnlOpen = true) :
    exec (.twinJournalReceive e) s = .next (
      let t := State.mirrorTest { s with jnl := s.jnl.add { e with seq := s.jnl.head + 1 } }
      let u := (t.sendTwin 6 t.cycle (leBytes 8 e.seq)).applyTwin e
      match u.lsp.sync with
      | .inStep => u.applyEntry e
      | .syncing => u.setLsp { u.lsp with heldJnl := u.lsp.heldJnl ++ [e] }
      | .none => u.applyEntry e) :=
  congrArg Host.Outcome.next ((if_neg (by simp [hA, ha, hl])).trans ((if_neg (not_not.2 hm)).trans (if_neg (by simp [hj]))))

theorem twinLinkDown_awake : exec .twinLinkDown s = .next (
    (s.setLsp { s.lsp with linkUp := false, copy := [], partnerReady := false }).releaseAcks (fun _ => true)) :=
  congrArg Host.Outcome.next (if_neg (by simp [hA, ha]))

theorem twinLinkUp_awake : exec .twinLinkUp s = .next (s.drew.setLsp { s.lsp with linkUp := true, linkDelay := s.freeW.toNat }) :=
  congrArg Host.Outcome.next (if_neg (by simp [hA, ha]))

end

/-! ### What an active takes (R427, R435) -/

section

variable {s : State} {seq : Nat} {n : Word} (hr : s.lsp.role = .active) (hl : s.lsp.linkUp = true)
include hr hl

theorem twinAckReceive_active : exec (.twinAckReceive seq) s = .next (
    (s.setLsp { s.lsp with acked := max s.lsp.acked seq }).releaseAcks (fun k => decide (k ≤ max s.lsp.acked seq))) :=
  congrArg Host.Outcome.next (if_neg (by simp [hr, hl]))

theorem twinSyncReceive_active (hn : cycLater n (s.cycle + 1#32) = false) :
    exec (.twinSyncReceive n) s = .next (s.setLsp { s.lsp with partnerReady := false }) :=
  congrArg Host.Outcome.next (if_neg (by simp [hr, hl, hn]))

end

/-! ### What a standby takes (R424, R433 to R435) -/

section

variable {s : State} {t : TokenRec} {c : TwinCopy} {bs : List Byte} {n : Word} {d : BitVec 64} (hm : s.mode = .standby)
  (hl : s.lsp.linkUp = true)
include hm hl

section

variable (ht : ((s.image.map Image.axes).getD []).find? (fun c => c.srcQ == t.queue) = none)
include ht

/-- A token of a queue that Woad does not tap is kept while the standby synchronises. -/
theorem twinMirrorReceive_syncing (hs : s.lsp.sync = .syncing) :
    exec (.twinMirrorReceive t) s = .next (s.setLsp { s.lsp with heldToks := s.lsp.heldToks ++ [t] }) := by
  change execTwinMirrorReceive t s = _
  simp only [execTwinMirrorReceive, hm, hl, ht, hs, Option.map_none, ite_self, ne_eq, not_true_eq_false, decide_false, Bool.not_true,
    Bool.or_self, Bool.false_eq_true, if_false]

/-- In step, it enters its queue in the cycle it belongs to, unless a token of that cycle stands there. -/
theorem twinMirrorReceive_inStep (hs : s.lsp.sync = .inStep) (hc : t.tok.cycle = s.cycle)
    (hn : s.mad.samples.any (fun r => r.queue == t.queue && decide (r.tok.cycle = t.tok.cycle)) = false) :
    exec (.twinMirrorReceive t) s = .next ((s.push t.queue t.tok).note) := by
  rw [hc] at hn
  change execTwinMirrorReceive t s = _
  simp only [execTwinMirrorReceive, hm, hl, ht, hs, hc, hn, Option.map_none, ite_self, ne_eq, not_true_eq_false, decide_false,
    Bool.not_true, Bool.or_self, Bool.false_eq_true, if_false]

end

theorem twinDigestReceive_standby :
    exec (.twinDigestReceive n d) s = .next ((s.setLsp { s.lsp with digestIn := some (n, d) }).digestTest) :=
  congrArg Host.Outcome.next (if_neg (by simp [hm, hl]))

theorem twinCopyReceive_badCheck (hc : c.crcOk = false) : exec (.twinCopyReceive c) s = .next (s.mismatch 3 c.cycle) := by
  change execTwinCopyReceive c s = _
  simp [execTwinCopyReceive, hm, hl, hc]

/-- The one frame of another copy than the one begun, which is whole with it, is loaded. -/
theorem twinCopyReceive_loads (hc : c.crcOk = true) (hs : s.lsp.sync = .syncing) (hd : s.lsp.loaded = false)
    (hn : s.lsp.copyCycle ≠ c.cycle ∨ s.lsp.copySize ≠ c.size) (hb : copyBytes c.size [(c.offset, c.data)] = some bs) :
    exec (.twinCopyReceive c) s = .next (
      let t := (s.setLsp { s.lsp with copyCycle := c.cycle, copySize := c.size, copy := [] }).loadCopy c.cycle bs
      t.setLsp { t.lsp with loaded := true, caught := 0, catching := false
                            heldToks := t.lsp.heldToks.filter (fun r => cycLater r.tok.cycle c.cycle) }) := by
  have hother : (decide (s.lsp.copyCycle = c.cycle) && decide (s.lsp.copySize = c.size)) = false := by
    rcases hn with h | h <;> simp [h]
  change execTwinCopyReceive c s = _
  simp only [execTwinCopyReceive, hm, hl, hc, hs, hd, hother, List.nil_append, hb, State.setLsp, ne_eq, not_true_eq_false, decide_false,
    decide_true, Bool.not_true, Bool.or_self, Bool.and_false, Bool.false_eq_true, if_false]

end

/-! ### The takeover watch (R436, R437) -/

/-- A standby that is ready, and not inhibited at W, takes over from an active that resigns. -/
theorem takeoverWatch_resigned {s : State} {x : Int} (hm : s.mode = .standby) (he : s.edgesRun = true)
    (hx : s.instant (s.cycle + 1#32) (-((s.timing.tCs : Int) - s.timing.tWatch)) = some x) (hw : s.lsp.watched = false)
    (hr : s.lsp.ready = true) (hi : (s.advanceTo x).bit Reg.lspCtrlInhibit = false) (hn : s.lsp.wNow.resign = true) :
    exec .takeoverWatch s = .next (
      let t := s.advanceTo x
      (t.setLsp { t.lsp with wPrev := s.lsp.wNow, wNow := {}, watched := true, csSeen := s.lsp.wNow.cs }).takeover (s.cycle + 1#32)) := by
  change execTakeoverWatch s = _
  simp only [execTakeoverWatch, hm, he, hx, hw, State.lsp_advanceTo, hr, hi, hn, ne_eq, not_true_eq_false, decide_false, Bool.not_true,
    Bool.not_false, Bool.or_self, Bool.and_self, Bool.true_or, Bool.false_eq_true, if_false, if_true]

/-! ### The catch-up (R435) -/

section

variable {s : State} (hm : s.mode = .standby) (hs : s.lsp.sync = .syncing) (hd : s.lsp.loaded = true)
include hm hs hd

section

variable (hc : s.lsp.caught < 128)
include hc

/-- No cycle is left to recompute. -/
theorem syncCatchUpCycle_ahead (hn : cycLater (s.closeCaught.catchCycle + 1#32) s.closeCaught.cycle = true) :
    exec .syncCatchUpCycle s = .next (s.closeCaught.setLsp { s.closeCaught.lsp with catching := false }) := by
  change execSyncCatchUpCycle s = _
  simp only [execSyncCatchUpCycle, hm, hs, hd, hn, decide_eq_false (Nat.not_le.2 hc), ne_eq, not_true_eq_false, decide_false, Bool.not_true,
    Bool.or_self, Bool.false_eq_true, if_false, if_true]

/-- A cycle before the live one is recomputed, with holds where no token came. -/
theorem syncCatchUpCycle_behind (hn : cycLater (s.closeCaught.catchCycle + 1#32) s.closeCaught.cycle = false)
    (hl : s.closeCaught.catchCycle + 1#32 ≠ s.closeCaught.cycle) : exec .syncCatchUpCycle s = .next (
      let t := s.closeCaught
      let c := t.catchCycle + 1#32
      let u := t.setLsp { t.lsp with caught := t.lsp.caught + 1, catching := true }
      let v := ((((u.heldEntriesNow c).fencedEffects c).dropTokens c).deliverBoxes c).heldSources c true
      (v.setLsp { v.lsp with heldToks := v.lsp.heldToks.filter (fun (r : TokenRec) => cycLater r.tok.cycle c) }).note) := by
  change execSyncCatchUpCycle s = _
  simp only [execSyncCatchUpCycle, hm, hs, hd, hn, hl, decide_eq_false (Nat.not_le.2 hc), ne_eq, not_true_eq_false, decide_false,
    Bool.not_true, Bool.not_false, Bool.or_self, Bool.false_eq_true, if_false]

end

theorem syncGiveUp_spent (hc : 128 ≤ s.lsp.caught) : exec .syncGiveUp s = .next (
    (s.setLsp { s.lsp with loaded := false, caught := 0, catching := false, heldToks := [], heldJnl := [] }).lspRaise 0x84) :=
  congrArg Host.Outcome.next (if_neg (by simp [hm, hs, hd, hc]))

end

/-- Settles O58: each row acts so in the mode and the role it is for, while the twin link is up. -/
theorem twinRows : Obligations.TwinRows := by
  unfold Obligations.TwinRows
  exact ⟨fun _ _ => twinHeartbeatReceive_notStandby, fun _ _ => twinHeartbeatReceive_bothStandby,
    fun _ _ hm hl hs ht => twinMirrorReceive_syncing hm hl ht hs, fun _ _ hm hl hs ht hc hn => twinMirrorReceive_inStep hm hl ht hs hc hn,
    fun _ _ => twinJournalReceive_notStandby, fun _ _ => twinJournalReceive_standby, fun _ _ => twinCopyReceive_badCheck,
    fun _ _ _ => twinCopyReceive_loads, fun _ _ _ => twinDigestReceive_standby, fun _ _ => twinAckReceive_active,
    fun _ _ => twinSyncReceive_active, fun _ => twinLinkDown_awake, fun _ => twinLinkUp_awake, fun _ _ => takeoverWatch_resigned,
    fun _ => syncCatchUpCycle_ahead, fun _ => syncCatchUpCycle_behind, fun _ => syncGiveUp_spent⟩

end Sys2Proof.Machine
end

section
/-! PROOF. The words of the cell instructions (R94 to R101, R106): each format reads back the fields that it was written with, and the
opcode map leads from the opcode back to the instruction. -/

namespace Sys2Proof.Machine

/-! ### The formats -/

theorem getLsbD_ofBool_zero (b : Bool) : (BitVec.ofBool b).getLsbD 0 = b := by cases b <;> rfl

theorem readAccess_accessWord (a : Access) : readAccess (accessWord a) = a := by
  simp only [readAccess, accessWord, BitVec.extractLsb'_append_eq_of_le, BitVec.extractLsb'_append_eq_right, BitVec.getLsbD_append,
    getLsbD_ofBool_zero, BitVec.extractLsb'_eq_self, Nat.reduceLeDiff, Nat.reduceSub, Nat.reduceLT, if_true, if_false]

/-- A word that spells an instruction of a format: the format reads the fields back, and opcode and stage stand in front (R94). -/
structure Spells {α : Type} (read : BitVec 64 → α) (w : BitVec 64) (op : BitVec 8) (stg : BitVec 3) (i : α) : Prop where
  fields : read w = i
  op : wordOp w = op
  stg : wordStg w = stg

theorem wordA_spells (op : BitVec 8) (i : FmtA) : Spells (readA i.cell) (wordA op i) op i.stg i := by
  constructor <;>
    simp only [readA, wordA, wordStg, wordOp, BitVec.extractLsb'_append_eq_of_le, BitVec.extractLsb'_append_eq_right,
      BitVec.getLsbD_append, getLsbD_ofBool_zero, readAccess_accessWord, Nat.reduceLeDiff, Nat.reduceSub, Nat.reduceLT, if_true, if_false,
      BitVec.extractLsb'_eq_self]

theorem wordF_spells (op : BitVec 8) (i : FmtF) : Spells (readF i.cell) (wordF op i) op i.stg i := by
  constructor <;>
    simp only [readF, wordF, wordStg, wordOp, BitVec.extractLsb'_append_eq_of_le, BitVec.extractLsb'_append_eq_right,
      BitVec.getLsbD_append, getLsbD_ofBool_zero, readAccess_accessWord, Nat.reduceLeDiff, Nat.reduceSub, Nat.reduceLT, if_true, if_false,
      BitVec.extractLsb'_eq_self]

theorem wordI_spells (op : BitVec 8) (i : FmtI) : Spells (readI i.cell) (wordI op i) op i.stg i := by
  constructor <;>
    simp only [readI, wordI, wordStg, wordOp, BitVec.extractLsb'_append_eq_of_le, BitVec.extractLsb'_append_eq_right, Nat.reduceLeDiff,
      Nat.reduceSub, BitVec.extractLsb'_eq_self]

theorem wordB_spells (op : BitVec 8) (i : FmtB) : Spells (readB i.cell) (wordB op i) op i.stg i := by
  constructor <;>
    simp only [readB, wordB, wordStg, wordOp, BitVec.extractLsb'_append_eq_of_le, BitVec.extractLsb'_append_eq_right, Nat.reduceLeDiff,
      Nat.reduceSub, BitVec.extractLsb'_eq_self]

theorem wordL_spells (op : BitVec 8) (i : FmtL) : Spells (readL i.cell) (wordL op i) op i.stg i := by
  constructor <;>
    simp only [readL, wordL, wordStg, wordOp, BitVec.extractLsb'_append_eq_of_le, BitVec.extractLsb'_append_eq_right,
      BitVec.getLsbD_append, getLsbD_ofBool_zero, Nat.reduceLeDiff, Nat.reduceSub, Nat.reduceLT, if_true, if_false,
      BitVec.extractLsb'_eq_self]

theorem wordM_spells (op : BitVec 8) (i : FmtM) : Spells (readM i.cell) (wordM op i) op i.stg i := by
  constructor <;>
    simp only [readM, wordM, wordStg, wordOp, BitVec.extractLsb'_append_eq_of_le, BitVec.extractLsb'_append_eq_right, Nat.reduceLeDiff,
      Nat.reduceSub, BitVec.extractLsb'_eq_self]

/-! ### The opcode map -/

/-- An opcode whose row of the map makes an instruction of what the format reads (R106): the word that spells it decodes to it. -/
theorem cellDecode_spells {α : Type} {read : BitVec 64 → α} {w : BitVec 64} {op : BitVec 8} {stg : BitVec 3} {i : α} (n : Nat)
    (mk : α → Instr) (h : Spells read w op stg i) (hrow : cellRow n w (op.toNat / 16) (op.toNat % 16) = some (mk (read w))) :
    ∃ v, some w = some v ∧ cellDecode n v = mk i ∧ wordStg v = stg ∧ definedOpcode (wordOp v).toNat = true := by
  have hlt := op.isLt
  refine ⟨w, rfl, ?_, h.stg, ?_⟩
  · rw [cellDecode, h.op, hrow, h.fields, Option.getD_some]
  · rw [h.op, ← Nat.div_add_mod op.toNat 16, ← cellRow_isSome n w _ _ (by omega) (by omega), hrow, Option.isSome_some]

/-- Settles O24: each format's word spells its instruction, and each row of the map reads that format. -/
theorem cellWordsRoundTrip : Obligations.CellWordsRoundTrip := by
  unfold Obligations.CellWordsRoundTrip
  intro i n stg h
  cases i with
  | fma i | fms i | fnma i | fnms i | svm3 i | ints i =>
    cases h
    exact cellDecode_spells _ _ (wordF_spells _ i) rfl
  | setrrb i | movfi i | movpi i | movmi i | addpi i | bext i | bins i | andi i | ori i | xori i | iaddi i | icmpi i | shli i
  | shri i | sari i | addfi i | mulfi i | fmacfi i | minfi i | maxfi i | satfi i | cmpfi i =>
    cases h
    exact cellDecode_spells _ _ (wordI_spells _ i) rfl
  | br i | breq i | brne i | brlt i | brge i | brun i | bror i | brgt i | brle i | brts i | brtc i =>
    cases h
    exact cellDecode_spells _ _ (wordB_spells _ i) rfl
  | loop i | loopp i =>
    cases h
    exact cellDecode_spells _ _ (wordL_spells _ i) rfl
  | ldx i | ldy i | stx i | sty i | ldxp i | ldyp i | stxp i | styp i =>
    cases h
    exact cellDecode_spells _ _ (wordM_spells _ i) rfl
  | _ => cases h <;> exact cellDecode_spells _ _ (wordA_spells _ _) rfl

/-- Settles O25: each word is taken apart by its fields. -/
theorem writtenOutWordsDecode : Obligations.WrittenOutWordsDecode := by
  unfold Obligations.WrittenOutWordsDecode
  exact ⟨rfl, rfl, rfl, rfl, rfl, rfl, rfl⟩

end Sys2Proof.Machine
end

section
/-! PROOF. Post-modify of a pointer (R58). -/

namespace Sys2Proof.Machine

/-- The search for the buffer's power of two stops at the least one that the buffer fits in. -/
theorem powAtLeast_least (len b k j : Nat) (hle : len ≤ 2 ^ b) (hlt : ∀ i < b, 2 ^ i < len) (hj : j ≤ b) (hk : b ≤ j + k) :
    powAtLeast len k (2 ^ j) = 2 ^ b := by
  induction k generalizing j with
  | zero => rw [powAtLeast, show j = b by omega]
  | succ k ih =>
    rw [powAtLeast]
    by_cases h : j = b
    · rw [h, if_pos hle]
    · have hp := hlt j (by omega)
      rw [if_neg (by omega), ← Nat.pow_succ', ih (j + 1) (by omega) (by omega)]

theorem postMod_linear (p : BitVec 16) (m : Word) (h : m.toNat / 65536 = 0) :
    ((postMod p m).toNat : Int) = ((p.toNat : Int) + (BitVec.ofNat 16 m.toNat).toInt) % 65536 := by
  simp only [postMod, h, if_true, BitVec.toNat_ofInt, BitVec.ofNat_toNat]
  omega

theorem postMod_circular (p : BitVec 16) (m : Word) (b : Nat) (h0 : 0 < m.toNat / 65536) (hle : m.toNat / 65536 ≤ 2 ^ b)
    (hlt : ∀ j < b, 2 ^ j < m.toNat / 65536) : ((postMod p m).toNat : Int)
      = (((p.toNat - p.toNat % 2 ^ b : Nat) : Int) + (((p.toNat % 2 ^ b : Nat) : Int) + (BitVec.ofNat 16 m.toNat).toInt)
          % ((m.toNat / 65536 : Nat) : Int)) % 65536 := by
  have hm := m.isLt
  have hb : b ≤ 16 := by
    by_contra hc
    have := hlt 16 (by omega)
    omega
  have hpow := powAtLeast_least (m.toNat / 65536) b 16 0 hle hlt (by omega) (by omega)
  rw [Nat.pow_zero] at hpow
  have hbase : p.toNat / 2 ^ b * 2 ^ b = p.toNat - p.toNat % 2 ^ b := by
    have := Nat.div_add_mod' p.toNat (2 ^ b)
    omega
  have hoff : p.toNat - (p.toNat - p.toNat % 2 ^ b) = p.toNat % 2 ^ b := by
    have := Nat.mod_le p.toNat (2 ^ b)
    omega
  simp only [postMod, hpow, if_neg h0.ne', BitVec.toNat_ofInt, BitVec.ofNat_toNat, hbase, hoff]
  omega

/-- Settles O41: the model's search finds the least power of two, and the rest is the two formulas of R58. -/
theorem postModify : Obligations.PostModify := by
  unfold Obligations.PostModify
  exact fun p m => ⟨postMod_linear p m, postMod_circular p m⟩

end Sys2Proof.Machine
end

section
/-! PROOF. FP32 compares and roundings (R76 to R81, R114): what an order of two numbers excludes, and the words that a rounding can
give. -/

namespace Sys2Proof.Machine

open Spec

/-! ### The order of two words (R79, R80) -/

theorem Fp.isNan_iff (w : Word) : Fp.isNan w = true ↔ Fp.val w = .nan := by
  unfold Fp.isNan
  cases Fp.val w <;> simp

theorem Fp.cmp_u (a b : Word) : (Fp.cmp a b).u = (Fp.isNan a || Fp.isNan b) := by
  unfold Fp.cmp Fp.isNan
  cases Fp.val a <;> cases Fp.val b <;> rfl

/-- Of two numbers one is less, or they are equal. -/
theorem Fp.lt_swap (a b : Word) (ha : Fp.isNan a = false) (hb : Fp.isNan b = false) :
    Fp.lt b a = !((Fp.cmp a b).z || (Fp.cmp a b).n) := by
  unfold Fp.lt Fp.cmp
  unfold Fp.isNan at ha hb
  cases hva : Fp.val a with
  | nan => simp [hva] at ha
  | inf s => cases hvb : Fp.val b with
    | nan => simp [hvb] at hb
    | inf t => cases s <;> cases t <;> rfl
    | num t k f => cases s <;> rfl
  | num s m e => cases hvb : Fp.val b with
    | nan => simp [hvb] at hb
    | inf t => cases t <;> rfl
    | num t k f =>
      dsimp only
      generalize (Fp.ratio s m e).1 * ((Fp.ratio t k f).2 : Int) = x
      generalize (Fp.ratio t k f).1 * ((Fp.ratio s m e).2 : Int) = y
      rcases Int.lt_trichotomy x y with h | h | h
      · simp [h, Int.le_of_lt h]
      · simp [h]
      · simp [h, Int.le_of_lt h, h.ne']

/-- MIN by the order of its operands (R113). -/
theorem Fp.min_eq (a b : Word) : Fp.min a b
    = if Fp.isNan a || Fp.isNan b then 0x7FC00000#32 else if Fp.lt b a then Fp.canon b else Fp.canon a := by
  simp only [Fp.min, Fp.cmp_u]
  by_cases h : (Fp.isNan a || Fp.isNan b) = true
  · rw [if_pos h, if_pos h]; rfl
  · rw [if_neg h, if_neg h]
    obtain ⟨ha, hb⟩ := Bool.or_eq_false_iff.1 (Bool.eq_false_iff.2 h)
    rw [Fp.lt_swap a b ha hb]
    cases (Fp.cmp a b).z || (Fp.cmp a b).n <;> rfl

/-- MAX by the order of its operands (R113). -/
theorem Fp.max_eq (a b : Word) : Fp.max a b
    = if Fp.isNan a || Fp.isNan b then 0x7FC00000#32 else if Fp.lt a b then Fp.canon b else Fp.canon a := by
  simp only [Fp.max, Fp.cmp_u]
  rfl

/-- What is not above zero is no number, equal to zero or below it. -/
theorem Fp.not_gt_zero (v : Word) : (Fp.isNan v || !Fp.gt v 0#32) = (Fp.isNan v || Fp.eq v 0#32 || Fp.lt v 0#32) := by
  cases h : Fp.isNan v
  · rw [Fp.gt, Fp.lt_swap v 0#32 h rfl, Bool.not_not]; rfl
  · rfl

/-- SIGN by the order of its operand and zero (R120). -/
theorem Fp.sign_eq (a : Word) : Fp.sign a
    = if Fp.isNan a then 0x7FC00000#32 else if Fp.eq a 0#32 then 0#32 else if Fp.lt a 0#32 then 0xBF800000#32 else 0x3F800000#32 := by
  have h0 : Fp.val 0#32 = .num false 0 0 := rfl
  unfold Fp.sign Fp.isNan Fp.eq Fp.lt Fp.cmp
  rw [h0]
  cases hv : Fp.val a with
  | nan => rfl
  | inf s => cases s <;> rfl
  | num s m e =>
    cases m with
    | zero => cases s <;> simp [Fp.ratio]
    | succ m =>
      have hm : (m : Int) + 1 ≠ 0 := by omega
      have hn : ¬ ((m : Int) + 1) * 2 ^ e.toNat < 0 := Int.not_lt.2 (by positivity)
      cases s <;> simp [Fp.ratio, Fp.pow2, Fp.one, hm, hn]

/-! ### The words of a rounding (R76 to R78) -/

/-- The exponent of a quotient is large enough. -/
theorem Fp.expOf_upper (a d : Nat) (hd : 0 < d) :
    a * Fp.pow2 (-(Fp.expOf a d + 1)) < d * Fp.pow2 (Fp.expOf a d + 1) := by
  have ha : a < 2 ^ (Nat.log2 a + 1) := Nat.lt_log2_self
  have hlow : 2 ^ Nat.log2 d ≤ d := Nat.log2_self_le hd.ne'
  unfold Fp.expOf
  dsimp only
  generalize Nat.log2 a = la at ha
  generalize Nat.log2 d = ld at hlow
  split
  · unfold Fp.pow2
    rcases Nat.le_total ld (la + 1) with h | h
    · rw [show (-((la : Int) - ld + 1)).toNat = 0 by omega, show ((la : Int) - ld + 1).toNat = la + 1 - ld by omega, Nat.pow_zero,
        Nat.mul_one]
      calc a < 2 ^ (la + 1) := ha
        _ = 2 ^ ld * 2 ^ (la + 1 - ld) := by rw [← Nat.pow_add]; congr 1; omega
        _ ≤ d * 2 ^ (la + 1 - ld) := Nat.mul_le_mul_right _ hlow
    · rw [show (-((la : Int) - ld + 1)).toNat = ld - (la + 1) by omega, show ((la : Int) - ld + 1).toNat = 0 by omega, Nat.pow_zero,
        Nat.mul_one]
      calc a * 2 ^ (ld - (la + 1)) < 2 ^ (la + 1) * 2 ^ (ld - (la + 1)) := Nat.mul_lt_mul_of_pos_right ha (Nat.two_pow_pos _)
        _ = 2 ^ ld := by rw [← Nat.pow_add]; congr 1; omega
        _ ≤ d := hlow
  · rename_i h
    rw [Int.sub_add_cancel]
    exact Nat.not_le.1 h

/-- Twenty-four places hold the scaled quotient. -/
theorem Fp.scaled_lt (a d : Nat) (e : Int) (h : a * Fp.pow2 (-(e + 1)) < d * Fp.pow2 (e + 1)) :
    a * Fp.pow2 (23 - e) < 2 ^ 24 * (d * Fp.pow2 (-(23 - e))) := by
  unfold Fp.pow2 at h ⊢
  rcases Int.le_total 23 e with h1 | h1
  · rw [show (-(e + 1)).toNat = 0 by omega, show (e + 1).toNat = 24 + (e - 23).toNat by omega, Nat.pow_add] at h
    rw [show (23 - e).toNat = 0 by omega, show (-(23 - e)).toNat = (e - 23).toNat by omega]
    calc a * 2 ^ 0 < d * (2 ^ 24 * 2 ^ (e - 23).toNat) := h
      _ = 2 ^ 24 * (d * 2 ^ (e - 23).toNat) := by ring
  · rw [show (-(23 - e)).toNat = 0 by omega, Nat.pow_zero, Nat.mul_one]
    rcases Int.le_total 0 (e + 1) with h2 | h2
    · rw [show (-(e + 1)).toNat = 0 by omega, Nat.pow_zero, Nat.mul_one] at h
      calc a * 2 ^ (23 - e).toNat < d * 2 ^ (e + 1).toNat * 2 ^ (23 - e).toNat := Nat.mul_lt_mul_of_pos_right h (Nat.two_pow_pos _)
        _ = d * 2 ^ 24 := by rw [Nat.mul_assoc, ← Nat.pow_add]; congr 2; omega
        _ = 2 ^ 24 * d := Nat.mul_comm _ _
    · rw [show (e + 1).toNat = 0 by omega, Nat.pow_zero, Nat.mul_one] at h
      calc a * 2 ^ (23 - e).toNat = a * 2 ^ (-(e + 1)).toNat * 2 ^ 24 := by rw [Nat.mul_assoc, ← Nat.pow_add]; congr 2; omega
        _ < d * 2 ^ 24 := Nat.mul_lt_mul_of_pos_right h (by decide)
        _ = 2 ^ 24 * d := Nat.mul_comm _ _

/-- A scaled quotient below twenty-four places rounds to at most the next power of two. -/
theorem round_le (n : Int) (p d : Nat) (hd : 0 < d) (h : n.natAbs * p < 2 ^ 24 * d) :
    ((2 * (n * (p : Int)) + (d : Int)) / (2 * (d : Int))).natAbs ≤ 2 ^ 24 := by
  have habs : (n * (p : Int)).natAbs = n.natAbs * p := by rw [Int.natAbs_mul, Int.natAbs_natCast]
  generalize n * (p : Int) = x at habs ⊢
  rw [← habs] at h
  clear habs
  have h1 : (2 * x + (d : Int)) / (2 * (d : Int)) < 2 ^ 24 + 1 :=
    Int.ediv_lt_of_lt_mul (by omega) (by omega)
  have h2 : -(2 ^ 24) ≤ (2 * x + (d : Int)) / (2 * (d : Int)) :=
    Int.le_ediv_of_mul_le (by omega) (by omega)
  omega

/-- A number that is rounded: an infinity or a zero, or a word with the exponent and the fraction of a number. -/
theorem Fp.round_cases (n : Int) (d : Nat) (z : Bool) (hd : 0 < d) :
    (∃ s, Fp.round n d z = Fp.zero s) ∨ (Fp.round n d z = Fp.inf (decide (n < 0)))
      ∨ ∃ e f, 1 ≤ e ∧ e ≤ 254 ∧ f < 0x800000
        ∧ Fp.round n d z = BitVec.ofNat 32 ((if n < 0 then 0x80000000 else 0) + e * 0x800000 + f) := by
  unfold Fp.round
  by_cases hn : n = 0
  · exact .inl ⟨z, if_pos hn⟩
  rw [if_neg hn]
  have hp : 0 < d * Fp.pow2 (-(23 - Fp.expOf n.natAbs d)) := Nat.mul_pos hd (Nat.two_pow_pos _)
  have hr := round_le n _ _ hp (Fp.scaled_lt _ _ _ (Fp.expOf_upper n.natAbs d hd))
  dsimp only
  generalize ((2 * (n * (Fp.pow2 (23 - Fp.expOf n.natAbs d) : Int)) + ((d * Fp.pow2 (-(23 - Fp.expOf n.natAbs d)) : Nat) : Int))
    / (2 * ((d * Fp.pow2 (-(23 - Fp.expOf n.natAbs d)) : Nat) : Int))).natAbs = r at hr
  obtain ⟨m, e, hme, hm⟩ : ∃ m e, (if r = 0x1000000 then (0x800000, Fp.expOf n.natAbs d + 1) else (r, Fp.expOf n.natAbs d)) = (m, e)
      ∧ m < 2 ^ 24 := by
    split
    · exact ⟨_, _, rfl, by decide⟩
    · exact ⟨_, _, rfl, by omega⟩
  rw [hme]
  dsimp only
  split
  · exact .inr (.inl rfl)
  · split
    · exact .inl ⟨_, rfl⟩
    · exact .inr (.inr ⟨(e + 127).toNat, m - 0x800000, by omega, by omega, by omega, by simp only [decide_eq_true_eq]⟩)

theorem Fp.canon_num {w : Word} {s : Bool} {m : Nat} {e : Int} (h : Fp.val w = .num s m e) (hm : m ≠ 0) : Fp.canon w = w := by
  obtain ⟨k, rfl⟩ := Nat.exists_eq_succ_of_ne_zero hm
  unfold Fp.canon
  simp only [h]

theorem Fp.canon_inf {w : Word} {s : Bool} (h : Fp.val w = .inf s) : Fp.canon w = Fp.inf s := by
  unfold Fp.canon
  simp only [h]

theorem Fp.canon_zero {w : Word} {s : Bool} {e : Int} (h : Fp.val w = .num s 0 e) : Fp.canon w = Fp.zero s := by
  unfold Fp.canon
  simp only [h]

/-- A word as it is, and a number or an infinity (R78, R80). -/
structure Fp.Rounded (neg : Bool) (w : Word) : Prop where
  canon : Fp.canon w = w
  notNan : Fp.val w ≠ .nan
  inf : ∀ s, Fp.val w = .inf s → s = neg

theorem Fp.round_rounded (n : Int) (d : Nat) (z : Bool) (hd : 0 < d) : Fp.Rounded (decide (n < 0)) (Fp.round n d z) := by
  rcases Fp.round_cases n d z hd with ⟨s, h⟩ | h | ⟨e, f, h1, h2, h3, h⟩ <;> rw [h]
  · cases s <;> exact ⟨rfl, by decide, by intro s hs; cases hs⟩
  · generalize decide (n < 0) = s
    cases s <;> exact ⟨rfl, by decide, by intro s hs; cases hs; rfl⟩
  · generalize hs : (if n < 0 then 0x80000000 else 0 : Nat) = b
    have hb : b = 0 ∨ b = 0x80000000 := by rw [← hs]; split <;> simp
    have hN : (BitVec.ofNat 32 (b + e * 0x800000 + f)).toNat = b + e * 0x800000 + f := by
      rw [BitVec.toNat_ofNat, Nat.mod_eq_of_lt (by omega)]
    generalize BitVec.ofNat 32 (b + e * 0x800000 + f) = w at hN
    have hv : Fp.val w = .num (w.toNat / 0x80000000 == 1) (f + 0x800000) ((e : Int) - 150) := by
      unfold Fp.val
      dsimp only
      rw [show w.toNat / 0x800000 % 256 = e by omega, show w.toNat % 0x800000 = f by omega, if_neg (by omega), if_neg (by omega)]
    exact ⟨Fp.canon_num hv (by omega), by rw [hv]; simp, by rw [hv]; intro s hs; cases hs⟩

/-! ### Numbers among the words -/

/-- A word counts as a number, neither infinite nor NaN. -/
def Fp.Finite (w : Word) : Prop := ∃ s m e, Fp.val w = .num s m e

theorem Fp.ratio_pos (s : Bool) (m : Nat) (e : Int) : 0 < (Fp.ratio s m e).2 := Nat.two_pow_pos _

theorem Fp.Finite.zero (s : Bool) : Fp.Finite (Fp.zero s) := by cases s <;> exact ⟨_, 0, 0, rfl⟩

theorem Fp.Finite.canon {w : Word} (h : Fp.Finite w) : Fp.Finite (Fp.canon w) := by
  obtain ⟨s, m, e, hv⟩ := id h
  by_cases hm : m = 0
  · subst hm
    rw [Fp.canon_zero hv]
    exact .zero s
  · rw [Fp.canon_num hv hm]
    exact h

/-- The exponent and the fraction of a word (R76). -/
theorem expField_eq (w : Word) : w.toNat / 0x800000 % 256 = (w.extractLsb' 23 8).toNat := by
  simp [BitVec.extractLsb'_toNat, Nat.shiftRight_eq_div_pow]

theorem expField_flip (w : Word) : (Fp.flip w).toNat / 0x800000 % 256 = w.toNat / 0x800000 % 256 := by
  rw [expField_eq, expField_eq, Fp.flip, BitVec.extractLsb'_xor, show (0x80000000#32).extractLsb' 23 8 = 0#8 from rfl, BitVec.xor_zero]

theorem Fp.finite_iff (w : Word) : Fp.Finite w ↔ w.toNat / 0x800000 % 256 ≠ 255 := by
  unfold Fp.Finite Fp.val
  dsimp only
  split
  · rename_i h
    refine ⟨?_, fun g => absurd h g⟩
    rintro ⟨s, m, e, g⟩
    split at g <;> cases g
  · rename_i h
    refine ⟨fun _ => h, fun _ => ?_⟩
    split <;> exact ⟨_, _, _, rfl⟩

theorem Fp.Finite.flip {w : Word} (h : Fp.Finite w) : Fp.Finite (Fp.flip w) := by
  rw [Fp.finite_iff] at h ⊢
  rwa [expField_flip]

theorem Fp.isNan_eq_false (w : Word) : Fp.isNan w = false ↔ Fp.val w ≠ .nan := by
  rw [← Bool.not_eq_true, Fp.isNan_iff]

/-- A fused multiply-add of numbers is no NaN. -/
theorem Fp.fma_notNan {a b c : Word} (ha : Fp.Finite a) (hb : Fp.Finite b) (hc : Fp.Finite c) : Fp.val (Fp.fma a b c) ≠ .nan := by
  obtain ⟨s, m, e, ha⟩ := ha
  obtain ⟨t, k, f, hb⟩ := hb
  obtain ⟨u, j, g, hc⟩ := hc
  unfold Fp.fma
  rw [ha, hb, hc]
  exact (Fp.round_rounded _ _ _ (Nat.mul_pos (Nat.mul_pos (ratio_pos s m e) (ratio_pos t k f)) (ratio_pos u j g))).notNan

/-- A square is a number that is not negative infinity, or positive infinity where the operand is infinite. -/
theorem Fp.square_cases (a : Word) (h : Fp.isNan a = false) :
    Fp.val (Fp.mul a a) ≠ .nan ∧ (∀ s, Fp.val (Fp.mul a a) = .inf s → s = false)
      ∧ ((∃ s, Fp.val a = .inf s) → Fp.val (Fp.mul a a) = .inf false) := by
  unfold Fp.mul
  cases hv : Fp.val a with
  | nan => rw [Fp.isNan_eq_false] at h; exact absurd hv h
  | inf s => cases s <;> exact ⟨by decide, by intro s hs; cases hs; rfl, fun _ => rfl⟩
  | num s m e =>
    have hr := Fp.round_rounded ((Fp.ratio s m e).1 * (Fp.ratio s m e).1) ((Fp.ratio s m e).2 * (Fp.ratio s m e).2) (s != s)
      (Nat.mul_pos (ratio_pos ..) (ratio_pos ..))
    rw [decide_eq_false (Int.not_lt.2 (mul_self_nonneg _))] at hr
    exact ⟨hr.notNan, hr.inf, by rintro ⟨t, ht⟩; cases ht⟩

/-- The larger of a word and zero: positive infinity, a zero of either sign, or a positive number. -/
theorem Fp.max_zero_cases (x : Word) (h : Fp.val x ≠ .nan) : Fp.val (Fp.max x 0#32) = .inf false
    ∨ ∃ s m e, Fp.val (Fp.max x 0#32) = .num s m e ∧ (m = 0 ∨ s = false) := by
  have h0 : Fp.val 0#32 = .num false 0 0 := rfl
  rw [Fp.max_eq, (Fp.isNan_eq_false x).2 h, show Fp.isNan 0#32 = false from rfl, Bool.or_false, if_neg Bool.false_ne_true]
  split
  · exact .inr ⟨false, 0, 0, rfl, .inl rfl⟩
  · rename_i hl
    unfold Fp.lt Fp.cmp at hl
    rw [h0] at hl
    cases hv : Fp.val x with
    | nan => exact absurd hv h
    | inf s =>
      obtain rfl : s = false := by simpa [hv] using hl
      left
      rw [Fp.canon_inf hv]
      rfl
    | num s m e =>
      right
      by_cases hm : m = 0
      · subst hm
        rw [Fp.canon_zero hv]
        obtain ⟨t, k, f, hz⟩ := Fp.Finite.zero s
        cases s <;> exact ⟨_, 0, 0, rfl, .inl rfl⟩
      · rw [Fp.canon_num hv hm]
        refine ⟨s, m, e, hv, .inr ?_⟩
        by_contra hs
        have hp : 0 < (m : Int) * 2 ^ e.toNat := by positivity
        simp [hv, Fp.ratio, Fp.pow2, Bool.not_eq_false s ▸ hs] at hl
        omega

/-- The square root of what is not below zero is a word as it is, and no NaN (R71). -/
theorem Fp.sqrt_max_zero (x : Word) (h : Fp.val x ≠ .nan) :
    Fp.canon (Fp.sqrt (Fp.max x 0#32)) = Fp.sqrt (Fp.max x 0#32) ∧ Fp.isNan (Fp.sqrt (Fp.max x 0#32)) = false := by
  rw [Fp.isNan_eq_false]
  rcases Fp.max_zero_cases x h with hv | ⟨s, m, e, hv, hs⟩
  · unfold Fp.sqrt
    rw [hv]
    exact ⟨rfl, by decide⟩
  · unfold Fp.sqrt
    rw [hv]
    by_cases hm : m = 0
    · simp only [hm, if_true]
      cases s <;> exact ⟨rfl, by decide⟩
    · obtain rfl := hs.resolve_left hm
      simp only [if_neg hm, Bool.false_eq_true, if_false]
      have := Fp.round_rounded
      exact ⟨(this _ _ _ (ratio_pos ..)).canon, (this _ _ _ (ratio_pos ..)).notNan⟩

/-! ### LIMV (R116) -/

theorem Fp.finite_of {w : Word} (h : Fp.isNan w = false) (hi : ∀ s, Fp.val w ≠ .inf s) : Fp.Finite w := by
  rw [Fp.isNan_eq_false] at h
  cases hv : Fp.val w with
  | nan => exact absurd hv h
  | inf s => exact absurd hv (hi s)
  | num s m e => exact ⟨s, m, e, hv⟩

/-- A number limited by a number is a number. -/
theorem Fp.sat_finite (x lim : Word) (hx : Fp.isNan x = false) (hl : Fp.Finite lim) : Fp.Finite (Fp.sat x lim) := by
  have hnan : ∀ {w}, Fp.Finite w → Fp.isNan w = false := by
    rintro w ⟨s, m, e, h⟩
    rw [Fp.isNan_eq_false, h]
    simp
  have hneg : Fp.Finite (Fp.neg lim) := by
    unfold Fp.neg
    rw [hnan hl]
    exact hl.canon.flip
  have hlt : ∀ {a b : Word}, Fp.val a = .inf false → Fp.Finite b → Fp.lt a b = false ∧ Fp.lt b a = true := by
    rintro a b ha ⟨s, m, e, hb⟩
    unfold Fp.lt Fp.cmp
    rw [ha, hb]
    exact ⟨rfl, rfl⟩
  have hmax : Fp.Finite (Fp.max x (Fp.neg lim)) ∨ Fp.val (Fp.max x (Fp.neg lim)) = .inf false := by
    rw [Fp.max_eq, hx, hnan hneg, Bool.or_self, if_neg Bool.false_ne_true]
    by_cases hi : ∃ s, Fp.val x = .inf s
    · obtain ⟨s, hv⟩ := hi
      cases s with
      | false =>
        rw [(hlt hv hneg).1, if_neg Bool.false_ne_true, Fp.canon_inf hv]
        exact .inr rfl
      | true =>
        have hle : Fp.lt x (Fp.neg lim) = true := by
          obtain ⟨s, m, e, hb⟩ := hneg
          unfold Fp.lt Fp.cmp
          rw [hv, hb]
        rw [hle, if_pos rfl]
        exact .inl hneg.canon
    · have hf := Fp.finite_of hx (fun s h => hi ⟨s, h⟩)
      split
      · exact .inl hneg.canon
      · exact .inl hf.canon
  unfold Fp.sat
  rw [Fp.min_eq, hnan hl, Bool.or_false]
  rcases hmax with h | h
  · rw [hnan h, if_neg Bool.false_ne_true]
    split
    · exact hl.canon
    · exact h.canon
  · rw [(Fp.isNan_eq_false _).2 (by rw [h]; simp), if_neg Bool.false_ne_true, (hlt h hl).2, if_pos rfl]
    exact hl.canon

/-- The square of a magnitude is no NaN. -/
theorem Fp.magnitude_notNan (d q : Word) (hd : Fp.isNan d = false) (hq : Fp.isNan q = false) :
    Fp.val (Fp.fma d d (Fp.mul q q)) ≠ .nan := by
  obtain ⟨hn, hi, -⟩ := Fp.square_cases q hq
  by_cases hfz : ∃ s, Fp.val (Fp.mul q q) = .inf s
  · obtain ⟨s, hz⟩ := hfz
    obtain rfl := hi s hz
    unfold Fp.fma
    rw [hz]
    cases hv : Fp.val d with
    | nan => exact absurd hv ((Fp.isNan_eq_false d).1 hd)
    | inf s => cases s <;> simp [Fp.fma.infSum] <;> decide
    | num s m e => simp; decide
  · have hz := Fp.finite_of ((Fp.isNan_eq_false _).2 hn) (fun s h => hfz ⟨s, h⟩)
    by_cases hfd : ∃ s, Fp.val d = .inf s
    · obtain ⟨s, hv⟩ := hfd
      obtain ⟨u, j, g, hz⟩ := hz
      unfold Fp.fma
      rw [hv, hz]
      cases s <;> simp [Fp.fma.infSum] <;> decide
    · have hf := Fp.finite_of hd (fun s h => hfd ⟨s, h⟩)
      exact Fp.fma_notNan hf hf hz

/-- Where LIMV shortens a vector, its limit squared is a number, and so is the limit. -/
theorem Fp.limit_finite (m2 lim : Word) (hm : Fp.val m2 ≠ .nan) (hl : Fp.isNan lim = false)
    (h : Fp.le m2 (Fp.mul lim lim) = false) : Fp.Finite lim ∧ Fp.Finite (Fp.mul lim lim) := by
  obtain ⟨hn, hi, hinf⟩ := Fp.square_cases lim hl
  have hfin : Fp.val (Fp.mul lim lim) ≠ .inf false := by
    intro hv
    unfold Fp.le Fp.cmp at h
    rw [hv] at h
    cases hv2 : Fp.val m2 with
    | nan => exact hm hv2
    | inf s => cases s <;> simp [hv2] at h
    | num s m e => simp [hv2] at h
  refine ⟨Fp.finite_of hl fun s hs => hfin (hinf ⟨s, hs⟩), Fp.finite_of ((Fp.isNan_eq_false _).2 hn) fun s hs => ?_⟩
  obtain rfl := hi s hs
  exact hfin hs

/-- LIMV by its steps, where its operands are numbers. -/
theorem limvOf_steps (vd vq lim : Word) (hd : Fp.isNan vd = false) (hq : Fp.isNan vq = false) (hl : Fp.isNan lim = false) :
    limvOf vd vq lim = ⟨(limvSteps vd vq lim).1, (limvSteps vd vq lim).2.1, (limvSteps vd vq lim).2.2⟩ := by
  unfold limvOf limvSteps
  simp only [hd, hq, hl, Bool.or_self, Bool.false_eq_true, if_false]
  have hle : (Fp.lt (Fp.fma vd vd (Fp.mul vq vq)) (Fp.mul lim lim) || Fp.eq (Fp.fma vd vd (Fp.mul vq vq)) (Fp.mul lim lim))
      = Fp.le (Fp.fma vd vd (Fp.mul vq vq)) (Fp.mul lim lim) := rfl
  rw [hle]
  cases hm : Fp.le (Fp.fma vd vd (Fp.mul vq vq)) (Fp.mul lim lim)
  · obtain ⟨hf, hf2⟩ := Fp.limit_finite _ lim (Fp.magnitude_notNan vd vq hd hq) hl hm
    have hu := Fp.sat_finite vd lim hd hf
    obtain ⟨hc, hn⟩ := Fp.sqrt_max_zero _ (Fp.fma_notNan hu.flip hu hf2)
    simp only [Bool.false_eq_true, if_false, Fp.cpsgn, hc, hn]
    rfl
  · simp only [if_true]

/-! ### ANGW (R116) -/

theorem expField_magnitude (w : Word) : (w &&& 0x7FFFFFFF#32).toNat / 0x800000 % 256 = w.toNat / 0x800000 % 256 := by
  rw [expField_eq, expField_eq, BitVec.extractLsb'_and, show (0x7FFFFFFF#32).extractLsb' 23 8 = BitVec.allOnes 8 from rfl,
    BitVec.and_allOnes]

theorem Fp.val_zero_of_exp {w : Word} (h : w.toNat / 0x800000 % 256 = 0) : ∃ s, Fp.val w = .num s 0 0 := by
  unfold Fp.val
  dsimp only
  rw [if_neg (by omega), if_pos h]
  exact ⟨_, rfl⟩

theorem Fp.exp_of_val_zero {w : Word} {s : Bool} {e : Int} (h : Fp.val w = .num s 0 e) : w.toNat / 0x800000 % 256 = 0 := by
  unfold Fp.val at h
  dsimp only at h
  split at h
  · split at h <;> cases h
  · split at h
    · assumption
    · simp only [FpVal.num.injEq] at h
      omega

/-- The magnitude of a number is above a bound whether its subnormals are flushed or not (R78). -/
theorem Fp.lt_abs (c a : Word) (h : Fp.Finite a) : Fp.lt c (Fp.canon a &&& 0x7FFFFFFF#32) = Fp.lt c (a &&& 0x7FFFFFFF#32) := by
  obtain ⟨s, m, e, hv⟩ := h
  by_cases hm : m = 0
  · subst hm
    obtain ⟨t, ht⟩ := Fp.val_zero_of_exp ((expField_magnitude a).trans (Fp.exp_of_val_zero hv))
    have hz : Fp.val (Fp.canon a &&& 0x7FFFFFFF#32) = .num false 0 0 := by
      rw [Fp.canon_zero hv]
      cases s <;> rfl
    unfold Fp.lt Fp.cmp
    rw [hz, ht]
    cases Fp.val c <;> simp [Fp.ratio]
  · rw [Fp.canon_num hv hm]

theorem Fp.nonFinite_iff (w : Word) : Fp.nonFinite w = true ↔ w.toNat / 2 ^ 23 % 256 = 255 := by
  simp only [Fp.nonFinite, beq_iff_eq, Nat.reducePow]

/-- The operands that ANGW and ANGADD refuse. -/
theorem angleOut_eq (a : Word) : (Fp.isNan a || Fp.nonFinite a || Fp.gt (Fp.abs a) 0x47000000#32) = angleOut a := by
  unfold angleOut
  rw [show decide (a.toNat / 2 ^ 23 % 256 = 255) = Fp.nonFinite a by rw [Bool.eq_iff_iff, decide_eq_true_iff, Fp.nonFinite_iff]]
  cases hn : Fp.isNan a
  · cases hf : Fp.nonFinite a
    · have hfin : Fp.Finite a := (Fp.finite_iff a).2 (by simpa [Fp.nonFinite] using hf)
      rw [Fp.gt, Fp.abs, hn, if_neg Bool.false_ne_true, Fp.lt_abs _ a hfin]
    · rfl
  · rfl

theorem angwOf_steps (a : Word) : angwOf a = angwSteps a := by
  have h := angleOut_eq a
  unfold angwOf angwSteps
  rw [h]
  rfl

theorem angaddOf_steps (a b : Word) : angaddOf a b = if angleOut a || angleOut b then 0x7FC00000#32 else angwSteps (Fp.add a b) := by
  unfold angaddOf
  rw [angleOut_eq, Bool.or_assoc, Bool.or_assoc, ← Bool.or_assoc (Fp.isNan b), angleOut_eq b, angwOf_steps]
  rfl

/-- SVM3 by its steps. -/
theorem svm3Of_steps (va vb vbus t : Word) : svm3Of va vb vbus t = ⟨(svmSteps va vb vbus t).1.1, (svmSteps va vb vbus t).1.2.1,
    (svmSteps va vb vbus t).1.2.2, (svmSteps va vb vbus t).2.1, (svmSteps va vb vbus t).2.2⟩ := by
  unfold svm3Of svmSteps
  rw [Fp.not_gt_zero]
  split
  · rfl
  · split <;> rfl

end Sys2Proof.Machine
end

section
/-! PROOF. The compute operations (R111 to R117, R120 to R125): each Format's instruction is its effect, and the effect is the value named. -/

namespace Sys2Proof.Machine

open Spec

/-! ### One effect per format -/

/-- A cell that is ready issues. -/
theorem State.ready_issues {s : State} {n : Nat} {stg : BitVec 3} (h : s.ready n stg) : ∃ r, s.issues n = some r := by
  obtain ⟨⟨r, hr, -⟩, -⟩ := h
  exact ⟨r, hr⟩

/-- The cell an instruction acts on differs in its run alone from what it was. -/
theorem State.cell_atIssue {s : State} {n : Nat} {r : RunCtx} (h : s.issues n = some r) :
    (s.atIssue n r).cell n = { s.cell n with run := some { r with issued := r.issued + 1 } } :=
  (s.atIssue_did n r (s.issues_lt n r h)).cell

/-- An effect that leaves the run and raises nothing. -/
structure Eff.Plain (e : Eff) : Prop where
  run : e.run = none
  faults : e.faults = []

theorem Eff.Plain.counted {e : Eff} (h : e.Plain) (f : RunCtx → RunCtx) : { e with run := e.run.map f } = e := by
  obtain ⟨hr, -⟩ := h
  cases e
  cases hr
  rfl

theorem opA_of {op : FmtA → Instr} {eff : State → CellSt → FmtA → Eff} (f : FmtA → CellSt → Eff)
    (hex : ∀ i s, exec (op i) s = .next (issueA s i (fun _ c => f i c)))
    (heff : ∀ i s c x, f i { c with run := x } = eff s c i) (hp : ∀ i s c, (eff s c i).Plain) : opA op eff := by
  intro i s h hx hy
  obtain ⟨r, hr⟩ := s.ready_issues h
  refine ⟨_, hex i s, issueA_did s i _ _ r hr h ?_ (hp i s _).faults hx hy⟩
  rw [(hp i s _).counted, s.cell_atIssue hr]
  exact heff i s _ _

theorem opF_of {op : FmtF → Instr} {eff : CellSt → FmtF → Eff} (f : FmtF → CellSt → Eff)
    (hex : ∀ i s, exec (op i) s = .next (issueF s i (f i)))
    (heff : ∀ i c x, f i { c with run := x } = eff c i) (hp : ∀ i c, (eff c i).Plain) : opF op eff := by
  intro i s h hx
  obtain ⟨r, hr⟩ := s.ready_issues h
  refine ⟨_, hex i s, issueF_did s i _ _ r hr h ?_ (hp i _).faults hx⟩
  rw [(hp i _).counted, s.cell_atIssue hr]
  exact heff i _ _

theorem opI_of {op : FmtI → Instr} {eff : CellSt → FmtI → Eff} (f : FmtI → CellSt → Eff)
    (hex : ∀ i s, exec (op i) s = .next (issueI s i (f i)))
    (heff : ∀ i c x, f i { c with run := x } = eff c i) (hp : ∀ i c, (eff c i).Plain) : opI op eff := by
  intro i s h
  obtain ⟨r, hr⟩ := s.ready_issues h
  refine ⟨_, hex i s, issueI_did s i _ _ r hr h ?_ (hp i _).faults⟩
  rw [(hp i _).counted, s.cell_atIssue hr]
  exact heff i _ _

/-! ### Operations that write one register -/

theorem opA_dA {op : FmtA → Instr} {v : Word → Word}
    (hex : ∀ i s, exec (op i) s = .next (issueA s i (fun _ c => wr c i.d (v (c.rdF i.a))))) : opA op (dA v) :=
  opA_of _ hex (fun _ _ _ _ => rfl) (fun _ _ _ => ⟨rfl, rfl⟩)

theorem opA_dAB {op : FmtA → Instr} {v : Word → Word → Word}
    (hex : ∀ i s, exec (op i) s = .next (issueA s i (fun _ c => wr c i.d (v (c.rdF i.a) (c.rdF i.b))))) : opA op (dAB v) :=
  opA_of _ hex (fun _ _ _ _ => rfl) (fun _ _ _ => ⟨rfl, rfl⟩)

theorem opA_dABD {op : FmtA → Instr} {v : Word → Word → Word → Word}
    (hex : ∀ i s, exec (op i) s = .next (issueA s i (fun _ c => wr c i.d (v (c.rdF i.a) (c.rdF i.b) (c.rdF i.d))))) : opA op (dABD v) :=
  opA_of _ hex (fun _ _ _ _ => rfl) (fun _ _ _ => ⟨rfl, rfl⟩)

theorem opF_dABC {op : FmtF → Instr} {v : Word → Word → Word → Word}
    (hex : ∀ i s, exec (op i) s = .next (issueF s i (fun c => wr c i.d (v (c.rdF i.a) (c.rdF i.b) (c.rdF i.c))))) : opF op (dABC v) :=
  opF_of _ hex (fun _ _ _ => rfl) (fun _ _ => ⟨rfl, rfl⟩)

theorem opI_dAImm {op : FmtI → Instr} {v : Word → Word → Word}
    (hex : ∀ i s, exec (op i) s = .next (issueI s i (fun c => wr c i.d (v (c.rdF i.a) i.imm)))) : opI op (dAImm v) :=
  opI_of _ hex (fun _ _ _ => rfl) (fun _ _ => ⟨rfl, rfl⟩)

theorem opI_dAImmD {op : FmtI → Instr} {v : Word → Word → Word → Word}
    (hex : ∀ i s, exec (op i) s = .next (issueI s i (fun c => wr c i.d (v (c.rdF i.a) i.imm (c.rdF i.d))))) : opI op (dAImmD v) :=
  opI_of _ hex (fun _ _ _ => rfl) (fun _ _ => ⟨rfl, rfl⟩)

/-! ### FP32 -/

theorem min_values : (fun a b => if Fp.isNan a || Fp.isNan b then 0x7FC00000#32 else if Fp.lt b a then Fp.canon b else Fp.canon a) = Fp.min :=
  funext fun a => funext fun b => (Fp.min_eq a b).symm

theorem max_values : (fun a b => if Fp.isNan a || Fp.isNan b then 0x7FC00000#32 else if Fp.lt a b then Fp.canon b else Fp.canon a) = Fp.max :=
  funext fun a => funext fun b => (Fp.max_eq a b).symm

/-- Settles O1: each opcode's value is the model's, MIN and MAX by the order of their operands. -/
theorem floatResults : Obligations.FloatResults := by
  unfold Obligations.FloatResults
  rw [min_values, max_values]
  exact ⟨opA_dAB fun _ _ => rfl, opA_dAB fun _ _ => rfl, opA_dAB fun _ _ => rfl, opA_dABD fun _ _ => rfl, opA_dABD fun _ _ => rfl,
    opA_dAB fun _ _ => rfl, opA_dAB fun _ _ => rfl, opA_dA fun _ _ => rfl, opA_dA fun _ _ => rfl, opA_dA fun _ _ => rfl,
    opA_dAB fun _ _ => rfl, opA_dAB fun _ _ => rfl, opA_dA fun _ _ => rfl, opA_dA fun _ _ => rfl,
    opF_dABC fun _ _ => rfl, opF_dABC fun _ _ => rfl, opF_dABC fun _ _ => rfl, opF_dABC fun _ _ => rfl,
    opA_of _ (fun _ _ => rfl) (fun _ _ _ _ => rfl) (fun _ _ _ => ⟨rfl, rfl⟩),
    opA_of _ (fun _ _ => rfl) (fun _ _ _ _ => rfl) (fun _ _ _ => ⟨rfl, rfl⟩)⟩

/-! ### Compares -/

theorem CC.ofFp_eq (cc : CC) (a b : Word) :
    cc.ofFp a b = { cc with z := Fp.eq a b, n := Fp.lt a b, u := Fp.isNan a || Fp.isNan b } := by
  rw [← Fp.cmp_u]; rfl

/-- Settles O2: the flags are the model's, and unordered is a NaN among the operands. -/
theorem compareFlags : Obligations.CompareFlags := by
  unfold Obligations.CompareFlags
  refine ⟨opA_of _ (fun _ _ => rfl) (fun _ _ c _ => ?_) (fun _ _ _ => ⟨rfl, rfl⟩),
    opA_of _ (fun _ _ => rfl) (fun _ _ c _ => ?_) (fun _ _ _ => ⟨rfl, rfl⟩),
    opA_of _ (fun _ _ => rfl) (fun _ _ _ _ => rfl) (fun _ _ _ => ⟨rfl, rfl⟩),
    opA_of _ (fun _ _ => rfl) (fun _ _ _ _ => rfl) (fun _ _ _ => ⟨rfl, rfl⟩),
    opI_of _ (fun _ _ => rfl) (fun _ c _ => ?_) (fun _ _ => ⟨rfl, rfl⟩),
    opI_of _ (fun _ _ => rfl) (fun _ _ _ => rfl) (fun _ _ => ⟨rfl, rfl⟩)⟩
  · rw [CC.ofFp_eq]; rfl
  · rw [CC.ofFp_eq, show Fp.isNan 0#32 = false from rfl, Bool.or_false]; rfl
  · rw [CC.ofFp_eq]; rfl

/-! ### Integers -/

theorem opA_dA_eq {op : FmtA → Instr} {u v : Word → Word} (huv : ∀ a, u a = v a)
    (hex : ∀ i s, exec (op i) s = .next (issueA s i (fun _ c => wr c i.d (u (c.rdF i.a))))) : opA op (dA v) :=
  (funext huv : u = v) ▸ opA_dA hex

theorem opA_dAB_eq {op : FmtA → Instr} {u v : Word → Word → Word} (huv : ∀ a b, u a b = v a b)
    (hex : ∀ i s, exec (op i) s = .next (issueA s i (fun _ c => wr c i.d (u (c.rdF i.a) (c.rdF i.b))))) : opA op (dAB v) :=
  (funext₂ huv : u = v) ▸ opA_dAB hex

theorem opI_dAImm_eq {op : FmtI → Instr} {u v : Word → Word → Word} (huv : ∀ a b, u a b = v a b)
    (hex : ∀ i s, exec (op i) s = .next (issueI s i (fun c => wr c i.d (u (c.rdF i.a) i.imm)))) : opI op (dAImm v) :=
  (funext₂ huv : u = v) ▸ opI_dAImm hex

theorem add_value (a b : Word) : a + b = BitVec.ofNat 32 (a.toNat + b.toNat) := by
  apply BitVec.eq_of_toNat_eq
  simp

theorem sub_value (a b : Word) : a - b = BitVec.ofInt 32 (a.toNat - b.toNat) := by
  apply BitVec.eq_of_toNat_eq
  rw [BitVec.toNat_sub, BitVec.toNat_ofInt]
  have := a.isLt
  have := b.isLt
  omega

theorem mul_value (a b : Word) : a * b = BitVec.ofInt 32 (a.toInt * b.toInt) := by
  rw [BitVec.ofInt_mul, BitVec.ofInt_toInt, BitVec.ofInt_toInt]

theorem shiftL_value (a b : Word) : shiftL a b = BitVec.ofNat 32 (a.toNat * 2 ^ (b.toNat % 32)) := by
  apply BitVec.eq_of_toNat_eq
  simp [shiftL, Nat.shiftLeft_eq]

theorem shiftR_value (a b : Word) : shiftR a b = BitVec.ofNat 32 (a.toNat / 2 ^ (b.toNat % 32)) := by
  have h := Nat.div_le_self a.toNat (2 ^ (b.toNat % 32))
  have ha := a.isLt
  apply BitVec.eq_of_toNat_eq
  rw [shiftR, BitVec.toNat_ushiftRight, BitVec.toNat_ofNat, Nat.shiftRight_eq_div_pow, Nat.mod_eq_of_lt (Nat.lt_of_le_of_lt h ha)]

theorem shiftA_value (a b : Word) : shiftA a b = BitVec.ofInt 32 (a.toInt / 2 ^ (b.toNat % 32)) := by
  rw [shiftA, ← BitVec.ofInt_toInt (x := a.sshiftRight _), BitVec.toInt_sshiftRight, Int.shiftRight_eq_div_pow]
  norm_cast

theorem iMin_value (a b : Word) : iMin a b = BitVec.ofInt 32 (min a.toInt b.toInt) := by
  unfold iMin
  split
  · rw [min_eq_left (by omega), BitVec.ofInt_toInt]
  · rw [min_eq_right (by omega), BitVec.ofInt_toInt]

theorem iMax_value (a b : Word) : iMax a b = BitVec.ofInt 32 (max a.toInt b.toInt) := by
  unfold iMax
  split
  · rw [max_eq_right (by omega), BitVec.ofInt_toInt]
  · rw [max_eq_left (by omega), BitVec.ofInt_toInt]

theorem iSatu_value (a b : Word) : iSatu a b = BitVec.ofInt 32 (min (max a.toInt 0) b.toInt) := by
  have h : (iMax a 0#32).toInt = max a.toInt 0 := by
    unfold iMax
    split
    · exact (max_eq_right (by simp at *; omega)).symm
    · exact (max_eq_left (by simp at *; omega)).symm
  rw [iSatu, iMin_value, h]

theorem not_value (a : Word) : ~~~a = BitVec.ofNat 32 (2 ^ 32 - 1 - a.toNat) := by
  apply BitVec.eq_of_toNat_eq
  have := a.isLt
  simp only [BitVec.toNat_not, BitVec.toNat_ofNat]
  omega

/-- Settles O3: each operation on raw words is the one on their numbers. -/
theorem integerResults : Obligations.IntegerResults := by
  unfold Obligations.IntegerResults
  exact ⟨opA_dAB_eq add_value fun _ _ => rfl, opA_dAB_eq sub_value fun _ _ => rfl, opA_dAB_eq mul_value fun _ _ => rfl,
    opA_dAB fun _ _ => rfl, opA_dAB fun _ _ => rfl, opA_dAB fun _ _ => rfl, opA_dAB_eq shiftL_value fun _ _ => rfl,
    opA_dAB_eq shiftR_value fun _ _ => rfl, opA_dAB_eq shiftA_value fun _ _ => rfl, opA_dAB_eq iMin_value fun _ _ => rfl,
    opA_dAB_eq iMax_value fun _ _ => rfl, opA_dAB_eq iSatu_value fun _ _ => rfl, opA_dA_eq not_value fun _ _ => rfl⟩

/-! ### Bits and fields (R122, R124) -/

theorem popcOf_value (a : Word) : popcOf a = BitVec.ofNat 32 ((List.range 32).countP fun k => a.getLsbD k) := by
  rw [popcOf, List.countP_eq_length_filter]

/-- The leading zeros of a number that is not zero end at its highest bit. -/
theorem leading_zeros_iff (a : Word) (ha : a ≠ 0#32) (k : Nat) (hk : k < 32) :
    ((List.range (k + 1)).all fun j => !a.getLsbD (31 - j)) = decide (k < 31 - Nat.log2 a.toNat) := by
  have h0 : a.toNat ≠ 0 := fun h => ha (BitVec.eq_of_toNat_eq (by simpa using h))
  have hl : Nat.log2 a.toNat < 32 := (Nat.log2_lt h0).2 a.isLt
  rw [Bool.eq_iff_iff, List.all_eq_true, decide_eq_true_iff]
  simp only [List.mem_range, Bool.not_eq_true', BitVec.getLsbD]
  constructor
  · intro h
    by_contra hc
    have := h (31 - Nat.log2 a.toNat) (by omega)
    rw [show 31 - (31 - Nat.log2 a.toNat) = Nat.log2 a.toNat by omega, Nat.testBit_log2 h0] at this
    cases this
  · intro h j hj
    refine Nat.testBit_lt_two_pow (lt_of_lt_of_le Nat.lt_log2_self (Nat.pow_le_pow_right (by decide) (by omega)))

theorem countP_lt_range (n k : Nat) (h : k ≤ n) : (List.range n).countP (fun j => decide (j < k)) = k := by
  induction n with
  | zero => simp; omega
  | succ n ih =>
    rw [List.range_succ, List.countP_append]
    rcases Nat.lt_or_ge n k with hk | hk
    · have hall : (List.range n).countP (fun j => decide (j < k)) = n := by
        rw [List.countP_eq_length.2 (fun j hj => by simp at hj ⊢; omega), List.length_range]
      simp [hall, hk]; omega
    · rw [ih hk]; simp; omega

theorem clzOf_value (a : Word) :
    clzOf a = BitVec.ofNat 32 ((List.range 32).countP fun k => (List.range (k + 1)).all fun j => !a.getLsbD (31 - j)) := by
  unfold clzOf
  by_cases ha : a = 0#32
  · subst ha; decide
  · rw [if_neg ha, List.countP_congr (q := fun j => decide (j < 31 - Nat.log2 a.toNat))]
    · rw [countP_lt_range _ _ (by omega)]
    · intro k hk
      rw [leading_zeros_iff a ha k (by simpa using hk)]

theorem bextOf_bits (a imm : Word) (k : Nat) (hk : k < 32) :
    (bextOf a imm).getLsbD k = (decide (k < imm.toNat / 32 % 32 + 1) && a.getLsbD (imm.toNat % 32 + k)) := by
  rw [bextOf, BitVec.getLsbD_ofNat, Nat.testBit_mod_two_pow, Nat.testBit_div_two_pow, decide_eq_true hk, Bool.true_and, bitLen, bitPos,
    Nat.add_comm k, BitVec.getLsbD]

/-- The mask of BINS holds the bits of its field. -/
theorem fieldMask_bits (p l k : Nat) (hk : k < 32) :
    (BitVec.ofNat 32 ((2 ^ l - 1) * 2 ^ p)).getLsbD k = decide (p ≤ k ∧ k < p + l) := by
  rw [BitVec.getLsbD_ofNat, Nat.testBit_mul_two_pow, Nat.testBit_two_pow_sub_one, decide_eq_true hk, Bool.true_and, ← Bool.decide_and]
  exact decide_eq_decide.2 (by omega)

theorem binsOf_bits (d a imm : Word) (k : Nat) (hk : k < 32) : (binsOf d a imm).getLsbD k
    = if imm.toNat % 32 ≤ k ∧ k < imm.toNat % 32 + (imm.toNat / 32 % 32 + 1) then a.getLsbD (k - imm.toNat % 32) else d.getLsbD k := by
  change _ = if bitPos imm ≤ k ∧ k < bitPos imm + bitLen imm then a.getLsbD (k - bitPos imm) else d.getLsbD k
  have hm := fieldMask_bits (bitPos imm) (bitLen imm) k hk
  simp only [binsOf, BitVec.getLsbD_or, BitVec.getLsbD_and, BitVec.getLsbD_not, hm, decide_eq_true hk, Bool.true_and]
  by_cases h : bitPos imm ≤ k ∧ k < bitPos imm + bitLen imm
  · rw [if_pos h, decide_eq_true h, BitVec.getLsbD_ofNat, Nat.testBit_mul_two_pow, decide_eq_true hk, decide_eq_true h.1]
    simp [BitVec.getLsbD]
  · rw [if_neg h, decide_eq_false h]
    simp

theorem pack16Of_value (a b : Word) : pack16Of a b = BitVec.ofNat 32 (b.toNat % 65536 * 65536 + a.toNat % 65536) := by
  apply BitVec.eq_of_toNat_eq
  have hlow : a.toNat % 65536 < 2 ^ 16 := Nat.mod_lt _ (by decide)
  rw [pack16Of, BitVec.toNat_append, BitVec.toNat_setWidth, BitVec.toNat_setWidth, ← Nat.shiftLeft_add_eq_or_of_lt hlow,
    Nat.shiftLeft_eq, BitVec.toNat_ofNat]
  omega

theorem unpkhOf_value (a : Word) : unpkhOf a = BitVec.ofInt 32 (a.toInt / 65536) := by
  have h : (a.extractLsb' 16 16).toInt = a.toInt / 65536 := by
    have ha := a.isLt
    rw [BitVec.toInt_eq_toNat_cond, BitVec.toInt_eq_toNat_cond, BitVec.extractLsb'_toNat, Nat.shiftRight_eq_div_pow]
    omega
  rw [unpkhOf, ← h]
  rfl

/-- Settles O4: the immediate forms are the integer ones; the fields of BEXT and BINS are told bit by bit. -/
theorem bitAndImmediateResults : Obligations.BitAndImmediateResults := by
  unfold Obligations.BitAndImmediateResults
  exact ⟨opA_dA_eq popcOf_value fun _ _ => rfl, opA_dA_eq clzOf_value fun _ _ => rfl, opI_dAImm fun _ _ => rfl, bextOf_bits,
    opI_dAImmD fun _ _ => rfl, binsOf_bits, opI_dAImm fun _ _ => rfl, opI_dAImm fun _ _ => rfl, opI_dAImm fun _ _ => rfl,
    opI_dAImm_eq add_value fun _ _ => rfl, opI_dAImm_eq shiftL_value fun _ _ => rfl, opI_dAImm_eq shiftR_value fun _ _ => rfl,
    opI_dAImm_eq shiftA_value fun _ _ => rfl, opA_dAB fun _ _ => rfl, opA_dA fun _ _ => rfl, opA_dA fun _ _ => rfl,
    opA_dAB_eq pack16Of_value fun _ _ => rfl, opA_dA fun _ _ => rfl, opA_dA_eq unpkhOf_value fun _ _ => rfl⟩
/-! ### Domain operations (R116, R117) -/

theorem evenOf_eq (k : BitVec 6) : evenOf k = 2 * (k.toNat / 2) := Nat.mul_comm _ _

theorem toPair_eq (c : CellSt) (d : BitVec 6) (lo hi : Word) : Eff.toPair c d lo hi = wrPair c d lo hi := by
  rw [Eff.toPair, wrPair, evenOf_eq]

theorem nextInFile_eq (a : BitVec 6) : nextInFile a = if a.toNat = 31 then 0 else if a.toNat = 63 then 32 else a.toNat + 1 := by
  have ha := a.isLt
  unfold nextInFile
  split_ifs <;> omega

theorem opA_pair {op : FmtA → Instr} {lo hi : CellSt → FmtA → Word}
    (hex : ∀ i s, exec (op i) s = .next (issueA s i (fun _ c => .toPair c i.d (lo c i) (hi c i))))
    (hlo : ∀ i c x, lo { c with run := x } i = lo c i) (hhi : ∀ i c x, hi { c with run := x } i = hi c i) :
    opA op (fun _ c i => wrPair c i.d (lo c i) (hi c i)) := by
  refine opA_of _ hex (fun i s c x => ?_) (fun _ _ _ => ⟨rfl, rfl⟩)
  rw [toPair_eq, hlo, hhi]
  rfl

theorem limvOf_eq (vd vq lim : Word) : limvOf vd vq lim
    = (let r := if Fp.isNan vd || Fp.isNan vq || Fp.isNan lim then (0x7FC00000#32, 0x7FC00000#32, true) else limvSteps vd vq lim
       ⟨r.1, r.2.1, r.2.2⟩) := by
  by_cases h : (Fp.isNan vd || Fp.isNan vq || Fp.isNan lim) = true
  · rw [if_pos h, limvOf, if_pos h]
    rfl
  · rw [if_neg h]
    simp only [Bool.or_eq_true, not_or, Bool.not_eq_true] at h
    obtain ⟨⟨hd, hq⟩, hl⟩ := h
    exact limvOf_steps vd vq lim hd hq hl

/-- Settles O5: SVM3, LIMV, ANGW and ANGADD are their steps; a pair is written even register first. -/
theorem domainResults : Obligations.DomainResults := by
  unfold Obligations.DomainResults
  refine ⟨opA_pair (fun _ _ => rfl) (fun _ _ _ => rfl) (fun _ _ _ => rfl), opA_pair (fun _ _ => rfl) (fun _ _ _ => rfl) (fun _ _ _ => rfl),
    opA_pair (fun _ _ => rfl) (fun _ _ _ => rfl) (fun _ _ _ => rfl), opA_pair (fun _ _ => rfl) (fun _ _ _ => rfl) (fun _ _ _ => rfl),
    opF_of _ (fun _ _ => rfl) (fun i c x => ?_) (fun _ _ => ⟨rfl, rfl⟩), opA_of _ (fun _ _ => rfl) (fun i _ c x => ?_) (fun _ _ _ => ⟨rfl, rfl⟩),
    opA_dA_eq angwOf_steps fun _ _ => rfl, opA_dAB_eq angaddOf_steps fun _ _ => rfl,
    opA_of _ (fun _ _ => rfl) (fun i _ c x => ?_) (fun _ _ _ => ⟨rfl, rfl⟩), opA_dABD fun _ _ => rfl, opA_dAB fun _ _ => rfl⟩
  · dsimp only
    rw [svm3Of_steps, Nat.mul_comm (i.d.toNat / 4)]
    rfl
  · dsimp only
    rw [limvOf_eq, evenOf_eq]
    rfl
  · rw [nextInFile_eq]
    rfl

/-! ### Further operations (R120, R123, R125) -/

/-- Settles O6: each value is the model's, SIGN by the order of its operand and zero. -/
theorem furtherFloatResults : Obligations.FurtherFloatResults := by
  unfold Obligations.FurtherFloatResults
  exact ⟨opA_dA fun _ _ => rfl, opA_dA fun _ _ => rfl, opA_dA_eq Fp.sign_eq fun _ _ => rfl, opA_dAB fun _ _ => rfl,
    opA_dAB fun _ _ => rfl, opA_dAB fun _ _ => rfl, opA_dABD fun _ _ => rfl,
    opA_of _ (fun _ _ => rfl) (fun _ _ _ _ => rfl) (fun _ _ _ => ⟨rfl, rfl⟩),
    opA_of _ (fun _ _ => rfl) (fun _ _ _ _ => rfl) (fun _ _ _ => ⟨rfl, rfl⟩),
    opA_of _ (fun _ _ => rfl) (fun _ _ _ _ => rfl) (fun _ _ _ => ⟨rfl, rfl⟩),
    opI_dAImm fun _ _ => rfl, opI_dAImm fun _ _ => rfl, opI_dAImmD fun _ _ => rfl, opI_dAImm fun _ _ => rfl,
    opI_dAImm fun _ _ => rfl, opI_dAImm fun _ _ => rfl,
    opF_of _ (fun _ _ => rfl) (fun _ _ _ => rfl) (fun _ _ => ⟨rfl, rfl⟩),
    opA_of _ (fun _ _ => rfl) (fun _ _ _ _ => rfl) (fun _ _ _ => ⟨rfl, rfl⟩),
    opA_dAB fun _ _ => rfl, opA_dAB fun _ _ => rfl, opA_dAB fun _ _ => rfl⟩

/-! ### Moves and pointers (R111, R112, R121) -/

theorem CC.word_value (cc : CC) : cc.word = BitVec.ofNat 32 (8 * cc.t.toNat + 4 * cc.u.toNat + 2 * cc.n.toNat + cc.z.toNat) := by
  obtain ⟨z, n, u, t⟩ := cc
  cases z <;> cases n <;> cases u <;> cases t <;> rfl

theorem pointerSum_value (p : BitVec 16) (imm : Word) : p + imm.setWidth 16 = BitVec.ofNat 16 (p.toNat + imm.toNat) := by
  apply BitVec.eq_of_toNat_eq
  simp

/-- Settles O7: a field is taken from or put into a word by its width. -/
theorem moveResults : Obligations.MoveResults := by
  unfold Obligations.MoveResults
  simp only [BitVec.ofNat_toNat, ← CC.word_value, ← pointerSum_value]
  exact ⟨opA_of _ (fun _ _ => rfl) (fun _ _ _ _ => rfl) (fun _ _ _ => ⟨rfl, rfl⟩),
    opI_of _ (fun _ _ => rfl) (fun _ _ _ => rfl) (fun _ _ => ⟨rfl, rfl⟩), opI_dAImm fun _ _ => rfl,
    opI_of _ (fun _ _ => rfl) (fun _ _ _ => rfl) (fun _ _ => ⟨rfl, rfl⟩),
    opI_of _ (fun _ _ => rfl) (fun _ _ _ => rfl) (fun _ _ => ⟨rfl, rfl⟩),
    opA_of _ (fun _ _ => rfl) (fun _ _ _ _ => rfl) (fun _ _ _ => ⟨rfl, rfl⟩),
    opA_of _ (fun _ _ => rfl) (fun _ _ _ _ => rfl) (fun _ _ _ => ⟨rfl, rfl⟩),
    opA_of _ (fun _ _ => rfl) (fun _ _ _ _ => rfl) (fun _ _ _ => ⟨rfl, rfl⟩),
    opA_of _ (fun _ _ => rfl) (fun _ _ _ _ => rfl) (fun _ _ _ => ⟨rfl, rfl⟩),
    opA_of _ (fun _ _ => rfl) (fun _ _ _ _ => rfl) (fun _ _ _ => ⟨rfl, rfl⟩),
    opA_of _ (fun _ _ => rfl) (fun _ _ _ _ => rfl) (fun _ _ _ => ⟨rfl, rfl⟩),
    opA_of _ (fun _ _ => rfl) (fun _ _ _ _ => rfl) (fun _ _ _ => ⟨rfl, rfl⟩),
    opA_of _ (fun _ _ => rfl) (fun _ _ _ _ => rfl) (fun _ _ _ => ⟨rfl, rfl⟩),
    opA_of _ (fun _ _ => rfl) (fun _ _ _ _ => rfl) (fun _ _ _ => ⟨rfl, rfl⟩),
    opA_of _ (fun _ _ => rfl) (fun _ _ _ _ => rfl) (fun _ _ _ => ⟨rfl, rfl⟩),
    opI_of _ (fun _ _ => rfl) (fun _ _ _ => rfl) (fun _ _ => ⟨rfl, rfl⟩),
    opA_of _ (fun _ _ => rfl) (fun _ _ _ _ => rfl) (fun _ _ _ => ⟨rfl, rfl⟩)⟩

/-! ### Absolute loads and stores (R60, R121) -/

theorem coreWord_atIssue {s : State} {n : Nat} {r : RunCtx} (hi : s.issues n = some r) (a : Nat) :
    coreWord (s.atIssue n r) ((s.atIssue n r).cell n) a = coreWord s (s.cell n) a := by
  have I := s.atIssue_did n r (s.issues_lt n r hi)
  unfold coreWord
  rw [State.memWord_congr (s := s) (by rw [I.rest]) (by rw [I.rest]) (by rw [I.rest]), s.cell_atIssue hi]
  rfl

theorem opM_of {op : FmtM → Instr} {acc : State → CellSt → FmtM → AccRes} (f : FmtM → State → CellSt → AccRes)
    (hex : ∀ i s, exec (op i) s = .next (issueM s i (f i)))
    (hf : ∀ i s r, s.issues i.cell = some r →
      f i (s.atIssue i.cell r) ((s.atIssue i.cell r).cell i.cell) = acc s (s.cell i.cell) i)
    (hal : ∀ s c i, ∀ x ∈ (acc s c i).stores, x.1 % 4 = 0) : opM op acc := by
  intro i s h hc
  obtain ⟨r, hr⟩ := s.ready_issues h
  exact ⟨_, hex i s, issueM_did s i _ _ r hr h (hf i s r hr) hc (hal _ _ _)⟩

/-- The words of a pair follow one another from an even word address on. -/
theorem pair_words (i : FmtM) (b : Bank) :
    pairLo i b = b.addr i.cell (2 * (i.addr.toNat / 2)) ∧ pairHi i b = b.addr i.cell (2 * (i.addr.toNat / 2)) + 4 := by
  unfold pairLo pairHi
  rw [Nat.mul_comm (i.addr.toNat / 2)]
  refine ⟨rfl, ?_⟩
  cases b <;> simp only [Bank.addr, xAddr, yAddr] <;> omega

theorem opM_load {op : FmtM → Instr} (b : Bank) (hex : ∀ i s, exec (op i) s = .next (issueM s i (fun s c => ldWord s i b c))) :
    opM op (fun s c i => { loads := [(c.phys i.f.toNat, coreWord s c (b.addr i.cell i.addr.toNat))]
                           reads := [b.addr i.cell i.addr.toNat] }) := by
  refine opM_of _ hex (fun i s r hr => ?_) (by simp)
  simp only [ldWord, coreWord_atIssue hr]
  rw [s.cell_atIssue hr]
  rfl

theorem opM_store {op : FmtM → Instr} (b : Bank) (hex : ∀ i s, exec (op i) s = .next (issueM s i (fun _ c => stWord i b c))) :
    opM op (fun _ c i => { stores := [(b.addr i.cell i.addr.toNat, c.rdF i.f)] }) := by
  refine opM_of _ hex (fun i s r hr => ?_) (fun s c i x hx => ?_)
  · rw [s.cell_atIssue hr]; rfl
  · obtain rfl := List.mem_singleton.1 hx
    exact b.addr_aligned _ _

theorem opM_loadPair {op : FmtM → Instr} (b : Bank) (hex : ∀ i s, exec (op i) s = .next (issueM s i (fun s c => ldPair s i b c))) :
    opM op (fun s c i =>
      let lo := b.addr i.cell (2 * (i.addr.toNat / 2))
      let k := 2 * (i.f.toNat / 2)
      { loads := [(c.phys k, coreWord s c lo), (c.phys (k + 1), coreWord s c (lo + 4))], reads := [lo, lo + 4] }) := by
  refine opM_of _ hex (fun i s r hr => ?_) (by simp)
  obtain ⟨hlo, hhi⟩ := pair_words i b
  simp only [ldPair, hlo, hhi, evenOf_eq, coreWord_atIssue hr]
  rw [s.cell_atIssue hr]
  rfl

theorem opM_storePair {op : FmtM → Instr} (b : Bank) (hex : ∀ i s, exec (op i) s = .next (issueM s i (fun _ c => stPair i b c))) :
    opM op (fun _ c i =>
      let lo := b.addr i.cell (2 * (i.addr.toNat / 2))
      { stores := [(lo, c.rdEven i.f), (lo + 4, c.rdOdd i.f)] }) := by
  refine opM_of _ hex (fun i s r hr => ?_) (fun s c i x hx => ?_)
  · obtain ⟨hlo, hhi⟩ := pair_words i b
    simp only [stPair, hlo, hhi, s.cell_atIssue hr]
    rfl
  · have h := b.addr_aligned i.cell (2 * (i.addr.toNat / 2))
    simp only [List.mem_cons, List.not_mem_nil, or_false] at hx
    rcases hx with rfl | rfl <;> dsimp only <;> omega

/-- Settles O8: one rule for a word and one for a pair, on each of the two banks. -/
theorem absoluteAccess : Obligations.AbsoluteAccess := by
  unfold Obligations.AbsoluteAccess
  exact ⟨opM_load .x fun _ _ => rfl, opM_load .y fun _ _ => rfl, opM_store .x fun _ _ => rfl, opM_store .y fun _ _ => rfl,
    opM_loadPair .x fun _ _ => rfl, opM_loadPair .y fun _ _ => rfl, opM_storePair .x fun _ _ => rfl, opM_storePair .y fun _ _ => rfl⟩

end Sys2Proof.Machine
end

section
/-! PROOF. What an instruction does before its effect, for every cell instruction: squashed, suppressed, or met by a fault of its fetch or
of its budget (R55, R56, R65, R69, R74, R88, R91). -/

namespace Sys2Proof.Machine

open Spec

/-! ### The ways an issue goes before the effect -/

theorem State.budget_atIssue {s : State} {n : Nat} {r : RunCtx} (hr : s.issues n = some r) :
    (s.atIssue n r).fld Reg.cellCtrlOpBudget (cellRegs n) = s.fld Reg.cellCtrlOpBudget (cellRegs n) := by
  unfold State.fld
  rw [(s.atIssue_did n r (s.issues_lt n r hr)).regs _ (by simp [Reg.cellIssuedIssued, Reg.cellCtrlOpBudget])
    (by simp [Reg.cellEccCorrected, Reg.cellCtrlOpBudget])]

theorem State.overBudget_atIssue {s : State} {n : Nat} {r : RunCtx} (hr : s.issues n = some r)
    (hb0 : s.fld Reg.cellCtrlOpBudget (cellRegs n) ≠ 0) (hb : s.fld Reg.cellCtrlOpBudget (cellRegs n) < r.issued + 1) :
    (s.atIssue n r).overBudget n r = true := by
  unfold State.overBudget
  rw [State.budget_atIssue hr]
  simpa using ⟨hb0, Nat.lt_succ_iff.1 hb⟩

section

variable {s : State} {n : Nat} {r : RunCtx} (stg : BitVec 3) (q : Bool) (act : State → Done) (hr : s.issues n = some r)
include hr

/-- In the shadow of a taken branch (R69, R74). -/
theorem issue_squashed {target : BitVec 14} (h : (s.cell n).shadow = some target) : issue s n stg q act
    = (s.atIssue n r).setCell n (
        let c := { (s.atIssue n r).cell n with shadow := none, pc := target }
        if q then c.startTrig ⟨[], true⟩ else c) := by
  have hs : ((s.atIssue n r).cell n).shadow = some target := by rw [s.cell_atIssue hr]; exact h
  unfold State.atIssue at hs ⊢
  simp only [issue, hr, hs]

section

variable (hsh : (s.cell n).shadow = none)
include hsh

/-- Suppressed in this pass (R65). -/
theorem issue_suppressed (h : (s.cell n).suppressed stg.toNat = true) :
    issue s n stg q act = (s.atIssue n r).advance n (s.cell n).pc.toNat .seq := by
  have hs : ((s.atIssue n r).cell n).shadow = none := by rw [s.cell_atIssue hr]; exact hsh
  have hp : ((s.atIssue n r).cell n).suppressed stg.toNat = true := by rw [s.cell_atIssue hr]; exact h
  unfold State.atIssue at hs hp ⊢
  simp only [issue, hr, hs, hp, if_true]

/-- A word with a double-bit error at the pc (R56). -/
theorem issue_badWord (hp : (s.cell n).suppressed stg.toNat = false)
    (h : insAddr n (s.cell n).pc.toNat ∈ s.flip2 ∨ insAddr n (s.cell n).pc.toNat + 4 ∈ s.flip2) :
    issue s n stg q act = (s.atIssue n r).faultAt n 1 (s.cell n).pc.toNat := by
  have hs : ((s.atIssue n r).cell n).shadow = none := by rw [s.cell_atIssue hr]; exact hsh
  have hp : ((s.atIssue n r).cell n).suppressed stg.toNat = false := by rw [s.cell_atIssue hr]; exact hp
  have hw : (insWords n (s.cell n).pc.toNat).any (fun a => (s.atIssue n r).flip2.contains a) = true := by
    rw [(s.atIssue_did n r (s.issues_lt n r hr)).rest]
    simpa [insWords] using h
  unfold State.atIssue at hs hp hw ⊢
  simp only [issue, hr, hs, hp, hw, Bool.false_eq_true, if_true, if_false]

/-- An instruction beyond the budget (R88, R91). -/
theorem issue_spent (hp : (s.cell n).suppressed stg.toNat = false)
    (hw1 : insAddr n (s.cell n).pc.toNat ∉ s.flip2) (hw2 : insAddr n (s.cell n).pc.toNat + 4 ∉ s.flip2)
    (hb0 : s.fld Reg.cellCtrlOpBudget (cellRegs n) ≠ 0) (hb : s.fld Reg.cellCtrlOpBudget (cellRegs n) < r.issued + 1) :
    issue s n stg q act
      = (s.atIssue n r).faultAt n (lowest (5 :: (act (s.atIssue n r)).faults)) (s.cell n).pc.toNat := by
  have hs : ((s.atIssue n r).cell n).shadow = none := by rw [s.cell_atIssue hr]; exact hsh
  have hp : ((s.atIssue n r).cell n).suppressed stg.toNat = false := by rw [s.cell_atIssue hr]; exact hp
  have hw : (insWords n (s.cell n).pc.toNat).any (fun a => (s.atIssue n r).flip2.contains a) = false := by
    rw [(s.atIssue_did n r (s.issues_lt n r hr)).rest]
    simpa [insWords] using ⟨hw1, hw2⟩
  have ho := s.overBudget_atIssue hr hb0 hb
  unfold State.atIssue at hs hp hw ho ⊢
  simp only [issue, hr, hs, hp, hw, ho, Bool.false_eq_true, if_true, if_false]

end

end

/-! ### Fault codes -/

theorem lowest_cons_le (a : Nat) (ha : 1 ≤ a) (l : List Nat) (hl : ∀ x ∈ l, 1 ≤ x) : 1 ≤ lowest (a :: l) ∧ lowest (a :: l) ≤ a := by
  have step : lowest (a :: l) = l.foldl (fun a x => if a = 0 then x else if x < a then x else a) a := rfl
  rw [step]
  clear step
  induction l generalizing a with
  | nil => exact ⟨ha, Nat.le_refl a⟩
  | cons x l ih =>
    obtain ⟨hx, hl⟩ := List.forall_mem_cons.1 hl
    rw [List.foldl_cons, if_neg (by omega)]
    have := ih (if x < a then x else a) (by split <;> omega) hl
    split at this <;> split <;> omega

theorem access_faults (s : State) (n : Nat) (c : CellSt) (b : Bank) (a : Access) : ∀ x ∈ (access s n c b a).faults, x = 4 := by
  intro x hx
  unfold access at hx
  dsimp only at hx
  split at hx
  · cases hx
  · split at hx
    · simpa using hx
    · split at hx
      · cases hx
      · split at hx <;> cases hx

theorem destAccess_faults (c : CellSt) (a : Access) : ∀ x ∈ (destAccess c a).2.faults, x = 4 := by
  intro x hx
  unfold destAccess at hx
  dsimp only at hx
  split at hx
  · simpa using hx
  · cases hx

theorem apply_faults_eq (s : State) (n : Nat) (e : Eff) (xa ya : AccRes) : (apply s n e xa ya).faults = e.faults ++ xa.faults ++ ya.faults
    ++ (if (xa.reads ++ ya.reads).any (fun a => (apply s n e xa ya).s.flip2.contains a) then [1] else []) := rfl

/-- Every fault code is at least 1, where those of the effect and of the accesses are. -/
theorem apply_faults_pos (s : State) (n : Nat) (e : Eff) (xa ya : AccRes) (he : ∀ x ∈ e.faults, 1 ≤ x) (hx : ∀ x ∈ xa.faults, x = 4)
    (hy : ∀ x ∈ ya.faults, x = 4) : ∀ x ∈ (apply s n e xa ya).faults, 1 ≤ x := by
  intro x h
  rw [apply_faults_eq] at h
  generalize (xa.reads ++ ya.reads).any _ = ecc at h
  simp only [List.mem_append] at h
  rcases h with ((h | h) | h) | h
  · exact he x h
  · have := hx x h; omega
  · have := hy x h; omega
  · cases ecc
    · cases h
    · have : x = 1 := by simpa using h
      omega

/-! ### Posts that are not complete -/

theorem State.closePosts_of_nil {s : State} {n : Nat} (h : ∀ r, (s.cell n).run = some r → r.post = []) : s.closePosts n = s := by
  unfold State.closePosts
  cases hr : (s.cell n).run with
  | none => rfl
  | some r =>
    cases hj : r.job with
    | op k => simp only [hj]
    | item w => simp only [hj, h r hr, List.foldl_nil]

/-- A collected post of a work item's run: it stays while it is shorter than its mailbox's words, else it goes to the command
processor (R154). -/
def State.closePost (s : State) (n : Nat) (w : WorkItem) (p : Nat × List Word) : State :=
  let q := (((s.wic w.ch).bind (fun d => d.ports[p.1]?))).getD 0
  let len := ((s.qdesc q).map QDesc.words).getD 0
  if p.2.length < len then s
  else
    match p.2 with
    | [] => s
    | a :: ws =>
      let c := s.cell n
      let s := s.setCell n { c with run := c.run.map (fun r => { r with post := Tab.drop r.post p.1 }) }
      let a := if s.cellUndef n then s.freeW else a
      let ws := if s.cellUndef n then s.drew.freeWords ws.length else ws
      let s := if s.cellUndef n then s.drewN (ws.length + 1) else s
      let par := bytesLE 2 q ++ [0#8, BitVec.ofNat 8 ws.length] ++ wordsLE (ws.take 8)
      let cmd : CmdIn := { port := .workItem w.ch, opcode := 0x0D13, irq := false, chk := false, at_ := true,
                           tag := BitVec.ofNat 16 w.tag, apply := a, checkOk := true, param := par }
      { s with host := { s.host with waiting :=
          s.host.waiting ++ [⟨68, cmd, some ⟨w.ch, w.tag, q, ⟨a, ws⟩⟩, s.time.s.toNat, s.time.ns.toNat⟩] } }

theorem State.closePosts_item {s : State} {n : Nat} {r : RunCtx} {w : WorkItem} (hr : (s.cell n).run = some r) (hj : r.job = .item w) :
    s.closePosts n = r.post.foldl (fun s p => s.closePost n w p) s := by
  unfold State.closePosts
  simp only [hr, hj]
  rfl

/-- What the posts of a cell's run that go out may change. -/
structure PostsOnly (n : Nat) (s t : State) : Prop where
  rest : t = { s with cells := t.cells, host := t.host, freeCtr := t.freeCtr }
  cell : t.cell n = { s.cell n with run := (t.cell n).run }
  others : ∀ j, j ≠ n → t.cell j = s.cell j
  idle : (s.cell n).run = none → (t.cell n).run = none

theorem PostsOnly.refl (n : Nat) (s : State) : PostsOnly n s s := ⟨rfl, rfl, fun _ _ => rfl, id⟩

theorem PostsOnly.trans {n : Nat} {s t u : State} (h : PostsOnly n s t) (g : PostsOnly n t u) : PostsOnly n s u where
  rest := by rw [g.rest, h.rest]
  cell := by rw [g.cell, h.cell]
  others j hj := (g.others j hj).trans (h.others j hj)
  idle hs := g.idle (h.idle hs)

theorem PostsOnly.of_run {n : Nat} {s t : State} {x : Option RunCtx} (h : t = { s.setCell n { s.cell n with run := x } with
    host := t.host, freeCtr := t.freeCtr }) (hx : (s.cell n).run = none → x = none) : PostsOnly n s t := by
  have hc : t.cells = (s.setCell n { s.cell n with run := x }).cells := by rw [h]
  have hn := (State.cell_congr hc n).trans (State.cell_setCell_same _ _ _)
  refine ⟨by rw [h]; rfl, by rw [hn], fun j hj => ?_, fun hs => by rw [hn, hx hs]⟩
  rw [State.cell_congr hc, State.cell_setCell, if_neg hj]

theorem State.closePost_only (s : State) (n : Nat) (w : WorkItem) (p : Nat × List Word) : PostsOnly n s (s.closePost n w p) := by
  unfold State.closePost
  dsimp only
  split
  · exact .refl n s
  · split
    · exact .refl n s
    · refine .of_run (x := (s.cell n).run.map (fun r => { r with post := Tab.drop r.post p.1 })) ?_ (fun h => by rw [h]; rfl)
      split <;> rfl

theorem State.closePosts_only (s : State) (n : Nat) : PostsOnly n s (s.closePosts n) := by
  cases hr : (s.cell n).run with
  | none =>
    rw [State.closePosts_of_nil (fun r h => by rw [hr] at h; cases h)]
    exact .refl n s
  | some r =>
    cases hj : r.job with
    | op k =>
      unfold State.closePosts
      simp only [hr, hj]
      exact .refl n s
    | item w =>
      rw [State.closePosts_item hr hj]
      generalize r.post = l
      clear hr
      induction l generalizing s with
      | nil => exact .refl n s
      | cons x l ih => exact (s.closePost_only n w x).trans (ih _)

/-- A cell that abandoned its job has abandoned it, whatever posts of the next one go out. -/
theorem trapped_closePosts {s t : State} {n code : Nat} (h : Trapped s t n code) : Trapped s (t.closePosts n) n code := by
  have g := t.closePosts_only n
  obtain ⟨hraise, htrig, hloops, hidle⟩ := h
  refine ⟨fun hf => ?_, by rw [g.cell]; exact htrig, by rw [g.cell]; exact hloops, fun hs => g.idle (hidle hs)⟩
  unfold State.reg
  rw [g.rest]
  exact hraise hf

end Sys2Proof.Machine
end

section
/-! PROOF. The squash, the suppression and the traps before an effect, shown for every cell instruction (R55, R56, R65, R69, R74, R88, R91). -/

namespace Sys2Proof.Machine

open Spec

/-- What an instruction of cell `n` does before its effect: squashed in the shadow of a taken branch, suppressed in this pass of its
loop, trapped by the word it was fetched from, or trapped by the budget. -/
structure BeforeEffect (i : Instr) (n : Nat) (stg : BitVec 3) : Prop where
  squashed : ∀ (s : State) r target, s.issues n = some r → r.post = [] → (s.cell n).shadow = some target →
    exec i s = .next ((s.atIssue n r).setCell n { (s.atIssue n r).cell n with
      shadow := none, pc := target, trig := (s.cell n).trig ++ (if i.isTrig then [⟨[], true⟩] else []) })
  suppressed : ∀ (s : State) r, s.issues n = some r → r.post = [] → (s.cell n).shadow = none → (s.cell n).suppressed stg.toNat = true →
    exec i s = .next ((s.atIssue n r).advance n (s.cell n).pc.toNat .seq)
  badWord : ∀ (s : State) r, s.issues n = some r → (s.cell n).shadow = none → (s.cell n).suppressed stg.toNat = false →
    (insAddr n (s.cell n).pc.toNat ∈ s.flip2 ∨ insAddr n (s.cell n).pc.toNat + 4 ∈ s.flip2) →
    ∃ t, exec i s = .next t ∧ Trapped s t n 1
  spent : ∀ (s : State) r, s.issues n = some r → (s.cell n).shadow = none → (s.cell n).suppressed stg.toNat = false →
    insAddr n (s.cell n).pc.toNat ∉ s.flip2 → insAddr n (s.cell n).pc.toNat + 4 ∉ s.flip2 →
    s.fld Reg.cellCtrlOpBudget (cellRegs n) ≠ 0 → s.fld Reg.cellCtrlOpBudget (cellRegs n) < r.issued + 1 →
    ∃ t code, exec i s = .next t ∧ 1 ≤ code ∧ code ≤ 5 ∧ Trapped s t n code

/-- A trap of the instruction at its fetch. -/
theorem State.atIssue_trapped {s : State} {n : Nat} {r : RunCtx} (hr : s.issues n = some r) (code pc : Nat) (h1 : 1 ≤ code)
    (h5 : code ≤ 5) : Trapped s ((s.atIssue n r).faultAt n code pc) n code :=
  State.faultAt_trapped s _ n code pc r { r with issued := r.issued + 1 } (State.issues_run hr)
    (by rw [s.cell_atIssue hr]) rfl (by rw [s.cell_atIssue hr]) h1 (by omega)

/-- What the run of a cell that advances holds: what it held. -/
theorem State.advance_run (s : State) (n pc : Nat) (a : After) : ((s.advance n pc a).cell n).run = (s.cell n).run := by
  cases a <;> simp only [State.advance, State.cell_setCell_same] <;> rw [loopEnd_eq]

section

variable {i : Instr} {n : Nat} {stg : BitVec 3} {act : State → Done}

theorem issue_squashed_trig {s : State} {r : RunCtx} {target : BitVec 14} (q : Bool) (hr : s.issues n = some r)
    (h : (s.cell n).shadow = some target) : issue s n stg q act
      = (s.atIssue n r).setCell n { (s.atIssue n r).cell n with
          shadow := none, pc := target, trig := (s.cell n).trig ++ (if q then [⟨[], true⟩] else []) } := by
  rw [issue_squashed stg q act hr h, s.cell_atIssue hr]
  cases q
  · simp
  · rfl

/-- An instruction that is issued, and after which a complete post goes out where `posts`. -/
theorem beforeEffect_of_issue (posts : Bool)
    (hex : ∀ s, exec i s = .next (if posts then (issue s n stg i.isTrig act).closePosts n else issue s n stg i.isTrig act))
    (hact : ∀ s, ∀ x ∈ (act s).faults, 1 ≤ x) : BeforeEffect i n stg := by
  have quiet : ∀ (s : State) t, issue s n stg i.isTrig act = t → (∀ r, (t.cell n).run = some r → r.post = []) → exec i s = .next t := by
    intro s t h hp
    rw [hex, h, State.closePosts_of_nil hp, ite_self]
  have traps : ∀ (s : State) code, Trapped s (issue s n stg i.isTrig act) n code → ∃ t, exec i s = .next t ∧ Trapped s t n code := by
    intro s code h
    cases posts
    · exact ⟨_, hex s, h⟩
    · exact ⟨_, hex s, trapped_closePosts h⟩
  refine ⟨fun s r target hr hp h => ?_, fun s r hr hp hsh h => ?_, fun s r hr hsh hs h => ?_, fun s r hr hsh hs h1 h2 hb0 hb => ?_⟩
  · refine quiet s _ (issue_squashed_trig _ hr h) (fun r' hr' => ?_)
    rw [State.cell_setCell_same, s.cell_atIssue hr] at hr'
    cases hr'
    exact hp
  · refine quiet s _ (issue_suppressed stg _ act hr hsh h) (fun r' hr' => ?_)
    rw [State.advance_run, s.cell_atIssue hr] at hr'
    cases hr'
    exact hp
  · refine traps s 1 ?_
    rw [issue_badWord stg _ act hr hsh hs h]
    exact State.atIssue_trapped hr 1 _ (by decide) (by decide)
  · obtain ⟨hlo, hhi⟩ := lowest_cons_le 5 (by decide) (act (s.atIssue n r)).faults (hact _)
    obtain ⟨t, ht, htr⟩ := traps s (lowest (5 :: (act (s.atIssue n r)).faults)) (by
      rw [issue_spent stg _ act hr hsh hs h1 h2 hb0 hb]
      exact State.atIssue_trapped hr _ _ hlo hhi)
    exact ⟨t, _, ht, hlo, hhi, htr⟩

end

/-! ### Each format -/

theorem beforeEffect_A {op : FmtA → Instr} {i : FmtA} {eff : State → CellSt → Eff} (hq : (op i).isTrig = false)
    (hex : ∀ s, exec (op i) s = .next (issueA s i eff)) (hf : ∀ s c, ∀ x ∈ (eff s c).faults, 1 ≤ x) :
    BeforeEffect (op i) i.cell i.stg :=
  beforeEffect_of_issue (act := fun s => apply s i.cell (eff s (s.cell i.cell)) (access s i.cell (s.cell i.cell) .x i.xa)
      (access s i.cell (s.cell i.cell) .y i.ya)) false (fun s => by rw [hq]; exact hex s)
    (fun _ => apply_faults_pos _ _ _ _ _ (hf _ _) (access_faults _ _ _ _ _) (access_faults _ _ _ _ _))

/-- A compute operation raises no fault of its own. -/
theorem beforeEffect_compute {op : FmtA → Instr} {i : FmtA} {eff : State → CellSt → Eff} (hq : (op i).isTrig = false)
    (hex : ∀ s, exec (op i) s = .next (issueA s i eff)) (hf : ∀ s c, (eff s c).faults = []) : BeforeEffect (op i) i.cell i.stg :=
  beforeEffect_A hq hex (fun s c => by rw [hf]; exact fun _ hx => nomatch hx)

theorem beforeEffect_F {op : FmtF → Instr} {i : FmtF} {eff : CellSt → Eff} (hq : (op i).isTrig = false)
    (hex : ∀ s, exec (op i) s = .next (issueF s i eff)) (hf : ∀ c, (eff c).faults = []) : BeforeEffect (op i) i.cell i.stg :=
  beforeEffect_of_issue (act := fun s => apply s i.cell (eff (s.cell i.cell))
      (access s i.cell (s.cell i.cell) (if i.sel then .y else .x) i.acc) {}) false (fun s => by rw [hq]; exact hex s)
    (fun _ => apply_faults_pos _ _ _ _ _ (by rw [hf]; exact fun _ hx => nomatch hx) (access_faults _ _ _ _ _) (fun _ hx => nomatch hx))

theorem beforeEffect_I {op : FmtI → Instr} {i : FmtI} {eff : CellSt → Eff} (hq : (op i).isTrig = false)
    (hex : ∀ s, exec (op i) s = .next (issueI s i eff)) (hf : ∀ c, (eff c).faults = []) : BeforeEffect (op i) i.cell i.stg :=
  beforeEffect_of_issue (act := fun s => apply s i.cell (eff (s.cell i.cell)) {} {}) false (fun s => by rw [hq]; exact hex s)
    (fun _ => apply_faults_pos _ _ _ _ _ (by rw [hf]; exact fun _ hx => nomatch hx) (fun _ hx => nomatch hx) (fun _ hx => nomatch hx))

theorem beforeEffect_M {op : FmtM → Instr} {i : FmtM} {acc : State → CellSt → AccRes} (hq : (op i).isTrig = false)
    (hex : ∀ s, exec (op i) s = .next (issueM s i acc)) (hf : ∀ s c, (acc s c).faults = []) : BeforeEffect (op i) i.cell i.stg :=
  beforeEffect_of_issue (act := fun s => apply s i.cell {} (acc s (s.cell i.cell)) {}) false (fun s => by rw [hq]; exact hex s)
    (fun _ => apply_faults_pos _ _ _ _ _ (fun _ hx => nomatch hx) (by rw [hf]; exact fun _ hx => nomatch hx) (fun _ hx => nomatch hx))

theorem beforeEffect_B {op : FmtB → Instr} {i : FmtB} {taken : CC → Bool} (hq : (op i).isTrig = false)
    (hex : ∀ s, exec (op i) s = .next (branch s i taken)) : BeforeEffect (op i) i.cell i.stg :=
  beforeEffect_of_issue (act := fun s => { s, after := if taken (s.cell i.cell).cc then .jump i.target else .seq }) false
    (fun s => by rw [hq]; exact hex s) (fun _ _ hx => nomatch hx)

/-- The enclosing loop ends before `last`. -/
def endsBefore (ls : List LoopEnt) (last : Nat) : Bool :=
  match ls with
  | l :: _ => decide (l.last < last)
  | [] => false

/-- What a loop instruction does with its count (R62 to R65). -/
def loopAct (i : FmtL) (n : CellSt → Nat) (s : State) : Done :=
  let c := s.cell i.cell
  let pc := c.pc.toNat
  let last := i.last.toNat
  let n := n c
  if last ≤ pc then { s }
  else if c.loops.any (fun l => l.ctr == i.k.toNat) then { s, faults := [3] }
  else
    let c' := { c with c := Tab.put 0#16 c.c i.k.toNat (BitVec.ofNat 16 n) }
    if n = 0 then { s := s.setCell i.cell c', after := .skip last }
    else if endsBefore c.loops last then { s, faults := [3] }
    else
      let l : LoopEnt := ⟨i.k.toNat, pc + 1, last, i.rot, if i.rot then i.sc.toNat + 1 else 1, n, 0⟩
      { s := s.setCell i.cell { c' with loops := l :: c.loops } }

theorem loopStart_eq (s : State) (i : FmtL) (n : CellSt → Nat) : loopStart s i n = issue s i.cell i.stg false (loopAct i n) := rfl

theorem beforeEffect_L {op : FmtL → Instr} {i : FmtL} {n : CellSt → Nat} (hq : (op i).isTrig = false)
    (hex : ∀ s, exec (op i) s = .next (loopStart s i n)) : BeforeEffect (op i) i.cell i.stg := by
  refine beforeEffect_of_issue (act := loopAct i n) false (fun s => by rw [hq]; exact hex s) (fun s x hx => ?_)
  unfold loopAct at hx
  dsimp only at hx
  split at hx
  · cases hx
  · split at hx
    · have : x = 3 := by simpa using hx
      omega
    · split at hx
      · cases hx
      · split at hx
        · have : x = 3 := by simpa using hx
          omega
        · cases hx

theorem beforeEffect_trig {op : FmtA → Instr} {i : FmtA} {w : CellSt → List (TrigDest × Word)} (hq : (op i).isTrig = true)
    (hex : ∀ s, exec (op i) s = .next (issueTrig s i w)) : BeforeEffect (op i) i.cell i.stg :=
  beforeEffect_of_issue (act := fun s =>
      let c := s.cell i.cell
      let xa := access s i.cell c .x i.xa
      let ya := access s i.cell c .y i.ya
      apply s i.cell (trigEff s c (w c) (xa.loads ++ ya.loads)) xa ya) false (fun s => by rw [hq]; exact hex s)
    (fun _ => apply_faults_pos _ _ _ _ _ (fun _ hx => nomatch hx) (access_faults _ _ _ _ _) (access_faults _ _ _ _ _))

theorem beforeEffect_trigMem {op : FmtA → Instr} {i : FmtA} {v : CellSt → List Word} (hq : (op i).isTrig = true)
    (hex : ∀ s, exec (op i) s = .next (issueTrigMem s i v)) : BeforeEffect (op i) i.cell i.stg :=
  beforeEffect_of_issue (act := fun s =>
      let c := s.cell i.cell
      let dst := destAccess c (if i.tm then i.xa else i.ya)
      let b : Bank := if i.tm then .x else .y
      let w := if dst.1 ≥ 16384 then [] else trigWords b i.cell dst.1 (v c)
      let xa := if i.tm then dst.2 else access s i.cell c .x i.xa
      let ya := if i.tm then access s i.cell c .y i.ya else dst.2
      apply s i.cell (trigEff s c w (xa.loads ++ ya.loads)) xa ya) false (fun s => by rw [hq]; exact hex s)
    (fun _ => apply_faults_pos _ _ _ _ _ (fun _ hx => nomatch hx)
      (by split; exacts [destAccess_faults _ _, access_faults _ _ _ _ _])
      (by split; exacts [access_faults _ _ _ _ _, destAccess_faults _ _]))

/-! ### The queue operations, the feeds, TSYNC and END -/

theorem pos_of_mem_singleton {a x : Nat} (ha : 1 ≤ a) (hx : x ∈ [a]) : 1 ≤ x := by
  rwa [List.mem_singleton.1 hx]

theorem qput_faults (s : State) (c : CellSt) (i : FmtA) (fp : Bool) : ∀ x ∈ (qput s c i fp).faults, 1 ≤ x := by
  intro x hx
  unfold qput at hx
  dsimp only at hx
  split at hx
  · split at hx
    · exact pos_of_mem_singleton (by decide) hx
    · cases hx
  · split at hx
    · exact pos_of_mem_singleton (by decide) hx
    · cases hx
  · exact pos_of_mem_singleton (by decide) hx

theorem qget_faults (s : State) (c : CellSt) (i : FmtA) : ∀ x ∈ (qget s c i).faults, 1 ≤ x := by
  intro x hx
  unfold qget at hx
  dsimp only at hx
  split at hx
  · split at hx
    · cases hx
    · exact pos_of_mem_singleton (by decide) hx
  · exact pos_of_mem_singleton (by decide) hx

theorem qhold_faults (s : State) (c : CellSt) (i : FmtA) : ∀ x ∈ (qhold s c i).faults, 1 ≤ x := by
  intro x hx
  unfold qhold at hx
  split at hx
  · cases hx
  · exact pos_of_mem_singleton (by decide) hx

theorem qish_faults (s : State) (c : CellSt) (i : FmtA) : ∀ x ∈ (qish s c i).faults, 1 ≤ x := by
  intro x hx
  unfold qish at hx
  split at hx
  · cases hx
  · exact pos_of_mem_singleton (by decide) hx

theorem qcyc_faults (s : State) (c : CellSt) (i : FmtA) : (qcyc s c i).faults = [] := by
  unfold qcyc
  dsimp only
  split
  · rfl
  · split <;> rfl

theorem feed_faults (s : State) (c : CellSt) (i : FmtA) (ch : Nat) (wide : Bool) : (feed s c i ch wide).faults = [] := by
  unfold feed
  dsimp only
  split <;> rfl

theorem beforeEffect_qput {op : FmtA → Instr} {i : FmtA} {fp : Bool} (hq : (op i).isTrig = false)
    (hex : ∀ s, exec (op i) s = .next ((issueA s i (fun s c => qput s c i fp)).closePosts i.cell)) :
    BeforeEffect (op i) i.cell i.stg :=
  beforeEffect_of_issue (act := fun s => apply s i.cell (qput s (s.cell i.cell) i fp) (access s i.cell (s.cell i.cell) .x i.xa)
      (access s i.cell (s.cell i.cell) .y i.ya)) true (fun s => by rw [hq]; exact hex s)
    (fun _ => apply_faults_pos _ _ _ _ _ (qput_faults _ _ _ _) (access_faults _ _ _ _ _) (access_faults _ _ _ _ _))

theorem beforeEffect_tsync (i : FmtA) : BeforeEffect (.tsync i) i.cell i.stg :=
  beforeEffect_of_issue (act := fun s =>
      let s := s.drainTrig i.cell
      let c := s.cell i.cell
      apply s i.cell { cc := some { c.cc with t := false } } (access s i.cell c .x i.xa) (access s i.cell c .y i.ya)) false (fun _ => rfl)
    (fun _ => apply_faults_pos _ _ _ _ _ (fun _ hx => nomatch hx) (access_faults _ _ _ _ _) (access_faults _ _ _ _ _))

/-- What END does in the state it is issued in: its accesses after the trig unit has drained, then the end of its job, or a trap. -/
def endAct (i : FmtA) (s : State) : Done :=
  let s := s.drainTrig i.cell
  apply s i.cell {} (access s i.cell (s.cell i.cell) .x i.xa) (access s i.cell (s.cell i.cell) .y i.ya)

theorem endAct_faults (i : FmtA) (s : State) : ∀ x ∈ (endAct i s).faults, 1 ≤ x :=
  apply_faults_pos _ _ _ _ _ (fun _ hx => nomatch hx) (access_faults _ _ _ _ _) (access_faults _ _ _ _ _)

/-- END before its effect is as every instruction is (R65, R69, R88). -/
theorem beforeEffect_end (i : FmtA) : BeforeEffect (.endOp i) i.cell i.stg := by
  have kept : ∀ (s : State) r, s.issues i.cell = some r → ((s.atIssue i.cell r).cell i.cell).shadow = (s.cell i.cell).shadow
      ∧ ((s.atIssue i.cell r).cell i.cell).suppressed i.stg.toNat = (s.cell i.cell).suppressed i.stg.toNat
      ∧ (s.atIssue i.cell r).flip2 = s.flip2 := by
    intro s r hr
    rw [s.cell_atIssue hr]
    refine ⟨rfl, rfl, ?_⟩
    rw [(s.atIssue_did i.cell r (s.issues_lt i.cell r hr)).rest]
  have word : ∀ (s u : State), u.flip2 = s.flip2 → (insWords i.cell (s.cell i.cell).pc.toNat).any (fun a => u.flip2.contains a)
      = decide (insAddr i.cell (s.cell i.cell).pc.toNat ∈ s.flip2 ∨ insAddr i.cell (s.cell i.cell).pc.toNat + 4 ∈ s.flip2) := by
    intro s u hu
    simp [insWords, hu]
  refine ⟨fun s r target hr _ h => ?_, fun s r hr _ hsh h => ?_, fun s r hr hsh hs h => ?_, fun s r hr hsh hs h1 h2 hb0 hb => ?_⟩
  all_goals
    obtain ⟨k1, k2, k3⟩ := kept s r hr
    have hw := word s _ k3
    have hc := s.cell_atIssue hr
  · rw [h] at k1
    unfold State.atIssue at k1 hc ⊢
    simp only [exec, execEndOp, hr, k1]
    simp [hc, Instr.isTrig]
  · rw [hsh] at k1
    rw [h] at k2
    unfold State.atIssue at k1 k2 ⊢
    simp only [exec, execEndOp, hr, k1, k2, if_true]
  · rw [hsh] at k1
    rw [hs] at k2
    rw [decide_eq_true h] at hw
    refine ⟨_, ?_, State.atIssue_trapped hr 1 (s.cell i.cell).pc.toNat (by decide) (by decide)⟩
    unfold State.atIssue at k1 k2 hw ⊢
    simp only [exec, execEndOp, hr, k1, k2, hw, Bool.false_eq_true, if_true, if_false]
  · rw [hsh] at k1
    rw [hs] at k2
    rw [decide_eq_false (not_or.2 ⟨h1, h2⟩)] at hw
    have ho := s.overBudget_atIssue hr hb0 hb
    obtain ⟨-, -, hrun, hslot⟩ := (s.atIssue i.cell r).drainTrig_drained i.cell
    obtain ⟨hlo, hhi⟩ := lowest_cons_le 5 (by decide) (endAct i (s.atIssue i.cell r)).faults (endAct_faults i _)
    refine ⟨((s.atIssue i.cell r).drainTrig i.cell).faultAt i.cell (lowest (5 :: (endAct i (s.atIssue i.cell r)).faults))
      (s.cell i.cell).pc.toNat, _, ?_, hlo, hhi, State.faultAt_trapped s _ i.cell _ _ r { r with issued := r.issued + 1 }
        (State.issues_run hr) (by rw [hrun, hc]) rfl (by rw [hslot, hc]) hlo (by omega)⟩
    have hne : lowest (5 :: (endAct i (s.atIssue i.cell r)).faults) ≠ 0 := by omega
    unfold endAct State.atIssue at hne ⊢
    unfold State.atIssue at k1 k2 hw ho
    simp only [exec, execEndOp, hr, k1, k2, hw, ho, Bool.false_eq_true, if_true, if_false, List.singleton_append, hne]

/-- Every cell instruction goes the same ways before its effect. -/
theorem cell_beforeEffect {i : Instr} {n : Nat} {stg : BitVec 3} (h : i.cellStg = some (n, stg)) : BeforeEffect i n stg := by
  cases i with
  | endOp i =>
    cases h
    exact beforeEffect_end i
  | fma i | fms i | fnma i | fnms i | svm3 i | ints i =>
    cases h
    exact beforeEffect_F rfl (fun _ => rfl) (fun _ => rfl)
  | setrrb i | movfi i | movpi i | movmi i | addpi i | bext i | bins i | andi i | ori i | xori i | iaddi i | icmpi i | shli i
  | shri i | sari i | addfi i | mulfi i | fmacfi i | minfi i | maxfi i | satfi i | cmpfi i =>
    cases h
    exact beforeEffect_I rfl (fun _ => rfl) (fun _ => rfl)
  | br i | breq i | brne i | brlt i | brge i | brun i | bror i | brgt i | brle i | brts i | brtc i =>
    cases h
    exact beforeEffect_B rfl (fun _ => rfl)
  | loop i | loopp i =>
    cases h
    exact beforeEffect_L rfl (fun _ => rfl)
  | ldx i | ldy i | stx i | sty i | ldxp i | ldyp i | stxp i | styp i =>
    cases h
    exact beforeEffect_M rfl (fun _ => rfl) (fun _ _ => rfl)
  | sin i | cos i | sincos i | atan2 i | sqrt i | rsqrt i | recip i | exp2 i | log2 i =>
    cases h
    exact beforeEffect_trig rfl (fun _ => rfl)
  | sinm i | cosm i | sincosm i | atan2m i | sqrtm i | rsqrtm i | recipm i | exp2m i | log2m i =>
    cases h
    exact beforeEffect_trigMem rfl (fun _ => rfl)
  | tsync i =>
    cases h
    exact beforeEffect_tsync i
  | qput i | qputr i =>
    cases h
    exact beforeEffect_qput rfl (fun _ => rfl)
  | qget i =>
    cases h
    exact beforeEffect_A rfl (fun _ => rfl) (fun s c => qget_faults s c i)
  | qhold i =>
    cases h
    exact beforeEffect_A rfl (fun _ => rfl) (fun s c => qhold_faults s c i)
  | qish i =>
    cases h
    exact beforeEffect_A rfl (fun _ => rfl) (fun s c => qish_faults s c i)
  | qcyc i =>
    cases h
    exact beforeEffect_compute rfl (fun _ => rfl) (fun s c => qcyc_faults s c i)
  | crc8_0 i | crc8_1 i | crc32_0 i | crc32_1 i =>
    cases h
    exact beforeEffect_compute rfl (fun _ => rfl) (fun s c => feed_faults s c i _ _)
  | _ => cases h <;> exact beforeEffect_compute rfl (fun _ => rfl) (fun _ _ => rfl)

end Sys2Proof.Machine
end

section
/-! PROOF. Squashed and suppressed instructions, branches and loops (R62 to R69, R74, R88, R111): what an instruction that has no effect
on registers, flags or memory leaves. -/

namespace Sys2Proof.Machine

open Spec

/-! ### Instructions that only move on -/

/-- A cell that differs in its place in the program alone: pc, loops, counters, rrb and branch shadow. -/
def CellSt.Moved (c d : CellSt) : Prop := d = { c with pc := d.pc, loops := d.loops, c := d.c, rrb := d.rrb, shadow := d.shadow }

theorem CellSt.moved_loopEnd (c : CellSt) (pc : Nat) (l : List LoopEnt) : c.Moved (loopEnd c pc l) := by
  unfold CellSt.Moved
  rw [loopEnd_eq]

theorem State.cell_advance_seq (s : State) (n pc : Nat) : (s.advance n pc .seq).cell n = loopEnd (s.cell n) pc (s.cell n).loops :=
  State.cell_setCell_same _ _ _

theorem State.cell_advance_skip (s : State) (n pc last : Nat) :
    (s.advance n pc (.skip last)).cell n = loopEnd (s.cell n) last (s.cell n).loops :=
  State.cell_setCell_same _ _ _

theorem State.cell_advance_jump (s : State) (n pc : Nat) (t : BitVec 14) : (s.advance n pc (.jump t)).cell n
    = { s.cell n with shadow := some t, pc := BitVec.ofNat 14 (pc + 1), loops := popLoops t.toNat (s.cell n).loops } :=
  State.cell_setCell_same _ _ _

/-- A state that differs in one cell's place in the program alone. -/
structure Moves (n : Nat) (s t : State) : Prop where
  cell : (s.cell n).Moved (t.cell n)
  others : ∀ j, j ≠ n → t.cell j = s.cell j
  rest : t = { s with cells := t.cells }

theorem Moves.setCell (n : Nat) (s : State) {c : CellSt} (h : (s.cell n).Moved c) : Moves n s (s.setCell n c) :=
  ⟨by rw [State.cell_setCell_same]; exact h, fun j hj => by rw [State.cell_setCell, if_neg hj], rfl⟩

theorem Moves.trans {n : Nat} {s t u : State} (h : Moves n s t) (g : Moves n t u) : Moves n s u where
  cell := by
    obtain ⟨hc, -, -⟩ := h
    obtain ⟨gc, -, -⟩ := g
    unfold CellSt.Moved at *
    rw [gc, hc]
  others j hj := (g.others j hj).trans (h.others j hj)
  rest := by rw [g.rest, h.rest]

theorem Moves.advance (n pc : Nat) (a : After) (s : State) : Moves n s (s.advance n pc a) := by
  cases a with
  | seq => exact .setCell n s (CellSt.moved_loopEnd _ _ _)
  | jump t => exact .setCell n s rfl
  | skip last => exact .setCell n s (CellSt.moved_loopEnd _ _ _)

/-- The state an instruction is issued in, with its cell moved on. -/
theorem AtIssue.quiet {s v : State} {n : Nat} {r : RunCtx} (I : AtIssue s v n r) (hrun : (s.cell n).run = some r) {u : State}
    (h : Moves n v u) : Quiet s u n := by
  obtain ⟨hc, hothers, hrest⟩ := h
  have hreg : ∀ o, u.reg o = v.reg o := fun o => by rw [hrest]; rfl
  rw [CellSt.Moved, I.cell] at hc
  constructor
  case issued =>
    have h : u.reg (cellRegs n + Reg.cellIssuedIssued.off)
        = (s.incFld Reg.cellIssuedIssued (cellRegs n)).reg (cellRegs n + Reg.cellIssuedIssued.off) := by
      rw [hreg, I.issued]
    rw [← fld_issued s _ _ rfl rfl]
    unfold State.fld
    rw [h]
  case regs => exact fun o h1 h2 => by rw [hreg, I.regs o h1 h2]
  case cells => exact fun j hj => by rw [hothers j hj, I.others j hj]
  case rest =>
    rw [hrest, I.rest]
  case run => rw [hc, hrun]; rfl
  all_goals rw [hc]
  · exact ⟨rfl, rfl⟩
  · exact ⟨rfl, rfl, rfl⟩

/-- Settles O10: what every cell instruction does in the shadow of a taken branch. -/
theorem shadowSquashes : Obligations.ShadowSquashes := by
  unfold Obligations.ShadowSquashes
  intro i n stg s r target h hr hsh hp
  have I := s.atIssue_did n r (s.issues_lt n r hr)
  refine ⟨_, (cell_beforeEffect h).squashed s r target hr hp hsh, ?_, fun j hj => ?_, fun o h1 h2 => ?_, ?_⟩
  · rw [State.cell_setCell_same, I.cell]
  · rw [State.cell_setCell, if_neg hj, I.others j hj]
  · rw [State.reg_setCell, I.regs o h1 h2]
  · have hrest := I.rest
    generalize (s.atIssue n r).cells = cells, (s.atIssue n r).regs = regs, (s.atIssue n r).flip1 = flip1 at hrest
    rw [hrest]
    rfl

/-- Settles O11: what every cell instruction does in a pass that suppresses its stage. -/
theorem stageSuppresses : Obligations.StageSuppresses := by
  unfold Obligations.StageSuppresses
  intro i n stg s r l h hr hsh hp hl hpass
  have I := s.atIssue_did n r (s.issues_lt n r hr)
  have hs : (s.cell n).suppressed stg.toNat = true := by
    unfold CellSt.suppressed
    rw [hl]
    exact decide_eq_true hpass
  refine ⟨_, (cell_beforeEffect h).suppressed s r hr hp hsh hs, I.quiet (State.issues_run hr) (.advance _ _ _ _), ?_, fun hn => ?_⟩
  · rw [State.cell_advance_seq, loopEnd_eq, I.cell]
    exact hsh
  · rw [State.cell_advance_seq, I.cell, loopEnd_none _ _ _ hn, pc_succ]
    exact ⟨rfl, rfl, rfl, rfl⟩

/-! ### Branches -/

/-- An instruction that raises no fault goes on with what comes after its effect. -/
theorem issue_advance {s : State} {n : Nat} {stg : BitVec 3} (q : Bool) {act : State → Done} {r : RunCtx} (hi : s.issues n = some r)
    (h : s.ready n stg) (hf : (act (s.atIssue n r)).faults = []) : issue s n stg q act
      = (act (s.atIssue n r)).s.advance n (s.cell n).pc.toNat (act (s.atIssue n r)).after := by
  rw [issue_ready s n stg q act r hi h]
  simp only [hf, lowest, List.foldl_nil, if_true]

theorem popLoops_length_le (t : Nat) (ls : List LoopEnt) : (popLoops t ls).length ≤ ls.length := by
  induction ls with
  | nil => exact Nat.le_refl _
  | cons l r ih =>
    simp only [popLoops]
    split
    · exact Nat.le_succ_of_le ih
    · split
      · exact Nat.succ_le_succ ih
      · exact Nat.le_succ_of_le ih

/-- What a taken branch pops: the loops up to the outermost whose body its target lies outside (R64). -/
theorem popLoops_pops (t : Nat) (ls : List LoopEnt) : ∃ popped, ls = popped ++ popLoops t ls
    ∧ (∀ l ∈ popLoops t ls, l.start ≤ t ∧ t ≤ l.last) ∧ (∀ l, popped.getLast? = some l → ¬ (l.start ≤ t ∧ t ≤ l.last)) := by
  induction ls with
  | nil => exact ⟨[], rfl, fun _ h => (nomatch h), fun _ h => (nomatch h)⟩
  | cons l r ih =>
    obtain ⟨popped, hr, hin, hout⟩ := ih
    have hlen : r.length = popped.length + (popLoops t r).length := by
      have := congrArg List.length hr
      rwa [List.length_append] at this
    simp only [popLoops]
    split
    · rename_i hlt
      have hne : popped ≠ [] := fun h => by rw [h, List.length_nil] at hlen; omega
      refine ⟨l :: popped, by rw [List.cons_append, ← hr], hin, fun x hx => hout x ?_⟩
      rwa [List.getLast?_cons_of_ne_nil hne] at hx
    · rename_i hge
      obtain rfl : popped = [] := List.eq_nil_of_length_eq_zero (by omega)
      rw [List.nil_append] at hr
      rw [← hr] at hin ⊢
      split
      · rename_i hl
        exact ⟨[], rfl, List.forall_mem_cons.2 ⟨by simpa using hl, hin⟩, fun _ h => (nomatch h)⟩
      · rename_i hl
        refine ⟨[l], rfl, hin, fun x hx => ?_⟩
        obtain rfl : l = x := by simpa using hx
        simpa using hl

/-- A branch whose condition over the flags is `cond`. -/
theorem opB_of {op : FmtB → Instr} {cond taken : CC → Bool} (hex : ∀ i s, exec (op i) s = .next (branch s i taken))
    (hcond : ∀ cc, taken cc = cond cc) : opB op cond := by
  obtain rfl : taken = cond := funext hcond
  intro i s h
  obtain ⟨r, hr⟩ := State.ready_issues h
  have hsh : (s.cell i.cell).shadow = none := h.2.1
  have hrun := State.issues_run hr
  have I := s.atIssue_did i.cell r (s.issues_lt i.cell r hr)
  have hb : branch s i taken = (s.atIssue i.cell r).advance i.cell (s.cell i.cell).pc.toNat
      (if taken (s.cell i.cell).cc then .jump i.target else .seq) := by
    unfold branch
    rw [issue_advance false hr h rfl, I.cell]
  refine ⟨branch s i taken, hex i s, ?_⟩
  rw [hb]
  cases taken (s.cell i.cell).cc with
  | false =>
    simp only [Bool.false_eq_true, if_false]
    refine ⟨I.quiet hrun (.advance _ _ _ _), fun _ => ⟨?_, fun hn => ?_⟩, fun h => (nomatch h)⟩
    · rw [State.cell_advance_seq, loopEnd_eq, I.cell]
      exact hsh
    · rw [State.cell_advance_seq, I.cell, loopEnd_none _ _ _ hn, pc_succ]
      exact ⟨rfl, rfl, rfl, rfl⟩
  | true =>
    simp only [if_true]
    refine ⟨I.quiet hrun (.advance _ _ _ _), fun h => (nomatch h), fun _ => ?_⟩
    rw [State.cell_advance_jump, I.cell, pc_succ]
    exact ⟨rfl, rfl, rfl, rfl, popLoops_pops _ _⟩

/-- Settles O9: each branch with its condition. -/
theorem branchOutcomes : Obligations.BranchOutcomes := by
  unfold Obligations.BranchOutcomes
  refine ⟨opB_of (fun _ _ => rfl) (fun _ => rfl), opB_of (fun _ _ => rfl) (fun _ => rfl), opB_of (fun _ _ => rfl) (fun _ => rfl),
    opB_of (fun _ _ => rfl) (fun _ => rfl), opB_of (fun _ _ => rfl) (fun cc => ?_), opB_of (fun _ _ => rfl) (fun _ => rfl),
    opB_of (fun _ _ => rfl) (fun _ => rfl), opB_of (fun _ _ => rfl) (fun cc => ?_), opB_of (fun _ _ => rfl) (fun _ => rfl),
    opB_of (fun _ _ => rfl) (fun _ => rfl), opB_of (fun _ _ => rfl) (fun _ => rfl)⟩
  · simp only [Bool.not_or]
  · simp only [Bool.not_or]

/-! ### Loops begun -/

theorem endsBefore_eq_false {ls : List LoopEnt} {last : Nat} (h : ∀ l, ls.head? = some l → last ≤ l.last) : endsBefore ls last = false := by
  cases ls with
  | nil => rfl
  | cons l r => exact decide_eq_false (by have := h l rfl; omega)

theorem any_ctr_eq_false {ls : List LoopEnt} {k : Nat} (h : ∀ l ∈ ls, l.ctr ≠ k) : ls.any (fun l => l.ctr == k) = false := by
  rw [List.any_eq_false]
  exact fun l hl => by simpa using h l hl

/-- The loop a loop instruction begins. -/
def begunLoop (i : FmtL) (c : CellSt) (n : Nat) : LoopEnt :=
  ⟨i.k.toNat, c.pc.toNat + 1, i.last.toNat, i.rot, if i.rot then i.sc.toNat + 1 else 1, n, 0⟩

theorem CellSt.rdC_of_put {c d : CellSt} {k : Nat} {v : BitVec 16} (h : d.c = Tab.put 0#16 c.c k v) :
    d.rdC k = v ∧ ∀ j, j ≠ k → d.rdC j = c.rdC j := by
  unfold CellSt.rdC
  rw [h]
  exact ⟨Tab.get_put_same _ _ _ _, fun j hj => Tab.get_put_other _ _ _ _ _ hj⟩

/-- What a loop instruction does that raises no fault: nothing, or the counter written and the body skipped, or the loop pushed. -/
theorem loopAct_cases (i : FmtL) (n : CellSt → Nat) (s : State)
    (hok : i.last.toNat ≤ (s.cell i.cell).pc.toNat ∨ ((∀ l ∈ (s.cell i.cell).loops, l.ctr ≠ i.k.toNat) ∧
      (n (s.cell i.cell) = 0 ∨ ∀ l, (s.cell i.cell).loops.head? = some l → i.last.toNat ≤ l.last))) :
    let c := s.cell i.cell
    let c' := { c with c := Tab.put 0#16 c.c i.k.toNat (BitVec.ofNat 16 (n c)) }
    (i.last.toNat ≤ c.pc.toNat ∧ loopAct i n s = { s })
    ∨ (c.pc.toNat < i.last.toNat ∧ n c = 0 ∧ loopAct i n s = { s := s.setCell i.cell c', after := .skip i.last.toNat })
    ∨ (c.pc.toNat < i.last.toNat ∧ 0 < n c ∧
      loopAct i n s = { s := s.setCell i.cell { c' with loops := begunLoop i c (n c) :: c.loops } }) := by
  intro c c'
  unfold loopAct
  by_cases hlast : i.last.toNat ≤ c.pc.toNat
  · exact .inl ⟨hlast, if_pos hlast⟩
  · obtain ⟨hctr, hdeep⟩ := hok.resolve_left hlast
    have hany := any_ctr_eq_false hctr
    have hlt := Nat.lt_of_not_le hlast
    refine .inr ?_
    rw [if_neg hlast, hany, if_neg Bool.false_ne_true]
    by_cases hn : n c = 0
    · exact .inl ⟨hlt, hn, if_pos hn⟩
    · refine .inr ⟨hlt, Nat.pos_of_ne_zero hn, ?_⟩
      rw [if_neg hn, endsBefore_eq_false (hdeep.resolve_left hn), if_neg Bool.false_ne_true]
      rfl

theorem opL_of {op : FmtL → Instr} {count : CellSt → FmtL → Nat} (n : FmtL → CellSt → Nat)
    (hex : ∀ i s, exec (op i) s = .next (loopStart s i (n i)))
    (hn : ∀ i c x, n i { c with run := x } = count c i) : opL op count := by
  intro i s h c hok
  obtain ⟨r, hr⟩ := State.ready_issues h
  have hsh : c.shadow = none := h.2.1
  have hrun := State.issues_run hr
  have I := s.atIssue_did i.cell r (s.issues_lt i.cell r hr)
  have hcount : n i ((s.atIssue i.cell r).cell i.cell) = count c i := by rw [I.cell]; exact hn i _ _
  have hcases := loopAct_cases i (n i) (s.atIssue i.cell r) (by rw [hcount, I.cell]; exact hok)
  dsimp only at hcases
  rw [hcount] at hcases
  refine ⟨loopStart s i (n i), hex i s, ?_⟩
  rw [loopStart_eq]
  rcases hcases with ⟨hle, hact⟩ | ⟨hlt, hz, hact⟩ | ⟨hlt, hpos, hact⟩
  · rw [issue_advance false hr h (by rw [hact]), hact]
    refine ⟨I.quiet hrun (.advance _ _ _ _), ?_, fun _ hn => ?_, fun h => absurd hle (by rw [I.cell]; exact Nat.not_le.2 h),
      fun h => absurd hle (by rw [I.cell]; exact Nat.not_le.2 h)⟩
    · rw [State.cell_advance_seq, loopEnd_eq, I.cell]
      exact hsh
    · rw [State.cell_advance_seq, I.cell, loopEnd_none _ _ _ hn, pc_succ]
      exact ⟨rfl, rfl, rfl, rfl⟩
  · rw [issue_advance false hr h (by rw [hact]), hact]
    have hm : Moves i.cell (s.atIssue i.cell r) _ := .setCell i.cell _ (c := { (s.atIssue i.cell r).cell i.cell with
      c := Tab.put 0#16 ((s.atIssue i.cell r).cell i.cell).c i.k.toNat (BitVec.ofNat 16 (count c i)) }) rfl
    refine ⟨I.quiet hrun (hm.trans (.advance _ _ _ _)), ?_, fun h => absurd hlt (by rw [I.cell]; exact Nat.not_lt.2 h),
      fun _ _ hn => ?_, fun _ h => absurd hz (Nat.ne_of_gt h)⟩
    · rw [State.cell_advance_skip, loopEnd_eq, State.cell_setCell_same, I.cell]
      exact hsh
    · rw [State.cell_advance_skip, State.cell_setCell_same, I.cell, loopEnd_none _ _ _ hn, pc_succ, hz]
      exact ⟨(CellSt.rdC_of_put (c := c) (by rfl)).1, rfl, rfl, rfl, (CellSt.rdC_of_put (c := c) (v := 0#16) (by rfl)).2⟩
  · rw [issue_advance false hr h (by rw [hact]), hact]
    have hm : Moves i.cell (s.atIssue i.cell r) _ := .setCell i.cell _ (c := { (s.atIssue i.cell r).cell i.cell with
      c := Tab.put 0#16 ((s.atIssue i.cell r).cell i.cell).c i.k.toNat (BitVec.ofNat 16 (count c i))
      loops := begunLoop i ((s.atIssue i.cell r).cell i.cell) (count c i) :: ((s.atIssue i.cell r).cell i.cell).loops }) rfl
    refine ⟨I.quiet hrun (hm.trans (.advance _ _ _ _)), ?_, fun h => absurd hlt (by rw [I.cell]; exact Nat.not_lt.2 h),
      fun _ h => absurd hpos (by rw [h]; exact Nat.lt_irrefl 0), fun h _ => ?_⟩
    · rw [State.cell_advance_seq, loopEnd_eq, State.cell_setCell_same, I.cell]
      exact hsh
    · rw [State.cell_advance_seq, State.cell_setCell_same, I.cell]
      have hne : ¬ i.last.toNat = (s.cell i.cell).pc.toNat := Nat.ne_of_gt h
      simp only [loopEnd, begunLoop, if_neg hne, pc_succ]
      exact ⟨(CellSt.rdC_of_put (c := c) (by rfl)).1, rfl, rfl, (CellSt.rdC_of_put (c := c) (v := BitVec.ofNat 16 (count c i)) (by rfl)).2, rfl⟩

/-- Settles O12: LOOP with its field, LOOPP with its pointer register. -/
theorem loopStarts : Obligations.LoopStarts := by
  unfold Obligations.LoopStarts
  exact ⟨opL_of (fun i _ => i.n.toNat) (fun _ _ => rfl) (fun _ _ _ => rfl),
    opL_of (fun i c => (c.rdP (i.n.toNat % 16)).toNat) (fun _ _ => rfl) (fun _ _ _ => rfl)⟩

/-! ### The end of a pass -/

theorem appliedCell_nothing (c : CellSt) (ctr : Nat) : appliedCell c ctr {} {} {} = c := by
  simp [appliedCell, clash, clashP, CellSt.putFs, CellSt.putPs, CellSt.putMs]

/-- The counts of no access at all leave all but the registers and the list of single-bit errors, which they write as they are. -/
theorem counted_nothing_rest (s : State) (n : Nat) : counted s n {} [] [] (s.freeCtr + 0 + 0 + 0)
    = { s with regs := (counted s n {} [] [] (s.freeCtr + 0 + 0 + 0)).regs, flip1 := (counted s n {} [] [] (s.freeCtr + 0 + 0 + 0)).flip1 } := by
  rfl

/-- An instruction without effect and accesses leaves the state it is issued in. -/
theorem AtIssue.apply_nothing {s v : State} {n : Nat} {r : RunCtx} (I : AtIssue s v n r) : AtIssue s (apply v n {} {} {}).s n r := by
  have hs : (apply v n {} {} {}).s = (counted (v.setCell n (v.cell n)) n {} [] [] ((v.setCell n (v.cell n)).freeCtr + 0 + 0 + 0)) := by
    have hstores : ∀ u : State, storesDone u [] = u := fun _ => rfl
    have hcell := appliedCell_nothing (v.cell n) v.freeCtr
    have happ : appliedState v n {} {} {} = counted (storesDone (v.setCell n (appliedCell (v.cell n) v.freeCtr {} {} {})) []) n {} [] []
        ((storesDone (v.setCell n (appliedCell (v.cell n) v.freeCtr {} {} {})) []).freeCtr + 0 + 0 + 0) := rfl
    rw [apply_s, show v.landed n {} {} {} = v from rfl, happ, hstores, hcell]
  have hk := counted_keeps (v.setCell n (v.cell n)) n {} [] [] ((v.setCell n (v.cell n)).freeCtr + 0 + 0 + 0)
  have hcell : ∀ j, (apply v n {} {} {}).s.cell j = v.cell j := by
    intro j
    rw [hs, State.cell_congr hk.1, State.cell_setCell]
    split
    · rename_i h
      rw [h]
    · rfl
  have hreg : ∀ o, o ≠ cellRegs n + Reg.cellEccCorrected.off → (apply v n {} {} {}).s.reg o = v.reg o := by
    intro o ho
    rw [hs, counted_reg _ _ _ _ _ _ _ ho (by simp), State.reg_setCell]
  refine ⟨?_, (hcell n).trans I.cell, fun j hj => (hcell j).trans (I.others j hj), fun o h1 h2 => (hreg o h2).trans (I.regs o h1 h2),
    (hreg _ (eccOff_ne n)).trans I.issued⟩
  rw [hs, counted_nothing_rest, I.rest]
  rfl

theorem access_none {s : State} {n : Nat} {c : CellSt} {b : Bank} {a : Access} (h : a.kind = 0#2) : access s n c b a = {} := by
  unfold access
  simp only [h]
  rfl

theorem loopEnd_popped (c : CellSt) (pc : Nat) {l : LoopEnt} {outer : List LoopEnt} (hl : l.last = pc)
    (houter : ∀ x ∈ outer, x.last ≠ pc) : loopEnd c pc (l :: outer)
      = if (passEnd c l outer).1 then { (passEnd c l outer).2 with pc := BitVec.ofNat 14 l.start }
        else { (passEnd c l outer).2 with pc := BitVec.ofNat 14 (pc + 1), loops := outer } := by
  simp only [loopEnd, if_pos hl]
  split
  · rfl
  · exact loopEnd_none _ _ _ houter

/-- A further pass of a loop follows: the condition of its end (R62, R65). -/
def LoopEnt.again (l : LoopEnt) (c : CellSt) : Bool :=
  if l.rot then decide (l.pass + 1 < l.n + l.stages - 1) else decide (1 < (c.rdC l.ctr).toNat)

/-- What the end of a pass makes of the cell (R62, R65, R66). -/
theorem passEnd_did (c : CellSt) (l : LoopEnt) (outer : List LoopEnt) : (passEnd c l outer).1 = l.again c
    ∧ (passEnd c l outer).2.loops = (if l.again c then { l with pass := l.pass + 1 } :: outer else outer)
    ∧ (passEnd c l outer).2.rrb = (if l.rot then c.rrb - 1#5 else c.rrb)
    ∧ (passEnd c l outer).2.c = Tab.put 0#16 c.c l.ctr (BitVec.ofNat 16 ((c.rdC l.ctr).toNat - 1)) := by
  unfold passEnd LoopEnt.again
  cases l.rot <;> exact ⟨rfl, rfl, rfl, rfl⟩

/-- What the end of the innermost loop's pass makes of the cell, where no enclosing loop ends there. -/
theorem loopEnd_pass (c : CellSt) (pc : Nat) {l : LoopEnt} {outer : List LoopEnt} (hloops : c.loops = l :: outer) (hl : l.last = pc)
    (houter : ∀ x ∈ outer, x.last ≠ pc) :
    (loopEnd c pc c.loops).pc = (if l.again c then BitVec.ofNat 14 l.start else BitVec.ofNat 14 (pc + 1))
    ∧ (loopEnd c pc c.loops).loops = (if l.again c then { l with pass := l.pass + 1 } :: outer else outer)
    ∧ (loopEnd c pc c.loops).rrb = (if l.rot then c.rrb - 1#5 else c.rrb)
    ∧ ∀ k, (loopEnd c pc c.loops).rdC k = if k = l.ctr then BitVec.ofNat 16 ((c.rdC l.ctr).toNat - 1) else c.rdC k := by
  obtain ⟨hagain, hpassed, hrrb, hc⟩ := passEnd_did c l outer
  rw [hloops, loopEnd_popped c pc hl houter]
  generalize passEnd c l outer = e at hagain hpassed hrrb hc
  obtain ⟨hctr, hothers⟩ := CellSt.rdC_of_put hc
  have hcounters : ∀ k, e.2.rdC k = if k = l.ctr then BitVec.ofNat 16 ((c.rdC l.ctr).toNat - 1) else c.rdC k := by
    intro k
    split
    · rename_i hk
      rw [hk, hctr]
    · rename_i hk
      exact hothers k hk
  rw [hagain]
  cases hag : l.again c with
  | true => exact ⟨rfl, by rw [hag] at hpassed; exact hpassed, hrrb, hcounters⟩
  | false => exact ⟨rfl, rfl, hrrb, hcounters⟩

/-- Settles O13: the end of a pass, behind a NOP. -/
theorem loopPassEnds : Obligations.LoopPassEnds := by
  unfold Obligations.LoopPassEnds
  intro i s l outer h hx hy hloops hl houter
  obtain ⟨r, hr⟩ := State.ready_issues h
  have I := (s.atIssue_did i.cell r (s.issues_lt i.cell r hr)).apply_nothing
  have hact : ∀ v : State, apply v i.cell {} (access v i.cell (v.cell i.cell) .x i.xa) (access v i.cell (v.cell i.cell) .y i.ya)
      = apply v i.cell {} {} {} := fun v => by rw [access_none hx, access_none hy]
  have hex : exec (.nop i) s = .next (issue s i.cell i.stg false (fun v => apply v i.cell {} {} {})) := by
    rw [show exec (.nop i) s = .next (issueA s i (fun _ _ => {})) from rfl]
    unfold issueA
    simp only [hact]
  refine ⟨_, hex, ?_⟩
  rw [issue_advance false hr h (apply_faults _ _ _ _ _ rfl ⟨rfl, by simp⟩ ⟨rfl, by simp⟩), apply_after]
  refine ⟨I.quiet (State.issues_run hr) (.advance _ _ _ _), ?_⟩
  rw [State.cell_advance_seq, I.cell]
  obtain ⟨hpc, hpassed, hrrb, hcounters⟩ := loopEnd_pass { s.cell i.cell with run := some { r with issued := r.issued + 1 } }
    (s.cell i.cell).pc.toNat hloops hl houter
  rw [pc_succ] at hpc
  exact ⟨hpc, hpassed, hrrb, hcounters⟩

end Sys2Proof.Machine
end

section
/-! PROOF. The traps of a cell (R56, R59, R63, R88 to R91, R119). -/

namespace Sys2Proof.Machine

open Spec

/-! ### An effect that raises faults -/

/-- What `apply` leaves of the job of a cell and of its prefetch slot. -/
theorem apply_job (s : State) (n : Nat) (e : Eff) (xa ya : AccRes) : ((apply s n e xa ya).s.cell n).run = e.run.or (s.cell n).run
    ∧ ((apply s n e xa ya).s.cell n).slot = (s.cell n).slot := by
  rw [apply_s, appliedState_cell]
  obtain ⟨tr, hap, -⟩ := appliedCell_eq ((s.landed n e xa ya).cell n) (s.landed n e xa ya).freeCtr e xa ya
  obtain ⟨f', p', t', hwr, -⟩ := writtenCell_eq ((s.landed n e xa ya).cell n) (s.landed n e xa ya).freeCtr e xa ya
  rw [hap, hwr, (s.landed_did n e xa ya).1.cell]
  exact ⟨rfl, rfl⟩

/-- The faults of an effect and its accesses, where no word read has a double-bit error. -/
theorem apply_faults_of_reads (s : State) (n : Nat) (e : Eff) (xa ya : AccRes) (hx : ∀ x ∈ xa.reads, x ∉ s.flip2)
    (hy : ∀ x ∈ ya.reads, x ∉ s.flip2) : (apply s n e xa ya).faults = e.faults ++ xa.faults ++ ya.faults := by
  have h : (apply s n { e with faults := [] } { xa with faults := [] } { ya with faults := [] }).faults = [] :=
    apply_faults s n _ _ _ rfl ⟨rfl, hx⟩ ⟨rfl, hy⟩
  rw [apply_faults_eq] at h ⊢
  have hs : (apply s n { e with faults := [] } { xa with faults := [] } { ya with faults := [] }).s = (apply s n e xa ya).s := rfl
  rw [hs] at h
  rw [(List.append_eq_nil_iff.1 h).2, List.append_nil]

/-- An instruction that has its own effect, and whose faults have a code below NONFINITE, traps, where its effect leaves the job and
the prefetch slot of its cell. -/
theorem issue_traps_of_run {s : State} {n : Nat} {stg : BitVec 3} (q : Bool) {act : State → Done} {r : RunCtx} (code : Nat)
    (hi : s.issues n = some r) (h : s.ready n stg) (hcode : lowest (act (s.atIssue n r)).faults = code)
    (hrun : ((act (s.atIssue n r)).s.cell n).run = ((s.atIssue n r).cell n).run)
    (hslot : ((act (s.atIssue n r)).s.cell n).slot = ((s.atIssue n r).cell n).slot) (h1 : 1 ≤ code) (h5 : code ≤ 5) :
    Trapped s (issue s n stg q act) n code := by
  rw [issue_ready s n stg q act r hi h]
  dsimp only
  rw [hcode, if_neg (by omega), if_neg (by omega)]
  exact State.faultAt_trapped s _ n code _ r { r with issued := r.issued + 1 } (State.issues_run hi)
    (by rw [hrun, s.cell_atIssue hi]) rfl (by rw [hslot, s.cell_atIssue hi]) h1 (by omega)

theorem clean_atIssue {s : State} {n : Nat} {r : RunCtx} (hi : s.issues n = some r) {a : AccRes} (h : s.clean a) :
    (s.atIssue n r).clean a := by
  refine ⟨h.1, ?_⟩
  rw [(s.atIssue_did n r (s.issues_lt n r hi)).rest]
  exact h.2

/-- A Format A instruction whose effect raises one fault, at clean accesses. -/
theorem issueA_traps {s : State} {i : FmtA} {eff : State → CellSt → Eff} {r : RunCtx} (code : Nat) (hi : s.issues i.cell = some r)
    (h : s.ready i.cell i.stg) (hx : s.clean (s.xOf i)) (hy : s.clean (s.yOf i))
    (heff : eff (s.atIssue i.cell r) ((s.atIssue i.cell r).cell i.cell) = { faults := [code] }) (h1 : 1 ≤ code) (h5 : code ≤ 5) :
    Trapped s (issueA s i eff) i.cell code := by
  unfold issueA
  obtain ⟨hrun, hslot⟩ := apply_job (s.atIssue i.cell r) i.cell { faults := [code] } (s.xOf i) (s.yOf i)
  refine issue_traps_of_run false code hi h ?_ ?_ ?_ h1 h5
  all_goals simp only [access_atIssue s i.cell r hi, heff]
  · have hf := apply_faults_of_reads (s.atIssue i.cell r) i.cell { faults := [code] } (s.xOf i) (s.yOf i) (clean_atIssue hi hx).2
      (clean_atIssue hi hy).2
    rw [hx.1, hy.1] at hf
    exact congrArg lowest hf
  · exact hrun
  · exact hslot

theorem State.opDesc_congr {s t : State} (h : t.image = s.image) (k : Nat) : t.opDesc k = s.opDesc k := by
  unfold State.opDesc State.ops
  rw [h]

theorem State.wic_congr {s t : State} (h : t.image = s.image) (k : Nat) : t.wic k = s.wic k := by
  unfold State.wic State.wics
  rw [h]

/-- The port that an instruction names is the same where it acts. -/
theorem portOf_atIssue {s : State} {n : Nat} {r : RunCtx} (hi : s.issues n = some r) (b : BitVec 6) :
    portOf (s.atIssue n r) ((s.atIssue n r).cell n) b = portOf s (s.cell n) b := by
  have himg : (s.atIssue n r).image = s.image := by rw [(s.atIssue_did n r (s.issues_lt n r hi)).rest]
  unfold portOf
  rw [s.cell_atIssue hi, State.issues_run hi]
  simp only [State.opDesc_congr himg, State.wic_congr himg]

/-! ### Loops that cannot begin -/

/-- A loop instruction whose counter is in use, or whose body ends beyond the enclosing loop, raises LOOPNEST (R63). -/
theorem loopAct_nested {i : FmtL} {n : CellSt → Nat} {s : State} (hlt : (s.cell i.cell).pc.toNat < i.last.toNat)
    (h : (∃ l ∈ (s.cell i.cell).loops, l.ctr = i.k.toNat)
      ∨ n (s.cell i.cell) ≠ 0 ∧ ∃ l, (s.cell i.cell).loops.head? = some l ∧ l.last < i.last.toNat) :
    loopAct i n s = { s, faults := [3] } := by
  unfold loopAct
  dsimp only
  rw [if_neg (Nat.not_le.2 hlt)]
  by_cases hctr : (s.cell i.cell).loops.any (fun l => l.ctr == i.k.toNat) = true
  · rw [if_pos hctr]
  · rw [if_neg hctr]
    rcases h with ⟨l, hl, hk⟩ | ⟨hn, l, hl, hlast⟩
    · exact absurd (List.any_eq_true.2 ⟨l, hl, by simpa using hk⟩) hctr
    · have hends : endsBefore (s.cell i.cell).loops i.last.toNat = true := by
        obtain ⟨outer, ho⟩ := List.head?_eq_some_iff.1 hl
        rw [ho]
        exact decide_eq_true hlast
      rw [if_neg hn, if_pos hends]

theorem loopStart_traps {s : State} {i : FmtL} {n : CellSt → Nat} (h : s.ready i.cell i.stg)
    (hlt : (s.cell i.cell).pc.toNat < i.last.toNat)
    (hn : ∀ r, s.issues i.cell = some r → (∃ l ∈ (s.cell i.cell).loops, l.ctr = i.k.toNat)
      ∨ n ((s.atIssue i.cell r).cell i.cell) ≠ 0 ∧ ∃ l, (s.cell i.cell).loops.head? = some l ∧ l.last < i.last.toNat) :
    Trapped s (loopStart s i n) i.cell 3 := by
  obtain ⟨r, hr⟩ := State.ready_issues h
  have hc := s.cell_atIssue hr
  have hact := loopAct_nested (i := i) (n := n) (s := s.atIssue i.cell r) (by rw [hc]; exact hlt) (by
    rcases hn r hr with hctr | ⟨hz, hdeep⟩
    · exact .inl (by rw [hc]; exact hctr)
    · exact .inr ⟨hz, by rw [hc]; exact hdeep⟩)
  rw [loopStart_eq]
  exact issue_traps_of_run false 3 hr h (by rw [hact]; rfl) (by rw [hact]) (by rw [hact]) (by decide) (by decide)

/-! ### Queue operations at a port that is not declared -/

theorem queue_undeclared {s : State} {c : CellSt} {i : FmtA} (h : portOf s c i.b = .none) (fp : Bool) :
    qget s c i = { faults := [4] } ∧ qput s c i fp = { faults := [4] } ∧ qhold s c i = { faults := [4] }
      ∧ qish s c i = { faults := [4] } := by
  unfold qget qput qhold qish
  rw [h]
  exact ⟨rfl, rfl, rfl, rfl⟩

/-! ### An access beyond the data memory -/

theorem access_beyond {s : State} {n : Nat} {c : CellSt} {b : Bank} {a : Access} (hk : a.kind ≠ 0#2)
    (h : 16384 ≤ (c.rdP a.p.toNat).toNat) : (access s n c b a).faults = [4] ∧ (access s n c b a).reads = [] := by
  have hk' : a.kind.toNat ≠ 0 := fun h => hk (BitVec.eq_of_toNat_eq h)
  unfold access
  dsimp only
  split
  · rename_i h0
    exact absurd h0 hk'
  · rw [if_pos h]
    exact ⟨rfl, rfl⟩

/-- Settles O22: the faults before an effect, and those of an effect or an access. -/
theorem cellTraps : Obligations.CellTraps := by
  unfold Obligations.CellTraps
  refine ⟨fun i n stg s r h hr hsh hs _ => ?_, fun i s r hr hsh hs hx hy h1 h2 hb0 hb => ?_, fun i s h hlt hctr => ?_,
    fun i s l h hlt hl hlast hn => ?_, fun i s h hx hy hport => ?_, fun i s h hy hk hp => ?_⟩
  · exact ⟨(cell_beforeEffect h).badWord s r hr hsh hs, (cell_beforeEffect h).spent s r hr hsh hs⟩
  · refine ⟨_, rfl, ?_⟩
    have hf : (apply (s.atIssue i.cell r) i.cell {} (access (s.atIssue i.cell r) i.cell ((s.atIssue i.cell r).cell i.cell) .x i.xa)
        (access (s.atIssue i.cell r) i.cell ((s.atIssue i.cell r).cell i.cell) .y i.ya)).faults = [] := by
      rw [access_none hx, access_none hy]
      exact apply_faults _ _ _ _ _ rfl ⟨rfl, by simp⟩ ⟨rfl, by simp⟩
    unfold issueA
    rw [issue_spent i.stg false _ hr hsh hs h1 h2 hb0 hb]
    dsimp only
    rw [hf]
    exact State.atIssue_trapped hr 5 _ (by decide) (by decide)
  · exact ⟨⟨_, rfl, loopStart_traps h hlt (fun _ _ => .inl hctr)⟩, ⟨_, rfl, loopStart_traps h hlt (fun _ _ => .inl hctr)⟩⟩
  · refine ⟨_, rfl, loopStart_traps h hlt (fun _ _ => .inr ⟨fun h0 => hn (BitVec.eq_of_toNat_eq h0), l, hl, hlast⟩)⟩
  · obtain ⟨r, hr⟩ := State.ready_issues h
    obtain ⟨hget, -, hhold, hish⟩ := queue_undeclared ((portOf_atIssue hr i.b).trans hport) false
    have hput : ∀ fp, qput (s.atIssue i.cell r) ((s.atIssue i.cell r).cell i.cell) i fp = { faults := [4] } :=
      fun fp => (queue_undeclared ((portOf_atIssue hr i.b).trans hport) fp).2.1
    simp only [List.forall_mem_cons]
    exact ⟨⟨_, rfl, issueA_traps 4 hr h hx hy hget (by decide) (by decide)⟩,
      ⟨_, rfl, trapped_closePosts (issueA_traps 4 hr h hx hy (hput true) (by decide) (by decide))⟩,
      ⟨_, rfl, trapped_closePosts (issueA_traps 4 hr h hx hy (hput false) (by decide) (by decide))⟩,
      ⟨_, rfl, issueA_traps 4 hr h hx hy hhold (by decide) (by decide)⟩,
      ⟨_, rfl, issueA_traps 4 hr h hx hy hish (by decide) (by decide)⟩, List.forall_mem_nil _⟩
  · obtain ⟨r, hr⟩ := State.ready_issues h
    obtain ⟨hf, hreads⟩ := access_beyond (s := s) (n := i.cell) (b := .x) hk hp
    obtain ⟨hrun, hslot⟩ := apply_job (s.atIssue i.cell r) i.cell {} (s.xOf i) (s.yOf i)
    refine ⟨_, rfl, issue_traps_of_run false 4 hr h ?_ ?_ ?_ (by decide) (by decide)⟩
    all_goals simp only [access_atIssue s i.cell r hr]
    · have h := apply_faults_of_reads (s.atIssue i.cell r) i.cell {} (s.xOf i) (s.yOf i)
        (by rw [State.xOf, hreads]; simp) (clean_atIssue hr hy).2
      rw [State.xOf, hf, hy.1] at h
      exact congrArg lowest h
    · exact hrun
    · exact hslot

end Sys2Proof.Machine
end

section
/-! PROOF. The trig operations (R71 to R74, R110, R118): results that become pending, and results written. -/

namespace Sys2Proof.Machine

open Spec

/-! ### Results that become pending -/

/-- Where no load names a register that a trig operation will write, its results stand as they are. -/
theorem clashTrig_none (w : List (TrigDest × Word)) (loads : List (Nat × Word)) (ctr : Nat)
    (h : ∀ x ∈ w, ∀ k, x.1 = .reg k → lastAt loads k = none) : clashTrig w loads ctr = (w, 0) := by
  induction w using List.reverseRecOn with
  | nil => rfl
  | append_singleton w x ih =>
    obtain ⟨hw, hx⟩ := List.forall_mem_append.1 h
    have ih := ih hw
    unfold clashTrig at ih ⊢
    rw [List.foldl_append, ih]
    obtain ⟨d, v⟩ := x
    cases d with
    | mem a => rfl
    | reg k =>
      have hany : loads.any (fun y => y.1 == k) = false := by
        rw [List.any_eq_false]
        intro y hy
        simpa using (lastAt_none loads k).1 (hx _ (List.mem_singleton_self _) k rfl) y hy
      simp only [List.foldl_cons, List.foldl_nil, hany]
      rfl

/-- A trig operation that starts: its results in flight, and the flag t. -/
def started (c : CellSt) (w : List (TrigDest × Word)) : Eff := { trig := some ⟨w, false⟩, cc := some { c.cc with t := true } }

theorem trigEff_started (s : State) (c : CellSt) (w : List (TrigDest × Word)) (loads : List (Nat × Word))
    (h : ∀ x ∈ w, ∀ k, x.1 = .reg k → lastAt loads k = none) : trigEff s c w loads = started c w := by
  unfold trigEff started
  rw [clashTrig_none w loads _ h]

/-- A trig operation with its accesses, whatever of its results a load names. -/
theorem issue_trig_did {s : State} {i : FmtA} {q : Bool} {act : State → Done} {r : RunCtx} {w : List (TrigDest × Word)} {xa ya : AccRes}
    (hi : s.issues i.cell = some r) (h : s.ready i.cell i.stg)
    (hact : act (s.atIssue i.cell r) = apply (s.atIssue i.cell r) i.cell
      (trigEff (s.atIssue i.cell r) ((s.atIssue i.cell r).cell i.cell) w (xa.loads ++ ya.loads)) xa ya)
    (hx : s.clean xa) (hy : s.clean ya) (hal : ∀ x ∈ xa.stores ++ ya.stores, x.1 % 4 = 0) :
    ((issue s i.cell i.stg q act).cell i.cell).cc = { (s.cell i.cell).cc with t := true }
    ∧ ((∀ x ∈ w, ∀ k, x.1 = .reg k → lastAt (xa.loads ++ ya.loads) k = none) →
        Did s (issue s i.cell i.stg q act) i.cell (started (s.cell i.cell) w) xa ya) := by
  have D := issue_did s i.cell i.stg q act r
    (trigEff (s.atIssue i.cell r) ((s.atIssue i.cell r).cell i.cell) w (xa.loads ++ ya.loads)) xa ya hi h hact rfl hx hy hal
  have hcc : ((s.atIssue i.cell r).cell i.cell).cc = (s.cell i.cell).cc := by rw [s.cell_atIssue hi]
  refine ⟨D.cc.trans ?_, fun hnone => ?_⟩
  · show _ = { (s.cell i.cell).cc with t := true }
    rw [← hcc]
    rfl
  · rw [trigEff_started _ _ _ _ hnone] at D
    unfold started at D ⊢
    rwa [hcc] at D

theorem opTrig_of {op : FmtA → Instr} {w : CellSt → FmtA → List (Nat × Word)}
    (hex : ∀ i s, exec (op i) s = .next (issueTrig s i (fun c => (w c i).map (fun x => (.reg x.1, x.2)))))
    (hw : ∀ c i x, w { c with run := x } i = w c i) : opTrig op w := by
  intro i s h hx hy
  obtain ⟨r, hr⟩ := State.ready_issues h
  have hal : ∀ x ∈ (s.xOf i).stores ++ (s.yOf i).stores, x.1 % 4 = 0 := fun x hx => by
    rcases List.mem_append.1 hx with h | h
    · exact access_aligned _ _ _ _ _ x h
    · exact access_aligned _ _ _ _ _ x h
  have hwr : w ((s.atIssue i.cell r).cell i.cell) i = w (s.cell i.cell) i := by rw [s.cell_atIssue hr]; exact hw _ _ _
  obtain ⟨hcc, hdid⟩ := issue_trig_did (q := true) (xa := s.xOf i) (ya := s.yOf i)
    (w := (w (s.cell i.cell) i).map (fun x => (.reg x.1, x.2))) (act := fun v =>
      let c := v.cell i.cell
      let xa := access v i.cell c .x i.xa
      let ya := access v i.cell c .y i.ya
      apply v i.cell (trigEff v c ((w c i).map (fun x => (.reg x.1, x.2))) (xa.loads ++ ya.loads)) xa ya) hr h
    (by simp only [access_atIssue s i.cell r hr, hwr]; rfl) hx hy hal
  refine ⟨_, hex i s, hcc, fun hnone => hdid ?_⟩
  intro x hx k hk
  obtain ⟨y, hy, rfl⟩ := List.mem_map.1 hx
  cases hk
  exact hnone y hy

/-- Settles O14: each register form with its results. -/
theorem trigRegisterForms : Obligations.TrigRegisterForms := by
  unfold Obligations.TrigRegisterForms
  simp only [← evenOf_eq]
  refine ⟨?_, ?_, ?_, ?_, ?_, ?_, ?_, ?_, ?_⟩ <;> exact opTrig_of (fun _ _ => rfl) (fun _ _ _ => rfl)

/-- The destination of a memory form within the memory moves its pointer alone. -/
theorem destAccess_within {c : CellSt} {a : Access} (h : (c.rdP a.p.toNat).toNat < 16384) :
    destAccess c a = ((c.rdP a.p.toNat).toNat, pointerOnly c a) := by
  unfold destAccess pointerOnly
  dsimp only
  rw [if_neg (Nat.not_le.2 h)]

/-- What a memory form does in the state it is issued in. -/
def trigMemAct (i : FmtA) (v : CellSt → List Word) (s : State) : Done :=
  let c := s.cell i.cell
  let dst := destAccess c (if i.tm then i.xa else i.ya)
  let b : Bank := if i.tm then .x else .y
  let w := if dst.1 ≥ 16384 then [] else trigWords b i.cell dst.1 (v c)
  let xa := if i.tm then dst.2 else access s i.cell c .x i.xa
  let ya := if i.tm then access s i.cell c .y i.ya else dst.2
  apply s i.cell (trigEff s c w (xa.loads ++ ya.loads)) xa ya

theorem issueTrigMem_eq (s : State) (i : FmtA) (v : CellSt → List Word) : issueTrigMem s i v = issue s i.cell i.stg true (trigMemAct i v) := rfl

/-- The X and the Y access of a memory form: the one that names its destination moves its pointer alone. -/
def memX (s : State) (i : FmtA) : AccRes := if i.tm then pointerOnly (s.cell i.cell) i.xa else s.xOf i
def memY (s : State) (i : FmtA) : AccRes := if i.tm then s.yOf i else pointerOnly (s.cell i.cell) i.ya

/-- The place of its destination. -/
def memPlace (s : State) (i : FmtA) : Nat := ((s.cell i.cell).rdP (if i.tm then i.xa.p.toNat else i.ya.p.toNat)).toNat

theorem mem_aligned (s : State) (i : FmtA) : ∀ x ∈ (memX s i).stores ++ (memY s i).stores, x.1 % 4 = 0 := by
  have hx : ∀ x ∈ (s.xOf i).stores, x.1 % 4 = 0 := access_aligned _ _ _ _ _
  have hy : ∀ x ∈ (s.yOf i).stores, x.1 % 4 = 0 := access_aligned _ _ _ _ _
  have hnone : ∀ a, ∀ x ∈ (pointerOnly (s.cell i.cell) a).stores, x.1 % 4 = 0 := fun _ _ h => nomatch h
  unfold memX memY
  refine List.forall_mem_append.2 ⟨?_, ?_⟩
  · split
    exacts [hnone _, hx]
  · split
    exacts [hy, hnone _]

/-- A memory form within the memory puts its results in flight, to the words at its pointer. -/
theorem trigMemAct_within {s : State} {i : FmtA} {r : RunCtx} (v : CellSt → List Word) (hr : s.issues i.cell = some r)
    (hp : memPlace s i < 16384) : trigMemAct i v (s.atIssue i.cell r) = apply (s.atIssue i.cell r) i.cell
      (trigEff (s.atIssue i.cell r) ((s.atIssue i.cell r).cell i.cell) (trigWords (if i.tm then .x else .y) i.cell (memPlace s i)
        (v ((s.atIssue i.cell r).cell i.cell))) ((memX s i).loads ++ (memY s i).loads)) (memX s i) (memY s i) := by
  have hdst : destAccess ((s.atIssue i.cell r).cell i.cell) (if i.tm then i.xa else i.ya)
      = (memPlace s i, pointerOnly (s.cell i.cell) (if i.tm then i.xa else i.ya)) := by
    rw [s.cell_atIssue hr]
    unfold memPlace at hp ⊢
    cases htm : i.tm <;> rw [htm] at hp <;> exact destAccess_within hp
  unfold trigMemAct
  simp only [hdst, access_atIssue s i.cell r hr, if_neg (Nat.not_le.2 hp), ge_iff_le]
  unfold memX memY State.xOf State.yOf
  cases i.tm <;> rfl

theorem trigWords_mem (b : Bank) (n p : Nat) (l : List Word) : ∀ x ∈ trigWords b n p l, ∀ k, x.1 ≠ .reg k := by
  intro x hx k
  unfold trigWords at hx
  split at hx
  · rw [List.mem_singleton.1 hx]; exact TrigDest.noConfusion
  · rcases List.mem_pair.1 hx with rfl | rfl <;> exact TrigDest.noConfusion
  · cases hx

theorem opTrigMem_of {op : FmtA → Instr} {pair : Bool} {v : CellSt → FmtA → Word × Word} (vs : FmtA → CellSt → List Word)
    (hex : ∀ i s, exec (op i) s = .next (issueTrigMem s i (vs i)))
    (hv : ∀ i c x, vs i { c with run := x } = if pair then [(v c i).1, (v c i).2] else [(v c i).1]) : opTrigMem op pair v := by
  intro i s h c p at_ xa ya hp hx hy
  obtain ⟨r, hr⟩ := State.ready_issues h
  obtain ⟨-, hdid⟩ := issue_trig_did (q := true) hr h (trigMemAct_within (vs i) hr hp) hx hy (mem_aligned s i)
  have D := hdid (fun x hx k hk => absurd hk (trigWords_mem _ _ _ _ x hx k))
  refine ⟨_, (hex i s).trans (congrArg _ (issueTrigMem_eq s i (vs i))), ?_⟩
  have hwords : trigWords (if i.tm then .x else .y) i.cell (memPlace s i) (vs i ((s.atIssue i.cell r).cell i.cell))
      = if pair then [(.mem (at_ (2 * (p / 2))), (v c i).1), (.mem (at_ (2 * (p / 2) + 1)), (v c i).2)]
        else [(.mem (at_ p), (v c i).1)] := by
    rw [s.cell_atIssue hr, hv]
    unfold at_
    cases pair with
    | false => cases i.tm <;> rfl
    | true =>
      rw [Nat.mul_comm 2 (p / 2)]
      cases i.tm <;> rfl
  rwa [hwords] at D

/-- Settles O15: each memory form with its results. -/
theorem trigMemoryForms : Obligations.TrigMemoryForms := by
  unfold Obligations.TrigMemoryForms
  refine ⟨?_, ?_, ?_, ?_, ?_, ?_, ?_, ?_, ?_⟩ <;> exact opTrigMem_of _ (fun _ _ => rfl) (fun _ _ _ => rfl)

end Sys2Proof.Machine
end

section
/-! PROOF. The results of the trig unit written (R72 to R75), by the operation's end and by TSYNC. -/

namespace Sys2Proof.Machine

open Spec

/-! ### The results of one operation -/

/-- The registers and the words of X and Y among what an operation writes, in order. -/
def regWrites (l : List (TrigDest × Word)) : List (Nat × Word) :=
  l.filterMap (fun w => match w.1 with | .reg r => some (r, w.2) | .mem _ => none)
def memWrites (l : List (TrigDest × Word)) : List (Nat × Word) :=
  l.filterMap (fun w => match w.1 with | .mem m => some (m, w.2) | .reg _ => none)

theorem mem_memWrites {l : List (TrigDest × Word)} {a : Nat} {v : Word} : (a, v) ∈ memWrites l ↔ (TrigDest.mem a, v) ∈ l := by
  unfold memWrites
  rw [List.mem_filterMap]
  constructor
  · rintro ⟨⟨d, w⟩, hm, hd⟩
    cases d with
    | reg r => cases hd
    | mem m => cases hd; exact hm
  · exact fun h => ⟨_, h, rfl⟩

theorem State.ram_writeTrig_mem (s : State) (n a : Nat) (v : Word) : (s.writeTrig n (.mem a, v)).ram = (s.ramSetWord a v).ram :=
  (congrArg State.ram (State.blockStore_eq (s.ramSetWord a v) a v)).trans rfl

theorem State.cells_writeTrig_mem (s : State) (n a : Nat) (v : Word) : (s.writeTrig n (.mem a, v)).cells = s.cells :=
  (congrArg State.cells (State.blockStore_eq (s.ramSetWord a v) a v)).trans rfl

/-- Each register of the file holds the last result that goes to it. -/
theorem writes_f (n : Nat) (l : List (TrigDest × Word)) (s : State) (k : Nat) :
    Tab.get 0#32 ((l.foldl (fun s w => s.writeTrig n w) s).cell n).f k
      = (lastAt (regWrites l) k).getD (Tab.get 0#32 (s.cell n).f k) := by
  induction l generalizing s with
  | nil => rfl
  | cons w l ih =>
    obtain ⟨d, v⟩ := w
    rw [List.foldl_cons, ih]
    cases d with
    | mem a => rw [State.cell_congr (s.cells_writeTrig_mem n a v)]; rfl
    | reg j =>
      have hcell : ((s.writeTrig n (.reg j, v)).cell n).f = Tab.put 0#32 (s.cell n).f j v := by
        rw [State.writeTrig, State.cell_setCell_same]
      rw [hcell, Tab.get_put]
      show _ = ((lastAt (regWrites l) k).or (if j = k then some v else none)).getD _
      cases lastAt (regWrites l) k with
      | some x => rfl
      | none =>
        by_cases h : j = k
        · rw [if_pos h.symm, if_pos h]; rfl
        · rw [if_neg (fun e => h e.symm), if_neg h]; rfl

/-- Memory is as after the stores of its words alone. -/
theorem writes_ram (n : Nat) (l : List (TrigDest × Word)) (s : State) :
    (l.foldl (fun s w => s.writeTrig n w) s).ram = (storesPut s (memWrites l)).ram := by
  induction l generalizing s with
  | nil => rfl
  | cons w l ih =>
    obtain ⟨d, v⟩ := w
    rw [List.foldl_cons, ih]
    cases d with
    | reg j => exact storesPut_congr _ _ _ rfl
    | mem a => exact storesPut_congr _ _ _ (s.ram_writeTrig_mem n a v)

theorem State.ramWord_congr {s t : State} (h : t.ram = s.ram) (a : Nat) : t.ramWord a = s.ramWord a := by
  unfold State.ramWord State.ramByte
  rw [h]

/-- What the oldest operation writes: what it was to write, or nothing where it was squashed. -/
theorem State.writeBack_eq {s : State} {n : Nat} {x : TrigOp} {later : List TrigOp} (h : (s.cell n).trig = x :: later) :
    s.writeBack n = if x.squashed then s.setCell n { s.cell n with trig := later }
      else x.writes.foldl (fun s w => s.writeTrig n w) (s.setCell n { s.cell n with trig := later }) := by
  unfold State.writeBack
  simp only [h]

theorem State.writeBack_landed {s : State} {n : Nat} {x : TrigOp} {later : List TrigOp} (h : (s.cell n).trig = x :: later) :
    Landed (fun d => ∃ v, (d, v) ∈ x.writes) s (s.writeBack n) n := by
  rw [State.writeBack_eq h]
  have hset := Landed.setTrig (fun d => ∃ v, (d, v) ∈ x.writes) s n later
  split
  · exact hset
  · exact hset.trans (Landed.writes _ n x.writes (fun w hw => ⟨w.2, hw⟩) _)

/-- Settles O16: the oldest operation's results, none where it was squashed. -/
theorem trigWritesBack : Obligations.TrigWritesBack := by
  unfold Obligations.TrigWritesBack
  intro n s x later hn ht hal
  have hex : exec (.trigWriteback n) s = .next (s.writeBack n) := by
    rw [show exec (.trigWriteback n) s = .next (if n < s.cellCount then s.writeBack n else s) from rfl, if_pos hn]
  have htrig : ((s.writeBack n).cell n).trig = later := by rw [State.writeBack_trig, ht]; rfl
  have L := State.writeBack_landed ht
  have hcell : (s.setCell n { s.cell n with trig := later }).cell n = { s.cell n with trig := later } := State.cell_setCell_same _ _ _
  refine ⟨s.writeBack n, hex, htrig, fun hs => ?_, fun hs => ⟨fun k => ?_, fun a v ha => ?_, fun b hb => ?_⟩, ?_, L.others, fun hb => ?_, L.rest⟩
  · rw [State.writeBack_eq ht, if_pos hs, hcell]
    exact ⟨rfl, rfl⟩
  · rw [State.writeBack_eq ht, hs, if_neg Bool.false_ne_true, writes_f, hcell]
    rfl
  · rw [State.writeBack_eq ht, hs, if_neg Bool.false_ne_true, State.ramWord_congr (writes_ram n x.writes _)]
    exact storesPut_word _ _ a v (fun y hy => hal y.1 y.2 (mem_memWrites.1 hy)) ha
  · exact L.bytes b (fun a ⟨v, hv⟩ => hb a v hv)
  · rw [← htrig]
    exact L.cell
  · exact L.axes (fun a ⟨v, hv⟩ => hb a v hv)

end Sys2Proof.Machine
end

section
/-! PROOF. TSYNC and the flag t (R110, R111). -/

namespace Sys2Proof.Machine

open Spec

/-! ### The accesses of TSYNC -/

/-- What an access reads, and its faults, are by the pointers of the cell alone. -/
theorem access_reads_of_pointers {s t : State} {n : Nat} {c d : CellSt} (h : ∀ k, d.rdP k = c.rdP k) (b : Bank) (a : Access) :
    (access t n d b a).faults = (access s n c b a).faults ∧ (access t n d b a).reads = (access s n c b a).reads := by
  unfold access
  simp only [h]
  split
  · exact ⟨rfl, rfl⟩
  · split
    · exact ⟨rfl, rfl⟩
    · split
      · exact ⟨rfl, rfl⟩
      · split <;> exact ⟨rfl, rfl⟩

/-- What TSYNC does in the state it is issued in. -/
def tsyncAct (i : FmtA) (s : State) : Done :=
  let s := s.drainTrig i.cell
  let c := s.cell i.cell
  apply s i.cell { cc := some { c.cc with t := false } } (access s i.cell c .x i.xa) (access s i.cell c .y i.ya)

theorem exec_tsync (i : FmtA) (s : State) : exec (.tsync i) s = .next (issue s i.cell i.stg false (tsyncAct i)) := rfl

theorem State.drainTrig_landed (s : State) (n : Nat) : Landed (fun _ => True) s (s.drainTrig n) n :=
  (landed_foldl _ n (s.cell n) (fun s _ => s.writeBack n) _
    (fun _ _ u _ => State.writeBack_did _ u n (fun _ _ => trivial)) s (Fewer.refl _)).1

/-- An access that is clean at issue is clean once the trig unit has drained. -/
theorem drained_clean {s : State} {n : Nat} {r : RunCtx} (hr : s.issues n = some r) {b : Bank} {a : Access}
    (h : s.clean (access s n (s.cell n) b a)) : ((s.atIssue n r).drainTrig n).clean
      (access ((s.atIssue n r).drainTrig n) n (((s.atIssue n r).drainTrig n).cell n) b a) := by
  have L := (s.atIssue n r).drainTrig_landed n
  have hcell := L.cell
  rw [s.cell_atIssue hr] at hcell
  obtain ⟨hf, hreads⟩ := access_reads_of_pointers (s := s) (t := (s.atIssue n r).drainTrig n) (n := n) (c := s.cell n)
    (d := ((s.atIssue n r).drainTrig n).cell n) (fun k => by rw [hcell]; rfl) b a
  refine ⟨hf.trans h.1, fun x hxr hx2 => h.2 x (by rwa [← hreads]) ?_⟩
  have hx := L.flip2 x hx2
  rwa [(s.atIssue_did n r (s.issues_lt n r hr)).rest] at hx

/-- With clean accesses, TSYNC drains, its accesses take place and t is cleared. -/
theorem tsync_clears {s : State} {i : FmtA} (h : s.ready i.cell i.stg) (hx : s.clean (s.xOf i)) (hy : s.clean (s.yOf i)) :
    ∃ t, exec (.tsync i) s = .next t ∧ (t.cell i.cell).cc = { (s.cell i.cell).cc with t := false } := by
  obtain ⟨r, hr⟩ := State.ready_issues h
  have L := (s.atIssue i.cell r).drainTrig_landed i.cell
  have hcx := drained_clean hr hx
  have hcy := drained_clean hr hy
  generalize hd : (s.atIssue i.cell r).drainTrig i.cell = d at L hcx hcy
  have hcell := L.cell
  rw [s.cell_atIssue hr] at hcell
  have hcc : (d.cell i.cell).cc = (s.cell i.cell).cc := by rw [hcell]
  have hact : tsyncAct i (s.atIssue i.cell r) = apply d i.cell { cc := some { (s.cell i.cell).cc with t := false } }
      (access d i.cell (d.cell i.cell) .x i.xa) (access d i.cell (d.cell i.cell) .y i.ya) := by
    unfold tsyncAct
    rw [hd]
    dsimp only
    rw [hcc]
  have hf := apply_faults d i.cell { cc := some { (s.cell i.cell).cc with t := false } } _ _ rfl hcx hcy
  refine ⟨_, exec_tsync i s, ?_⟩
  rw [issue_advance false hr h (by rw [hact]; exact hf), hact, apply_after, State.cell_advance_seq, loopEnd_eq, apply_s, appliedState_cell]
  obtain ⟨tr, hap, -⟩ := appliedCell_eq ((d.landed i.cell { cc := some { (s.cell i.cell).cc with t := false } }
    (access d i.cell (d.cell i.cell) .x i.xa) (access d i.cell (d.cell i.cell) .y i.ya)).cell i.cell) _
      { cc := some { (s.cell i.cell).cc with t := false } } (access d i.cell (d.cell i.cell) .x i.xa) (access d i.cell (d.cell i.cell) .y i.ya)
  rw [hap]
  rfl

/-! ### A store of TSYNC to a block of a standard kernel -/

/-- An image whose one operation is a standard kernel with its parameter block at the start of cell 0's Y. -/
def blockImage : Image where
  check := 0#64
  f := 0
  timing := ⟨0, 0, 0, 0, 0, 0⟩
  mem := []
  queues := []
  ops := [{ cell := 0, entry := 0, inFrame := 0, outFrame := 0, params := 0, state := 0, prio := 0, group := none, ports := []
            kernel := .outer 0 }]
  wics := []
  rings := []
  regs := []
  safety := none
  hwr := []
  axes := []
  fbExt := []

/-- Cell 0 runs an operation with 1 in its register 0 and no trig work in flight. -/
def storingState : State :=
  { image := some blockImage, cells := [(0, { f := [(0, 1#32)], run := some { job := .op 0, cycle := 0#32 } })] }

/-- TSYNC whose Y access stores register 0 at pointer 0. -/
def storingTsync : FmtA := ⟨0, 0#3, 0#6, 0#6, 0#6, false, ⟨0#2, false, 0#4, 0#4, 0#6⟩, ⟨2#2, false, 0#4, 0#4, 0#6⟩⟩

theorem storing_ready : storingState.ready storingTsync.cell storingTsync.stg :=
  ⟨⟨_, rfl, by decide, by decide, .inl (by decide)⟩, rfl, rfl⟩

/-- The store writes word 0 of the parameter block: parameter 0 of axis 0 becomes 1. -/
theorem storing_axes : (issue storingState 0 0#3 false (tsyncAct storingTsync)).axes ≠ storingState.axes := by decide

/-- Refutes O17: with no trig work in flight, the Y access of TSYNC stores a parameter word of an axis, so the axes change. -/
theorem not_tsyncDrains : ¬ Obligations.TsyncDrains := by
  unfold Obligations.TsyncDrains
  intro h
  obtain ⟨t, ht, -, -, -, hblocks, -⟩ := h storingTsync storingState storing_ready ⟨by decide, by decide⟩ ⟨by decide, by decide⟩
    (fun _ hx => nomatch hx)
  obtain ⟨-, haxes⟩ := hblocks (fun a ha => absurd rfl ha)
  rw [exec_tsync] at ht
  cases ht
  exact storing_axes haxes

/-! ### The flag t -/

/-- A trig operation sets t, to registers or to memory. -/
theorem opTrig_flag {op : FmtA → Instr} {w : CellSt → FmtA → List (Nat × Word)} (hop : opTrig op w) {i : FmtA} {s : State}
    (h : s.ready i.cell i.stg) (hx : s.clean (s.xOf i)) (hy : s.clean (s.yOf i)) :
    ∃ t, exec (op i) s = .next t ∧ (t.cell i.cell).cc = { (s.cell i.cell).cc with t := true } := by
  obtain ⟨t, ht, hcc, -⟩ := hop i s h hx hy
  exact ⟨t, ht, hcc⟩

theorem opTrigMem_flag {op : FmtA → Instr} {pair : Bool} {v : CellSt → FmtA → Word × Word} (hop : opTrigMem op pair v) {i : FmtA}
    {s : State} (h : s.ready i.cell i.stg) (hx : s.clean (s.xOf i)) (hy : s.clean (s.yOf i)) (hp : memPlace s i < 16384) :
    ∃ t, exec (op i) s = .next t ∧ (t.cell i.cell).cc = { (s.cell i.cell).cc with t := true } := by
  have hptr : ∀ a, s.clean (pointerOnly (s.cell i.cell) a) := fun _ => ⟨rfl, fun _ h => nomatch h⟩
  obtain ⟨t, ht, D⟩ := hop i s h hp (by split; exacts [hptr _, hx]) (by split; exacts [hy, hptr _])
  exact ⟨t, ht, D.cc⟩

/-- Settles O42: t of the trig operations that start, of TSYNC, and of those squashed or suppressed. -/
theorem trigFlag : Obligations.TrigFlag := by
  unfold Obligations.TrigFlag
  refine ⟨fun i s h hx hy => ?_, fun i s h hx hy hp => ?_, fun i s h hx hy => tsync_clears h hx hy, fun i n stg s r htr h hr hsq hp => ?_⟩
  · obtain ⟨h1, h2, h3, h4, h5, h6, h7, h8, h9⟩ := trigRegisterForms
    simp only [List.forall_mem_cons]
    exact ⟨opTrig_flag h1 h hx hy, opTrig_flag h2 h hx hy, opTrig_flag h3 h hx hy, opTrig_flag h4 h hx hy, opTrig_flag h5 h hx hy,
      opTrig_flag h6 h hx hy, opTrig_flag h7 h hx hy, opTrig_flag h8 h hx hy, opTrig_flag h9 h hx hy, List.forall_mem_nil _⟩
  · obtain ⟨h1, h2, h3, h4, h5, h6, h7, h8, h9⟩ := trigMemoryForms
    simp only [List.forall_mem_cons]
    exact ⟨opTrigMem_flag h1 h hx hy hp, opTrigMem_flag h2 h hx hy hp, opTrigMem_flag h3 h hx hy hp, opTrigMem_flag h4 h hx hy hp,
      opTrigMem_flag h5 h hx hy hp, opTrigMem_flag h6 h hx hy hp, opTrigMem_flag h7 h hx hy hp, opTrigMem_flag h8 h hx hy hp,
      opTrigMem_flag h9 h hx hy hp, List.forall_mem_nil _⟩
  · have hc := s.cell_atIssue hr
    cases hsh : (s.cell n).shadow with
    | some target =>
      refine ⟨_, (cell_beforeEffect h).squashed s r target hr hp hsh, ?_⟩
      rw [State.cell_setCell_same, hc]
    | none =>
      rw [hsh] at hsq
      refine ⟨_, (cell_beforeEffect h).suppressed s r hr hp hsh (hsq.resolve_left Bool.false_ne_true), ?_⟩
      rw [State.cell_advance_seq, loopEnd_eq, hc]

end Sys2Proof.Machine
end

section
/-! PROOF. Queue operations, mailbox posts and check-value feeds (R82 to R85, R119, R133, R144, R154). -/

namespace Sys2Proof.Machine

open Spec

/-! ### What an effect reads of the state it acts on -/

theorem State.holdWords_congr {s t : State} (hi : t.image = s.image) (hm : t.mad = s.mad) (q : Nat) : t.holdWords q = s.holdWords q := by
  unfold State.holdWords State.queue State.qdesc State.qdescs
  rw [hi, hm]

theorem holdWords_atIssue {s : State} {n : Nat} {r : RunCtx} (hi : s.issues n = some r) (q : Nat) :
    (s.atIssue n r).holdWords q = s.holdWords q := by
  have I := s.atIssue_did n r (s.issues_lt n r hi)
  exact State.holdWords_congr (by rw [I.rest]) (by rw [I.rest]) q

/-- A field of a check channel's registers. -/
theorem chFld_atIssue {s : State} {n : Nat} {r : RunCtx} (hi : s.issues n = some r) (f : Fld) (hf : f.off < 16) (j : Nat)
    (hj : j < 128) :
    (s.atIssue n r).fld f (chBase j) = s.fld f (chBase j) := by
  have I := s.atIssue_did n r (s.issues_lt n r hi)
  unfold State.fld
  rw [I.regs]
  all_goals
    simp only [chBase, cellRegs, regionBase, Reg.cellIssuedIssued, Reg.cellEccCorrected]
    omega

/-- The fox of a state after an effect. -/
theorem apply_fox (s : State) (n : Nat) (e : Eff) (xa ya : AccRes) : (apply s n e xa ya).s.fox = s.fox := by
  rw [apply_s, appliedState_eq]
  exact (congrArg State.fox (s.landed_did n e xa ya).1.rest).trans rfl

/-! ### Check-value feeds -/

theorem low_byte (w : Word) : w.setWidth 8 = w.extractLsb' 0 8 := by
  apply BitVec.eq_of_toNat_eq
  simp

theorem low_word (w : BitVec 64) : w.setWidth 32 = w.extractLsb' 0 32 := by
  apply BitVec.eq_of_toNat_eq
  simp

theorem feedBytes_eq (w : Word) (wide : Bool) : feedBytes w wide
    = if wide then [w.extractLsb' 0 8, w.extractLsb' 8 8, w.extractLsb' 16 8, w.extractLsb' 24 8] else [w.extractLsb' 0 8] := by
  unfold feedBytes wordBytes
  rw [low_byte]

theorem feedEff_plain (ch : Nat) (wide : Bool) (s : State) (c : CellSt) (i : FmtA) : (feedEff ch wide s c i).Plain := by
  unfold feedEff
  split <;> exact ⟨rfl, rfl⟩

/-- A feed of a core, in the state it acts in. -/
theorem feed_atIssue {s : State} {i : FmtA} {r : RunCtx} (hi : s.issues i.cell = some r) (ch : Nat) (hch : ch < 2) (wide : Bool) :
    feed (s.atIssue i.cell r) ((s.atIssue i.cell r).cell i.cell) i ch wide = feedEff ch wide s (s.cell i.cell) i := by
  have hj : 2 * i.cell + ch < 128 := by
    have := s.issues_lt i.cell r hi
    omega
  unfold feed feedEff
  dsimp only
  rw [feedBytes_eq, s.cell_atIssue hi]
  unfold State.bit
  rw [chFld_atIssue hi _ (by decide) _ hj, chFld_atIssue hi _ (by decide) _ hj]
  rfl

theorem feed_did {op : FmtA → Instr} {i : FmtA} {s : State} {ch : Nat} {wide : Bool} (hch : ch < 2)
    (hex : exec (op i) s = .next (issueA s i (fun s c => feed s c i ch wide))) (h : s.ready i.cell i.stg) (hx : s.clean (s.xOf i))
    (hy : s.clean (s.yOf i)) :
    ∃ t, exec (op i) s = .next t ∧ Did s t i.cell (feedEff ch wide s (s.cell i.cell) i) (s.xOf i) (s.yOf i) := by
  obtain ⟨r, hr⟩ := State.ready_issues h
  refine ⟨_, hex, issueA_did s i _ _ r hr h ?_ (feedEff_plain ch wide s (s.cell i.cell) i).faults hx hy⟩
  rw [(feedEff_plain ch wide s (s.cell i.cell) i).counted]
  exact feed_atIssue hr ch hch wide

theorem crcrd_did {op : FmtA → Instr} (ch : Nat) (v : CellSt → BitVec 64)
    (hex : ∀ i s, exec (op i) s = .next (issueA s i (fun _ c => crcRead c i ch))) (hv : ∀ c, v c = if ch = 0 then c.ch0 else c.ch1) :
    opA op (fun _ c i => wrPair c i.d ((v c).extractLsb' 0 32) ((v c).extractLsb' 32 32)) :=
  opA_of (fun i c => crcRead c i ch) hex (fun i s c x => by
    unfold crcRead
    rw [toPair_eq, low_word, hv]
    rfl) (fun _ _ _ => ⟨rfl, rfl⟩)

/-- Settles O20: four feeds and two reads. -/
theorem checkValueFeeds : Obligations.CheckValueFeeds := by
  unfold Obligations.CheckValueFeeds
  intro i s h hx hy c
  exact ⟨feed_did (by decide) rfl h hx hy, feed_did (by decide) rfl h hx hy, feed_did (by decide) rfl h hx hy, feed_did (by decide) rfl h hx hy,
    crcrd_did 0 CellSt.ch0 (fun _ _ => rfl) (fun _ => rfl) i s h hx hy, crcrd_did 1 CellSt.ch1 (fun _ _ => rfl) (fun _ => rfl) i s h hx hy⟩

/-! ### Queue operations -/

/-- The run of a cell where its instruction acts. -/
theorem run_atIssue {s : State} {n : Nat} {r : RunCtx} (hi : s.issues n = some r) :
    ((s.atIssue n r).cell n).run = some { r with issued := r.issued + 1 } := by
  rw [s.cell_atIssue hi]

theorem rdF_atIssue {s : State} {n : Nat} {r : RunCtx} (hi : s.issues n = some r) (a : BitVec 6) :
    ((s.atIssue n r).cell n).rdF a = (s.cell n).rdF a := by
  rw [s.cell_atIssue hi]
  rfl

/-- The run that the cell has is the one that issues. -/
theorem State.issues_of_run {s : State} {n : Nat} {r r' : RunCtx} (hi : s.issues n = some r') (h : (s.cell n).run = some r) : r' = r := by
  have := State.issues_run hi
  rw [h] at this
  exact (Option.some.inj this).symm

/-- An instruction of a ready cell that runs `r`. -/
theorem State.ready_run {s : State} {n : Nat} {stg : BitVec 3} {r : RunCtx} (h : s.ready n stg) (hrun : (s.cell n).run = some r) :
    s.issues n = some r := by
  obtain ⟨r', hr⟩ := State.ready_issues h
  rwa [State.issues_of_run hr hrun] at hr

/-- Posts of an operation: none. -/
theorem State.closePosts_op {s : State} {n k : Nat} {r : RunCtx} (hr : (s.cell n).run = some r) (hj : r.job = .op k) :
    s.closePosts n = s := by
  unfold State.closePosts
  simp only [hr, hj]

section

variable {s : State} {i : FmtA} {r : RunCtx} (hi : s.issues i.cell = some r)
include hi

theorem qget_atIssue {q : Nat} {w : Word} (hport : portOf s (s.cell i.cell) i.b = .input q)
    (hw : (((r.tok q).map Token.words).getD [])[Tab.get 0 r.rd (i.b.toNat % 16)]? = some w) :
    qget (s.atIssue i.cell r) ((s.atIssue i.cell r).cell i.cell) i = { wr (s.cell i.cell) i.d w with
      run := some { r with rd := Tab.put 0 r.rd (i.b.toNat % 16) (Tab.get 0 r.rd (i.b.toNat % 16) + 1), issued := r.issued + 1 } } := by
  unfold qget
  rw [portOf_atIssue hi, hport, run_atIssue hi]
  have hw' : (((({ r with issued := r.issued + 1 } : RunCtx).tok q).map Token.words).getD [])[
      Tab.get 0 ({ r with issued := r.issued + 1 } : RunCtx).rd (pIdx i.b)]? = some w := hw
  simp only [hw']
  rw [s.cell_atIssue hi]
  rfl

theorem qish_atIssue {q : Nat} (hport : portOf s (s.cell i.cell) i.b = .input q) :
    qish (s.atIssue i.cell r) ((s.atIssue i.cell r).cell i.cell) i
      = { cc := some { (s.cell i.cell).cc with z := ((r.tok q).map Token.hold).getD true, n := false, u := false } } := by
  unfold qish
  rw [portOf_atIssue hi, hport, run_atIssue hi, s.cell_atIssue hi]
  rfl

theorem qcyc_atIssue {k : Nat} (hj : r.job = .op k) :
    qcyc (s.atIssue i.cell r) ((s.atIssue i.cell r).cell i.cell) i = wr (s.cell i.cell) i.d r.cycle := by
  unfold qcyc
  rw [run_atIssue hi]
  simp only [hj]
  rw [s.cell_atIssue hi]
  rfl

theorem qhold_atIssue {q : Nat} (hport : portOf s (s.cell i.cell) i.b = .output q) :
    qhold (s.atIssue i.cell r) ((s.atIssue i.cell r).cell i.cell) i
      = { run := some { r with holds := i.b.toNat % 16 :: r.holds, issued := r.issued + 1 } } := by
  unfold qhold
  rw [portOf_atIssue hi, hport, run_atIssue hi]
  rfl

/-- A queue write of a word that the guard lets through. -/
theorem qput_atIssue {q : Nat} {fp : Bool} (hport : portOf s (s.cell i.cell) i.b = .output q)
    (hfin : (fp && Fp.nonFinite ((s.cell i.cell).rdF i.a)) = false) :
    qput (s.atIssue i.cell r) ((s.atIssue i.cell r).cell i.cell) i fp
      = { run := some { r with outs := Tab.put [] r.outs (i.b.toNat % 16) (Tab.get [] r.outs (i.b.toNat % 16) ++ [(s.cell i.cell).rdF i.a])
                               issued := r.issued + 1 } } := by
  unfold qput
  dsimp only
  rw [portOf_atIssue hi, hport, run_atIssue hi, rdF_atIssue hi]
  dsimp only
  rw [hfin, if_neg Bool.false_ne_true]
  rfl

/-- One of a word that it replaces (R83, R133). -/
theorem qput_atIssue_nonfinite {q : Nat} (hport : portOf s (s.cell i.cell) i.b = .output q)
    (hfin : Fp.nonFinite ((s.cell i.cell).rdF i.a) = true) :
    qput (s.atIssue i.cell r) ((s.atIssue i.cell r).cell i.cell) i true
      = { run := some { r with outs := Tab.put [] r.outs (i.b.toNat % 16) (Tab.get [] r.outs (i.b.toNat % 16)
                                 ++ [((s.holdWords q)[(Tab.get [] r.outs (i.b.toNat % 16)).length]?).getD 0#32])
                               issued := r.issued + 1 }
          faults := [6] } := by
  unfold qput
  dsimp only
  rw [portOf_atIssue hi, hport, run_atIssue hi, rdF_atIssue hi]
  dsimp only
  rw [hfin, Bool.and_self, if_pos rfl, holdWords_atIssue hi]
  rfl

end

/-- A Format A instruction of a ready cell that runs `r`: the effect `e` with its accesses. -/
theorem issueA_did_run {s : State} {i : FmtA} {eff : State → CellSt → Eff} {r : RunCtx} (e : Eff) (h : s.ready i.cell i.stg)
    (hi : s.issues i.cell = some r) (hx : s.clean (s.xOf i)) (hy : s.clean (s.yOf i)) (he : e.faults = [])
    (heff : eff (s.atIssue i.cell r) ((s.atIssue i.cell r).cell i.cell)
      = { e with run := e.run.map (fun x => { x with issued := r.issued + 1 }) }) :
    Did s (issueA s i eff) i.cell e (s.xOf i) (s.yOf i) := issueA_did s i eff e r hi h heff he hx hy

/-- A queue write of an operation leaves no post behind. -/
theorem Did.closePosts {s t : State} {n k : Nat} {r : RunCtx} {e : Eff} {xa ya : AccRes} (D : Did s t n e xa ya)
    (hrun : (s.cell n).run = some r) (hj : (e.run.getD r).job = .op k) : t.closePosts n = t :=
  State.closePosts_op (r := { e.run.getD r with issued := r.issued + 1 }) (by rw [D.run, hrun]; rfl) hj

/-- NONFINITE by a queue write: the run is marked, and the first of an operation is raised (R83). -/
theorem State.noteNonfinite_did {s : State} {n pc : Nat} {r : RunCtx} (h : (s.cell n).run = some r) :
    ((s.noteNonfinite n pc).cell n).run = some { r with nonfinite := true }
      ∧ (r.nonfinite = false → (⟨6, 0, ⟨1, n⟩⟩ : Raising) ∈ (s.noteNonfinite n pc).fox.inflight)
      ∧ (r.nonfinite = true → (s.noteNonfinite n pc).fox = s.fox) := by
  unfold State.noteNonfinite
  simp only [h]
  cases hn : r.nonfinite with
  | true =>
    rw [if_pos rfl]
    refine ⟨?_, fun h => (nomatch h), fun _ => rfl⟩
    rw [h, ← hn]
  | false =>
    rw [if_neg Bool.false_ne_true]
    obtain ⟨hc, -, hraise⟩ := (s.setCell n { s.cell n with run := some { r with nonfinite := true } }).cellFault_set n 6 pc (by decide) (by decide)
    refine ⟨?_, fun _ => hraise, fun h => (nomatch h)⟩
    rw [State.cell_congr hc, State.cell_setCell_same]

theorem State.fox_advance (s : State) (n pc : Nat) (a : After) : (s.advance n pc a).fox = s.fox := by
  cases a <;> rfl

/-- A Format A instruction whose effect is NONFINITE, at clean accesses: the effect, the mark, the advance. -/
theorem issueA_nonfinite {s : State} {i : FmtA} {eff : State → CellSt → Eff} {r r' : RunCtx} (h : s.ready i.cell i.stg)
    (hi : s.issues i.cell = some r) (hx : s.clean (s.xOf i)) (hy : s.clean (s.yOf i))
    (heff : eff (s.atIssue i.cell r) ((s.atIssue i.cell r).cell i.cell) = { run := some r', faults := [6] }) :
    issueA s i eff = ((apply (s.atIssue i.cell r) i.cell { run := some r', faults := [6] } (s.xOf i) (s.yOf i)).s.noteNonfinite i.cell
      (s.cell i.cell).pc.toNat).advance i.cell (s.cell i.cell).pc.toNat .seq := by
  have hf : (apply (s.atIssue i.cell r) i.cell { run := some r', faults := [6] } (s.xOf i) (s.yOf i)).faults = [6] := by
    rw [apply_faults_of_reads _ _ _ _ _ (clean_atIssue hi hx).2 (clean_atIssue hi hy).2, hx.1, hy.1]
    rfl
  unfold issueA
  rw [issue_ready s i.cell i.stg false _ r hi h]
  simp only [access_atIssue s i.cell r hi, heff]
  unfold State.xOf State.yOf at hf
  rw [hf]
  rfl

/-- What it leaves of the run and of the faults. -/
theorem issueA_nonfinite_run {s : State} {i : FmtA} {eff : State → CellSt → Eff} {r r' : RunCtx} (h : s.ready i.cell i.stg)
    (hi : s.issues i.cell = some r) (hx : s.clean (s.xOf i)) (hy : s.clean (s.yOf i))
    (heff : eff (s.atIssue i.cell r) ((s.atIssue i.cell r).cell i.cell) = { run := some r', faults := [6] }) :
    ((issueA s i eff).cell i.cell).run = some { r' with nonfinite := true }
      ∧ (r'.nonfinite = false → (⟨6, 0, ⟨1, i.cell⟩⟩ : Raising) ∈ (issueA s i eff).fox.inflight)
      ∧ (r'.nonfinite = true → (issueA s i eff).fox = s.fox) := by
  have hfox : (s.atIssue i.cell r).fox = s.fox := by rw [(s.atIssue_did i.cell r (s.issues_lt i.cell r hi)).rest]
  rw [issueA_nonfinite h hi hx hy heff, State.advance_run, State.fox_advance]
  obtain ⟨h1, h2, h3⟩ := State.noteNonfinite_did (n := i.cell) (pc := (s.cell i.cell).pc.toNat)
    (apply_job (s.atIssue i.cell r) i.cell { run := some r', faults := [6] } (s.xOf i) (s.yOf i)).1
  exact ⟨h1, h2, fun hn => (h3 hn).trans ((apply_fox _ _ _ _ _).trans hfox)⟩

/-- Settles O18: each queue operation at its port. -/
theorem queueOperations : Obligations.QueueOperations := by
  unfold Obligations.QueueOperations
  refine ⟨fun i s q r w h hx hy hport hrun hw => ?_, fun i s q r h hx hy hport hrun => ?_, fun i s r h hx hy hrun => ?_,
    fun i s q k r h hx hy hport hrun hj => ?_⟩
  all_goals have hi := State.ready_run h hrun
  · exact ⟨_, rfl, issueA_did_run _ h hi hx hy rfl (qget_atIssue hi hport hw)⟩
  · exact ⟨_, rfl, issueA_did_run _ h hi hx hy rfl (qish_atIssue hi hport)⟩
  · exact ⟨_, rfl, fun k hj => issueA_did_run _ h hi hx hy rfl (qcyc_atIssue hi hj)⟩
  · intro w p now
    have put : ∀ (op : FmtA → Instr) fp, (∀ s, exec (op i) s = .next ((issueA s i (fun s c => qput s c i fp)).closePosts i.cell)) →
        (fp && Fp.nonFinite w) = false →
        ∃ t, exec (op i) s = .next t ∧ Did s t i.cell { run := some { r with outs := Tab.put [] r.outs p (now ++ [w]) } } (s.xOf i) (s.yOf i) := by
      intro op fp hex hfin
      have D := issueA_did_run (eff := fun s c => qput s c i fp) { run := some { r with outs := Tab.put [] r.outs p (now ++ [w]) } } h hi hx hy
        rfl (qput_atIssue hi hport hfin)
      exact ⟨_, (hex s).trans (congrArg _ (D.closePosts hrun hj)), D⟩
    refine ⟨put .qputr false (fun _ => rfl) rfl, ⟨_, rfl, issueA_did_run _ h hi hx hy rfl (qhold_atIssue hi hport)⟩, fun hfin => ?_, fun hfin => ?_⟩
    · refine put .qput true (fun _ => rfl) ?_
      rw [Bool.true_and, Bool.eq_false_iff, ne_eq, Fp.nonFinite_iff]
      exact hfin
    · obtain ⟨h1, h2, h3⟩ := issueA_nonfinite_run (eff := fun s c => qput s c i true) h hi hx hy
        (qput_atIssue_nonfinite hi hport ((Fp.nonFinite_iff _).2 hfin))
      have hclose := State.closePosts_op h1 hj
      refine ⟨issueA s i (fun s c => qput s c i true), (show exec (.qput i) s = .next _ from rfl).trans (congrArg _ hclose), ?_, ?_, h2, h3⟩
      · rw [h1]
        exact congrArg some (Tab.get_put_same _ _ _ _)
      · rw [h1]
        rfl

end Sys2Proof.Machine
end

section
/-! PROOF. The mailbox posts of a work item (R83, R144, R154): collected by its queue writes, sent when they are complete. -/

namespace Sys2Proof

variable {α : Type}

theorem Tab.mem_drop {t : List (Nat × α)} {k : Nat} {x : Nat × α} (h : x ∈ Tab.drop t k) : x ∈ t ∧ x.1 ≠ k := by
  induction t with
  | nil => cases h
  | cons e t ih =>
    obtain ⟨j, v⟩ := e
    unfold Tab.drop at h
    split at h
    · obtain ⟨hm, hne⟩ := ih h
      exact ⟨List.mem_cons_of_mem _ hm, hne⟩
    · rename_i hj
      rcases List.mem_cons.1 h with rfl | h
      · exact ⟨List.mem_cons_self, hj⟩
      · obtain ⟨hm, hne⟩ := ih h
        exact ⟨List.mem_cons_of_mem _ hm, hne⟩

theorem Tab.ins_split (t : List (Nat × α)) (k : Nat) (v : α) : ∃ a b, t = a ++ b ∧ Tab.ins t k v = a ++ (k, v) :: b := by
  induction t with
  | nil => exact ⟨[], [], rfl, rfl⟩
  | cons e t ih =>
    obtain ⟨j, w⟩ := e
    unfold Tab.ins
    split
    · exact ⟨[], (j, w) :: t, rfl, rfl⟩
    · obtain ⟨a, b, ht, hi⟩ := ih
      exact ⟨(j, w) :: a, b, by rw [ht]; rfl, by rw [hi]; rfl⟩

/-- Where a key stands in a table it was written in: once, between entries that the table had. -/
theorem Tab.put_split [DecidableEq α] (d : α) (t : List (Nat × α)) (k : Nat) (v : α) (hv : v ≠ d) :
    ∃ a b, Tab.put d t k v = a ++ (k, v) :: b ∧ ∀ x ∈ a ++ b, x ∈ t ∧ x.1 ≠ k := by
  obtain ⟨a, b, hd, hi⟩ := Tab.ins_split (Tab.drop t k) k v
  refine ⟨a, b, by rw [Tab.put, if_neg hv, hi], fun x hx => Tab.mem_drop (by rwa [hd])⟩

theorem Tab.get_drop_same (d : α) (t : List (Nat × α)) (k : Nat) : Tab.get d (Tab.drop t k) k = d := by
  simp [Tab.get]

end Sys2Proof

namespace Sys2Proof.Machine

open Spec

/-! ### Posts that go out -/

/-- The words that a mailbox post of port `p` of a channel has. -/
def State.postLen (s : State) (w : WorkItem) (p : Nat) : Nat :=
  ((s.qdesc (((s.wic w.ch).bind (fun d => d.ports[p]?)).getD 0)).map QDesc.words).getD 0

theorem State.postLen_congr {s t : State} (h : t.image = s.image) (w : WorkItem) (p : Nat) : t.postLen w p = s.postLen w p := by
  unfold State.postLen State.qdesc State.qdescs State.wic State.wics
  rw [h]

theorem State.closePost_short {s : State} {n : Nat} {w : WorkItem} {p : Nat × List Word} (h : p.2.length < s.postLen w p.1) :
    s.closePost n w p = s := if_pos h

theorem closePosts_short {s : State} {n : Nat} {w : WorkItem} {l : List (Nat × List Word)} (h : ∀ x ∈ l, x.2.length < s.postLen w x.1) :
    l.foldl (fun s p => s.closePost n w p) s = s := by
  induction l with
  | nil => rfl
  | cons x l ih =>
    obtain ⟨hx, hl⟩ := List.forall_mem_cons.1 h
    rw [List.foldl_cons, State.closePost_short hx, ih hl]

/-- A complete post of a cell whose outputs are defined goes to the command processor, and its collection starts afresh. -/
theorem State.closePost_full {s : State} {n p q : Nat} {w : WorkItem} {ws : List Word} {d : WicDesc} (hd : s.wic w.ch = some d)
    (hp : d.ports[p]? = some q) (hlen : ((s.qdesc q).map QDesc.words).getD 0 = ws.length) (hne : ws ≠ [])
    (hdef : s.cellUndef n = false) :
    (s.closePost n w (p, ws)).image = s.image
    ∧ ((s.closePost n w (p, ws)).cell n).run = (s.cell n).run.map (fun r => { r with post := Tab.drop r.post p })
    ∧ ∃ x, (s.closePost n w (p, ws)).host.waiting = s.host.waiting ++ [x] ∧ x.cmd.port = .workItem w.ch ∧ x.cmd.opcode = 0x0D13
        ∧ x.cmd.tag = BitVec.ofNat 16 w.tag ∧ x.cmd.apply = ws.headD 0#32 ∧ x.item = some ⟨w.ch, w.tag, q, ⟨ws.headD 0#32, ws.tail⟩⟩ := by
  cases ws with
  | nil => exact absurd rfl hne
  | cons a ws =>
    have hu : ∀ c, (s.setCell n c).cellUndef n = false := fun c => by rw [← hdef]; rfl
    unfold State.closePost
    simp only [hd, Option.bind_some, hp, Option.getD_some, hlen, Nat.lt_irrefl, if_false, hu, Bool.false_eq_true]
    refine ⟨rfl, ?_, _, rfl, rfl, rfl, rfl, rfl, rfl⟩
    exact congrArg CellSt.run (State.cell_setCell_same _ _ _)

/-- The posts of a work item's run, one of them complete. -/
theorem closePosts_full {s : State} {n p q : Nat} {r : RunCtx} {w : WorkItem} {ws : List Word} {d : WicDesc} {a b : List (Nat × List Word)}
    (hrun : (s.cell n).run = some r) (hj : r.job = .item w) (hpost : r.post = a ++ (p, ws) :: b)
    (hshort : ∀ x ∈ a ++ b, x.2.length < s.postLen w x.1) (hd : s.wic w.ch = some d) (hp : d.ports[p]? = some q)
    (hlen : ((s.qdesc q).map QDesc.words).getD 0 = ws.length) (hne : ws ≠ []) (hdef : s.cellUndef n = false) :
    s.closePosts n = s.closePost n w (p, ws) := by
  obtain ⟨ha, hb⟩ := List.forall_mem_append.1 hshort
  obtain ⟨himg, -⟩ := State.closePost_full hd hp hlen hne hdef
  rw [State.closePosts_item hrun hj, hpost, List.foldl_append, closePosts_short ha, List.foldl_cons]
  exact closePosts_short (fun x hx => by rw [State.postLen_congr himg]; exact hb x hx)

/-! ### Queue writes to a mailbox -/

section

variable {s : State} {i : FmtA} {r : RunCtx} (hi : s.issues i.cell = some r)
include hi

theorem qput_mailbox_atIssue {q : Nat} {fp : Bool} (hport : portOf s (s.cell i.cell) i.b = .mailbox q)
    (hfin : (fp && Fp.nonFinite ((s.cell i.cell).rdF i.a)) = false) :
    qput (s.atIssue i.cell r) ((s.atIssue i.cell r).cell i.cell) i fp
      = { run := some { r with post := Tab.put [] r.post (i.b.toNat % 16) (Tab.get [] r.post (i.b.toNat % 16) ++ [(s.cell i.cell).rdF i.a])
                               issued := r.issued + 1 } } := by
  unfold qput
  dsimp only
  rw [portOf_atIssue hi, hport, run_atIssue hi, rdF_atIssue hi]
  dsimp only
  rw [hfin, if_neg Bool.false_ne_true]
  rfl

theorem qput_mailbox_atIssue_nonfinite {q : Nat} (hport : portOf s (s.cell i.cell) i.b = .mailbox q)
    (hfin : Fp.nonFinite ((s.cell i.cell).rdF i.a) = true) :
    qput (s.atIssue i.cell r) ((s.atIssue i.cell r).cell i.cell) i true
      = { run := some { r with post := Tab.put [] r.post (i.b.toNat % 16) (Tab.get [] r.post (i.b.toNat % 16)
                                 ++ [((s.holdWords q)[(Tab.get [] r.post (i.b.toNat % 16)).length]?).getD 0#32])
                               issued := r.issued + 1 }
          faults := [6] } := by
  unfold qput State.heldPost
  dsimp only
  rw [portOf_atIssue hi, hport, run_atIssue hi, rdF_atIssue hi]
  dsimp only
  rw [hfin, Bool.and_self, if_pos rfl, holdWords_atIssue hi]
  rfl

end

/-- The parts of a state that a mailbox post is sent by. -/
structure SameHost (s t : State) : Prop where
  image : t.image = s.image
  host : t.host = s.host
  undef : t.undef = s.undef

theorem SameHost.trans {s t u : State} (h : SameHost s t) (g : SameHost t u) : SameHost s u :=
  ⟨g.image.trans h.image, g.host.trans h.host, g.undef.trans h.undef⟩

theorem OnlyIssue.sameHost {s t : State} (h : OnlyIssue s t) : SameHost s t := by
  unfold OnlyIssue at h
  rw [h]
  exact ⟨rfl, rfl, rfl⟩

theorem Did.sameHost {s t : State} {n : Nat} {e : Eff} {xa ya : AccRes} (D : Did s t n e xa ya) : SameHost s t :=
  OnlyIssue.sameHost D.rest

theorem SameHost.apply (s : State) (n : Nat) (e : Eff) (xa ya : AccRes) : SameHost s (apply s n e xa ya).s := by
  have L := (s.landed_did n e xa ya).1
  have hl : SameHost s (s.landed n e xa ya) := by
    refine ⟨?_, ?_, ?_⟩ <;> rw [L.rest]
  rw [apply_s]
  exact hl.trans (appliedState_eq _ _ _ _ _).sameHost

theorem SameHost.setFld (s : State) (f : Fld) (v b : Nat) : SameHost s (s.setFld f v b) := ⟨rfl, rfl, rfl⟩
theorem SameHost.raise (s : State) (c l k j : Nat) : SameHost s (s.raise c l k j) := ⟨rfl, rfl, rfl⟩
theorem SameHost.setCell (s : State) (n : Nat) (c : CellSt) : SameHost s (s.setCell n c) := ⟨rfl, rfl, rfl⟩

theorem SameHost.cellFault (s : State) (n code pc : Nat) : SameHost s (s.cellFault n code pc) := by
  unfold State.cellFault
  refine SameHost.trans (SameHost.trans ?_ (.setFld _ _ _ _)) (.raise _ _ _ _ _)
  split
  · exact (SameHost.setFld _ _ _ _).trans (.setFld _ _ _ _)
  · exact ⟨rfl, rfl, rfl⟩

theorem SameHost.noteNonfinite (s : State) (n pc : Nat) : SameHost s (s.noteNonfinite n pc) := by
  unfold State.noteNonfinite
  split
  · exact ⟨rfl, rfl, rfl⟩
  · split
    · exact ⟨rfl, rfl, rfl⟩
    · exact (SameHost.setCell _ _ _).trans (.cellFault _ _ _ _)

theorem SameHost.advance (s : State) (n pc : Nat) (a : After) : SameHost s (s.advance n pc a) := by
  rw [(Moves.advance n pc a s).rest]
  exact ⟨rfl, rfl, rfl⟩

theorem sameHost_nonfinite {s : State} {i : FmtA} {eff : State → CellSt → Eff} {r r' : RunCtx} (h : s.ready i.cell i.stg)
    (hi : s.issues i.cell = some r) (hx : s.clean (s.xOf i)) (hy : s.clean (s.yOf i))
    (heff : eff (s.atIssue i.cell r) ((s.atIssue i.cell r).cell i.cell) = { run := some r', faults := [6] }) :
    SameHost s (issueA s i eff) := by
  have hv : SameHost s (s.atIssue i.cell r) := by
    rw [(s.atIssue_did i.cell r (s.issues_lt i.cell r hi)).rest]
    exact ⟨rfl, rfl, rfl⟩
  rw [issueA_nonfinite h hi hx hy heff]
  exact ((hv.trans (.apply _ _ _ _ _)).trans (.noteNonfinite _ _ _)).trans (.advance _ _ _ _)

/-- A mailbox port of a work item's cell. -/
theorem portOf_mailbox {s : State} {c : CellSt} {b : BitVec 6} {q : Nat} {r : RunCtx} {w : WorkItem} (hrun : c.run = some r)
    (hj : r.job = .item w) (h : portOf s c b = .mailbox q) : ∃ d, s.wic w.ch = some d ∧ d.ports[b.toNat % 16]? = some q := by
  unfold portOf at h
  simp only [hrun, hj] at h
  cases hd : s.wic w.ch with
  | none => rw [hd] at h; cases h
  | some d =>
    rw [hd, Option.bind_some] at h
    refine ⟨d, rfl, ?_⟩
    split at h
    · rename_i hq
      cases h
      exact hq
    · cases h

/-- What a queue write leaves collected, sent where it is complete. -/
theorem collects_of {op : Instr} {i : FmtA} {s t : State} {q len : Nat} {r r' : RunCtx} {w : WorkItem} {v : Word} {plain : Bool}
    (hex : exec op s = .next (t.closePosts i.cell)) (hrun : (t.cell i.cell).run = some r') (hj : r'.job = .item w)
    (hpost : r'.post = Tab.put [] r.post (i.b.toNat % 16) (Tab.get [] r.post (i.b.toNat % 16) ++ [v])) (hsame : SameHost s t)
    (hdid : plain = true → Did s t i.cell { run := some { r with
      post := Tab.put [] r.post (i.b.toNat % 16) (Tab.get [] r.post (i.b.toNat % 16) ++ [v]) } } (s.xOf i) (s.yOf i))
    {d : WicDesc} (hd : s.wic w.ch = some d) (hq : d.ports[i.b.toNat % 16]? = some q)
    (hshort : ∀ x ∈ r.post, x.1 ≠ i.b.toNat % 16 → x.2.length < s.postLen w x.1)
    (hlen : (s.qdesc q).map QDesc.words = some len) (hdef : s.cellUndef i.cell = false) : collects op i s q len r w v plain := by
  obtain ⟨a, b, hput, hothers⟩ := Tab.put_split [] r.post (i.b.toNat % 16) (Tab.get [] r.post (i.b.toNat % 16) ++ [v]) (by simp)
  have hplen : t.postLen w (i.b.toNat % 16) = len := by
    rw [State.postLen_congr hsame.image]
    unfold State.postLen
    rw [hd, Option.bind_some, hq, Option.getD_some, hlen, Option.getD_some]
  have hab : ∀ x ∈ a ++ b, x.2.length < t.postLen w x.1 := by
    intro x hx
    obtain ⟨hm, hne⟩ := hothers x hx
    rw [State.postLen_congr hsame.image]
    exact hshort x hm hne
  have hwic : t.wic w.ch = some d := (State.wic_congr hsame.image _).trans hd
  have hqd : ((t.qdesc q).map QDesc.words).getD 0 = len := by
    have : t.qdesc q = s.qdesc q := by unfold State.qdesc State.qdescs; rw [hsame.image]
    rw [this, hlen, Option.getD_some]
  have hundef : t.cellUndef i.cell = false := by
    unfold State.cellUndef at hdef ⊢
    rw [hsame.undef]
    exact hdef
  refine ⟨fun hlt => ⟨t, ?_, ?_, hdid⟩, fun heq => ⟨_, hex, ?_⟩⟩
  · rw [hex, State.closePosts_item hrun hj, hpost, hput]
    refine congrArg _ (closePosts_short ?_)
    obtain ⟨ha, hb⟩ := List.forall_mem_append.1 hab
    exact List.forall_mem_append.2 ⟨ha, List.forall_mem_cons.2 ⟨by rw [hplen]; exact hlt, hb⟩⟩
  · rw [hrun]
    exact congrArg some ((congrArg (fun l => Tab.get [] l _) hpost).trans (Tab.get_put_same _ _ _ _))
  · obtain ⟨-, hrun', x, hwait, hx⟩ := State.closePost_full (n := i.cell) hwic hq (hqd.trans heq.symm) (by simp) hundef
    rw [closePosts_full hrun hj (hpost.trans hput) hab hwic hq (hqd.trans heq.symm) (by simp) hundef]
    refine ⟨?_, x, by rw [hwait, hsame.host], hx⟩
    rw [hrun', hrun]
    exact congrArg some (Tab.get_drop_same _ _ _)

/-- Settles O19: QPUTR, and QPUT with a word that is finite or not. -/
theorem workItemPosts : Obligations.WorkItemPosts := by
  unfold Obligations.WorkItemPosts
  intro i s q r w h hx hy hport hrun hj hdef hshort len hlen v k
  have hi := State.ready_run h hrun
  obtain ⟨d, hd, hq⟩ := portOf_mailbox hrun hj hport
  have plainly : ∀ (op : FmtA → Instr) fp, (∀ s, exec (op i) s = .next ((issueA s i (fun s c => qput s c i fp)).closePosts i.cell)) →
      (fp && Fp.nonFinite v) = false → collects (op i) i s q len r w v true := by
    intro op fp hex hfin
    have D := issueA_did_run (eff := fun s c => qput s c i fp) { run := some { r with
      post := Tab.put [] r.post (i.b.toNat % 16) (Tab.get [] r.post (i.b.toNat % 16) ++ [v]) } } h hi hx hy rfl (qput_mailbox_atIssue hi hport hfin)
    have hrun' := D.run
    rw [hrun] at hrun'
    exact collects_of (hex s) hrun' hj rfl D.sameHost (fun _ => D) hd hq hshort hlen hdef
  refine ⟨plainly .qputr false (fun _ => rfl) rfl, fun hfin => plainly .qput true (fun _ => rfl) ?_, fun hfin => ?_⟩
  · rw [Bool.true_and, Bool.eq_false_iff, ne_eq, Fp.nonFinite_iff]
    exact hfin
  · have heff := qput_mailbox_atIssue_nonfinite hi hport ((Fp.nonFinite_iff _).2 hfin)
    obtain ⟨hrun', -, -⟩ := issueA_nonfinite_run (eff := fun s c => qput s c i true) h hi hx hy heff
    exact collects_of rfl hrun' hj rfl (sameHost_nonfinite (eff := fun s c => qput s c i true) h hi hx hy heff) (fun h => nomatch h) hd hq
      hshort hlen hdef

end Sys2Proof.Machine
end

section
/-! PROOF. What the end of a job leaves of the graph's plan: the image, the next-cycle numbers of the operations, the records of the work-item
channels (R49, R129, R136, R139, R145). -/

namespace Sys2Proof.Machine

open Spec

/-- No cell has changed, nor the image, a next-cycle number or a channel. -/
structure KeepsPlan (s t : State) : Prop where
  cells : t.cells = s.cells
  image : t.image = s.image
  next : ∀ k, (t.op k).next = (s.op k).next
  chan : ∀ k, t.chan k = s.chan k

/-- A change of neither a cell, the image, an operation nor a channel. -/
theorem KeepsPlan.of_same {s t : State} (c : t.cells = s.cells) (i : t.image = s.image) (o : t.mad.ops = s.mad.ops)
    (h : t.mad.chans = s.mad.chans) : KeepsPlan s t :=
  ⟨c, i, fun k => by unfold State.op; rw [o], fun k => by unfold State.chan; rw [h]⟩

theorem KeepsPlan.refl (s : State) : KeepsPlan s s := .of_same rfl rfl rfl rfl
theorem KeepsPlan.trans {s t u : State} (h : KeepsPlan s t) (g : KeepsPlan t u) : KeepsPlan s u :=
  ⟨g.cells.trans h.cells, g.image.trans h.image, fun k => (g.next k).trans (h.next k), fun k => (g.chan k).trans (h.chan k)⟩
theorem KeepsPlan.ite {s t u : State} {c : Prop} [Decidable c] (h : KeepsPlan s t) (g : KeepsPlan s u) :
    KeepsPlan s (if c then t else u) := by split <;> assumption
/-- One more step, taken where a condition holds. -/
theorem KeepsPlan.step {s t u : State} {c : Prop} [Decidable c] (h : KeepsPlan s t) (g : KeepsPlan t u) :
    KeepsPlan s (if c then u else t) := .ite (h.trans g) h
theorem KeepsPlan.foldl {α : Type} (f : State → α → State) (hf : ∀ s x, KeepsPlan s (f s x)) (l : List α) (s : State) :
    KeepsPlan s (l.foldl f s) := by
  induction l generalizing s with
  | nil => exact .refl s
  | cons x r ih => exact (hf s x).trans (ih _)

/-! ### Registers, faults and memory -/

theorem KeepsPlan.incFld (s : State) (f : Fld) (b : Nat) : KeepsPlan s (s.incFld f b) := .of_same rfl rfl rfl rfl
theorem KeepsPlan.setFld (s : State) (f : Fld) (v b : Nat) : KeepsPlan s (s.setFld f v b) := .of_same rfl rfl rfl rfl
theorem KeepsPlan.raise (s : State) (c l k i : Nat) : KeepsPlan s (s.raise c l k i) := .of_same rfl rfl rfl rfl
theorem KeepsPlan.ramWrite (s : State) (a : Nat) (bs : List Byte) : KeepsPlan s (s.ramWrite a bs) := .of_same rfl rfl rfl rfl
theorem KeepsPlan.drewN (s : State) (n : Nat) : KeepsPlan s (s.drewN n) := .of_same rfl rfl rfl rfl

theorem KeepsPlan.cellFault (s : State) (n code pc : Nat) : KeepsPlan s (s.cellFault n code pc) := by
  unfold State.cellFault
  exact ((KeepsPlan.step (.refl s) ((KeepsPlan.setFld _ _ _ _).trans (.setFld _ _ _ _))).trans (.setFld _ _ _ _)).trans (.raise _ _ _ _ _)

theorem KeepsPlan.correct (s : State) (ws : List Nat) : KeepsPlan s (s.correct ws) := by
  rw [State.correct_counts]
  refine KeepsPlan.trans (t := { s with flip1 := s.flip1.filter (fun x => !ws.contains x) }) (.of_same rfl rfl rfl rfl)
    (.foldl _ (fun s x => ?_) _ _)
  unfold Machine.countEcc
  split <;> exact .incFld _ _ _

theorem KeepsPlan.correctHead (s : State) (q : Nat) : KeepsPlan s (s.correctHead q) := by
  unfold State.correctHead
  split
  · exact .ite (.refl s) (.correct _ _)
  · exact .refl s

/-! ### Turns of the arbiters -/

theorem KeepsPlan.cellTurn (s : State) (n : Nat) : KeepsPlan s (s.cellTurn n) := .of_same rfl rfl rfl rfl
theorem KeepsPlan.regionTurn (s : State) (r p : Nat) (l : Bool) : KeepsPlan s (s.regionTurn r p l) := .of_same rfl rfl rfl rfl
theorem KeepsPlan.chipTurn (s : State) (p : Nat) : KeepsPlan s (s.chipTurn p) := .of_same rfl rfl rfl rfl
theorem KeepsPlan.regionHop (s : State) (a b : Nat) (l : Bool) : KeepsPlan s (s.regionHop a b l) :=
  .ite (.refl s) ((KeepsPlan.chipTurn s a).trans (.regionTurn _ _ _ _))
theorem KeepsPlan.crossTurn (s : State) (b q : Nat) (l : Bool) : KeepsPlan s (s.crossTurn b q l) :=
  .ite (.refl s) ((KeepsPlan.regionTurn s _ _ l).trans (.regionHop _ _ _ _))

/-! ### Queues -/

theorem KeepsPlan.setQueue (s : State) (q : Nat) (x : QueueSt) : KeepsPlan s (s.setQueue q x) := .of_same rfl rfl rfl rfl

/-- An operation's state written, its next-cycle number as it is. -/
theorem KeepsPlan.setOp (s : State) (k : Nat) (x : OpSt) (h : x.next = (s.op k).next) : KeepsPlan s (s.setOp k x) := by
  refine ⟨rfl, rfl, fun j => ?_, fun _ => rfl⟩
  rw [State.op_setOp]
  split
  · rename_i e
    rw [h, e]
  · rfl

theorem KeepsPlan.qfull (s : State) (q : Nat) : KeepsPlan s (s.qfull q) := (KeepsPlan.incFld s Reg.madEvtQfull 0).trans (.raise _ _ _ _ _)

theorem KeepsPlan.trim (s : State) (q : Nat) : KeepsPlan s (s.trim q) := by
  unfold State.trim
  split
  · exact .refl s
  · exact .ite (.refl s) (.setQueue _ _ _)

theorem KeepsPlan.sendFrame (s : State) (o : Output) : KeepsPlan s (s.sendFrame o) := by
  unfold State.sendFrame
  exact .ite (.refl s) (.of_same rfl rfl rfl rfl)

theorem KeepsPlan.noteToken (s : State) (d : QDesc) (t : Token) : KeepsPlan s (s.noteToken d t) := by
  unfold State.noteToken
  exact .step (.step (.step (.step (.refl s) (.of_same rfl rfl rfl rfl)) (.of_same rfl rfl rfl rfl)) (.sendFrame _ _))
    (.of_same rfl rfl rfl rfl)

theorem KeepsPlan.push (s : State) (q : Nat) (t : Token) : KeepsPlan s (s.push q t) := by
  unfold State.push
  split
  · exact .refl s
  · refine .ite (.refl s) (.ite (.setQueue _ _ _) (.ite ?_ ?_))
    · exact (KeepsPlan.setQueue _ _ _).trans (.qfull _ _)
    · exact (((KeepsPlan.setQueue _ _ _).trans (.ramWrite _ _ _)).trans (.noteToken _ _ _)).trans (.trim _ _)

theorem KeepsPlan.pushOut (s : State) (d : OpDesc) (c : Word) (q : Nat) (w : Option (List Word)) (p : Bool) :
    KeepsPlan s (s.pushOut d c q w p) := by
  unfold State.pushOut
  cases w with
  | none => exact (KeepsPlan.crossTurn s _ _ _).trans (.push _ _ _)
  | some ws => exact (KeepsPlan.crossTurn s _ _ _).trans (.push _ _ _)

theorem KeepsPlan.countLate (s : State) (r : RunCtx) : KeepsPlan s (s.countLate r) := .ite (.incFld _ _ _) (.refl s)

theorem KeepsPlan.noteOp (s : State) (e : Nat × OpDesc) : KeepsPlan s (s.noteOp e) := by
  unfold State.noteOp
  refine .ite ?_ (.step (.step (.refl s) (.setOp _ _ _ (by rfl))) ?_)
  · split
    · exact .refl s
    · exact .setOp _ _ _ (by rfl)
  · exact ((KeepsPlan.setOp _ _ _ (by rfl)).trans (.setQueue _ _ _)).trans (.qfull _ _)

theorem KeepsPlan.note (s : State) : KeepsPlan s s.note :=
  (KeepsPlan.foldl _ KeepsPlan.noteOp s.numberedOps s).trans (.of_same rfl rfl rfl rfl)

/-! ### Inputs and outputs of an operation -/

theorem KeepsPlan.copyIn (n at_ : Nat) (l : List Word) (s : State) : KeepsPlan s (s.copyIn n at_ l) := by
  induction l generalizing s at_ with
  | nil => exact .refl s
  | cons w r ih => exact (KeepsPlan.ramWrite s _ _).trans (ih _ _)

theorem KeepsPlan.outOf (s : State) (n len : Nat) (w : Option (List Word)) : KeepsPlan s (s.outOf n len w).1 := by
  unfold State.outOf
  split
  · exact .drewN _ _
  · exact .refl s

theorem KeepsPlan.padWords (s : State) (ws : List Word) (len : Nat) : KeepsPlan s (s.padWords ws len).2 := by
  unfold State.padWords
  split
  · exact .refl s
  · exact .of_same rfl rfl rfl rfl

theorem KeepsPlan.endPort (s : State) (d : OpDesc) (ctx : RunCtx) (p : Nat × PortDesc) (at_ : Nat) : KeepsPlan s (s.endPort d ctx p at_).1 := by
  unfold State.endPort
  dsimp only
  split
  · exact .ite (.padWords _ _ _) (((KeepsPlan.padWords _ _ _).trans (.outOf _ _ _ _)).trans (.pushOut _ _ _ _ _ _))
  · exact .ite (.correct _ _) (((KeepsPlan.correct _ _).trans (.outOf _ _ _ _)).trans (.pushOut _ _ _ _ _ _))

theorem KeepsPlan.endPorts (d : OpDesc) (ctx : RunCtx) (l : List (Nat × PortDesc)) (s : State) (at_ : Nat) :
    KeepsPlan s (s.endPorts d ctx l at_).1 := by
  induction l generalizing s at_ with
  | nil => exact .refl s
  | cons p r ih => exact (KeepsPlan.endPort s d ctx p at_).trans (ih _ _)

theorem KeepsPlan.kernelOut (s : State) (d : OpDesc) (ctx : RunCtx) (outs : List (Nat × Option (List Word))) (p : Nat × PortDesc) :
    KeepsPlan s (s.kernelOut d ctx outs p).1 := by
  unfold State.kernelOut
  exact .ite (.refl s) ((KeepsPlan.outOf _ _ _ _).trans (.pushOut _ _ _ _ _ _))

theorem KeepsPlan.kernelOuts (d : OpDesc) (ctx : RunCtx) (outs : List (Nat × Option (List Word))) (l : List (Nat × PortDesc)) (s : State) :
    KeepsPlan s (s.kernelOuts d ctx outs l).1 := by
  induction l generalizing s with
  | nil => exact .refl s
  | cons p r ih => exact (KeepsPlan.kernelOut s d ctx outs p).trans (ih _)

/-! ### Steps of the standard kernels -/

theorem KeepsPlan.setAxis (s : State) (a : Nat) (x : AxisSt) : KeepsPlan s (s.setAxis a x) := .of_same rfl rfl rfl rfl

theorem KeepsPlan.innerAxis (s : State) (r : RunCtx) (a : Nat) : KeepsPlan s (s.innerAxis r a).1 := by
  unfold State.innerAxis
  split
  · exact .refl s
  · dsimp only
    generalize (s.axis a).inner _ = o
    exact KeepsPlan.trans (.of_same (by rfl) (by rfl) (by rfl) (by rfl)) (.foldl _ (fun s c => .raise s (0x10 + c) 0 4 a) _ _)

theorem KeepsPlan.innerAxes (r : RunCtx) (l : List Nat) (s : State) : KeepsPlan s (s.innerAxes r l).1 := by
  induction l generalizing s with
  | nil => exact .refl s
  | cons a l ih => exact (KeepsPlan.innerAxis s r a).trans (ih _)

theorem KeepsPlan.outerAxis (s : State) (r : RunCtx) (a : Nat) : KeepsPlan s (s.outerAxis r a).1 := by
  unfold State.outerAxis
  split
  · exact .refl s
  · exact (KeepsPlan.setAxis _ _ _).trans (.foldl _ (fun s c => .raise s _ _ _ _) _ _)

/-! ### Inputs retired -/

/-- The inputs of an operation retired: its next-cycle number passes the cycle where it did not before (R139); the rest of the plan stands. -/
theorem State.retireInputs_plan (s : State) (k : Nat) (d : OpDesc) (c : Word) :
    (s.retireInputs k d c).cells = s.cells ∧ (s.retireInputs k d c).image = s.image
      ∧ (cycGe c (s.op k).next = true → ((s.retireInputs k d c).op k).next = c + 1#32) := by
  unfold State.retireInputs
  have hpop : KeepsPlan s (d.inputs.foldl (fun s p => s.popUpTo p.2.queue c) s) := .foldl _ (fun s p => .setQueue s _ _) _ s
  generalize d.inputs.foldl (fun s p => s.popUpTo p.2.queue c) s = u at hpop
  dsimp only
  generalize hv : (if cycGe c (u.op k).next then u.setOp k { u.op k with next := c + 1#32 } else u) = v
  have htrim : KeepsPlan v (d.inputs.foldl (fun s p => s.trim p.2.queue) v) := .foldl _ (fun s p => .trim s _) _ v
  have hcells : v.cells = u.cells ∧ v.image = u.image := by
    rw [← hv]
    split <;> exact ⟨rfl, rfl⟩
  refine ⟨htrim.cells.trans (hcells.1.trans hpop.cells), htrim.image.trans (hcells.2.trans hpop.image), fun hc => ?_⟩
  rw [htrim.next, ← hv, hpop.next, if_pos hc, State.op_setOp, if_pos rfl]

/-! ### A cell freed -/

/-- A cell freed: no loop, no job in its prefetch slot, and the job that stood there, if any, in its stead; the plan stands. -/
structure Frees (n : Nat) (s t : State) : Prop where
  image : t.image = s.image
  next : ∀ k, (t.op k).next = (s.op k).next
  chan : ∀ k, t.chan k = s.chan k
  loops : (t.cell n).loops = []
  trig : (t.cell n).trig = (s.cell n).trig
  slot : (t.cell n).slot = none
  idle : (s.cell n).slot = none → (t.cell n).run = none
  job : ∀ x, (s.cell n).slot = some x → (∀ k, x.job = .op k → (s.opDesc k).isSome = true) → (t.cell n).run.map RunCtx.job = some x.job

theorem Frees.before {n : Nat} {s t u : State} (g : Frees n s t) (h : KeepsPlan t u) : Frees n s u := by
  have hc : u.cell n = t.cell n := State.cell_congr h.cells n
  exact ⟨h.image.trans g.image, fun k => (h.next k).trans (g.next k), fun k => (h.chan k).trans (g.chan k), by rw [hc, g.loops],
    by rw [hc, g.trig], by rw [hc, g.slot], fun hs => by rw [hc, g.idle hs], fun x hx hk => by rw [hc, g.job x hx hk]⟩

/-- A job that starts on a cell runs on it, where the image has it. -/
theorem State.start_runs (s : State) (n : Nat) (j : Job) : (s.start n j).image = s.image
    ∧ (∀ k, ((s.start n j).op k).next = (s.op k).next) ∧ (∀ k, (s.start n j).chan k = s.chan k)
    ∧ ((s.start n j).cell n).slot = (s.cell n).slot
    ∧ ((∀ k, j = .op k → (s.opDesc k).isSome = true) → ((s.start n j).cell n).run.map RunCtx.job = some j) := by
  unfold State.start
  split
  · rename_i k
    cases hd : s.opDesc k with
    | none =>
      refine ⟨rfl, fun _ => rfl, fun _ => rfl, rfl, fun h => ?_⟩
      have := h k rfl
      rw [hd] at this
      cases this
    | some d =>
      have hin : KeepsPlan s (d.inputs.foldl (fun s p => (s.crossTurn (blockOfCell d.cell) p.2.queue d.loop).correctHead p.2.queue) (s.cellTurn n)) :=
        (KeepsPlan.cellTurn s n).trans (.foldl _ (fun s _ => (KeepsPlan.crossTurn s _ _ _).trans (.correctHead _ _)) _ _)
      dsimp only
      generalize d.inputs.foldl (fun s p => (s.crossTurn (blockOfCell d.cell) p.2.queue d.loop).correctHead p.2.queue) (s.cellTurn n) = u
        at hin
      have h := hin.trans (.copyIn d.cell d.inFrame ((d.inputs.filter (fun p => !p.2.qop)).flatMap
        (fun p => ((u.headTok p.2.queue).map Token.words).getD [])) u)
      have hcopy : u.copyInputs d = u.copyIn d.cell d.inFrame ((d.inputs.filter (fun p => !p.2.qop)).flatMap
        (fun p => ((u.headTok p.2.queue).map Token.words).getD [])) := rfl
      rw [← hcopy] at h
      generalize u.copyInputs d = v at h
      have hcell : v.cell n = s.cell n := State.cell_congr h.cells n
      refine ⟨h.image, fun j => ?_, h.chan, ?_, fun _ => ?_⟩
      · exact (KeepsPlan.setOp _ _ _ (by rfl)).next j |>.trans (h.next j)
      · rw [State.cell_setOp, State.cell_setCell_same, hcell]
        rfl
      · rw [State.cell_setOp, State.cell_setCell_same]
        rfl
  · refine ⟨rfl, fun _ => rfl, fun _ => rfl, ?_, fun _ => ?_⟩ <;> rw [State.cell_setCell_same] <;> rfl

theorem State.freeCell_frees (s : State) (n : Nat) : Frees n s (s.freeCell n) := by
  have F := s.freeCell_freed n
  suffices h : (s.freeCell n).image = s.image ∧ (∀ k, ((s.freeCell n).op k).next = (s.op k).next) ∧ (∀ k, (s.freeCell n).chan k = s.chan k)
      ∧ ((s.freeCell n).cell n).slot = none ∧ (∀ x, (s.cell n).slot = some x → (∀ k, x.job = .op k → (s.opDesc k).isSome = true) →
        ((s.freeCell n).cell n).run.map RunCtx.job = some x.job) by
    obtain ⟨himg, hnext, hchan, hslot, hjob⟩ := h
    exact ⟨himg, hnext, hchan, F.loops, F.trig, hslot, F.idle, hjob⟩
  unfold State.freeCell
  have hc : ((s.setCell n { s.cell n with run := none, loops := [], shadow := none }).cellTurn n).cell n
      = { s.cell n with run := none, loops := [], shadow := none } := State.cell_setCell_same _ _ _
  have hsame : ((s.setCell n { s.cell n with run := none, loops := [], shadow := none }).cellTurn n).image = s.image
      ∧ ((s.setCell n { s.cell n with run := none, loops := [], shadow := none }).cellTurn n).mad = s.mad := ⟨rfl, rfl⟩
  generalize (s.setCell n { s.cell n with run := none, loops := [], shadow := none }).cellTurn n = u at hc hsame
  obtain ⟨himg, hmad⟩ := hsame
  have hop : ∀ k, u.op k = s.op k := fun k => by unfold State.op; rw [hmad]
  have hch : ∀ k, u.chan k = s.chan k := fun k => by unfold State.chan; rw [hmad]
  unfold State.takeSlot
  cases hs : (s.cell n).slot with
  | none =>
    simp only [hc, hs]
    exact ⟨himg, fun k => by rw [hop], hch, trivial, fun _ h => (nomatch h)⟩
  | some r =>
    simp only [hc, hs]
    obtain ⟨h1, h2, h3, h4, h5⟩ := State.start_runs
      (u.setCell n { s.cell n with run := none, loops := [], shadow := none, slot := none }) n r.job
    refine ⟨h1.trans himg, fun k => (h2 k).trans (by rw [State.op_setCell, hop]), fun k => (h3 k).trans (hch k), ?_, fun x hx hk => ?_⟩
    · rw [h4, State.cell_setCell_same]
    · cases hx
      exact h5 (fun k hj => (congrArg Option.isSome (State.opDesc_congr (s := s) (t := u.setCell n _) himg k)).trans (hk k hj))

/-- A job of cell `n` ends: the cell is freed from a state `u` that has what `P` says, with the cells and the image as they were. -/
def EndsJob (n : Nat) (P : State → Prop) (s t : State) : Prop := ∃ u, u.cells = s.cells ∧ u.image = s.image ∧ Frees n u t ∧ P u

/-! ### The end of a work item -/

theorem KeepsPlan.delayInsert (s : State) (w : WorkItem) : KeepsPlan s (s.delayInsert w).1 := by
  unfold State.delayInsert
  dsimp only
  split
  · exact .refl s
  · split
    · exact .refl s
    · exact .of_same rfl rfl rfl rfl

/-- The records of a channel laid in their queue: the count of those written alone changes. -/
theorem State.layCompl_plan (s : State) (ch k : Nat) :
    KeepsPlan (s.setChan ch { s.chan ch with complWr := (s.chan ch).complWr + k }) (s.layCompl ch k) := by
  unfold State.layCompl
  dsimp only
  split
  · exact .refl _
  · exact .foldl _ (fun s _ => .ramWrite s _ _) _ _

theorem State.complete_down {s : State} {w : WorkItem} (fault status issued n : Nat) (h : s.recordsDown w.ch = true) :
    s.complete w fault status issued n = s := if_pos h

/-- The completion record of a work item (R145). -/
theorem State.complete_did {s : State} {w : WorkItem} (fault status issued n : Nat) (h : s.recordsDown w.ch = false) :
    (s.complete w fault status issued n).image = s.image
      ∧ ((s.complete w fault status issued n).chan w.ch).compl
        = (s.chan w.ch).compl ++ [⟨w.tag, fault, status, BitVec.ofNat 32 issued, s.time.ns, n⟩]
      ∧ ∀ k, k ≠ w.ch → (s.complete w fault status issued n).chan k = s.chan k := by
  have hc : s.complete w fault status issued n = (s.setChan w.ch { s.chan w.ch with compl := (s.chan w.ch).compl ++
      [⟨w.tag, fault, status, BitVec.ofNat 32 issued, s.time.ns, n⟩] }).layCompl w.ch 1 := if_neg (by rw [h]; exact Bool.false_ne_true)
  have K := (s.setChan w.ch { s.chan w.ch with compl := (s.chan w.ch).compl ++
    [⟨w.tag, fault, status, BitVec.ofNat 32 issued, s.time.ns, n⟩] }).layCompl_plan w.ch 1
  rw [hc]
  refine ⟨K.image, ?_, fun k hk => ?_⟩
  · rw [K.chan, State.chan_setChan, if_pos rfl, State.chan_setChan, if_pos rfl]
  · rw [K.chan, State.chan_setChan, if_neg hk, State.chan_setChan, if_neg hk]

/-- The delay list of a region is full for a work item that is to be armed again (R151). -/
def State.rearmFull (s : State) (w : WorkItem) : Prop :=
  w.period ≠ 0 ∧ s.regionDown (s.wicRegion w.ch) = false ∧ 1024 ≤ (s.delay (s.wicRegion w.ch)).ents.length

theorem State.delayInsert_full (s : State) (w : WorkItem) : (s.delayInsert w).2 = false
    ↔ s.regionDown (s.wicRegion w.ch) = false ∧ 1024 ≤ (s.delay (s.wicRegion w.ch)).ents.length := by
  unfold State.delayInsert
  dsimp only
  cases hd : s.regionDown (s.wicRegion w.ch) with
  | true => simp
  | false =>
    by_cases hlen : 1024 ≤ (s.delay (s.wicRegion w.ch)).ents.length
    · simp [hlen]
    · simp [hlen]

theorem State.delayInsert_rest (s : State) (w : WorkItem) : (s.delayInsert w).1 = { s with mad := (s.delayInsert w).1.mad } := by
  unfold State.delayInsert
  dsimp only
  split
  · rfl
  · split <;> rfl

/-- Where a work item ends it is armed again first, in a state `v` in which there was `room` or not (R151). -/
theorem State.endItem_rearms (s : State) (n : Nat) (w : WorkItem) (ctx : RunCtx) : ∃ (v : State) (room : Bool),
    s.endItem n w ctx 0 = (v.complete w 0 (if ctx.status = 0 && !room then 1 else ctx.status) ctx.issued n).freeCell n
      ∧ KeepsPlan s v ∧ v.recordsDown w.ch = s.recordsDown w.ch ∧ v.time = s.time ∧ (room = false ↔ s.rearmFull w) := by
  unfold State.endItem State.rearmFull
  by_cases hp : w.period = 0
  · exact ⟨s, true, by simp [hp], .refl s, rfl, rfl, by simp [hp]⟩
  · have hrest := s.delayInsert_rest { w with expiry := w.expiry + w.period }
    refine ⟨(s.delayInsert { w with expiry := w.expiry + w.period }).1, (s.delayInsert { w with expiry := w.expiry + w.period }).2,
      by simp [hp], .delayInsert _ _, ?_, ?_, ?_⟩
    · unfold State.recordsDown State.wic State.wics State.blockDown State.regionDown State.downUnits
      rw [hrest]
    · rw [hrest]
    · rw [State.delayInsert_full]
      exact ⟨fun h => ⟨hp, h⟩, fun h => h.2⟩

/-- The completion record of a work item that ends, in the state its cell is freed from (R145, R151). -/
def Recorded (n : Nat) (w : WorkItem) (ctx : RunCtx) (s u : State) : Prop :=
  s.recordsDown w.ch = false →
    (s.rearmFull w ∧ ctx.status = 0 → (u.chan w.ch).compl = (s.chan w.ch).compl ++ [⟨w.tag, 0, 1, BitVec.ofNat 32 ctx.issued, s.time.ns, n⟩])
    ∧ (¬ s.rearmFull w ∨ ctx.status ≠ 0 →
      (u.chan w.ch).compl = (s.chan w.ch).compl ++ [⟨w.tag, 0, ctx.status, BitVec.ofNat 32 ctx.issued, s.time.ns, n⟩])
    ∧ ∀ k, k ≠ w.ch → u.chan k = s.chan k

theorem State.endItem_ends (s : State) (n : Nat) (w : WorkItem) (ctx : RunCtx) :
    EndsJob n (Recorded n w ctx s) s (s.endItem n w ctx 0).note := by
  obtain ⟨v, room, hend, hplan, hdown, hns, hroom⟩ := State.endItem_rearms s n w ctx
  rw [hend]
  refine ⟨v.complete w 0 (if ctx.status = 0 && !room then 1 else ctx.status) ctx.issued n,
    (KeepsCells.complete v w _ _ _ n).cells.trans hplan.cells, ?_, (State.freeCell_frees _ n).before (.note _), fun hd => ?_⟩
  · cases hd : v.recordsDown w.ch with
    | true => rw [State.complete_down _ _ _ _ hd, hplan.image]
    | false => exact (State.complete_did _ _ _ _ hd).1.trans hplan.image
  · obtain ⟨-, hrec, hothers⟩ := State.complete_did (n := n) 0 (if ctx.status = 0 && !room then 1 else ctx.status) ctx.issued (hdown.trans hd)
    rw [hplan.chan, hns] at hrec
    refine ⟨fun ⟨hfull, hst⟩ => ?_, fun hnot => ?_, fun k hk => (hothers k hk).trans (hplan.chan k)⟩
    · rw [hrec, hroom.2 hfull, hst]
      rfl
    · have hstatus : (if ctx.status = 0 && !room then 1 else ctx.status) = ctx.status := by
        rcases hnot with hnot | hnot
        · rw [Bool.eq_true_of_not_eq_false (mt hroom.1 hnot), Bool.not_true, Bool.and_false, if_neg Bool.false_ne_true]
        · rw [decide_eq_false hnot, Bool.false_and, if_neg Bool.false_ne_true]
      rw [hrec, hstatus]

end Sys2Proof.Machine
end

section
/-! PROOF. END (R49, R72, R91, R129, R136, R139, R145): the trig unit drains, the accesses take place, the job ends and the cell is freed. -/

namespace Sys2Proof.Machine

open Spec

/-! ### The end of a job -/

/-- An operation ends: its next-cycle number passes the cycle where it did not before (R139). -/
def Advances (k : Nat) (c : Word) (s u : State) : Prop := cycGe c (s.op k).next = true → (u.op k).next = c + 1#32

/-- An operation ends after changes that keep the plan. -/
theorem KeepsPlan.endsOp {s v : State} (h : KeepsPlan s v) (n k : Nat) (d : OpDesc) (ctx : RunCtx) :
    EndsJob n (Advances k ctx.cycle s) s (((v.countLate ctx).retireInputs k d ctx.cycle).freeCell n).note := by
  have hv := h.trans (.countLate v ctx)
  obtain ⟨hcells, himg, hnext⟩ := (v.countLate ctx).retireInputs_plan k d ctx.cycle
  refine ⟨_, hcells.trans hv.cells, himg.trans hv.image, (State.freeCell_frees _ n).before (.note _), fun hc => hnext ?_⟩
  rw [hv.next]
  exact hc

theorem State.drainTrig_idle {s : State} {n : Nat} (h : (s.cell n).trig = []) : s.drainTrig n = s := by
  unfold State.drainTrig
  rw [h]
  rfl

theorem State.faultAt_eq (s : State) (n code pc : Nat) :
    ∃ first : Bool, s.faultAt n code pc = ((if first then s.cellFault n code pc else s).drainTrig n).abandon n code := ⟨_, rfl⟩

/-- An operation abandoned for a fault, where no trig work is in flight (R89, R136). -/
theorem KeepsPlan.faultAt_op {s v : State} (h : KeepsPlan s v) {n k : Nat} {d : OpDesc} {ctx : RunCtx} (code pc : Nat)
    (hrun : (s.cell n).run = some ctx) (hj : ctx.job = .op k) (hd : s.opDesc k = some d) (htrig : (s.cell n).trig = []) :
    EndsJob n (Advances k ctx.cycle s) s (v.faultAt n code pc) := by
  obtain ⟨first, he⟩ := v.faultAt_eq n code pc
  rw [he]
  have hv : KeepsPlan s (if first = true then v.cellFault n code pc else v) := h.step (.cellFault _ _ _ _)
  generalize (if first = true then v.cellFault n code pc else v) = v at hv
  have hcell := State.cell_congr hv.cells n
  rw [State.drainTrig_idle (by rw [hcell, htrig])]
  unfold State.abandon
  simp only [hcell, hrun, hj, State.opDesc_congr hv.image, hd]
  exact (hv.trans (.ite (.refl v) (.foldl _ (fun s p => .pushOut s _ _ _ _ _) _ v))).endsOp n k d ctx

theorem State.endCustom_ends (s : State) (n k : Nat) (d : OpDesc) (ctx : RunCtx) (pc : Nat) :
    EndsJob n (Advances k ctx.cycle s) s (s.endCustom n k d ctx pc) := by
  unfold State.endCustom
  exact KeepsPlan.endsOp ((KeepsPlan.endPorts _ _ _ _ _).step (.cellFault _ _ _ _)) n k d ctx

theorem KeepsPlan.endKernel {s v : State} (h : KeepsPlan s v) (n k : Nat) (d : OpDesc) (ctx : RunCtx) (pc : Nat)
    (outs : List (Nat × Option (List Word))) : EndsJob n (Advances k ctx.cycle s) s (Machine.endKernel n k d ctx pc (v, outs)) := by
  unfold Machine.endKernel
  exact ((h.trans (.kernelOuts _ _ _ _ _)).step (.cellFault _ _ _ _)).endsOp n k d ctx

theorem State.kernelStep_ends {s : State} {n k : Nat} {d : OpDesc} {ctx : RunCtx} (pc : Nat)
    {f : State → State × List (Nat × Option (List Word))} (hf : ∀ s, KeepsPlan s (f s).1) (hrun : (s.cell n).run = some ctx)
    (hj : ctx.job = .op k) (hd : s.opDesc k = some d) (htrig : (s.cell n).trig = []) :
    EndsJob n (Advances k ctx.cycle s) s (s.kernelStep n k d ctx pc f) := by
  unfold State.kernelStep
  dsimp only
  split
  · exact (KeepsPlan.correct _ _).faultAt_op 1 pc hrun hj hd htrig
  · exact ((KeepsPlan.correct _ _).trans (hf _)).endKernel n k d ctx pc _

/-- An END of an operation of its own kernel or of a standard one (R136, R139). -/
theorem State.endJob_op {s : State} {n k : Nat} {d : OpDesc} {ctx : RunCtx} (pc : Nat) (hrun : (s.cell n).run = some ctx)
    (hj : ctx.job = .op k) (hd : s.opDesc k = some d) (htrig : (s.cell n).trig = []) :
    EndsJob n (Advances k ctx.cycle s) s (s.endJob n pc) := by
  unfold State.endJob
  simp only [hrun, hj, hd]
  split
  · exact s.endCustom_ends n k d ctx pc
  · exact s.kernelStep_ends pc (fun s => .innerAxes ctx _ s) hrun hj hd htrig
  · exact s.kernelStep_ends pc (fun s => .outerAxis s ctx _) hrun hj hd htrig

theorem State.endJob_noOp {s : State} {n k : Nat} {ctx : RunCtx} (pc : Nat) (hrun : (s.cell n).run = some ctx)
    (hj : ctx.job = .op k) (hd : s.opDesc k = none) : EndsJob n (fun _ => True) s (s.endJob n pc) := by
  unfold State.endJob
  simp only [hrun, hj, hd]
  exact ⟨s, rfl, rfl, s.freeCell_frees n, trivial⟩

theorem State.endJob_item {s : State} {n : Nat} {w : WorkItem} {ctx : RunCtx} (pc : Nat) (hrun : (s.cell n).run = some ctx)
    (hj : ctx.job = .item w) : EndsJob n (Recorded n w ctx s) s (s.endJob n pc) := by
  unfold State.endJob
  simp only [hrun, hj]
  exact s.endItem_ends n w ctx

/-! ### The state a job ends in -/

theorem AtIssue.onlyIssue {s t : State} {n : Nat} {r : RunCtx} (h : AtIssue s t n r) : OnlyIssue s t := by
  unfold OnlyIssue
  rw [h.rest]

theorem Landed.onlyIssue {P : TrigDest → Prop} {s t : State} {n : Nat} (h : Landed P s t n) : OnlyIssue s t := by
  unfold OnlyIssue
  rw [h.rest]

theorem OnlyIssue.apply (s : State) (n : Nat) (e : Eff) (xa ya : AccRes) : OnlyIssue s (apply s n e xa ya).s := by
  rw [apply_s]
  exact (s.landed_did n e xa ya).1.onlyIssue.trans (appliedState_eq _ _ _ _ _)

/-- The state in which the job of an END ends: no trig operation is in flight, and the job and its slot are as they were. -/
structure AtEnd (s e : State) (n : Nat) (r : RunCtx) : Prop where
  rest : OnlyIssue s e
  run : (e.cell n).run = some { r with issued := r.issued + 1 }
  trig : (e.cell n).trig = []
  slot : (e.cell n).slot = (s.cell n).slot

/-- Without an effect that starts one, no trig operation is in flight after an instruction that found none. -/
theorem apply_trig_nil {s : State} {n : Nat} {e : Eff} (xa ya : AccRes) (he : e.trig = none) (h : (s.cell n).trig = []) :
    ((apply s n e xa ya).s.cell n).trig = [] := by
  obtain ⟨tr, hap, hlen⟩ := appliedCell_eq ((s.landed n e xa ya).cell n) (s.landed n e xa ya).freeCtr e xa ya
  have hfew := (s.landed_did n e xa ya).2.len
  rw [h] at hfew
  rw [he] at hlen
  rw [apply_s, appliedState_cell, hap]
  exact List.eq_nil_of_length_eq_zero (hlen.trans (Nat.le_zero.1 hfew))

theorem endAct_atEnd {s : State} {i : FmtA} {r : RunCtx} (hr : s.issues i.cell = some r) :
    AtEnd s (endAct i (s.atIssue i.cell r)).s i.cell r := by
  have hc := s.cell_atIssue hr
  have I := s.atIssue_did i.cell r (s.issues_lt i.cell r hr)
  have L := (s.atIssue i.cell r).drainTrig_landed i.cell
  obtain ⟨-, htrig, hrun, hslot⟩ := (s.atIssue i.cell r).drainTrig_drained i.cell
  unfold endAct
  dsimp only
  generalize (s.atIssue i.cell r).drainTrig i.cell = d at L htrig hrun hslot
  obtain ⟨hrun', hslot'⟩ := apply_job d i.cell {} (access d i.cell (d.cell i.cell) .x i.xa) (access d i.cell (d.cell i.cell) .y i.ya)
  refine ⟨(I.onlyIssue.trans L.onlyIssue).trans (.apply _ _ _ _ _), ?_, apply_trig_nil _ _ rfl htrig, ?_⟩
  · rw [hrun', hrun, hc]
    rfl
  · rw [hslot', hslot, hc]

theorem endAct_clean {s : State} {i : FmtA} {r : RunCtx} (hr : s.issues i.cell = some r) (hx : s.clean (s.xOf i)) (hy : s.clean (s.yOf i)) :
    (endAct i (s.atIssue i.cell r)).faults = [] :=
  apply_faults _ _ _ _ _ rfl (drained_clean hr hx) (drained_clean hr hy)

theorem State.withinBudget_atIssue {s : State} {n : Nat} {r : RunCtx} (hr : s.issues n = some r)
    (hb : s.fld Reg.cellCtrlOpBudget (cellRegs n) = 0 ∨ r.issued + 1 ≤ s.fld Reg.cellCtrlOpBudget (cellRegs n)) :
    (s.atIssue n r).overBudget n r = false := by
  unfold State.overBudget
  rw [State.budget_atIssue hr]
  rcases hb with hb | hb
  · simp [hb]
  · have : ¬ s.fld Reg.cellCtrlOpBudget (cellRegs n) ≤ r.issued := by omega
    simp [this]

/-- END ends the job where the cell is ready and the accesses are clean. -/
theorem exec_end {s : State} {i : FmtA} {r : RunCtx} (h : s.ready i.cell i.stg) (hrun : (s.cell i.cell).run = some r)
    (hx : s.clean (s.xOf i)) (hy : s.clean (s.yOf i)) :
    exec (.endOp i) s = .next ((endAct i (s.atIssue i.cell r)).s.endJob i.cell (s.cell i.cell).pc.toNat) := by
  have hr := State.ready_run h hrun
  obtain ⟨⟨r', hr', hw1, hw2, hb⟩, hsh, hsup⟩ := h
  cases hr.symm.trans hr'
  have hc := s.cell_atIssue hr
  have hshadow : ((s.atIssue i.cell r).cell i.cell).shadow = none := by rw [hc, hsh]
  have hstage : ((s.atIssue i.cell r).cell i.cell).suppressed i.stg.toNat = false := by rw [hc]; exact hsup
  have hword : (insWords i.cell (s.cell i.cell).pc.toNat).any (fun a => (s.atIssue i.cell r).flip2.contains a) = false := by
    rw [(s.atIssue_did i.cell r (s.issues_lt i.cell r hr)).rest]
    simp [insWords, hw1, hw2]
  have hbudget := State.withinBudget_atIssue hr hb
  have hfaults := endAct_clean hr hx hy
  have hcode : lowest ([] ++ (endAct i (s.atIssue i.cell r)).faults) = 0 := by rw [hfaults]; rfl
  unfold endAct at hcode ⊢
  unfold State.atIssue at hshadow hstage hword hbudget hcode ⊢
  simp only [exec, execEndOp, hr, hshadow, hstage, hword, hbudget, Bool.false_eq_true, if_false, hcode, if_true]

/-! ### The first part of O21 -/

/-- What an END leaves of its cell, whatever its job is (R49, R72). -/
theorem AtEnd.ends {s e t : State} {n : Nat} {r : RunCtx} {P : State → Prop} (A : AtEnd s e n r) (h : EndsJob n P e t) :
    (t.cell n).loops = [] ∧ (t.cell n).trig = [] ∧ (t.cell n).slot = none ∧ ((s.cell n).slot = none → (t.cell n).run = none)
      ∧ (∀ x, (s.cell n).slot = some x → (∀ k, x.job = .op k → (s.opDesc k).isSome = true) → (t.cell n).run.map RunCtx.job = some x.job) := by
  obtain ⟨u, hcells, himg, F, -⟩ := h
  have hcell := State.cell_congr hcells n
  have hslot : (u.cell n).slot = (s.cell n).slot := by rw [hcell, A.slot]
  have himage : u.image = s.image := himg.trans A.rest.sameHost.image
  exact ⟨F.loops, by rw [F.trig, hcell, A.trig], F.slot, fun hs => F.idle (hslot.trans hs), fun x hx hk =>
    F.job x (hslot.trans hx) (fun k hj => by rw [State.opDesc_congr himage]; exact hk k hj)⟩

/-- The parts of the graph's state that an instruction leaves while it is issued. -/
theorem OnlyIssue.mad {s t : State} (h : OnlyIssue s t) : t.mad = s.mad := by rw [h]
theorem OnlyIssue.op {s t : State} (h : OnlyIssue s t) (k : Nat) : t.op k = s.op k := by unfold State.op; rw [h.mad]
theorem OnlyIssue.chan {s t : State} (h : OnlyIssue s t) (k : Nat) : t.chan k = s.chan k := by unfold State.chan; rw [h.mad]
theorem OnlyIssue.recordsDown {s t : State} (h : OnlyIssue s t) (k : Nat) : t.recordsDown k = s.recordsDown k := by rw [h]; rfl
theorem OnlyIssue.rearmFull {s t : State} (h : OnlyIssue s t) (w : WorkItem) : t.rearmFull w ↔ s.rearmFull w := by rw [h]; exact Iff.rfl
theorem OnlyIssue.opDesc {s t : State} (h : OnlyIssue s t) (k : Nat) : t.opDesc k = s.opDesc k := State.opDesc_congr h.sameHost.image k

theorem AtEnd.recorded {s e t : State} {n : Nat} {r : RunCtx} {w : WorkItem} (A : AtEnd s e n r)
    (h : EndsJob n (Recorded n w { r with issued := r.issued + 1 } e) e t) : Recorded n w { r with issued := r.issued + 1 } s t := by
  obtain ⟨u, -, -, F, hrec⟩ := h
  intro hd
  obtain ⟨h1, h2, h3⟩ := hrec ((A.rest.recordsDown w.ch).trans hd)
  have htime : e.time = s.time := by rw [A.rest]
  rw [A.rest.chan, htime, A.rest.rearmFull] at h1 h2
  refine ⟨fun hf => by rw [F.chan]; exact h1 hf, fun hf => by rw [F.chan]; exact h2 hf, fun k hk => ?_⟩
  rw [F.chan, h3 k hk, A.rest.chan]

theorem AtEnd.advances {s e t : State} {n k : Nat} {r : RunCtx} {c : Word} (A : AtEnd s e n r) (h : EndsJob n (Advances k c e) e t) :
    Advances k c s t := by
  obtain ⟨u, -, -, F, hnext⟩ := h
  intro hc
  rw [F.next]
  exact hnext (by rw [A.rest.op]; exact hc)

/-- An END of any job. -/
theorem end_ends {s : State} {i : FmtA} {r : RunCtx} (h : s.ready i.cell i.stg) (hx : s.clean (s.xOf i)) (hy : s.clean (s.yOf i))
    (hrun : (s.cell i.cell).run = some r) : ∃ t, exec (.endOp i) s = .next t
      ∧ (t.cell i.cell).loops = [] ∧ (t.cell i.cell).trig = [] ∧ (t.cell i.cell).slot = none
      ∧ ((s.cell i.cell).slot = none → (t.cell i.cell).run = none)
      ∧ (∀ x, (s.cell i.cell).slot = some x → (∀ k, x.job = .op k → (s.opDesc k).isSome = true) →
        (t.cell i.cell).run.map RunCtx.job = some x.job)
      ∧ (∀ w, r.job = .item w → Recorded i.cell w { r with issued := r.issued + 1 } s t)
      ∧ (∀ k d, r.job = .op k → s.opDesc k = some d → Advances k r.cycle s t) := by
  have A := endAct_atEnd (i := i) (State.ready_run h hrun)
  refine ⟨_, exec_end h hrun hx hy, ?_⟩
  generalize (endAct i (s.atIssue i.cell r)).s = e at A
  cases hj : r.job with
  | item w =>
    have E := e.endJob_item (s.cell i.cell).pc.toNat A.run hj
    obtain ⟨h1, h2, h3, h4, h5⟩ := A.ends E
    exact ⟨h1, h2, h3, h4, h5, fun w' hw => by cases hw; exact A.recorded E, fun _ _ h => nomatch h⟩
  | op k =>
    cases hd : s.opDesc k with
    | none =>
      obtain ⟨h1, h2, h3, h4, h5⟩ := A.ends (e.endJob_noOp (s.cell i.cell).pc.toNat A.run hj ((A.rest.opDesc k).trans hd))
      exact ⟨h1, h2, h3, h4, h5, fun _ h => (nomatch h), fun k' d hk hd' => by cases hk; cases hd.symm.trans hd'⟩
    | some d =>
      have E := State.endJob_op (s.cell i.cell).pc.toNat A.run hj ((A.rest.opDesc k).trans hd) A.trig
      obtain ⟨h1, h2, h3, h4, h5⟩ := A.ends E
      exact ⟨h1, h2, h3, h4, h5, fun _ h => (nomatch h), fun k' d' hk hd' => by cases hk; exact A.advances E⟩

end Sys2Proof.Machine
end

section
/-! PROOF. The output token of an operation of its own kernel that ends (R129, R130, R136), and what a cell without a next job leaves of the
queues. -/

namespace Sys2Proof.Machine

open Spec

/-! ### What leaves the queues -/

/-- Nothing has changed that tells which tokens a queue takes, but for the errors of memory. -/
structure SameGraph (s t : State) : Prop where
  image : t.image = s.image
  mad : t.mad = s.mad
  power : t.power = s.power
  undef : t.undef = s.undef

theorem SameGraph.trans {s t u : State} (h : SameGraph s t) (g : SameGraph t u) : SameGraph s u :=
  ⟨g.image.trans h.image, g.mad.trans h.mad, g.power.trans h.power, g.undef.trans h.undef⟩

theorem SameGraph.queue {s t : State} (h : SameGraph s t) (q : Nat) : t.queue q = s.queue q := by unfold State.queue; rw [h.mad]
theorem SameGraph.blockDown {s t : State} (h : SameGraph s t) (b : Nat) : t.blockDown b = s.blockDown b := by
  unfold State.blockDown State.regionDown State.downUnits
  rw [h.power]
theorem SameGraph.cellUndef {s t : State} (h : SameGraph s t) (n : Nat) : t.cellUndef n = s.cellUndef n := by
  unfold State.cellUndef
  rw [h.undef]

theorem State.qdesc_congr {s t : State} (h : t.image = s.image) (q : Nat) : t.qdesc q = s.qdesc q := by
  unfold State.qdesc State.qdescs
  rw [h]
theorem State.consumer_congr {s t : State} (h : t.image = s.image) (q : Nat) : t.consumer q = s.consumer q := by
  unfold State.consumer State.numberedOps State.ops
  rw [h]

theorem AtIssue.sameGraph {s t : State} {n : Nat} {r : RunCtx} (h : AtIssue s t n r) : SameGraph s t := by
  refine ⟨?_, ?_, ?_, ?_⟩ <;> rw [h.rest]

theorem SameGraph.incFld (s : State) (f : Fld) (b : Nat) : SameGraph s (s.incFld f b) := ⟨rfl, rfl, rfl, rfl⟩

theorem SameGraph.countEcc (s : State) (a : Nat) : SameGraph s (Machine.countEcc s a) := by
  unfold Machine.countEcc
  split <;> exact .incFld _ _ _

theorem SameGraph.countEccs (l : List Nat) (s : State) : SameGraph s (l.foldl Machine.countEcc s) := by
  induction l generalizing s with
  | nil => exact ⟨rfl, rfl, rfl, rfl⟩
  | cons x l ih => exact (SameGraph.countEcc s x).trans (ih _)

theorem SameGraph.correct (s : State) (ws : List Nat) : SameGraph s (s.correct ws) := by
  rw [State.correct_counts]
  exact SameGraph.trans (t := { s with flip1 := s.flip1.filter (fun x => !ws.contains x) }) ⟨rfl, rfl, rfl, rfl⟩ (.countEccs _ _)

theorem SameGraph.regionTurn (s : State) (r p : Nat) (l : Bool) : SameGraph s (s.regionTurn r p l) := ⟨rfl, rfl, rfl, rfl⟩
theorem SameGraph.regionHop (s : State) (a b : Nat) (l : Bool) : SameGraph s (s.regionHop a b l) := by
  unfold State.regionHop
  split
  · exact ⟨rfl, rfl, rfl, rfl⟩
  · exact SameGraph.trans (t := s.chipTurn a) ⟨rfl, rfl, rfl, rfl⟩ (.regionTurn _ _ _ _)
theorem SameGraph.crossTurn (s : State) (b q : Nat) (l : Bool) : SameGraph s (s.crossTurn b q l) := by
  unfold State.crossTurn
  split
  · exact ⟨rfl, rfl, rfl, rfl⟩
  · exact (SameGraph.regionTurn s _ _ l).trans (.regionHop _ _ _ _)

/-! ### A token appended -/

/-- The queues hold the tokens they held. -/
def KeepsToks (s t : State) : Prop := ∀ q, (t.queue q).toks = (s.queue q).toks

theorem KeepsToks.refl (s : State) : KeepsToks s s := fun _ => rfl
theorem KeepsToks.trans {s t u : State} (h : KeepsToks s t) (g : KeepsToks t u) : KeepsToks s u := fun q => (g q).trans (h q)
theorem KeepsToks.setQueue (s : State) (q : Nat) (x : QueueSt) (h : x.toks = (s.queue q).toks) : KeepsToks s (s.setQueue q x) := by
  intro j
  rw [State.queue_setQueue]
  split
  · rename_i hj
    rw [h, hj]
  · rfl
theorem KeepsToks.ite {s t u : State} {c : Prop} [Decidable c] (h : KeepsToks s t) (g : KeepsToks s u) :
    KeepsToks s (if c then t else u) := by split <;> assumption
/-- One more step, taken where a condition holds. -/
theorem KeepsToks.step {s t u : State} {c : Prop} [Decidable c] (h : KeepsToks s t) (g : KeepsToks t u) :
    KeepsToks s (if c then u else t) := .ite (h.trans g) h
theorem KeepsToks.foldl {α : Type} (f : State → α → State) (hf : ∀ s x, KeepsToks s (f s x)) (l : List α) (s : State) :
    KeepsToks s (l.foldl f s) := by
  induction l generalizing s with
  | nil => exact .refl s
  | cons x r ih => exact (hf s x).trans (ih _)

theorem KeepsToks.of_mad {s t : State} (h : t.mad.queues = s.mad.queues) : KeepsToks s t := fun q => by unfold State.queue; rw [h]
theorem KeepsToks.ramWrite (s : State) (a : Nat) (bs : List Byte) : KeepsToks s (s.ramWrite a bs) := .of_mad rfl
theorem KeepsToks.fillSlot (s : State) (d : QDesc) (i : Nat) (bs : List Byte) : KeepsToks s (s.fillSlot d i bs) := .ramWrite _ _ _
theorem KeepsToks.setOp (s : State) (k : Nat) (o : OpSt) : KeepsToks s (s.setOp k o) := .of_mad rfl
theorem KeepsToks.qfull (s : State) (q : Nat) : KeepsToks s (s.qfull q) := .of_mad rfl
theorem KeepsToks.sendFrame (s : State) (o : Output) : KeepsToks s (s.sendFrame o) := .ite (.refl s) (.of_mad rfl)

/-- A token that those who watch a queue see leaves the queues. -/
theorem KeepsToks.noteToken (s : State) (d : QDesc) (t : Token) : KeepsToks s (s.noteToken d t) := by
  unfold State.noteToken
  exact .step (.step (.step (.step (.refl s) (.of_mad rfl)) (.of_mad rfl)) (.sendFrame _ _)) (.of_mad rfl)

theorem State.trim_unread {s : State} {q : Nat} (h : s.consumer q = none) : s.trim q = s := by
  unfold State.trim
  rw [h]

/-- A queue that has room and no launch takes a token that is not poisoned (R130). -/
theorem State.push_appends {s : State} {q : Nat} {t : Token} {d : QDesc} (hd : s.qdesc q = some d)
    (hdown : s.blockDown (blockOfQueue q) = false) (hdone : (s.queue q).done = none) (hroom : (s.queue q).toks.length < d.depth)
    (hcons : s.consumer q = none) (hp : t.poison = false) : ((s.push q t).queue q).toks = (s.queue q).toks ++ [t] := by
  have hlate : (s.queue q).tooLate t = false := by
    unfold QueueSt.tooLate
    rw [hdone]
  have himg : ∀ x i bs v, (((s.setQueue q x).fillSlot d i bs).noteToken d v).image = s.image :=
    fun x i bs v => (KeepsPlan.noteToken ((s.setQueue q x).fillSlot d i bs) d v).image
  unfold State.push
  simp only [hd, hdown, hlate, Nat.not_le.2 hroom, hp, Bool.false_eq_true, Bool.false_and, Bool.or_false, if_false]
  rw [State.trim_unread]
  · rw [KeepsToks.noteToken _ _ _ q, KeepsToks.fillSlot _ _ _ _ q, State.queue_setQueue, if_pos rfl]
  · exact (State.consumer_congr (himg _ _ _ _) q).trans hcons

/-! ### The one output of an operation -/

theorem memWord_sameGraph {s t : State} (h : t.image = s.image) (g : t.axes = s.axes) (m : t.ram = s.ram) : t.memWord = s.memWord :=
  funext (State.memWord_congr h g m)

/-- A framed raw output of an operation that is not late takes the words at its frame (R129, R136). -/
theorem State.endPort_raw {s : State} {d : OpDesc} {ctx : RunCtx} {no at_ : Nat} {p : PortDesc} {q : QDesc} (hq : s.qdesc p.queue = some q)
    (hqop : p.qop = false) (hraw : p.raw = true) (hlate : ctx.late = false) (hundef : s.cellUndef d.cell = false)
    (hflip : ∀ j < q.words, yAddr d.cell ((at_ + j) % 16384) ∉ s.flip2) : s.endPort d ctx (no, p) at_
      = (((s.correct (yAddrs d.cell at_ q.words)).crossTurn (blockOfCell d.cell) p.queue d.loop).push p.queue
          ⟨ctx.cycle + BitVec.ofNat 32 q.lag, false, false, (yAddrs d.cell at_ q.words).map s.memWord⟩, at_ + q.words, false, false) := by
  have C := SameGraph.correct s (yAddrs d.cell at_ q.words)
  have hpoison : (yAddrs d.cell at_ q.words).any (fun a => s.flip2.contains a) = false := by
    rw [List.any_eq_false]
    intro a ha
    obtain ⟨j, hj, rfl⟩ := List.mem_map.1 ha
    simpa using hflip j (List.mem_range.1 hj)
  unfold State.endPort
  simp only [hqop, hraw, hlate, hq, Option.map_some, Option.getD_some, State.yWords, Bool.false_eq_true, if_false, if_true]
  unfold State.outOf State.pushOut
  simp only [C.cellUndef, hundef, Bool.false_eq_true, if_false, State.qdesc_congr C.image, hq, Option.map_some, Option.getD_some, hpoison]

/-! ### The end of the operation after its outputs -/

theorem KeepsToks.noteOp (s : State) (e : Nat × OpDesc) : KeepsToks s (s.noteOp e) := by
  unfold State.noteOp
  refine .ite ?_ (.step (.step (.refl s) (.setOp _ _ _)) ?_)
  · split
    · exact .refl s
    · exact .setOp _ _ _
  · exact ((KeepsToks.setOp _ _ _).trans (.setQueue _ _ _ (by rfl))).trans (.qfull _ _)

theorem KeepsToks.note (s : State) : KeepsToks s s.note :=
  (KeepsToks.foldl _ KeepsToks.noteOp s.numberedOps s).trans fun _ => rfl

/-- An operation without inputs retires none. -/
theorem KeepsToks.retireInputs (s : State) (k : Nat) {d : OpDesc} (c : Word) (h : d.inputs = []) : KeepsToks s (s.retireInputs k d c) := by
  unfold State.retireInputs
  rw [h]
  exact .step (.refl s) (.setOp _ _ _)

/-- A cell freed whose prefetch slot is empty starts no job. -/
theorem KeepsToks.freeCell {s : State} {n : Nat} (h : (s.cell n).slot = none) : KeepsToks s (s.freeCell n) := by
  unfold State.freeCell
  have hc : ((s.setCell n { s.cell n with run := none, loops := [], shadow := none }).cellTurn n).cell n
      = { s.cell n with run := none, loops := [], shadow := none } := State.cell_setCell_same _ _ _
  have hq : KeepsToks s ((s.setCell n { s.cell n with run := none, loops := [], shadow := none }).cellTurn n) := fun _ => rfl
  generalize (s.setCell n { s.cell n with run := none, loops := [], shadow := none }).cellTurn n = u at hc hq
  unfold State.takeSlot
  simp only [hc, h]
  exact hq

/-- The queue of the one output of an operation takes its token where the operation ends (R129). -/
theorem State.endCustom_token {s : State} {n k no : Nat} {d : OpDesc} {ctx : RunCtx} {p : PortDesc} {q : QDesc} (pc : Nat)
    (hslot : (s.cell n).slot = none) (hin : d.inputs = []) (hout : d.outputs = [(no, p)]) (hqop : p.qop = false) (hraw : p.raw = true)
    (hq : s.qdesc p.queue = some q) (hlate : ctx.late = false) (hdown : s.blockDown (blockOfQueue p.queue) = false)
    (hdone : (s.queue p.queue).done = none) (hroom : (s.queue p.queue).toks.length < q.depth) (hcons : s.consumer p.queue = none)
    (hundef : s.cellUndef d.cell = false) (hflip : ∀ j < q.words, yAddr d.cell ((d.outFrame + j) % 16384) ∉ s.flip2) :
    ((s.endCustom n k d ctx pc).queue p.queue).toks = (s.queue p.queue).toks
      ++ [⟨ctx.cycle + BitVec.ofNat 32 q.lag, false, false, (yAddrs d.cell d.outFrame q.words).map s.memWord⟩] := by
  have G : SameGraph s ((s.correct (yAddrs d.cell d.outFrame q.words)).crossTurn (blockOfCell d.cell) p.queue d.loop) :=
    (SameGraph.correct s _).trans (.crossTurn _ _ _ _)
  have hcells : ((s.correct (yAddrs d.cell d.outFrame q.words)).crossTurn (blockOfCell d.cell) p.queue d.loop).cells = s.cells :=
    ((KeepsPlan.correct s _).trans (.crossTurn _ _ _ _)).cells
  unfold State.endCustom
  simp only [hout, State.endPorts, State.endPort_raw hq hqop hraw hlate hundef hflip]
  generalize (s.correct (yAddrs d.cell d.outFrame q.words)).crossTurn (blockOfCell d.cell) p.queue d.loop = u at G hcells
  have hpush := State.push_appends (t := ⟨ctx.cycle + BitVec.ofNat 32 q.lag, false, false, (yAddrs d.cell d.outFrame q.words).map s.memWord⟩)
    ((State.qdesc_congr G.image _).trans hq) ((G.blockDown _).trans hdown) ((congrArg _ (G.queue _)).trans hdone)
    (by rw [G.queue]; exact hroom) ((State.consumer_congr G.image _).trans hcons) rfl
  rw [G.queue] at hpush
  have hcells' := (KeepsPlan.push u p.queue ⟨ctx.cycle + BitVec.ofNat 32 q.lag, false, false,
    (yAddrs d.cell d.outFrame q.words).map s.memWord⟩).cells.trans hcells
  generalize u.push p.queue _ = v at hpush hcells'
  have hnone : v.countLate ctx = v := if_neg (by rw [hlate]; exact Bool.false_ne_true)
  simp only [Bool.or_false, Bool.false_eq_true, if_false, ne_eq, not_true_eq_false, decide_false, Bool.false_and, hnone]
  rw [← hpush]
  refine ((KeepsToks.retireInputs v k ctx.cycle hin).trans ((KeepsToks.freeCell ?_).trans (.note _))) p.queue
  rw [State.cell_congr ((v.retireInputs_plan k d ctx.cycle).1.trans hcells'), hslot]

/-! ### O21 -/

/-- An END without accesses and trig work in flight changes nothing before its job ends but counts. -/
theorem endAct_plain {s : State} {i : FmtA} {r : RunCtx} (hr : s.issues i.cell = some r) (hx : i.xa.kind = 0#2) (hy : i.ya.kind = 0#2)
    (htrig : (s.cell i.cell).trig = []) : AtIssue s (endAct i (s.atIssue i.cell r)).s i.cell r := by
  have I := s.atIssue_did i.cell r (s.issues_lt i.cell r hr)
  unfold endAct
  rw [State.drainTrig_idle (by rw [I.cell]; exact htrig)]
  dsimp only
  rw [access_none hx, access_none hy]
  exact I.apply_nothing

/-- An END of an operation of its own kernel with one framed raw output that has room. -/
theorem end_token {s : State} {i : FmtA} {r : RunCtx} {k no : Nat} {d : OpDesc} {p : PortDesc} {q : QDesc} (hr : s.issues i.cell = some r)
    (hx : i.xa.kind = 0#2) (hy : i.ya.kind = 0#2) (htrig : (s.cell i.cell).trig = []) (hslot : (s.cell i.cell).slot = none)
    (hj : r.job = .op k) (hd : s.opDesc k = some d) (hk : d.kernel = .custom) (hin : d.inputs = []) (hout : d.outputs = [(no, p)])
    (hqop : p.qop = false) (hraw : p.raw = true) (hq : s.qdesc p.queue = some q) (hlate : r.late = false)
    (hdown : s.blockDown (blockOfQueue p.queue) = false) (hdone : (s.queue p.queue).done = none)
    (hroom : (s.queue p.queue).toks.length < q.depth) (hcons : s.consumer p.queue = none) (hundef : s.cellUndef d.cell = false)
    (hflip : ∀ j < q.words, yAddr d.cell ((d.outFrame + j) % 16384) ∉ s.flip2) :
    (((endAct i (s.atIssue i.cell r)).s.endJob i.cell (s.cell i.cell).pc.toNat).queue p.queue).toks = (s.queue p.queue).toks
      ++ [⟨r.cycle + BitVec.ofNat 32 q.lag, false, false, (yAddrs d.cell d.outFrame q.words).map s.memWord⟩] := by
  have A := endAct_plain hr hx hy htrig
  generalize (endAct i (s.atIssue i.cell r)).s = e at A
  have G := A.sameGraph
  have hrun : (e.cell i.cell).run = some { r with issued := r.issued + 1 } := by rw [A.cell]
  have hmem : e.memWord = s.memWord := memWord_sameGraph G.image (by rw [A.rest]) (by rw [A.rest])
  have hend : e.endJob i.cell (s.cell i.cell).pc.toNat
      = e.endCustom i.cell k d { r with issued := r.issued + 1 } (s.cell i.cell).pc.toNat := by
    unfold State.endJob
    simp only [hrun, hj, State.opDesc_congr G.image, hd, hk]
  have htok := State.endCustom_token (s := e) (n := i.cell) (k := k) (ctx := { r with issued := r.issued + 1 }) (s.cell i.cell).pc.toNat
    (by rw [A.cell]; exact hslot) hin hout hqop hraw ((State.qdesc_congr G.image _).trans hq) hlate
    ((G.blockDown _).trans hdown) (by rw [G.queue]; exact hdone) (by rw [G.queue]; exact hroom)
    ((State.consumer_congr G.image _).trans hcons) ((G.cellUndef _).trans hundef) (by rw [A.rest]; exact hflip)
  rw [hend, htok, G.queue, hmem]

/-- Settles O21: an END of any job, and the output token of an operation of its own kernel. -/
theorem endCompletes : Obligations.EndCompletes := by
  unfold Obligations.EndCompletes
  refine ⟨fun i s r h hx hy hrun => end_ends h hx hy hrun, fun i s r k d h hx hy hrun htrig hslot hj hd hk hcyc => ?_⟩
  have none_clean : ∀ b a, a.kind = 0#2 → s.clean (access s i.cell (s.cell i.cell) b a) := fun b a ha => by
    rw [access_none ha]
    exact ⟨rfl, fun _ hm => nomatch hm⟩
  have hex := exec_end h hrun (none_clean .x i.xa hx) (none_clean .y i.ya hy)
  obtain ⟨t, ht, -, -, -, hidle, -, -, hnext⟩ := end_ends h (none_clean .x i.xa hx) (none_clean .y i.ya hy) hrun
  refine ⟨t, ht, hidle hslot, hnext k d hj hd hcyc, fun p q no hin hout hqop hraw hq hlate hdown hdone hroom hcons hundef hflip => ?_⟩
  cases hex.symm.trans ht
  have htok := end_token (State.ready_run h hrun) hx hy htrig hslot hj hd hk hin hout hqop hraw hq hlate hdown hdone hroom hcons hundef hflip
  unfold yAddrs at htok
  rw [List.map_map] at htok
  exact htok

end Sys2Proof.Machine
end
